-- ==== Sys2Proof/Word.lean ====
section
/-!
DEFINITION. The word types of the block, the numbered parts of the module (R12), and the one shape every
keyed store of the model has: a list of key and value pairs in rising key order.
-/

namespace Sys2Proof

/-- A byte of memory, of a frame or of a message. -/
abbrev Byte := BitVec 8

/-- A register word, 32 bits (R5). -/
abbrev Word := BitVec 32

/-- Sparse data by key: pairs in rising order of key, at most one for a key. What an absent key reads as is
named where the table is read. -/
abbrev Tbl (α : Type) := List (Nat × α)

/-- Quadrant Q0 to Q3 (Table 1-1). -/
abbrev Quad := Fin 4
/-- Network port NP0 to NP127. -/
abbrev PortId := Fin 128
/-- Lane L0 to L511. -/
abbrev LaneId := Fin 512
/-- Host slot 0 to 15: slot = 2 × HP + half (Table 0-5). -/
abbrev Slot := Fin 16
/-- Host port HP0 to HP7. -/
abbrev HostPort := Fin 8

/-- The quadrant that owns a port (R12). -/
def quadOfPort (p : Nat) : Nat := p / 32
/-- The quadrant that owns a lane (R12). -/
def quadOfLane (l : Nat) : Nat := l / 128
/-- The quadrant that owns a host slot (R12). -/
def quadOfSlot (s : Nat) : Nat := s / 4
/-- The port a lane belongs to: a port's lanes are four in a row (R12). -/
def portOfLane (l : Nat) : Nat := l / 4

end Sys2Proof
end

