-- ==== Sys2Proof/Syntax.lean ====
section
/-!
DEFINITION. The commands of the block: one constructor of `Instr` for each row of spec/opcode_table.json, with the
row's operands, and the types of those operands (who asks, frames, packets, work entries, what a sensor or the
boot code finds). Each constructor's docstring names the rule of spec/ that governs its row.
-/

namespace Sys2Proof

/-! ### Who asks, and how (R415) -/

/-- The roles of Table 17-2, byte 1: 0 none, 1 USER, 2 OPERATOR, 3 INSTALLER, 4 MAKER. -/
inductive Role where
  | none | user | operator | installer | maker
  deriving DecidableEq, Repr

/-- The path of a register access or of a register action (Table 18-1). `pf0 s` is BAR0 of PF0 of slot s;
`session k v` is a management request under VIEW_SLOT v, inside session k (`none`: outside a session);
`jtag` is the TAP. A VF has no BAR0 (Table 6-2), so none of these is a VF. -/
inductive Requester where
  | pf0 (slot : Slot)
  | session (k : Option (Fin 16)) (view : Slot)
  | jtag
  deriving DecidableEq, Repr

/-- The transport of a management message (TRANSPORT of Table 18-8): MCTP over I3C, MCTP over SMBus, or the
DOE mailbox of a slot's PF0. -/
inductive Transport where
  | i3c | smbus | doe (slot : Slot)
  deriving DecidableEq, Repr

/-- A management message: the transport it came by and the session it is inside, if any (R410, R412). -/
structure Path where
  via  : Transport
  sess : Option (Fin 16) := .none
  deriving DecidableEq, Repr

/-- What a mode request meets in its cycle (Table 15-5): nothing; a fault reaction; TRANSITION at 1; an entry
to DORMANT in progress. -/
inductive ModeMeet where
  | alone | reaction | inTransition | inDormantEntry
  deriving DecidableEq, Repr

/-! ### Engines (Table 1-4) -/

/-- The engine classes, coded 1 to 5 in Table 1-7. -/
inductive EngClass where
  | txe | rxe | mte | cle | lku
  deriving DecidableEq, Repr

/-- Engines of a class in one quadrant (Table 1-4). -/
def EngClass.perQuad : EngClass → Nat
  | .txe => 16 | .rxe => 16 | .mte => 4 | .cle => 2 | .lku => 1

/-- The CLASS code of Table 1-7. -/
def EngClass.code : EngClass → Nat
  | .txe => 1 | .rxe => 2 | .mte => 3 | .cle => 4 | .lku => 5

/-- One engine: its class, its quadrant and its number there. -/
structure Engine where
  cls : EngClass
  q   : Quad
  n   : Fin 16
  deriving DecidableEq, Repr

/-- What a data-path command waits on: the classes of a waiting slot (R441). -/
inductive CmdClass where
  | host | hbm | walk | credit | context | other
  deriving DecidableEq, Repr

/-- The word of one step, at the level software sees (R20): the data-path command it starts, if any, the flag it tests (flag 0 is
DONE, the completion of a command), and its two successors. `parity` says that the word was read with a parity error. `raised` is
the flag vector as the data path leaves it at the end of the step's cycle. -/
structure StepWord where
  command  : Option CmdClass
  flag     : Fin 32
  onSet    : Fin 8192
  onClear  : Fin 8192
  parity   : Bool
  raised   : BitVec 32
  deriving DecidableEq, Repr

/-! ### Faults -/

/-- The unit of a detection (Table 16-7, UNIT). -/
inductive FUnit where
  | none
  | port (p : Nat)
  | slot (s : Nat)
  | ring (slot n : Nat)
  | engine (e : Engine)
  | feed (n : Nat)
  | rail (n : Nat)
  deriving DecidableEq, Repr

/-- A detection on its way to the fault collector: the source, its unit, its DETAIL, the HGT of the detecting
quadrant, the CORECLK cycle it arose in, the part of the
module that made it (ORIGIN of Table 17-2), and whether it was injected (R384). -/
structure Detection where
  fs     : Nat
  unit   : FUnit
  detail : Nat
  hgt    : Nat
  atc     : Nat
  origin : Nat := 4
  forced : Bool := false
  deriving DecidableEq, Repr

/-- What a write of sticky bits names: the bit of the indexed source at 0x0008, or a banked register (R387). -/
inductive StickyTarget where
  | indexed
  | bank (k : Fin 4) (bits : Word)
  deriving DecidableEq, Repr

/-! ### What the boot code finds (R368, R320) -/

/-- An image slot as the boot code finds it. -/
structure ImageIn where
  sigOk   : Bool
  svn     : Nat
  version : Nat
  deriving DecidableEq, Repr, Inhabited

/-- One class's step table as the boot finds it: whether the stored variant and variant 0 verify,
the identity of the variant that is loaded, and the variants present in the image slot (AVAIL). -/
structure TableIn where
  storedOk : Bool
  zeroOk   : Bool
  version  : Nat
  steps    : Nat
  avail    : Nat
  deriving DecidableEq, Repr, Inhabited

/-- Everything outside the block that a boot depends on: the two images, the anti-rollback fuses, the five
tables, the Lacewing set, the dwell detector of R381, the state of the newest ledger slot and record, and the I3C_SA straps
(R459). -/
structure BootIn where
  imageA     : ImageIn
  imageB     : ImageIn
  fuse       : Nat
  tables     : List TableIn
  lacewingOk : Bool
  lacewingVersion : Nat
  dwellMet   : Bool
  tornLedger : Bool
  tornRecord : Option (Option Nat)
  chainOk    : Bool
  selfCheckBad : Option (Fin 128)
  straps     : Fin 8 := 0
  deriving DecidableEq, Repr, Inhabited

/-! ### Time frames (R36; layout Table 4-5) -/

/-- The election view a TIME_REQ or TIME_RSP carries (R39). -/
structure TimeView where
  rootPrio   : Nat
  rootSerial : Nat
  hops       : Nat
  rootSeq    : Nat
  state      : Nat
  deriving DecidableEq, Repr

/-- A TIME_REQ or TIME_RSP frame: the sender's serial number and port, its view, the exchange number that pairs
a response with its request, and the stamps it carries. A request carries t1; a response carries t1 back, with
t2 and t3. -/
structure TimeFrame where
  serial : Nat
  port   : Nat
  view   : TimeView
  exch   : Nat
  t1     : Nat
  t2     : Nat
  t3     : Nat
  deriving DecidableEq, Repr

/-! ### Management messages -/

/-- What NEGOTIATE_ALGORITHMS offers, algorithm by algorithm of R410. -/
structure AlgOffer where
  sha384 : Bool
  ecdsaP384 : Bool
  ecdheP384 : Bool
  aes256Gcm : Bool
  deriving DecidableEq, Repr

/-- A KEY_EXCHANGE: whether it asks for mutual authentication, whether that authentication fails, and the
SHA-384 of the requester's leaf public key (R417). -/
structure KeyExchange where
  mutualAuth  : Bool
  mutualOk : Bool
  keyHash  : List Byte
  deriving DecidableEq, Repr

/-- What ends a grant by command: a register write by a function, or a management message naming a slot. -/
inductive RoleDropBy where
  | register (r : Requester)
  | message (p : Path) (slot : Nat)
  deriving DecidableEq, Repr

/-- A TAP instruction (R424). -/
inductive JtagIr where
  | idcode | bypass | other (code : Nat)
  deriving DecidableEq, Repr

/-- The commands a vendor-defined message may carry (Tables 17-8 and 18-5). -/
inductive VendorCommand where
  | ledgerRead (first count : Nat)
  | evrRead (maxBytes fromSeq : Nat)
  | regRead (view count off : Nat)
  | regWrite (view off : Nat) (v : Word)
  | wake
  | roleGrant (slot minutes : Nat)
  | roleDrop (slot : Nat)
  | keyEnrol (slot : Nat) (hash : List Byte)
  | keyRemove (slot : Nat)
  | claim
  | release
  | jtagUnlock (unlock : Bool)
  | timeQuery
  | unknown (code : Nat)
  deriving DecidableEq, Repr

/-! ### Lanes (file 03) -/

/-- One codeword as its 2,720 PAM4 symbols cross the pair (R56, R60): the values 0 to 3 that the slicer decides. -/
structure Codeword where
  symbols : List Nat
  deriving DecidableEq, Repr

/-- A 257-bit block (R54): its header bit, set where its 32 bytes are frame bytes. -/
structure Block where
  data  : Bool
  bytes : List Byte
  deriving DecidableEq, Repr

/-- How a frame's blocks reach the receiver: the CRC word that stands at its end (R84); whether one of its bytes stands in a
block of a lane's last codeword (R59); whether a non-frame block stood before its first block, and how many non-frame blocks
stood between its own (R81). -/
structure Rx where
  crc    : Nat
  inLast : Bool := false
  before : Bool := true
  within : Nat := 0
  deriving DecidableEq, Repr

/-- A received TIME_REQ or TIME_RSP and how its blocks arrived (R86). -/
structure TimeIn where
  frame : TimeFrame
  rx    : Rx
  deriving DecidableEq, Repr

/-- A lane whose lock was not regained in time, or whose signal is lost (R58). -/
structure LaneLoss where
  lane   : LaneId
  signal : Bool
  deriving DecidableEq, Repr

/-- An ALIGN block (Table 3-4), whether it arrived with the pair inverted (R62), and by how many ps it came after the first
lane's block of the same index (R74). -/
structure AlignBlock where
  lane     : Fin 4
  fecEn    : Bool
  precode  : Bool
  ready    : Bool
  rate     : Nat
  index    : Nat
  inverted : Bool
  skew     : Nat := 0
  deriving DecidableEq, Repr

/-- What the auxiliary slicer counted around one eye (R77): on how many symbols of each point's dwell it disagreed with the main
slicer, for the 17 × 17 points, the 17 phases of the lowest voltage first. -/
structure EyeScan where
  disagree : List Nat
  deriving DecidableEq, Repr

/-- What the lanes of a port find when they are woken for full training: which physical lanes lock at
53.125 GBd, the skew of each in ps, and which lock at RATE codes 0 and 1 (R74, R104). -/
structure LanesIn where
  locked : BitVec 4
  skew   : List Nat
  lock0  : BitVec 4 := 15
  lock1  : BitVec 4 := 15
  deriving DecidableEq, Repr

/-! ### RSP packets (Table 5-2, Table 5-3) -/

/-- The RSP header, byte 0 to 23. `rsv` holds what stands in the fields that the table calls zero, as the number that bytes 0
to 23 would spell with every other field 0. -/
structure RspHdr where
  version   : Nat
  tc        : Nat
  esc       : Bool
  minOnly   : Bool
  detour    : Bool
  detourDim : Nat
  derouted  : Nat
  hops      : Nat
  dst       : Nat
  src       : Nat
  injTs     : Nat
  payLen    : Nat
  kind      : Nat
  flow      : Nat
  rsv       : Nat := 0
  deriving DecidableEq, Repr

/-! ### Transport areas (Tables 8-3, 8-5, 9-1, 10-5; R287) -/

/-- The operation area of an RSX packet (Tables 8-5 and 9-1). -/
inductive RsxOp where
  | window (win offset : Nat)
  | readRsp (reqMsn : Nat)
  | ack (psn owd faultCnt : Nat)
  | nak (psn reason : Nat)
  | epochNak (psn : Nat)
  | result (forMsn status detail faultSeq : Nat)
  | match_ (domain matchBits ageExp ageMant sendLen : Nat)
  | pullReq (rtsMsn pullLen : Nat) (abort : Bool)
  | pullRsp (reqMsn : Nat)
  deriving DecidableEq, Repr

/-- The RSX header (Table 8-3). `rsv` holds what stands in the fields that the table calls zero, as the number that bytes 24 to
63 would spell with every other field 0. -/
structure RsxHdr where
  opn      : Bool
  ackReq   : Bool
  retx     : Bool
  poison   : Bool
  epoch    : Nat
  psn      : Nat
  msn      : Nat
  totalLen : Nat
  offset   : Nat
  pktCount : Nat
  openTs   : Nat
  op       : RsxOp
  rsv      : Nat := 0
  deriving DecidableEq, Repr

/-- The transport area of a collective packet (Table 10-5), with `rsv` as in the RSX header. -/
structure CollHdr where
  group    : Nat
  gen      : Nat
  op       : Nat
  promoted : Bool
  last     : Bool
  x        : Bool
  esn      : Nat
  opSeq    : Nat
  dtype    : Nat
  redop    : Nat
  count    : Nat
  chunk    : Nat
  srcRank  : Nat
  fpFlags  : Nat
  reason   : Nat
  echo     : Bool
  root     : Nat
  rsv      : Nat := 0
  deriving DecidableEq, Repr

/-- The transport area of a lock or atomic packet (R287). `code` is byte 24 (CODE, AOP or STATUS), `b25` is byte 25
(ORPHANED, SIZE or DETAIL); `queued` is WINDOW in AT_REQ, `op1` the fetched value in AT_RSP. -/
structure LkuHdr where
  code   : Nat
  b25    : Nat
  lockId : Nat
  tag    : Nat
  gen    : Nat
  queued : Nat
  offset : Nat
  op1    : Nat
  op2    : Nat
  deriving DecidableEq, Repr

/-- The transport area, by the class of PKT_KIND (Table 5-3). -/
inductive Body where
  | rsx (h : RsxHdr)
  | coll (h : CollHdr)
  | lku (h : LkuHdr)
  deriving DecidableEq, Repr

/-- An RSP packet: header, transport area, payload. -/
structure Packet where
  hdr     : RspHdr
  body    : Body
  payload : List Byte
  deriving DecidableEq, Repr

/-! ### RSL frames (file 04) -/

/-- What the receiver's check of a frame finds: a good CRC, a stomp CRC (R85), a bad CRC or a byte in an errored
block (R59), a framing error (R83), or blocks that RESYNC discards (R91). -/
inductive FrameCheck where
  | good | stomp | bad | framing | discarded
  deriving DecidableEq, Repr

/-- A DATA frame (Table 4-2). `rsv` holds its reserved bits: bits 7 to 5 of byte 1, then bytes 6 and 7. -/
structure DataFrame where
  vc     : Nat
  shared : Bool
  replay : Bool
  fsn    : Nat
  pktLen : Nat
  pkt    : Packet
  rsv    : Nat := 0
  deriving DecidableEq, Repr

/-- A CREDIT frame (Table 4-3). `cells` are the returns to the private pools of VC 0 to VC 7. -/
structure CreditFrame where
  ackFsn   : Nat
  ackValid : Bool
  shared   : Nat
  cells    : List Nat
  deriving DecidableEq, Repr

/-- A NAK frame (Table 4-4). -/
structure NakFrame where
  fsn    : Nat
  reason : Nat
  deriving DecidableEq, Repr

/-- An AUDIT frame (Table 4-5): cumulative returns of the shared pool and of VC 0 to VC 7. -/
structure AuditFrame where
  seq        : Nat
  shared     : Nat
  cells      : List Nat
  rxMismatch : Bool
  deriving DecidableEq, Repr

/-- PHASE of a TRAIN frame (Table 4-7). -/
inductive TrainPhase where
  | req | ack | done | eq
  deriving DecidableEq, Repr

/-- ACTION of a TRAIN frame (Table 4-7). -/
inductive TrainAction where
  | full | retrain | width
  deriving DecidableEq, Repr

/-- A TRAIN frame (Table 4-7). -/
structure TrainFrame where
  phase      : TrainPhase
  action     : TrainAction
  serial     : Nat
  port       : Nat
  goodLanes  : Nat
  proposed   : Nat
  rates      : Nat
  chosenRate : Nat
  reason     : Nat
  ackFsn     : Nat
  ackValid   : Bool
  credits    : List Nat
  shared     : Nat
  eqTaps     : List (Nat × Nat)
  poolSize   : List Nat
  poolShared : Nat
  deriving DecidableEq, Repr

/-- A BEACON frame (Table 5-4). `levels` lists LEVEL[d][x] under d × 64 + x; an unlisted one is 0xFF. -/
structure Beacon where
  seq    : Nat
  dims   : Nat
  da     : Nat
  port   : Nat
  stamp  : Nat
  levels : Tbl Nat
  deriving DecidableEq, Repr

/-- Any frame, as it leaves the module on a port. -/
inductive Frame where
  | data (f : DataFrame) (stomped : Bool)
  | credit (f : CreditFrame)
  | nak (f : NakFrame)
  | audit (f : AuditFrame)
  | timeReq (f : TimeFrame)
  | timeRsp (f : TimeFrame)
  | train (f : TrainFrame)
  | beacon (b : Beacon)
  deriving DecidableEq, Repr

/-- Where a header that is to be routed comes from: a network port, or the engines of a quadrant. -/
inductive Ingress where
  | port (p : PortId)
  | engines (q : Quad)
  deriving DecidableEq, Repr

/-! ### Work entries (file 06) -/

/-- The body of a work entry, by opcode (Tables 6-7 to 6-11). -/
inductive EntryBody where
  | none
  | rma (dst window remoteOff localAddr length flagOff flagVal : Nat)
  | atomic (dst window remoteOff resultAddr operand1 operand2 : Nat)
  | send (dst domain matchBits localAddr length : Nat)
  | recv (src domain matchBits ignore localAddr length : Nat)
  | cancel (workId ring : Nat)
  | coll (op dtype redop : Nat) (promote : Bool) (root srcAddr dstAddr count : Nat)
  | lock (dst lockId timeout : Nat)
  deriving DecidableEq, Repr

/-- A work entry: its header (Table 6-4), bytes 12 to 15, its body, and its inline granules. `clean` says that
every reserved field is zero. -/
structure Entry where
  opcode : Nat
  flags  : Nat
  len    : Nat
  own    : Bool
  workId : Nat
  cr     : Nat
  flow   : Nat
  arg    : Nat
  body   : EntryBody
  inline : List Byte
  clean  : Bool
  deriving DecidableEq, Repr

/-- How a host read failed (R466). -/
inductive ReadFailure where
  | timeout | poisoned | unsupported | abort
  deriving DecidableEq, Repr

/-- What reset a host port (Table 6-15). -/
inductive PortResetKind where
  | perst | hot | linkDown
  deriving DecidableEq, Repr

/-- One half of a host port as its link trained: generation 5, 6 or 7 and lanes; 0 where it is down. -/
structure HalfLink where
  speed : Nat
  width : Nat
  deriving DecidableEq, Repr

/-! ### Maintenance, power, firmware (files 13, 14, 15) -/

/-- What the check of a patrolled word says. `step` is a parity error in a step-store bank: its class and whether the
bank is ACTIVE (R323). -/
inductive PatrolResult where
  | clean | corrected | uncorrectable
  | step (c : EngClass) (active : Bool)
  deriving DecidableEq, Repr

/-- What a patrol read finds (R324, R325): the word's address within the quadrant's memory and what its check says. -/
structure PatrolFound where
  addr   : Nat
  result : PatrolResult
  deriving DecidableEq, Repr

/-- A variant as the MGC loads it into STANDBY (R321): whether its signature and every digest check pass, and its
identity. -/
structure VariantIn where
  ok      : Bool
  version : Nat
  steps   : Nat
  deriving DecidableEq, Repr

/-- What Cicada's sensors read at a sample (R327, R351): junction temperatures in 1/8 degree by sensor (TEMP_IDX order), each
feed's voltage in mV and current in mA, VBUS in mV, and each rail's voltage in mV and current in units of 10 mA. -/
structure CicadaIn where
  temps : List Int
  vin   : List Nat
  iin   : List Nat
  vbus  : Nat
  railV : List Nat
  railI : List Nat
  deriving DecidableEq, Repr

/-- A feed: A or B. -/
inductive Feed where
  | a | b
  deriving DecidableEq, Repr

/-- A PLDM firmware update: the slot written (0 A, 1 B), whether the transfer was accepted whole, whether it is
activated. -/
structure PldmUpdate where
  slot      : Fin 2
  complete  : Bool
  activate  : Bool
  deriving DecidableEq, Repr

/-! ### The commands -/

/-- The commands the block takes, one constructor a row of spec/opcode_table.json. -/
inductive Instr where
  /-- R10. A write to a register that has no row of its own takes effect at the next clock edge of its block, subject to rights and mode decode. -/
  | registerWrite (r : Requester) (off : Nat) (whole : Bool) (v : Word)
  /-- R15. A die-to-die link that fails beyond replay raises FS56, and the traffic of that pair detours through the lower-numbered third quadrant. -/
  | dieLinkDown (a b : Quad)
  /-- R20. A Yarrow issues one step per CORECLK cycle: it tests the flag vector from the previous cycle and branches. -/
  | yarrowStep (e : Engine) (w : StepWord)
  /-- R468. An engine's clock gate closes in the cycle after its last slot with work. -/
  | engineGateClose (e : Engine)
  /-- R24. A request to a gated or closing engine starts its clock within the wake latency, and cancels a closing gate. -/
  | engineWake (e : Engine)
  /-- R25. A quadrant parks its PLL once all of its ports are idle, its host ports are in L1, its engines are gated and its die links are quiet. -/
  | quadrantPark (q : Quad)
  /-- R25. A lane exit, die-link or host request starts a parked quadrant's PLL, warm or cold. -/
  | quadrantWake (q : Quad)
  /-- R36. Every 16 µs each end of a trained link sends a stamped TIME_REQ. -/
  | timeExchangeStart (p : PortId)
  /-- R36. A received TIME_REQ is stamped t2, and the responder sends TIME_RSP carrying t2 and t3. -/
  | timeReq (p : PortId) (f : TimeIn)
  /-- R37. A matching TIME_RSP yields delay and offset; an accepted offset from the parent drives the rate loop. -/
  | timeRsp (p : PortId) (f : TimeIn)
  /-- R39. At each exchange period the module selects the best root candidate and parent port, or becomes ROOT or HOLDOVER. -/
  | parentSelection
  /-- R39. The root adds 1 to ROOT_SEQ every 16 µs. -/
  | rootSeqIncrement
  /-- R40. A root whose ROOT_SEQ has not changed for TIM_LOSS_TIMEOUT is marked lost and ignored for twice the timeout. -/
  | rootLost (prio serial : Nat)
  /-- R38. A parent port with no accepted exchange for TIM_LOSS_TIMEOUT is treated as lost. -/
  | parentLossTimeout
  /-- R42. The holdover error estimate passes TIM_HOLD_LIMIT, raising FS105 and recording event 0x5012. -/
  | holdoverLimitPassed
  /-- R44. A PPS_IN rising edge disciplines a root with PPS_IN_EN set, or is stamped into TIM_PPS_IN for comparison. -/
  | ppsInEdge
  /-- R44. Two missing or misaligned PPS_IN edges raise FS108, and the root continues in holdover. -/
  | ppsInMissing
  /-- R45. PPS_OUT rises at each whole HGT second for WIDTH ms, subject to the time state. -/
  | ppsOutPulse
  /-- R47. A PCIe PTM Request is answered with ResponseD carrying the Master Time and the Propagation Delay. -/
  | ptmRequest (slot : Slot) (roundTrip : Nat)
  /-- R47. The MCTP TIME_QUERY is answered with the state, the UTC offset, the AON HGT and the epoch. -/
  | timeQuery (p : Path)
  /-- R35. In CONFIG, TRAIN or DRAIN, loads SET into every HGT counter and records event 0x5020; in other modes it is ignored. -/
  | step (r : Requester)
  /-- R58. A lane receives one codeword, decodes or checks its fill, and maintains codeword lock. -/
  | codewordReceive (l : LaneId) (c : Codeword)
  /-- R58. Lock not regained within 1 µs, or loss of signal, loses an active lane with FS16. -/
  | laneLost (l : LaneLoss)
  /-- R68. A frequency offset beyond ±300 ppm, or loss of signal, clears CDR_LOCK and loses the lane. -/
  | cdrLockLoss (l : LaneId)
  /-- R62. A received ALIGN block updates polarity and order detection and the far end's FEC and precoding settings. -/
  | alignBlock (l : LaneId) (b : AlignBlock)
  /-- R69. After EI_DELAY of quiet, with nothing pending, an end sends IDLE_NOTICE on every active lane. -/
  | idleNoticeSend (p : PortId)
  /-- R69. An end that has both sent and received IDLE_NOTICE turns its drivers off after the codeword in progress. -/
  | idleNoticeReceive (p : PortId)
  /-- R70. A frame, credit return, due exchange or scan makes an end leave electrical idle with a wake burst. -/
  | eiExitRequest (p : PortId)
  /-- R70. An exit burst from the far end wakes this end, or serves as the answer to its own burst. -/
  | wakeBurstReceive (p : PortId) (skew : List Nat)
  /-- R72. With no answer within 25 µs the burst is repeated once; after a second failure a wake failure is declared. -/
  | wakeAnswerTimeout (p : PortId)
  /-- R79. At the end of each second, a lane's uncorrectable codewords above FEC_LIMIT raise FS18. -/
  | fecIntervalEnd (l : LaneId)
  /-- R78. Starts a margin scan of the indexed lane. -/
  | scanStart (r : Requester)
  /-- R78. Under SCAN_PERIOD, the next lane in turn is scanned. -/
  | scanPeriodDue (q : Quad)
  /-- R77. A finished scan reports the width and height of each eye. -/
  | scanComplete (l : LaneId) (upper middle lower : EyeScan)
  /-- R76. Clears the indexed lane's counters. -/
  | laneCntClr (r : Requester)
  /-- R90. A received data frame is accepted, dropped as a duplicate, or dropped as a gap with a NAK, according to its FSN and the pool credits. -/
  | dataFrame (p : PortId) (f : DataFrame) (rx : Rx)
  /-- R100. A received CREDIT frame returns cells to their pools and delivers a cumulative ACK_FSN. -/
  | creditFrame (p : PortId) (f : CreditFrame) (rx : Rx)
  /-- R94. A received NAK acknowledges every FSN below it and sets a pending replay. -/
  | nakFrame (p : PortId) (f : NakFrame) (rx : Rx)
  /-- R101. A received AUDIT frame is compared with the cumulative returns to find leaked cells or a mismatch. -/
  | auditFrame (p : PortId) (f : AuditFrame) (rx : Rx)
  /-- R82. A control frame of unlisted TYPE with a good CRC is discarded and counted in CTRL_DROP. -/
  | unknownControlFrame (p : PortId) (bytes : List Byte) (rx : Rx)
  /-- R105. A received TRAIN frame advances a full training, retrain or width change: REQ, ACK, DONE or EQ. -/
  | trainFrame (p : PortId) (f : TrainFrame) (rx : Rx)
  /-- R93. The receiver sends a CREDIT frame when a batch fills or ACK_DELAY passes. -/
  | creditSend (p : PortId)
  /-- R92. A NAK outstanding for NAK_RESEND is sent again with reason 4. -/
  | nakResendExpiry (p : PortId)
  /-- R95. On expiry of the replay timer, replay starts from una. -/
  | replayTimeout (p : PortId)
  /-- R94. At each frame boundary the sender applies pending ACKs and NAKs and sends a control frame, a replayed copy or a new frame. -/
  | frameBoundary (p : PortId)
  /-- R101. Every 1 ms each trained port's receiver sends an AUDIT frame. -/
  | auditTick (p : PortId)
  /-- R102. A scheduled retrain starts at a 2 µs idle gap, at exit from idle, or after 10 ms. -/
  | scheduledRetrainStart (p : PortId)
  /-- R105. Starts a retrain of the indexed port with reason 0. -/
  | retrain (r : Requester)
  /-- R105. A responder with no DONE within 10 µs of its ACK starts its own retrain with reason 7. -/
  | doneTimeout (p : PortId)
  /-- R109. A REQ with no ACK within 10 µs is resent; after three sendings the link goes down. -/
  | trainReqResend (p : PortId)
  /-- R104. Full training wakes the lanes, negotiates rate, equalisation and width, and resets FSNs and credits. -/
  | fullTraining (p : PortId) (lanes : LanesIn)
  /-- R111. A port that is down retries full training every TRAIN_RETRY while PORT_EN is 1. -/
  | trainRetryExpiry (p : PortId) (lanes : LanesIn)
  /-- R108. Changes the port's width to TARGET_LANES. -/
  | widthChange (r : Requester)
  /-- R108. Once per second a port below WIDTH_MAX tries its excluded lanes with a width change. -/
  | autoWidthTrial (p : PortId)
  /-- R108. A lane that fails to lock within 1 µs of the ALIGN is left out, and the change completes with the lanes that did lock. -/
  | laneAddTimeout (p : PortId) (locked : BitVec 4)
  /-- R112. When the replay buffer has emptied, event 0x3141 is recorded with REINJECTED. -/
  | reinjectionComplete (p : PortId)
  /-- R101. Runs a credit audit of the indexed port at once, deferred under R103. -/
  | auditNow (r : Requester)
  /-- R111. Clearing PORT_EN takes the link down with failover; setting it starts full training. -/
  | portEn (r : Requester) (on : Bool)
  /-- R115. A write below the current width starts a width change at once. -/
  | widthMax (r : Requester) (v : Fin 8)
  /-- R115. Clears the indexed port's counters. -/
  | linkCntClr (r : Requester)
  /-- R118. Runs the configuration check of the geometry and the port map, setting CFG_OK or CFG_ERR and FS49. -/
  | cfgCheck (r : Requester)
  /-- R129. An arriving or injected header is checked and aged, and an output is chosen among minimal, non-minimal and escape candidates. -/
  | routeSelect (from_ : Ingress)
  /-- R131. An adaptive packet not granted within ESC_WAIT also becomes eligible on its escape hop. -/
  | escWaitExpiry (p : PortId) (id : Nat)
  /-- R143. A packet with no unaligned dimension is delivered, after its CRC passes, to the serving engine of its slot's quadrant. -/
  | localDelivery (q : Quad) (tc : Fin 4)
  /-- R133. Every FF_PERIOD each trained, awake port sends a Firefly BEACON of its entry levels. -/
  | beaconSend (p : PortId)
  /-- R134. A received beacon is stored for route costs and its sender's DA is checked. -/
  | beaconReceive (p : PortId) (b : Beacon) (rx : Rx)
  /-- R135. A usable awake port without a beacon for FF_STALE periods sets STALE and raises FS53. -/
  | beaconStale (p : PortId)
  /-- R144. When a port stops being usable, its selected packets are reselected and its escape hops move to another member or the partner route. -/
  | portUnusable (p : PortId)
  /-- R147. Clearing ROUTE_EN drains the port as R144 sets out, without taking the link down. -/
  | routeEn (r : Requester) (on : Bool)
  /-- R147. Clears the RTE counters. -/
  | routeCntClr (r : Requester)
  /-- R157. Counts a doorbell and wakes the work ring's TXE to scan. -/
  | wrDoorbell (slot : Slot) (fn : Fin 256) (page : Nat)
  /-- R152. A valid head count frees completion ring space and lets held completions be written. -/
  | crHead (slot : Slot) (fn : Fin 256) (page : Nat) (v : Word)
  /-- R168. Arms the completion ring for one interrupt, sending at once if enough completions are waiting. -/
  | crArm (slot : Slot) (fn : Fin 256) (page : Nat)
  /-- R173. Flushes a moderated interrupt of an armed completion ring. -/
  | sleepNoticeDoorbell (slot : Slot) (fn : Fin 256) (page : Nat)
  /-- R157. A returned work-ring granule read is checked for OWN and LEN, and the entry is handed on or the scan stops or re-reads. -/
  | ringReadCompletion (id : Nat) (data : List Byte)
  /-- R157. A ring paused at 4,096 entries in flight resumes at the next completion. -/
  | ringResume (ring : Nat)
  /-- R157. A NOP work entry completes with OK. -/
  | nop (ring : Nat) (e : Entry)
  /-- R154. A PAD entry is skipped without completion. -/
  | pad (ring : Nat) (e : Entry)
  /-- R212. A PUT sends one WRITE message of LENGTH bytes to the target window. -/
  | put (ring : Nat) (e : Entry)
  /-- R217. A PUT_FLAG sends a WRITE message followed by a WRITE_FLAG message. -/
  | putFlag (ring : Nat) (e : Entry)
  /-- R218. A GET sends a READ_REQ and awaits the READ_RSP message. -/
  | get (ring : Nat) (e : Entry)
  /-- R296. An ATOMIC sends an AT_REQ to the target's LKU. -/
  | atomic (ring : Nat) (e : Entry)
  /-- R244. A SEND sends an eager EAGER message or a rendezvous RTS. -/
  | send (ring : Nat) (e : Entry)
  /-- R248. A RECV searches the unexpected messages, or is posted in POST_SEQ order. -/
  | recv (ring : Nat) (e : Entry)
  /-- R254. Cancels a posted RECV, returning DATA 1 if it was still posted. -/
  | recvCancel (ring : Nat) (e : Entry)
  /-- R261. A COLL entry starts a collective operation of the group at the local rank. -/
  | coll (ring : Nat) (e : Entry)
  /-- R284. Requests a lock from its home, queued FIFO until granted or timed out. -/
  | lockAcquire (ring : Nat) (e : Entry)
  /-- R285. Releases a held lock at its home, or completes with REMOTE_ACCESS_FAULT if not held. -/
  | lockRelease (ring : Nat) (e : Entry)
  /-- R291. From a supervisor ring, forces a lock free from whoever holds it. -/
  | lockForce (ring : Nat) (e : Entry)
  /-- R159. Stops the ring's scan until every earlier entry has completed. -/
  | fence (ring : Nat) (e : Entry)
  /-- R173. A SLEEP_NOTICE entry flushes the named completion ring's moderated interrupt. -/
  | sleepNotice (ring : Nat) (e : Entry)
  /-- R168. On expiry of MOD_TIME, an armed ring with unsignalled completions sends its interrupt. -/
  | moderationTimerExpiry (cr : Nat)
  /-- R169. Unmasking a vector with its PBA bit set sends the pending message. -/
  | msixUnmask (slot : Slot) (fn : Fin 256) (vec : Nat)
  /-- R466. A host read times out or returns a bad completion, raising FS66 and failing its operation. -/
  | hostReadFailure (id : Nat) (why : ReadFailure)
  /-- R174. A function in D3hot pauses its scans and holds completions and interrupts. -/
  | functionD3hotEntry (slot : Slot) (fn : Fin 256)
  /-- R170. On return to D0, held completions are written, held interrupts sent and each ring scanned once. -/
  | functionD0Return (slot : Slot) (fn : Fin 256)
  /-- R157. Setting Bus Master Enable scans each ring once and releases held completions. -/
  | busMasterEnableSet (slot : Slot) (fn : Fin 256)
  /-- R174. Clearing Bus Master Enable pauses scans, refuses inbound work and holds completions. -/
  | busMasterEnableClear (slot : Slot) (fn : Fin 256)
  /-- R175. A function-level reset destroys the function's rings, windows and domains and hands on its locks, completing within 1 ms. -/
  | flr (slot : Slot) (fn : Fin 256)
  /-- R174. Clearing VF Enable resets every VF as an FLR does. -/
  | vfEnableClear (slot : Slot)
  /-- R174. PERST, hot reset or link down on a host port resets every function of its slots, raising FS64. -/
  | hostPortReset (hp : HostPort) (kind : PortResetKind)
  /-- R176. A host port link coming up records event 0x6002, with FS65 if it is degraded. -/
  | hostPortLinkUp (hp : HostPort) (h0 h1 : HalfLink)
  /-- R171. Creates the indexed work ring from the staging fields and scans it once. -/
  | wrCreate (r : Requester)
  /-- R172. Stops the work ring's scan and leaves it DRAINING until its last completion. -/
  | wrDestroy (r : Requester)
  /-- R172. A DRAINING work ring becomes FREE when its last completion is written. -/
  | wrDrainDone (ring : Nat)
  /-- R177. Resets the work ring's position to granule 0 with phase 1 and leaves ERROR. -/
  | wrReset (r : Requester)
  /-- R171. Creates the indexed completion ring, armed. -/
  | crCreate (r : Requester)
  /-- R172. Takes the completion ring out of use at once; later completions are redirected. -/
  | crDestroy (r : Requester)
  /-- R177. Applies new moderation, vector and POLLED settings to the completion ring. -/
  | crModify (r : Requester)
  /-- R177. Resets head, tail and phase, discards held completions and returns the ring to ACTIVE. -/
  | crReset (r : Requester)
  /-- R177. Clears the HIF counters. -/
  | hifCntClr (r : Requester)
  /-- R185. A returned table-entry read advances the walk to the next level, a leaf or a fault. -/
  | walkReadCompletion (id : Nat) (entry : BitVec 64)
  /-- R193. Starts an invalidation of the staged scope. -/
  | invGo (r : Requester)
  /-- R193. When covered entries are gone and in-flight walks and accesses have ended, INV_BUSY clears. -/
  | invalidationComplete (slot : Slot) (id : Nat)
  /-- R195. Applies the staged PD values to later walks. -/
  | pdLoad (r : Requester)
  /-- R195. Disables the PD with an implicit PD_ALL invalidation. -/
  | pdDisable (r : Requester)
  /-- R195. Applies the staged VMID stage-2 values to later walks. -/
  | vmidLoad (r : Requester)
  /-- R195. Disables the VMID unless an enabled PD names it. -/
  | vmidDisable (r : Requester)
  /-- R196. Every AUDIT_PERIOD, Ladybird starts uncached walks for the next batch of cache positions. -/
  | ladybirdPeriod
  /-- R196. A finished audit walk is compared with the cached translation. -/
  | auditComparison (id : Nat)
  /-- R200. Clears the XLT counters. -/
  | xltCntClr (r : Requester)
  /-- R216. A WRITE packet passes the instance check and is validated and placed at the window offset. -/
  | writePacket (k : Packet)
  /-- R217. A WRITE_FLAG payload is written once every earlier message has finished, or is held in the flag pool. -/
  | writeFlagPacket (k : Packet)
  /-- R217. A held flag is written when its last predecessor message finishes. -/
  | flagRelease (cx msn : Nat)
  /-- R218. A READ_REQ is validated, and the window is read and answered with a READ_RSP message. -/
  | readReqPacket (k : Packet)
  /-- R218. A READ_RSP packet is placed at the GET's LOCAL_ADDR plus OFFSET. -/
  | readRspPacket (k : Packet)
  /-- R222. A RESULT reports the fault status of a message to its initiator. -/
  | resultPacket (k : Packet)
  /-- R224. An ACK of the current instance releases packets, completes messages and updates the window. -/
  | ackPacket (k : Packet)
  /-- R224. A NAK causes go-back with halving, a hold for RNR_DELAY, or failure as unreachable, by reason. -/
  | nakPacket (k : Packet)
  /-- R209. An EPOCH_NAK naming the current instance closes it and resends the outstanding messages on a new instance. -/
  | epochNakPacket (k : Packet)
  /-- R223. When the packet above a hole has aged past LAT_MAX, the receiver sends a loss NAK. -/
  | lossCheck (cx : Nat)
  /-- R221. RSX_ACK_DELAY passing sends an ACK carrying DONE_PSN. -/
  | rsxAckTimer (cx : Nat)
  /-- R224. The retransmission timer expires: go back to UNA and drop CWND to its minimum. -/
  | rtoExpiry (cx : Nat)
  /-- R224. After a reason 2 or 3 NAK, sending resumes with go-back after RNR_DELAY. -/
  | rnrDelayExpiry (cx : Nat)
  /-- R225. A PSN held by reason 2 or 3 NAKs for RNR_TIMEOUT fails the instance with TIMEOUT. -/
  | rnrTimeout (cx : Nat)
  /-- R213. Creates the indexed memory window from the staging fields. -/
  | winCreate (r : Requester)
  /-- R215. Fails every later validation of the window; WIN_BUSY holds until validated messages finish. -/
  | winDisable (r : Requester)
  /-- R229. Loads the context registers from the context of (slot, CTX_PEER). -/
  | ctxLookup (r : Requester)
  /-- R229. Clears the CXN counters. -/
  | cxnCntClr (r : Requester)
  /-- R245. An EAGER packet is placed in its bound receive, or stored while unbound. -/
  | eagerPacket (k : Packet)
  /-- R246. An RTS is matched or stored; on a match, a PULL_REQ is sent. -/
  | rtsPacket (k : Packet)
  /-- R247. A PULL_REQ makes the sender send a PULL_RSP, a RESULT, or cancel on ABORT. -/
  | pullReqPacket (k : Packet)
  /-- R246. PULL_RSP data is placed in the receive buffer, and the receive completes when it finishes. -/
  | pullRspPacket (k : Packet)
  /-- R241. A message becomes ready in MSN order and is matched against the posted lists or becomes unexpected. -/
  | messageReady (cx msn : Nat)
  /-- R250. A RECV held at the posted-receive limit is posted when an entry frees. -/
  | recvResume (q : Quad)
  /-- R230. Creates the indexed match domain. -/
  | domCreate (r : Requester)
  /-- R252. Cancels posted receives, discards or aborts unexpected messages, and frees the domain. -/
  | domDisable (r : Requester)
  /-- R256. Clears the MAT counters. -/
  | matCntClr (r : Requester)
  /-- R271. An up chunk is stored in its slot and folded in ascending child rank. -/
  | collUp (k : Packet)
  /-- R264. A down chunk is issued to the local buffer and then to the children. -/
  | collDown (k : Packet)
  /-- R274. A collective credit advances CUM for the sender on an edge direction. -/
  | collCredit (k : Packet)
  /-- R275. A collective NAK makes the sender go back to the missing ESN. -/
  | collNak (k : Packet)
  /-- R277. A received abort aborts the group, echoes, and forwards to the other neighbours. -/
  | collAbort (k : Packet)
  /-- R274. A credit is sent at half a window freed, or 1 µs after the oldest unreported free. -/
  | collCreditSend (grp rank edge : Nat)
  /-- R275. A missing ESN older than LAT_MAX is NAKed, and the NAK repeated every LAT_MAX. -/
  | collNakTimer (grp rank edge : Nat)
  /-- R275. With no credit for RTO, the sender resends from the oldest uncredited ESN. -/
  | collRto (grp rank edge : Nat)
  /-- R277. An operation posted locally and not completed within OP_TIMEOUT aborts the group with reason 4. -/
  | opTimeout (grp : Nat)
  /-- R277. An ABORT is resent every RTO until the neighbour answers. -/
  | abortResend (grp rank edge : Nat)
  /-- R259. Reads and checks the rank table and creates the group. -/
  | grpCreate (r : Requester)
  /-- R278. Destroys the group, aborting it with reason 5 if operations are outstanding. -/
  | grpDestroy (r : Requester)
  /-- R277. Aborts the group with reason 5. -/
  | grpAbort (r : Requester)
  /-- R280. Clears the COL counters. -/
  | colCntClr (r : Requester)
  /-- R288. At the home, queues or grants an acquire, or answers a duplicate or probe with the current state. -/
  | lkAcq (k : Packet)
  /-- R285. At the home, frees or hands on the lock, or answers NO_HOLD. -/
  | lkRel (k : Packet)
  /-- R291. At the home, releases the lock from its holder and sends LOST. -/
  | lkForce (k : Packet)
  /-- R290. A matching renewal extends the lease; otherwise it is answered LOST. -/
  | lkRenew (k : Packet)
  /-- R286. Removes a still-queued waiter and answers WITHDRAWN. -/
  | lkWithdraw (k : Packet)
  /-- R288. At the requester, a QUEUED, GRANTED, RELEASED, BUSY, LOST or other answer completes or advances the work. -/
  | lkRsp (k : Packet)
  /-- R290. Stops grant resends and sets the lease due time. -/
  | lkGrantAck (k : Packet)
  /-- R296. The target LKU validates, translates and performs the atomic once, answering with AT_RSP. -/
  | atReq (k : Packet)
  /-- R296. The initiator completes the ATOMIC with the fetched value and writes RESULT_ADDR. -/
  | atRsp (k : Packet)
  /-- R297. Frees the atomic result table entry. -/
  | atAck (k : Packet)
  /-- R286. An acquire's TIMEOUT expires and the requester sends WITHDRAW. -/
  | lockTimeout (q : Quad) (tag : Nat)
  /-- R288. An unanswered LKU request is resent after RTO, up to RETRY_MAX. -/
  | lkuRequestResend (q : Quad) (tag : Nat)
  /-- R288. A queued requester sends LK_ACQ as a probe every LEASE_MS. -/
  | lockProbe (q : Quad) (tag : Nat)
  /-- R288. After BUSY, the request is resent after RNR_DELAY, failing with TIMEOUT after RNR_TIMEOUT. -/
  | lockBusyRetry (q : Quad) (tag : Nat)
  /-- R288. The home resends GRANTED every RTO until acknowledged or the lease expires. -/
  | grantResend (lock : Nat)
  /-- R290. Every LEASE_MS / 4 the holder's module sends LK_RENEW for each held lock. -/
  | leaseRenewal
  /-- R290. A lapsed lease hands the lock on as orphaned and raises FS87. -/
  | leaseExpiry (lock : Nat)
  /-- R297. An atomic result entry is freed after 2 × LIFETIME. -/
  | resultTableExpiry (slot : Slot) (src tag : Nat)
  /-- R291. Forces the indexed lock free from the register interface. -/
  | lockCmdForce (r : Requester)
  /-- R300. Clears the LKA counters. -/
  | lkaCntClr (r : Requester)
  /-- R306. Each cycle the scheduler grants one packet: TC3 first, then DRR over TCs, groups and queues, subject to gates. -/
  | injectionGrant (q : Quad)
  /-- R309. A wheel slot comes round: coarse members move to the fine wheel, fine members become eligible. -/
  | wheelSlot (q : Quad)
  /-- R310. A gate list entry boundary opens or closes TCs at its HGT instant. -/
  | gateChange
  /-- R313. Arms a swap of the staged gate list at SWAP_TIME. -/
  | gateSwap (r : Requester)
  /-- R313. At the first cycle start at or after SWAP_TIME the staged list comes into force. -/
  | gateSwapInstant
  /-- R312. Setting GATE_EN puts gates in force and computes the longest open spans; clearing it opens every TC. -/
  | gateEn (r : Requester) (on : Bool)
  /-- R316. Clears the SCH counters. -/
  | schCntClr (r : Requester)
  /-- R321. In CONFIG or DRAIN, starts a swap of the class's table to VAR_SEL. -/
  | swap (r : Requester)
  /-- R321. The variant is verified and loaded into STANDBY, and the swap waits for the engines. -/
  | swapLoaded (c : EngClass) (v : VariantIn)
  /-- R321. With every engine of the class gated, the banks are exchanged and the swap completes. -/
  | tableSwitch (c : EngClass)
  /-- R324. Weevil reads 64 B of HBM, writing back corrected data or marking uncorrectable words poisoned. -/
  | hbmPatrolRead (q : Quad) (found : PatrolFound)
  /-- R325. The SRAM patrol checks a word in an idle cycle, step stores included. -/
  | sramPatrolRead (q : Quad) (found : PatrolFound)
  /-- R324. A pass not complete after twice its period records event 0x8022. -/
  | patrolOverrun (q : Quad)
  /-- R326. Starts a post-package repair of the named row. -/
  | repairGo (r : Requester)
  /-- R326. The row is restored, the bank reopens and event 0x8024 is recorded. -/
  | rowRepairComplete (q : Quad)
  /-- R327. Every CIC_PERIOD, temperatures, feeds and rails are sampled and checked against thresholds. -/
  | cicadaSample (c : CicadaIn)
  /-- R329. A deferred maintenance activity starts when the conflicting instance ends. -/
  | deferredActivityStart
  /-- R332. Clears the SEQ counters and every TEMP_MAX. -/
  | seqCntClr (r : Requester)
  /-- R334. A feed in range and enabled enters DEBOUNCE. -/
  | feedInRange (f : Feed)
  /-- R334. After 20 ms continuously in range the feed enters PRECHARGE. -/
  | debounceComplete (f : Feed)
  /-- R337. VBUS reaching 92 % of VIN moves the feed to RAMP. -/
  | prechargeComplete (f : Feed)
  /-- R337. Pre-charge not complete in 80 ms trips the feed with CAUSE 1. -/
  | prechargeTimeout (f : Feed)
  /-- R338. Gate fully enhanced: ENHANCED is set and the feed is ON. -/
  | rampComplete (f : Feed)
  /-- R335. A feed leaving range opens its gate within 1 µs and goes OFF, raising FS3 or FS4. -/
  | feedOutOfRange (f : Feed) (high : Bool)
  /-- R335. FEED_EN low or SW_OFF opens the feed's gate and sends it OFF. -/
  | feedDisable (f : Feed)
  /-- R336. Reverse current above 2 A latches the feed with CAUSE 5 and FS6. -/
  | reverseCurrent (f : Feed)
  /-- R339. The limit loop begins to regulate at ILIM and the fault timer starts. -/
  | limitEntry (f : Feed)
  /-- R339. Current below 95 % of ILIM for 100 µs clears the fault timer. -/
  | limitClear (f : Feed)
  /-- R339. The fault timer reaching FAULT_TIME trips the feed with CAUSE 2. -/
  | faultTimerExpiry (f : Feed)
  /-- R340. Current above 3 × ILIM trips the feed with CAUSE 3 within 1 µs. -/
  | fastTrip (f : Feed)
  /-- R342. After 1 s of BACKOFF the feed re-enters PRECHARGE. -/
  | backoffExpiry (f : Feed)
  /-- R342. RETRIES_USED returns to 0 after 60 s continuously ON. -/
  | retryCountReset (f : Feed)
  /-- R343. FEED_EN low or VIN below 37 V for 10 ms clears a non-CAUSE-4 latch. -/
  | latchClear (f : Feed)
  /-- R343. Clears the feed's latch and RETRIES_USED, except for CAUSE 4. -/
  | feedClr (r : Requester)
  /-- R344. Both feeds down for 100 ms together clears CAUSE 4 latches and releases LOCKOUT. -/
  | powerCycleBoth
  /-- R345. After 100 µs of the conditions holding, PGOOD rises and the rail sequence and power-on begin. -/
  | pgoodRise (b : BootIn)
  /-- R346. PGOOD falls, FS8 is raised, the recorder flushes and the rails go down. -/
  | pgoodFall
  /-- R347. The next rail group starts 100 µs after the previous group is in regulation. -/
  | railGroupStart (g : Nat)
  /-- R348. Each rail group is discharged in reverse order, the next starting when the previous is below 10 %. -/
  | railGroupDischarge (g : Nat)
  /-- R349. A rail failing to start or leaving ±5 % raises FS7. -/
  | railFault (rail : Nat)
  /-- R350. Sharing out of tolerance for 1 s raises FS5. -/
  | sharingFault
  /-- R351. Input power averaged over 1 s above PWR_LIMIT raises FS9. -/
  | powerLimitExceeded
  /-- R354. Clears the feed and PGOOD counters at the next AONCLK edge. -/
  | pwrCntClr (r : Requester)
  /-- R364. From CONFIG, enters DORMANT: links down, quadrants parked cold, HBM in self-refresh. -/
  | modeReqDormant (r : Requester) (meet : ModeMeet)
  /-- R359. Requests CONFIG from DORMANT, DRAIN (when DRAINED) or SAFE (with a warm reset). -/
  | modeReqConfig (r : Requester) (meet : ModeMeet)
  /-- R359. From CONFIG, enters TRAIN if the configuration check passes. -/
  | modeReqTrain (r : Requester) (meet : ModeMeet)
  /-- R359. Enters RUN from TRAIN or DRAIN, scanning each ring once. -/
  | modeReqRun (r : Requester) (meet : ModeMeet)
  /-- R362. From RUN, enters DRAIN, where only draining opcodes are fetched. -/
  | modeReqDrain (r : Requester) (meet : ModeMeet)
  /-- R381. Forces SAFE by command with the SAFE reaction. -/
  | modeReqSafe (r : Requester) (meet : ModeMeet)
  /-- R381. Forces LOCKOUT by INSTALLER command. -/
  | modeReqLockout (r : Requester) (meet : ModeMeet)
  /-- R370. After verification and the ledger entry, ATTEST ends and CONFIG is entered. -/
  | attestComplete
  /-- R361. With the mapped ports up and time locked, TRAIN enters RUN. -/
  | runReadiness
  /-- R361. TRAIN_TIMEOUT passing enters RUN anyway, raising FS10. -/
  | trainTimeout (ready : Bool)
  /-- R363. DRAINED becomes 1 when no local work is outstanding; event 0x0003 the first time. -/
  | drained
  /-- R366. Resets the quadrant state and enters CONFIG; from SAFE only when the exit conditions hold. -/
  | warmReset (r : Requester) (meet : ModeMeet)
  /-- R366. Drains the recorder, resets the quadrants, AON and MGC, and restarts ATTEST. -/
  | moduleReset (r : Requester) (b : BootIn)
  /-- R366. The MGC watchdog expires, raising FS11 and making a module reset. -/
  | mgcWatchdogExpiry (b : BootIn)
  /-- R379. A detection reaches the collector, which sets the sticky bit and COUNT and applies the reactions of its severity. -/
  | faultDetection (ext : Option Detection)
  /-- R377. Every second the collector tests each detection wire, raising FS0 on failure. -/
  | faultSelfCheck (bad : List (Fin 128))
  /-- R383. Ends the open handling and counts as the acknowledgement needed to leave SAFE. -/
  | fltAck (r : Requester)
  /-- R384. A FORCE bit injects a detection of the source at the next AONCLK edge. -/
  | faultForce (r : Requester) (bank : Fin 4) (bits : Word)
  /-- R430. A W1C clears a sticky bit unless it was set anew in the last two AONCLK periods. -/
  | stickyClear (r : Requester) (t : StickyTarget)
  /-- R380. Writing 1 to a SLOT_CONT bit releases the contained slot. -/
  | slotContRelease (r : Requester) (bits : BitVec 16)
  /-- R387. Clears the FLT counters and every COUNT. -/
  | fltCntClr (r : Requester)
  /-- R394. A queued record is written to MRAM, trailer last, and the write position advanced. -/
  | recordWriteComplete
  /-- R394. When queue space returns, a LOST record is written ahead of the others. -/
  | lostRecord
  /-- R398. At each whole second, one SUPPRESSED record is written per code suppressed. -/
  | suppressedRecord
  /-- R400. Copies the record RD_SEQ whole into RD_BUF. -/
  | rdGo (r : Requester) (uncorrectable : Bool)
  /-- R400. Copies the ledger entry LEDGER_IDX into RD_BUF. -/
  | ledgerGo (r : Requester) (uncorrectable : Bool)
  /-- R401. Starts exporting records from EXP_FROM_SEQ into host memory. -/
  | expGo (r : Requester)
  /-- R401. The export ends at the buffer end or the NEXT_SEQ held at start. -/
  | exportComplete (r : Requester)
  /-- R409. Starts a background check of every ledger entry from VERIFY_FROM. -/
  | verifyGo (r : Requester)
  /-- R409. The full check ends, with event 0xA032 or VERIFY_BAD and FS123. -/
  | verifyComplete (bad : Option Nat)
  /-- R412. Returns up to 16 ledger entries to any requester. -/
  | ledgerRead (p : Path) (first count : Nat)
  /-- R412. Returns whole records from FROM_SEQ to an OPERATOR requester. -/
  | evrRead (p : Path) (maxBytes fromSeq : Nat)
  /-- R414. Clears LOST and SUPPRESSED. -/
  | evrCntClr (r : Requester)
  /-- R410. The SPDM GET_VERSION request is answered. -/
  | getVersion (p : Path)
  /-- R410. The SPDM GET_CAPABILITIES request is answered. -/
  | getCapabilities (p : Path)
  /-- R410. The SPDM algorithms are negotiated. -/
  | negotiateAlgorithms (p : Path) (offer : AlgOffer)
  /-- R410. The certificate chain digests are returned. -/
  | getDigests (p : Path)
  /-- R410. The slot 0 certificate chain is returned. -/
  | getCertificate (p : Path) (slot offset length : Nat)
  /-- R410. A CHALLENGE is answered, signed with the device attestation key. -/
  | challenge (p : Path) (slot : Nat) (nonce : Nat)
  /-- R411. The boot measurements of Table 17-6 are returned, optionally signed. -/
  | getMeasurements (p : Path) (index : Nat) (signed : Bool) (nonce : Nat)
  /-- R417. Opens an SPDM session, answered Busy beyond 16 sessions or during the failure back-off. -/
  | keyExchange (p : Path) (x : KeyExchange)
  /-- R417. Completes a mutually authenticated session, which takes the role of the matching key slot. -/
  | finish (p : Path) (k : Fin 16) (signatureOk : Bool)
  /-- R421. After 60 s the Busy answer to KEY_EXCHANGE on the transport ends. -/
  | authBusyEnd (t : Transport)
  /-- R410. The SPDM HEARTBEAT keeps a session alive. -/
  | heartbeat (p : Path)
  /-- R410. Updates the session keys. -/
  | keyUpdate (p : Path)
  /-- R418. Ends the SPDM session and its grants. -/
  | endSession (p : Path)
  /-- R418. A session with no message for SESS_IDLE ends. -/
  | sessionIdleTimeout (k : Fin 16)
  /-- R412. An SPDM vendor-defined request carries a ledger, recorder or register command. -/
  | vendorDefinedRequest (p : Path) (c : VendorCommand)
  /-- R435. Reads up to 16 registers over MCTP under VIEW_SLOT. -/
  | regRead (p : Path) (view : Nat) (count off : Nat)
  /-- R435. Writes one register over MCTP with the session's role. -/
  | regWrite (p : Path) (view : Nat) (off : Nat) (v : Word)
  /-- R435. The MCTP wake command moves DORMANT to CONFIG. -/
  | wake (p : Path) (meet : ModeMeet)
  /-- R422. Lends the session's role to a slot's PF0 for a bounded time. -/
  | roleGrant (p : Path) (slot : Nat) (minutes : Nat)
  /-- R423. Ends the slot's grant, by register or by MCTP. -/
  | roleDrop (by_ : RoleDropBy)
  /-- R423. A grant's duration runs out. -/
  | grantExpiry (slot : Slot)
  /-- R420. Enrols a key hash into an installer or operator slot. -/
  | keyEnrol (p : Path) (slot : Nat) (hash : List Byte)
  /-- R420. Removes a key slot and ends the sessions that matched it. -/
  | keyRemove (p : Path) (slot : Nat)
  /-- R419. Enrols the session key as installer key 0 and sets CLAIMED. -/
  | claim (p : Path)
  /-- R419. Erases all installer and operator keys and clears CLAIMED. -/
  | release (p : Path)
  /-- R424. Unlocks or locks the JTAG TAP from a MAKER session. -/
  | jtagUnlock (p : Path) (unlock : Bool)
  /-- R424. A TAP instruction other than IDCODE or BYPASS while locked does nothing and raises FS124. -/
  | jtagInstruction (ir : JtagIr)
  /-- R437. Clears the ROL counters. -/
  | rolCntClr (r : Requester)
  /-- R445. Snapshots the indexed bank at the next edge. -/
  | snap (r : Requester)
  /-- R445. Snapshots all 36 banks at the same edge. -/
  | snapAll (r : Requester)
  /-- R445. Arms a snapshot of all banks at SNAP_TIME. -/
  | snapArm (r : Requester)
  /-- R445. At the first edge at or after SNAP_TIME, the armed snapshot is taken. -/
  | armedSnapshot
  /-- R447. Clears CYC, PC0 to PC7 and OVF of the indexed bank. -/
  | pmcClr (r : Requester)
  /-- R443. An unchained counter wraps, sets OVF and posts the PMI vector if enabled. -/
  | counterOverflow (bank : Nat) (n : Fin 8)
  /-- R446. Each period the stream snapshots its bank and writes the record into host memory. -/
  | streamPeriod (n : Nat)
  /-- R454. No REFCLK edge for 100 ns switches AONCLK to the internal oscillator and raises FS13. -/
  | refclkLoss
  /-- R454. REFCLK returning clears FS13. -/
  | refclkReturn
  /-- R455. At PERST_N de-assertion the host port picks common-clock or SRIS mode and applies BIFURC. -/
  | perstDeassert (hp : HostPort) (refClock : Bool)
  /-- R455. Loss of the common PCIe clock while the link is up takes the link down with FS64. -/
  | pcieRefclkStop (hp : HostPort)
  /-- R466. The completion of a host read of payload, window data, atomic operand, pull source or rank table returns, and the operation that waited on it goes on to build, send or compute. -/
  | dataReadCompletion (id : Nat) (data : List Byte)
  /-- R375. The condition of a kind-L fault source ends: its ACTIVE bit clears, FAULT_N is re-evaluated, and leaving SAFE becomes possible. -/
  | conditionEnd (fs : Fin 128) (unit : FUnit)
  /-- R6. A register read returns its value; a read of the low word of a 64-bit pair latches the high word into a holding copy, and an AON read waits for the function's earlier AON writes. -/
  | registerRead (r : Requester) (off : Nat) (whole : Bool)
  /-- R368. A PLDM firmware update over MCTP writes an image slot, and its activation makes a module reset. -/
  | pldmFirmwareUpdate (p : Path) (u : PldmUpdate) (b : BootIn)
  /-- R459. The I3C controller assigns the target a dynamic address, after which the target stops answering SMBus at its static address. -/
  | dynamicAddressAssignment (addr : Nat)
  /-- R24. A die-to-die link that has carried no traffic for 1 µs gates its clock. -/
  | dieLinkGate (a b : Quad)
  /-- R75. A lane's PRBS checker seeds itself, sets PRBS_LOCK after 64 error-free symbols and clears it after 8 errors in 64 symbols. -/
  | prbsLock (l : LaneId) (symbols : List Nat)
  deriving DecidableEq, Repr

end Sys2Proof
end

