-- ==== Sys2Proof/Decode.lean ====
section
/-!
DEFINITION. Decoding a word to a command. The block has no instruction words: no row of spec/opcode_table.json gives bits or
fields, so no word spells a command.
-/

namespace Sys2Proof

/-- The command a word spells by the bits the table gives its rows: none, since the table gives no row any bits. -/
def decodeTableWord (_nbits _w : Nat) : Option Instr := none

end Sys2Proof
end

