-- ==== Sys2Proof/Config.lean ====
section
/-!
DEFINITION. What an implementation fixes and what the spec leaves open. A constant with a value is a number the spec
states. An `opaque` constant is a free value: it has no body, so no proof can rest on what it is. Those that
take a `Nat` first are applied to the model's counter `Mach.free`, so that each use may differ (log entry 6).
-/

namespace Sys2Proof.Config

/-! ### Clocks (R3, R29), in CORECLK cycles of 0.5 ns -/

/-- CORECLK cycles in a nanosecond. -/
def nsCycles : Nat := 2
/-- CORECLK cycles in a microsecond. -/
def usCycles : Nat := 2000
/-- CORECLK cycles in a millisecond. -/
def msCycles : Nat := 2000000
/-- CORECLK cycles in a second. -/
def secCycles : Nat := 2000000000
/-- CORECLK cycles in one AONCLK period, 640 ns (R3). -/
def aonCycles : Nat := 1280
/-- One way over the management link, 200 ns (Table 1-3). -/
def mgmtCycles : Nat := 400
/-- HGT LSBs in a second (R29). -/
def hgtSec : Nat := 16000000000

/-! ### The PCIe PTM capability of every host port and half (R47) -/

/-- PTM Responder Capable. -/
def ptmResponder : Bool := true
/-- PTM Requester Capable: the Moruetum is never a requester. -/
def ptmRequester : Bool := false
/-- Local Clock Granularity, ns. -/
def ptmGranularity : Nat := 1

/-! ### Free values: what the manufacturer fuses, and what only the silicon knows -/

/-- The module's serial number (SERIAL, fused; Table 15-7). -/
opaque serial : Nat
/-- The rate of the internal oscillator against nominal, as a free value (R454: within 5 %). -/
opaque oscillator (n : Nat) : Nat
/-- The quadrant's EPOCH_SEED as drawn at a reset (R203). -/
opaque epochSeed (n quad : Nat) : BitVec 8
/-- The coordinate a non-minimal sample draws, uniformly at random (R128); reduced to the choices there are. -/
opaque sampleCoord (n : Nat) : Nat
/-- The slew that the proportional-integral loop sets for an offset and the loop's integral, in units of 2^-32 LSB a
cycle before the limit of R35 is applied (R38 gives the loop no gains). -/
opaque loopSlew (offset integral : Int) : Int
/-- Tininess is detected before rounding (IEEE 754 leaves it to the implementation; R269 says only "tiny and inexact"). -/
opaque tinyBefore : Bool
/-- FLOW of a packet that no work entry gives one (Table 5-2: "chosen by the source"), by source and destination. -/
opaque respFlow (src dst : Nat) : BitVec 16
/-- The transmit tap a receiver in ADAPT_FULL requests of the far end (R66, R104 step 3). -/
opaque eqRequest (n k : Nat) : Nat
/-- The CTLE peaking that Lacewing has adapted to, from the value at which adaptation last froze (R67). -/
opaque ctle (n held : Nat) : Nat
/-- DFE tap `k` that Lacewing has adapted to, from the value at which adaptation last froze (R67). -/
opaque dfe (n k : Nat) (held : Int) : Int
/-- A receiver in ADAPT_FULL asks for another round of transmit taps (R104 step 3). -/
opaque eqMore (n : Nat) : Bool
/-- The bits that a lane's pattern generator starts from (R75 gives none). -/
opaque prbsSeed (lane : Nat) : List Bool
/-- The bytes, beyond the header, of a record whose layout the spec does not give: by code, facts and offset. -/
opaque eventByte (code : Nat) (facts : List Nat) (k : Nat) : BitVec 8
/-- The length, in units of 16 B, of a record whose layout the spec does not give; taken into 3 to 64. -/
opaque eventLen (code : Nat) (nfacts : Nat) : Nat
/-- DETAIL of a detection whose coding the spec does not give (Table 16-7: "source-specific"): by source, unit, the number
of the instance concerned and the cycle. -/
opaque faultDetail (fs : Nat) (unit : FUnit) (fact clk : Nat) : BitVec 32
/-- The buffer of a die-to-die link for one VC, in cells (R14 gives no size). -/
opaque dieBuffer : Nat
/-- The hash of a peer's EID by which a connection's RXE is chosen (Table 1-5 gives no hash). -/
opaque rxeHash (peer : Nat) : Nat
/-- The bank of a stack that an HBM address falls in (R326 names banks, not their addresses). -/
opaque hbmBank (addr : Nat) : Nat
/-- How long the engines of a class are held while the MGC rewrites a step word, in cycles (R323: at most 1 µs); taken into that. -/
opaque rewriteHold (n : Nat) : Nat
/-- The spare rows a bank has for post-package repair (R326; at most 15, the width of SPARES_LEFT). -/
opaque spareRows (stack bank : Nat) : Nat
/-- How far into its range a host read's timeout expires (R466 gives a range), in cycles. -/
opaque readTimeout (n : Nat) : Nat
/-- SHA-384 of a byte string, byte k of the digest (the hash is FIPS 180-4's; the spec only names it). -/
opaque sha384 (b : List (BitVec 8)) (k : Nat) : BitVec 8
/-- ECDSA P-384 under the device attestation key: byte k of r then s (R406; the key is the module's own). -/
opaque sign (b : List (BitVec 8)) (n k : Nat) : BitVec 8
/-- A random draw, for nonces and session secrets. -/
opaque random (n : Nat) : Nat
/-- What a boot finds whose command does not say it: MODULE_RESET written through another register path. -/
opaque bootFinds (n : Nat) : BootIn
/-- Whether an MRAM read is uncorrectable where no command says it: RD_GO or LEDGER_GO written through another register path. -/
opaque mramBad (n : Nat) : Bool
/-- The SHA-384 of the measured component of Table 17-6, by index and version, byte k. -/
opaque componentDigest (index version k : Nat) : BitVec 8
/-- The slot 0 certificate chain, byte k (R410: from the Isaul root to the device attestation key). -/
opaque certificate (k : Nat) : BitVec 8
/-- The length of that chain. -/
opaque certificateLen : Nat
/-- The MAKER key hash fused at manufacture, byte k (R417). -/
opaque makerKey (k : Nat) : BitVec 8

end Sys2Proof.Config
end

