-- ==== Sys2Proof/Machine/State.lean ====
section
/-!
DEFINITION. The state of the block, as plain data: registers by field, and every queue, buffer, timer, counter and
mode that the spec gives the machine beside them, chapter by chapter; the outcomes of a step; the state at reset.
-/

namespace Sys2Proof.Machine

/-! ### Modes (Table 15-1) -/

/-- The eight modes, coded 0 to 7 in this order. -/
inductive Mode where
  | dormant | attest | config | train | run | drain | safe | lockout
  deriving DecidableEq, Repr

/-! ### Registers -/

/-- The access codes of Table 0-3. -/
inductive Access where
  | ro | rw | rs | w1c | w1s | wo | wm
  deriving DecidableEq, Repr

/-- What a register is kept once for: the module, the function (R433), a slot, a quadrant, or the thing that an
index register of its block names (R432, and the prose of each register table). -/
inductive Scope where
  | module | fn | slot | quad
  | port | lane | pm | wring | cring | hp | pd | vmid | range | window | domain | group | lock
  | queue | sgroup | gate | cls | feed | source | rl | bank | stream
  deriving DecidableEq, Repr

/-- One field of one register: its BAR0 offset, its bits, its access code, the lowest role that may write it
(R9; `none` for a field nobody writes), its reset value and its scope. -/
structure Field where
  off    : Nat
  hi     : Nat
  lo     : Nat
  acc    : Access
  rights : Role
  rst    : Nat
  scope  : Scope
  deriving DecidableEq, Repr

/-! ### Quadrants, engines, die-to-die links (file 01) -/

/-- A Yarrow: the step it is at, the flag vector as it stood at the end of the previous cycle (R20, R21),
the command outstanding, whether its last slot was one of waiting, whether it has stopped (R22), its clock gate (R24, R468), the cycle the gate
closed in, the cycle from which the engine is usable, the cycle of its last slot. -/
structure Eng where
  step        : Nat := 0
  flags       : BitVec 32 := 0
  outstanding : Option CmdClass := none
  waiting     : Bool := false
  stopped     : Bool := false
  gated       : Bool := true
  gateAt      : Nat := 0
  usableAt    : Nat := 0
  lastStep    : Option Nat := none
  deriving DecidableEq, Repr

/-- A quadrant's PLL: 0 running, 1 parked warm, 2 parked cold (QSTATE), the cycle it was parked in, and the cycle
from which its core is usable (R25, R26). -/
structure QuadSt where
  park     : Nat := 0
  parkedAt : Nat := 0
  usableAt : Nat := 0
  deriving DecidableEq, Repr

/-- A die-to-die link: down (R15), its clock gated (R24), the cycle its gate closed in, the cycle from which it is usable, the
cycle of its last traffic. What its buffers hold (R14) is what the packets in the module say of their paths. -/
structure DieLink where
  down        : Bool := false
  gated       : Bool := false
  gateAt      : Nat := 0
  usableAt    : Nat := 0
  lastTraffic : Nat := 0
  deriving DecidableEq, Repr

/-! ### Global time (file 02) -/

/-- The four quadrant counters, in units of 2^-32 LSB (R31: the rate word has 32 fractional bits). -/
structure Hgt where
  q0 : Nat := 0
  q1 : Nat := 0
  q2 : Nat := 0
  q3 : Nat := 0
  deriving DecidableEq, Repr

/-- A neighbour's election view as a port last accepted it (R39). -/
structure NbrView where
  serial : Nat
  port   : Nat
  view   : TimeView
  deriving DecidableEq, Repr

/-- The time exchange of one port (R36 to R38): the last request's EXCH_ID and t1, the last eight accepted delays
(newest first), consecutive discards, when an exchange was last accepted, the neighbour's view, and the ASYM that the
exchange in progress began with (Table 2-5). -/
structure TimPort where
  exch     : Nat := 0
  t1       : Option Nat := none
  delays   : List Int := []
  discards : Nat := 0
  accepted : Option Nat := none
  nbr      : Option NbrView := none
  asym     : Nat := 0
  deriving DecidableEq, Repr

/-- A root this module knows (R39, R40): the newest ROOT_SEQ kept for it and when it last changed, and the cycle
until which the root is marked lost. -/
structure RootSeen where
  prio      : Nat
  serial    : Nat
  seq       : Option Nat
  changedAt : Nat
  lostUntil : Option Nat
  deriving DecidableEq, Repr

/-- Time state that no register holds: the four counters, the AON copy (R33), the rate word (nominal 8 LSB a cycle,
32 fractional bits), the state of the proportional-integral loop (R38), the count of good exchanges towards
lock, the ports, the known roots, the root's own sequence, the LOSS_TIMEOUT and the PPS_IN_EN in force since the last
selection, the PPS logic, and CLK_OUT: its frequency in force and the HGT from which it is held low (Table 2-5). -/
structure Tim where
  hgt        : Hgt := {}
  aon        : Nat := 0
  rateWord   : Nat := 8 * 2 ^ 32
  integral   : Int := 0
  goodRun    : Nat := 0
  everLocked : Bool := false
  lastGood   : Nat := 0
  limitHit   : Bool := false
  ports      : Tbl TimPort := []
  roots      : List RootSeen := []
  ownSeq     : Nat := 0
  lossUnits  : Nat := 16
  ppsEn      : Bool := false
  ppsArmed   : Bool := false
  ppsLast    : Option Nat := none
  ppsOut     : Option Nat := none
  ppsHigh    : Bool := false
  clkHz      : Nat := 0
  clkStop    : Option Nat := none
  osc        : Option Nat := none
  deriving DecidableEq, Repr

/-! ### Lanes (file 03) -/

/-- A lane, beside its registers: consecutive good and bad codewords (R58), since when lock is being sought, the
far end's advertised precoding and FEC (R57, R61), whether it is admitted to its port, its skew in ps (R74), this second's
uncorrectable codewords with the FEC_LIMIT it began with (R79), and its pattern checker (R75). Sending: the scrambler's last bits
(R55), the scrambled blocks of the codeword in progress and when it began, the precoder's last symbol (R61), the levels that the
transmit filter still needs (R64), the pattern generator's bits (R75). Receiving: the descrambler's bits, the last precoded symbol, the
blocks of the last codeword and whether it was uncorrectable (R59). Its equaliser: the mode in force (R66), and the CTLE peaking and the
DFE taps as they stood when they last froze (R65, R67). -/
structure LaneSt where
  goodRun   : Nat := 0
  badRun    : Nat := 0
  seekSince : Option Nat := none
  lost      : Bool := false
  farPrec   : Bool := true
  farFec    : Bool := true
  farReady  : Bool := false
  cwIndex   : Nat := 0
  skew      : Nat := 0
  uncorrSec : Nat := 0
  fecLim    : Nat := 16
  prbsRun   : Nat := 0
  prbsErrs  : List Bool := []
  prbsHist  : List Bool := []
  txHist    : List Bool := []
  txPart    : List Block := []
  txAt      : Nat := 0
  txPrev    : Nat := 0
  txTail    : List Int := []
  gen       : List Bool := []
  rxHist    : List Bool := []
  rxPrev    : Nat := 0
  rxBlocks  : List Block := []
  rxErr     : Bool := false
  eqMode    : Nat := 1
  ctle      : Nat := 0
  dfe       : List Int := []
  deriving DecidableEq, Repr

/-- The electrical-idle state of a port (R69 to R73): drivers off; the notices sent and received; since when the
port is quiet; the wake bursts sent and when. -/
structure IdleSt where
  driversOff  : Bool := true
  sentNotice  : Bool := false
  rcvdNotice  : Bool := false
  offAt       : Nat := 0
  quietSince  : Nat := 0
  bursts      : Nat := 0
  burstAt     : Nat := 0
  deriving DecidableEq, Repr

/-- Hive (R328, R329): the deferred requests in the order in which they were made, each as the activity code of Table
13-2 and its resource; the deferrals counted by activity; and the lane each quadrant's background scan comes to next. -/
structure Hive where
  deferred  : List (Nat × Nat) := []
  deferrals : Tbl Nat := []
  scanTurn  : Tbl Nat := []
  deriving DecidableEq, Repr

/-! ### Links (file 04) -/

/-- A frame in the replay buffer (R94). -/
structure ReplayEntry where
  fsn    : Nat
  vc     : Nat
  shared : Bool
  cells  : Nat
  pkt    : Packet
  stomp  : Bool := false
  deriving DecidableEq, Repr

/-- A link action in progress: what it is, whether this end asked for it, its reason and proposed lanes, how often
the REQ has been sent and when, whether the ACK has been sent (the responder's half) and when, the rounds of EQ sent, the lanes
this end receives well, and in a full training those it receives well at each rate and the rate tried (R104), a request
of this end that a collision put aside (R107), and since when lanes that the action adds have been sent ALIGN codewords (R108). -/
structure TrainSt where
  action    : TrainAction
  requester : Bool
  reason    : Nat
  lanes     : Nat
  sends     : Nat
  atc        : Nat
  acked     : Bool
  eqRounds  : Nat := 0
  good      : Nat := 15
  goodAt    : List Nat := []
  rate      : Nat := 0
  aside     : Option (TrainAction × Nat × Nat) := none
  alignAt   : Option Nat := none
  deriving DecidableEq, Repr

/-- A control frame waiting to be sent (R88). A time frame is stamped when it goes (R36). -/
inductive Ctrl where
  | train (f : TrainFrame)
  | nak (reason : Nat)
  | credit
  | timeReq
  | timeRsp (req : TimeFrame) (t2 : Nat)
  | audit
  | beacon
  deriving DecidableEq, Repr

/-- A pool of cells by number: 0 to 7 the private pools of the VCs, 8 the shared pool (VC_IDX of Table 4-12). -/
abbrev Pools := Tbl Nat

/-- One port's link, beside its registers. Transmit side: available credit, the far end's pool sizes, cumulative
received returns, the replay buffer, the replay pointer, pending ACK and NAK, the replay timer's due
cycle, rounds without progress and replay-limit retrains without progress. Receive side: occupied cells,
pool sizes in force, cells waiting to be returned, cumulative returns, whether a frame was yet accepted,
when a CREDIT falls due for an acknowledgement and for a freed cell that wait, the ACK_DELAY that the last accepted frame took up,
the outstanding NAK, RESYNC, the overrun that waits for a
retrain, RX_MISMATCH. Then the control frames waiting, the action in progress, the scheduled retrain and whether the port has left
electrical idle since (R102), the last data frame, the audit, the packets that failover re-injects (R112), the logical lane whose turn
the next block is (R54), and the index of the next ALIGN codeword (Table 3-4). -/
structure Link where
  avail       : Pools := []
  farSize     : Pools := []
  rcvdRet     : Pools := []
  replay      : List ReplayEntry := []
  rp          : Option Nat := none
  pendingAck  : Option Nat := none
  pendingNak  : Option Nat := none
  timer       : Option Nat := none
  rounds      : Nat := 0
  limitRuns   : Nat := 0
  occupied    : Pools := []
  size        : Pools := []
  toReturn    : Pools := []
  cumRet      : Pools := []
  ackValid    : Bool := false
  ackDue      : Option Nat := none
  freeDue     : Option Nat := none
  ackWait     : Option Nat := none
  nakAt       : Option Nat := none
  resync      : Bool := false
  overrun     : Bool := false
  rxMismatch  : Bool := false
  ctrl        : List Ctrl := []
  train       : Option TrainSt := none
  everTrained : Bool := false
  trainFailed : Bool := false
  schedAt     : Option Nat := none
  schedExit   : Bool := false
  lastData    : Nat := 0
  auditSeq    : Nat := 0
  reinject    : List Packet := []
  reinjTotal  : Nat := 0
  downAt      : Nat := 0
  looped      : Bool := false
  errBefore   : Bool := false
  turn        : Nat := 0
  alignIndex  : Nat := 0
  deriving DecidableEq, Repr

/-! ### Routing (file 05) -/

/-- A packet in the module, waiting for an output or to be delivered: where it came from, the pool its cells are in,
when its header came, and the quadrants it crosses to, in order, after the one it came in at (R14). -/
structure Arrival where
  id     : Nat
  pkt    : Packet
  from_  : Ingress
  vc     : Nat
  shared : Bool
  atc     : Nat
  len    : Nat
  replayOf : Option Nat := none
  path   : List Nat := []
  deriving DecidableEq, Repr

/-- What kind of hop a selection is (R128, R127, R125), or the hop of a failed port that another member of its entry
takes over (R112). -/
inductive HopKind where
  | minimal | nonMinimal | escape | detourFirst | again
  deriving DecidableEq, Repr

/-- A packet selected for a port and not yet sent: its hop, the VC of the hop, the dimension, the port-map entry of the port, when
it was selected, when ESC_WAIT ends for it, and the escape hop it is also eligible on once ESC_WAIT has passed (R131). -/
structure Selected where
  arr    : Arrival
  hop    : HopKind
  dim    : Nat
  vc     : Nat
  atc     : Nat
  entry  : Nat := 0
  escAt  : Nat := 0
  alsoOn : Option (Nat × HopKind × Nat × Nat) := none
  deriving DecidableEq, Repr

/-- The routing state of a port, beside its registers: the selected packets, the latest beacon, when it came, and the time in ns
at which it was stamped, by this module's clock; the beacon sequence, since when the port is usable and awake (R135), whether CABLE_ERR waits for a
training begun after it (R126), whether a detour was yet taken since the port went down (0x4031), and the
round-robin pointer of its output (R139). -/
structure RtePort where
  sel        : List Selected := []
  beacon     : Option Beacon := none
  beaconAt   : Nat := 0
  sentAt     : Int := 0
  beaconSeq  : Nat := 0
  freshFrom  : Nat := 0
  trainedSinceErr : Bool := false
  rr         : Nat := 0
  deriving DecidableEq, Repr

/-- Routing state of the module: arrived headers that await selection, local delivery queues by quadrant and TC
(key 4 × quadrant + TC), packets handed to engines, the second of the last discard with its count and the DISCARD_LIMIT it began
with, entries through which a detour was taken since their port went down. -/
structure Rte where
  arrivals  : List Arrival := []
  local_    : Tbl (List Arrival) := []
  inbox     : List Packet := []
  ports     : Tbl RtePort := []
  discSec   : Nat := 0
  discNum   : Nat := 0
  discLim   : Nat := 1000
  detoured  : List Nat := []
  deriving DecidableEq, Repr

/-! ### Translation (file 07) -/

/-- A complete translation of one page, as the caches hold it (R191): the page's input base and size in bytes, its
physical base, its IPA base, what the two leaves grant, and stage 1, PD_SUPER and W_X_EXCL of the PD as its walk had them (R195). -/
structure Trans where
  pd    : Nat
  va    : Nat
  size  : Nat
  pa    : Nat
  ipa   : Nat
  r1    : Bool
  w1    : Bool
  u1    : Bool
  s1    : Bool
  x1    : Bool
  r2    : Bool
  w2    : Bool
  dev1  : Bool
  dev2  : Bool
  lvl1  : Nat
  lvl2  : Nat
  s1On  : Bool
  super_ : Bool
  wxExcl : Bool
  deriving DecidableEq, Repr

/-- A protection domain as loaded (R178). -/
structure Pd where
  slot   : Nat
  s1En   : Bool
  s1Root : Nat
  vmid   : Nat
  func   : Nat
  super_ : Bool
  wxExcl : Bool
  deriving DecidableEq, Repr

/-- A VMID as loaded (R179). -/
structure Vmid where
  slot   : Nat
  s2En   : Bool
  s2Root : Nat
  deriving DecidableEq, Repr

/-- A translation fault: stage 1 or 2, level, kind (0 not valid, 1 rights, 2 walk read error, 3 walk in device
region), and the faulting input address (R185). -/
structure XFault where
  stage : Nat
  level : Nat
  kind  : Nat
  addr  : Nat
  deriving DecidableEq, Repr

/-- What a host access is for: the operation that waits on it. -/
inductive Purpose where
  | ringHeader (ring : Nat) (db : Nat) (pos : Nat)
  | ringBody (ring : Nat) (db : Nat) (pos : Nat) (header : List Byte)
  | completion (ring : Nat)
  | consWb (ring : Nat)
  | range (cx : Nat) (uid : Nat)
  | payload (cx : Nat) (uid : Nat) (offset : Nat)
  | place (cx : Nat) (inst : Nat) (psn : Nat)
  | flagWrite (cx : Nat) (inst : Nat) (psn : Nat)
  | matPlace (mid : Nat) (n : Nat) (fin : Bool) (cx inst psn : Nat)
  | collSource (grp : Nat) (rank : Nat) (opSeq : Nat) (chunk : Nat)
  | collDest (grp : Nat) (rank : Nat) (opSeq : Nat) (chunk : Nat)
  | rankTable (grp : Nat)
  | atomicOperand (slot : Nat) (src : Nat) (tag : Nat)
  | atomicAddr (slot : Nat) (src : Nat) (tag : Nat)
  | atomicResult (ring : Nat) (seq : Nat) (value : Nat)
  | eventWord (lock : Nat)
  | exporting (fnKey : Nat)
  | stream (n : Nat)
  | walk (id : Nat)
  deriving DecidableEq, Repr

/-- A host access that is being translated: its slot, PD, address and length, its access kind (Table 7-3), the
bytes to write (none for a read), the translations that walks have fetched for it, and its purpose. -/
structure HostOp where
  slot    : Nat
  func    : Nat
  pd      : Nat
  va      : Nat
  len     : Nat
  kind    : Nat
  data    : Option (List Byte)
  got     : List Trans := []
  purpose : Purpose
  deriving DecidableEq, Repr

/-- An entry of a walk cache (R191): a stage-1 non-leaf entry of a PD, or a stage-2 leaf of a VMID, with its level and the
bits of the input address above that level's offset. -/
structure WalkEntry where
  stage2 : Bool
  owner  : Nat
  lvl    : Nat
  tag    : Nat
  slot   : Nat
  entry  : BitVec 64
  deriving DecidableEq, Repr

/-- Where a walk stands (R185): reading a stage-1 entry, or walking stage 2 for the table of stage-1 level `lvl1`,
or walking stage 2 for the output. -/
inductive WalkAt where
  | stage1 (lvl : Nat)
  | stage2Table (lvl1 lvl : Nat)
  | stage2Out (lvl : Nat)
  deriving DecidableEq, Repr

/-- A walk in flight (R185, R186): its PD as it was when the walk began, the page address, where it stands, the table
it reads from, the IPA being translated, the stage-1 leaf once found, the operations that wait on it, whether an
invalidation has barred its result from the caches (R193), and whether it is an audit walk (R196) of a cached
translation. -/
structure Walk where
  id     : Nat
  quad   : Nat
  pdNum  : Nat
  pd     : Pd
  vm     : Vmid
  va     : Nat
  kind   : Nat
  atc     : WalkAt
  table  : Nat
  ipa    : Nat
  leaf1  : Option (BitVec 64 × Nat)
  waiters : List HostOp
  nocache : Bool := false
  audit  : Option Trans := none
  result : Option (Option Trans × Option XFault) := none
  deriving DecidableEq, Repr

/-- An invalidation in progress (R192, R193): its number, the slot and the function that asked, what it covers, the walks and host reads it waits for, and what those walks gave to the accesses that started them. -/
structure Inval where
  id      : Nat
  slot    : Nat
  fn      : Nat
  scope   : Nat
  target  : Nat
  addr    : Nat
  pages   : Nat
  walks   : List Nat
  reads   : List Nat
  implicit : Bool
  took    : List Trans := []
  deriving DecidableEq, Repr

/-- Translation state: PDs and VMIDs as loaded, the translation cache of each quadrant by position, the micro-TLBs by
engine, the walk caches, walks, accesses that wait for a walk slot, invalidations by number, the audit position of each
quadrant and the positions it still owes, the translations Ladybird has reported, the next way of each set to fill, the cycle at
which the next audit period begins, and the cached translations and walk-cache entries that a parity error has struck. -/
structure Xlt where
  pds      : Tbl Pd := []
  vmids    : Tbl Vmid := []
  cache    : Tbl (Tbl Trans) := []
  utlb     : Tbl (List Trans) := []
  walkCache : Tbl (List WalkEntry) := []
  walks    : List Walk := []
  waiting  : List HostOp := []
  invs     : Tbl Inval := []
  auditPos : Tbl Nat := []
  auditing : Tbl Nat := []
  reported : List (Nat × Trans) := []
  nextPos  : Tbl Nat := []
  auditDue : Nat := 20000000
  badTrans : List (Nat × Trans) := []
  badWalk  : List (Nat × WalkEntry) := []
  deriving DecidableEq, Repr

/-! ### Host side (file 06) -/

/-- A host read not yet answered. One that is not yet `sent` waits for one of its port's 4,096 outstanding reads (Table 6-1). -/
structure HostRead where
  id      : Nat
  op      : HostOp
  segs    : List (Nat × Nat)
  atc      : Nat
  walk    : Option Nat := none
  sent    : Bool := true
  deriving DecidableEq, Repr

/-- A function: D3hot, Bus Master Enable, PME_En and PME_Status, its unmasked vectors, its PBA bits and the vectors
held in D3hot, whether its inbound work is barred since a reset (Table 6-15), whether its interrupts wait until its held completions are
written (R170), the Completion Timeout Value of Device Control 2 (R466), and the address and data that its MSI-X table gives a vector
(Table 6-2). -/
structure Func where
  d3     : Bool := false
  bme    : Bool := false
  pmeEn  : Bool := true
  pmeSts : Bool := false
  unmasked : List Nat := []
  pba    : List Nat := []
  held   : List Nat := []
  barred : Bool := false
  late   : Bool := false
  ctv    : Nat := 0
  msgs   : Tbl (Nat × Nat) := []
  deriving DecidableEq, Repr

/-- A work entry handed to an engine, or waiting on one, until its completion is written: its ring, its place in ring
order, its granule position, and the entry. -/
structure Work where
  ring    : Nat
  seq     : Nat
  entry   : Entry
  started : Bool := false
  deriving DecidableEq, Repr

/-- A work ring as created (R153, R171) and as it runs (R157). `rdDb` is the doorbell count that its latest header read carried. `st`: 0 FREE, 1 ACTIVE, 2 DRAINING, 3 ERROR,
4 PAUSED as WR_STATE codes them. -/
structure WorkRing where
  slot     : Nat
  func     : Nat
  base     : Nat
  sizeLog2 : Nat
  txe      : Nat
  super_   : Bool
  wbEn     : Bool
  wbAddr   : Nat
  pd       : Nat
  page     : Nat
  schq     : Nat
  defCr    : Nat
  st       : Nat := 1
  pos      : Nat := 0
  phase    : Bool := true
  db       : Nat := 0
  rdDb     : Nat := 0
  scanning : Bool := false
  reading  : Bool := false
  turn     : Nat := 0
  seq      : Nat := 0
  fenceAt  : Option Nat := none
  drainStop : Bool := false
  paused   : Bool := false
  recvHold : Bool := false
  deriving DecidableEq, Repr

/-- A completion entry (Table 6-12), before COMP_TS, WR_CONS and PHASE are filled in at its write. -/
structure Compl where
  workId  : Nat
  opcode  : Nat
  status  : Nat
  ring    : Nat
  data    : Nat
  length  : Nat
  peer    : Nat
  detail  : Nat
  solicit : Bool
  pd      : Nat
  deriving DecidableEq, Repr

/-- A completion ring as created (R161) and as it runs (R164, R168): `held` are its completions in the overflow store, `xq` those before
them that wait only for the translation of the first, `late` says that its interrupt is evaluated only once what was held is written,
and `urgent` that one of these asked for it (R170). -/
structure ComplRing where
  slot     : Nat
  func     : Nat
  base     : Nat
  sizeLog2 : Nat
  twoWrite : Bool
  polled   : Bool
  vector   : Nat
  page     : Nat
  modTime  : Nat
  modCount : Nat
  overflow : Bool := false
  tail     : Nat := 0
  head     : Nat := 0
  armed    : Bool := true
  unsig    : Nat := 0
  timer    : Option Nat := none
  held     : List Compl := []
  xq       : List Compl := []
  xwait    : Bool := false
  late     : Bool := false
  urgent   : Bool := false
  deriving DecidableEq, Repr

/-- Host-side state: functions (key 256 × slot + function), rings, TXE waiting lists (key 16 × quadrant + TXE), work in
flight, outstanding reads, completions held for a sleeping function go to their ring's `held`, the GEN_MAX in force at each
host port, the ports whose PERST_N is low and those whose reference clock is the common one (R455), a number above
every place in ring order that a destroyed ring gave out, the doorbell count that a new ring starts from, and the slots whose VF Enable
is set. -/
structure Hif where
  funcs    : Tbl Func := []
  wrs      : Tbl WorkRing := []
  crs      : Tbl ComplRing := []
  waiting  : Tbl (List Nat) := []
  work     : List Work := []
  reads    : List HostRead := []
  perst    : Tbl Bool := []
  gens     : Tbl Nat := []
  common   : Tbl Bool := []
  seqBase  : Nat := 0
  dbBase   : Nat := 0
  vfOn     : Tbl Bool := []
  deriving DecidableEq, Repr

/-! ### Connections (file 08) -/

/-- A memory window (R213): VALID, or disabled and kept until the messages validated before have finished. -/
structure Window where
  slot  : Nat
  pd    : Nat
  func  : Nat
  base  : Nat
  len   : Nat
  rd    : Bool
  wr    : Bool
  atm   : Bool
  peer  : Option Nat
  valid : Bool
  deriving DecidableEq, Repr

/-- Whose message it is: nobody's, a work's (its ring and place), a GET's, or a receive's that pulls. -/
inductive Owner where
  | none
  | work (ring seq : Nat)
  | get (uid : Nat)
  | recv (mid : Nat)
  deriving DecidableEq, Repr

/-- Where a message's payload comes from: it has none or holds it already, or it is read from host memory (PD, function,
address, access kind of Table 7-3). `whole` asks for the whole range to translate before anything is sent. -/
inductive MsgSrc where
  | held
  | host (pd func addr kind : Nat) (whole : Bool)
  deriving DecidableEq, Repr

/-- A message of a TX half that is not yet complete: its own number in the model; its MSN once assigned (R202); kind,
lengths, TC, FLOW, MIN_ONLY and operation area of its packets; its injection queue (none: SYSQ); its owner;
its payload's source, the payload by offset as fetched, the offsets being read; whether its first page is translated, so
that it may take an MSN; from which offset its packets carry POISON; its first PSN and how many packets were offered; when
its first packet was injected; MSG_TS (R239); the RESULT received for it; whether an ACK covers it; the status that the
other message of its work left (R222). -/
structure TxMsg where
  uid     : Nat
  msn     : Option Nat := .none
  kind    : Nat
  total   : Nat
  count   : Nat
  tc      : Nat
  flow    : Nat
  minOnly : Bool
  op      : RsxOp
  queue   : Option Nat
  owner   : Owner
  src     : MsgSrc
  data    : Tbl (List Byte) := []
  reading : List Nat := []
  ready   : Bool := false
  poison  : Option Nat := .none
  psn0    : Option Nat := .none
  sent    : Nat := 0
  firstAt : Option Nat := .none
  msgTs   : Option Nat := .none
  result  : Option (Nat × Nat) := .none
  acked   : Bool := false
  carry   : Option (Nat × Nat) := .none
  deriving DecidableEq, Repr

/-- A message slot of an RX half (R214, R216): the fields of the packet that arrived first, the indices of the packets
whose work is finished, the fault that ended it, its window, the payload of a flag that is held (R217), and its message of
matching. -/
structure RxMsg where
  msn    : Nat
  kind   : Nat
  total  : Nat
  count  : Nat
  op     : RsxOp
  psn0   : Nat
  src    : Nat
  tc     : Nat
  fin    : List Nat := []
  fault  : Option (Nat × Nat) := none
  win    : Option Nat := none
  flag   : Option (List Byte) := none
  mat    : Option Nat := none
  deriving DecidableEq, Repr

/-- The TX half of a context (Table 8-1). Times are CORECLK cycles. `met` and `downOnly`: the present round met PEER_DOWN,
and so did every round since the last progress (R225). `owdWin`: BASE_WIN of the running period, in ms. `rnrUntil`: the
holds of reason 2 or 3 NAKs, each with its end and PSN; `rnrHeld`: since when each such PSN has been held. `offered`: first
copies that wait in the injection FIFO `via` (R202, R304). -/
structure TxHalf where
  epoch    : Nat
  openTs   : Nat
  opening  : Bool := true
  nextPsn  : Nat := 0
  una      : Nat := 0
  nextMsn  : Nat := 0
  cwnd     : Nat
  owdCur   : Option Nat := none
  owdPrev  : Option Nat := none
  owdAt    : Nat
  owdWin   : Nat := 10
  decUntil : Option Nat := none
  timer    : Option Nat := none
  rounds   : Nat := 0
  met      : Bool := false
  downOnly : Bool := true
  rp       : Option Nat := none
  rnrUntil : List (Nat × Nat) := []
  rnrHeld  : Tbl Nat := []
  faults   : Nat := 0
  lastCnt  : Nat := 0
  offered  : Nat := 0
  via      : Nat := 0
  msgs     : List TxMsg := []
  deriving DecidableEq, Repr

/-- The RX half of a context (Table 8-1): its own number in the model; the instance; LAST_RX_TS; EPSN, DONE_PSN, the PSNs
received at or above EPSN with their INJ_TS, the PSNs above DONE_PSN whose work is finished; the NAK outstanding; FAULT_CNT;
the message slots; packets accepted since the last ACK, when an ACK is due for one that waits and for a DONE_PSN ahead of the last
ACK; the last OWD; the lowest MSN not finished with the finished ones above it (R217), and the
faults of messages whose successor has not finished; the lowest MSN not yet passed in
matching order with the seen ones above it (R241). -/
structure RxHalf where
  inst     : Nat
  epoch    : Nat
  openTs   : Nat
  lastTs   : Nat
  epsn     : Nat := 0
  done     : Nat := 4294967295
  bits     : Tbl Nat := []
  fin      : List Nat := []
  nakFor   : Option Nat := none
  nakAt    : Nat := 0
  faultCnt : Nat := 0
  msgs     : List RxMsg := []
  sinceAck : Nat := 0
  ackOld   : Option Nat := none
  ackDone  : Option Nat := none
  owd      : Nat := 0
  finMsn   : Nat := 0
  finished : List Nat := []
  faulted  : Tbl (Nat × Nat) := []
  passMsn  : Nat := 0
  seen     : List Nat := []
  deriving DecidableEq, Repr

/-- A connection context: local slot, peer, the EPOCH last used (R203), both halves, LAST_ACT in ns. -/
structure Ctx where
  slot    : Nat
  peer    : Nat
  txEp    : Option Nat := none
  tx      : Option TxHalf := none
  rx      : Option RxHalf := none
  left    : List TxMsg := []
  lastAct : Nat
  deriving DecidableEq, Repr

/-- A GET this end awaits (R218): its connection, the message of its READ_REQ and the MSN that message last had, its ring
and work, where its data goes and in which PD, its length. -/
structure GetOut where
  uid   : Nat
  cx    : Nat
  msn   : Option Nat
  ring  : Nat
  seq   : Nat
  pd    : Nat
  func  : Nat
  addr  : Nat
  total : Nat
  deriving DecidableEq, Repr

/-- Connection state: windows, contexts (key slot × 2^20 + peer), GETs outstanding, the EPOCH_SEED of each quadrant, work
held for a context entry (R205), and by quadrant the contexts in the on-die cache, the last used first (R202). -/
structure Cxn where
  windows : Tbl Window := []
  ctxs    : Tbl Ctx := []
  gets    : List GetOut := []
  seeds   : Tbl Nat := []
  waiting : List (Nat × Nat) := []
  cache   : Tbl (List Nat) := []
  deriving DecidableEq, Repr

/-! ### Matching (file 09) -/

/-- A posted receive (R230 to R236). `order` is its place in the domain's posting order, of which POST_SEQ is the low 32
bits. -/
structure Recv where
  ring    : Nat
  seq     : Nat
  workId  : Nat
  order   : Nat
  domain  : Nat
  src     : Option Nat
  bits    : Nat
  ignore  : Nat
  addr    : Nat
  cap     : Nat
  pd      : Nat
  func    : Nat
  deriving DecidableEq, Repr

/-- A match domain (R230). It stays, not ACTIVE, until the last message bound before a DISABLE finishes (R252). -/
structure Domain where
  slot     : Nat
  func     : Nat
  commBits : Nat
  active   : Bool
  nextPost : Nat
  deriving DecidableEq, Repr

/-- Where a two-sided message stands in matching (R241, R242, R236, R235). -/
inductive MatState where
  | held
  | unexpected
  | bound (r : Recv)
  deriving DecidableEq, Repr

/-- A two-sided message at the receiver: its own number in the model, connection and instance, MSN, first PSN and packet
count, source, domain, match bits, ORDER_TS, length, whether it is an RTS and its SEND_LEN, its state, stored bytes by
offset, bytes of the message placed or discarded and bytes placed, whether a packet carried POISON, the fault that ended
its placement, the PULL_REQ sent for it with its MSN, and whether its receive's completion was written. -/
structure MatMsg where
  id      : Nat
  cx      : Nat
  inst    : Nat
  msn     : Nat
  psn0    : Nat
  count   : Nat
  src     : Nat
  domain  : Nat
  bits    : Nat
  orderTs : Nat
  total   : Nat
  rts     : Bool
  sendLen : Nat
  st      : MatState
  store   : Tbl (List Byte) := []
  took    : Nat := 0
  placed  : Nat := 0
  poison  : Bool := false
  fault   : Option (Nat × Nat) := none
  pull    : Option Nat := none
  pullMsn : Option Nat := none
  closed  : Bool := false
  deriving DecidableEq, Repr

/-- A rendezvous SEND that waits for its pull at the sender (R246). -/
structure PendSend where
  uid    : Nat
  cx     : Nat
  msn    : Option Nat
  ring   : Nat
  seq    : Nat
  pd     : Nat
  func   : Nat
  addr   : Nat
  len    : Nat
  deriving DecidableEq, Repr

/-- Matching state: domains, posted receives in posting order, messages, pending rendezvous SENDs, RECVs held at the
posted limit (R250), the second in which FS83 was last raised by quadrant (R251), UNX_QUAD_MAX in force at the last exit
from CONFIG. -/
structure Mat where
  domains : Tbl Domain := []
  posted  : List Recv := []
  msgs    : List MatMsg := []
  sends   : List PendSend := []
  heldRecv : List Recv := []
  unxSec  : Tbl Nat := []
  unxMax  : Option Nat := none
  deriving DecidableEq, Repr

/-! ### Collectives (file 10) -/

/-- A chunk on an edge (R272 to R274): its ESN, whether it goes up, its operation's parameters, its index, whether it is
the last, FP flags, payload, and the INJ_TS it came with. -/
structure CollChunk where
  esn      : Nat
  up       : Bool
  opSeq    : Nat
  op       : Nat
  promoted : Bool
  last     : Bool
  dtype    : Nat
  redop    : Nat
  count    : Nat
  root     : Nat
  chunk    : Nat
  flags    : Nat
  data     : List Byte
  injTs    : Nat := 0
  deriving DecidableEq, Repr

/-- An edge of a local rank, both directions (R274, R275, R277): the peer's EID; sending: the next ESN, CUM, the chunks not
credited, rounds without progress, the RTO timer; receiving: CUM, the chunks held, frees not yet reported, when a credit is
due, the ESN last NAKed and when; aborting: when the ABORT is resent, how often it was sent, whether the neighbour has sent
any. -/
structure CollEdge where
  eid     : Nat
  sNext   : Nat := 0
  sCum    : Nat := 0
  kept    : List CollChunk := []
  rounds  : Nat := 0
  timer   : Option Nat := none
  rCum    : Nat := 0
  slots   : List CollChunk := []
  freed   : Nat := 0
  credit  : Option Nat := none
  nakFor  : Option Nat := none
  nakAt   : Nat := 0
  abortAt : Option Nat := none
  aborts  : Nat := 0
  answered : Bool := false
  deriving DecidableEq, Repr

/-- An operation that a local rank has posted (R261 to R264): OP_SEQ, the work, its parameters, buffers, when it was posted;
up chunks wholly handled, the accumulator of the chunk in hand (bytes, flags, children folded), whether its own part is
being read; at rank 0 the result not yet sent down, its flags and how many down chunks were made; down chunks issued
locally; the flags of what was placed; the last chunk sent on which edge (R264). -/
structure CollOp where
  seq     : Nat
  ring    : Nat
  work    : Nat
  op      : Nat
  dtype   : Nat
  redop   : Nat
  promote : Bool
  root    : Nat
  count   : Nat
  src     : Nat
  dst     : Nat
  pd      : Nat
  func    : Nat
  post    : Nat
  up      : Nat := 0
  acc     : Option (List Byte × Nat × Nat) := none
  reading : Bool := false
  result  : List Byte := []
  resFlags : Nat := 0
  made    : Nat := 0
  down    : Nat := 0
  flags   : Nat := 0
  sent    : Option (Nat × Nat) := none
  deriving DecidableEq, Repr

/-- A down chunk that a rank is issuing (R274, R276): the chunk, the edge and slot it came from (none at rank 0), whether it
is for the local buffer and whether that write waits, and to how many of the neighbours it goes on to it has been sent. -/
structure CollDown where
  c        : CollChunk
  from_    : Option Nat
  localDue : Bool
  waiting  : Bool := false
  kids     : Nat := 0
  deriving DecidableEq, Repr

/-- A local rank: its number and slot, parent, children in ascending rank, NEXT_OP_SEQ, DONE_OP_SEQ, its operations in
OP_SEQ order, the down chunk in hand. -/
structure CollRank where
  rank     : Nat
  slot     : Nat
  parent   : Option Nat
  children : List Nat
  nextSeq  : Nat := 0
  doneSeq  : Nat := 65535
  ops      : List CollOp := []
  down     : Option CollDown := none
  deriving DecidableEq, Repr

/-- A group (R257 to R260): the slot that created it, its PD and function, home quadrant, GEN, WINDOW, N; whether its table
is being read; every member's EID by rank; the local ranks; edges by (rank × 2^20 + peer) × 2 + X; the abort reason; after DESTROY,
the completions then due, as completion ring and WORK_ID (R278). -/
structure CollGroup where
  slot    : Nat
  pd      : Nat
  func    : Nat
  homeQ   : Nat
  gen     : Nat
  window  : Nat
  size    : Nat
  reading : Bool
  eids    : List Nat := []
  ranks   : List CollRank := []
  edges   : Tbl CollEdge := []
  aborted : Option Nat := none
  dying   : Option (List (Nat × Nat)) := none
  deriving DecidableEq, Repr

/-! ### Locks and atomics (file 11) -/

/-- A lock at its home (R282): its holder as (EID, REQ_TAG), the ORPHANED marking, whether the grant in force carried it,
GEN, the lease due time of a remote holder (HGT), when GRANTED is resent, the waiters, and the event records that are not
yet issued, with whether the first waits for its translation (R293). -/
structure Lock where
  held    : Option (Nat × Nat) := none
  orphan  : Bool := false
  carried : Bool := false
  gen     : Nat := 0
  lease   : Option Nat := none
  resend  : Option Nat := none
  waiters : List (Nat × Nat) := []
  records : List (List Byte) := []
  recWait : Bool := false
  deriving DecidableEq, Repr

/-- Where a lock of the held list stands (R283, R285, R292). -/
inductive HoldState where
  | waiting | held | releasing | lost
  deriving DecidableEq, Repr

/-- An entry of the held list of a quadrant (R283): the acquire's REQ_TAG, the function, the lock's DA and LOCK_ID, where it
stands, GEN, when it is next renewed (R290). -/
structure HeldLock where
  q    : Nat
  tag  : Nat
  slot : Nat
  fn   : Nat
  da   : Nat
  lock : Nat
  st   : HoldState
  gen  : Nat := 0
  renew : Option Nat := none
  deriving DecidableEq, Repr

/-- A request of the requester side that is not finished (R286, R288, R297): its quadrant and REQ_TAG; the work; where it
goes and what it says; copies resent; when the next copy, the probe or the copy after BUSY is due; since when BUSY has
answered; when TIMEOUT falls due; whether every sending met PEER_DOWN; whether it now withdraws its acquire, and with which
status the work then ends. -/
structure LkReq where
  q      : Nat
  tag    : Nat
  ring   : Nat
  seq    : Nat
  slot   : Nat
  dst    : Nat
  kind   : Nat
  hdr    : LkuHdr
  flow   : Nat
  minOnly : Bool
  queue  : Nat
  resends : Nat := 0
  due    : Option Nat := none
  probe  : Option Nat := none
  busy   : Option Nat := none
  busySince : Option Nat := none
  timeout : Option Nat := none
  allDown : Bool := true
  withdraw : Option Nat := none
  resultAddr : Nat := 0
  deriving DecidableEq, Repr

/-- Where an atomic at its target stands (R296, R297). -/
inductive AtState where
  | translating | queued | reading | done
  deriving DecidableEq, Repr

/-- An atomic at its target, and then its result until AT_ACK (R296, R297): the initiator's EID and REQ_TAG, the local slot,
the operation, the window's PD and function, the address, the physical pieces once translated, its state, STATUS, DETAIL
and the fetched value, and when it was done. -/
structure AtEntry where
  src    : Nat
  tag    : Nat
  slot   : Nat
  aop    : Nat
  size   : Nat
  pd     : Nat
  func   : Nat
  va     : Nat
  op1    : Nat
  op2    : Nat
  segs   : List (Nat × Nat) := []
  st     : AtState
  status : Nat := 0
  detail : Nat := 0
  value  : Nat := 0
  doneAt : Nat := 0
  deriving DecidableEq, Repr

/-- Lock and atomic state: locks by LOCK_ID, the held list, requests outstanding, the next REQ_TAG of each quadrant,
atomics, acquires held for a held-list entry (R283), the second in which FS86 was last raised by quadrant. -/
structure Lka where
  locks   : Tbl Lock := []
  held    : List HeldLock := []
  reqs    : List LkReq := []
  tags    : Tbl Nat := []
  atoms   : List AtEntry := []
  waiting : List (Nat × Nat) := []
  fullSec : Tbl Nat := []
  deriving DecidableEq, Repr

/-! ### Injection scheduling (file 12) -/

/-- A packet offered to the scheduler (R301, R304): the packet; for a packet of a connection its context and message;
MSG_TS where the packet carries AGE (R239); whether it has been counted in GATE_WAITS. -/
structure Offer where
  pkt    : Packet
  tx     : Option (Nat × Nat) := none
  msgTs  : Option Nat := none
  waited : Bool := false
  deriving DecidableEq, Repr

/-- A member of an active list (R307): a TC, a group or SYSQ, or a queue; its deficit; whether it has been credited on
this visit. -/
structure DrrMember where
  m        : Nat
  deficit  : Nat := 0
  credited : Bool := false
  deriving DecidableEq, Repr

/-- A member parked on a wheel (R309): a queue, a group, or the TC3 limiter; the slot's end or, on the coarse wheel, its
start, in fs of CORECLK time; and the eligible time. -/
structure Parked where
  key    : Nat
  coarse : Bool
  due    : Nat
  t      : Nat
  deriving DecidableEq, Repr

/-- An entry of a gate list (R310): DURATION in ns and the OPEN mask. -/
structure GateEntry where
  ns   : Nat
  open_ : Nat
  deriving DecidableEq, Repr

/-- A gate list in force, with its base in HGT LSBs and its cycle in ns (R310, R313). -/
structure GateList where
  entries : List GateEntry := [{ ns := 1000000, open_ := 15 }]
  base    : Nat := 0
  cycle   : Nat := 1000000
  deriving DecidableEq, Repr

/-- Scheduler state: the FIFOs of queues by TC and those of SYSQ; the active lists; the group each queue is in; eligible
times of rate-limited members (fs); the members parked; the cycle of each quadrant's last grant; the gate list in
force; the armed swap's time and the HGT of its arming. -/
structure Sch where
  fifo    : Tbl (List Offer) := []
  drr     : Tbl (List DrrMember) := []
  groupOf : Tbl Nat := []
  elig    : Tbl Nat := []
  parked  : Tbl (List Parked) := []
  last    : Tbl Nat := []
  gates   : GateList := {}
  swapAt  : Option (Nat × Nat) := none
  deriving DecidableEq, Repr

/-! ### Tables and maintenance (file 13) -/

/-- The identity of a loaded table (Table 1-7). -/
structure ClsTable where
  variant : Nat
  version : Nat
  steps   : Nat
  deriving DecidableEq, Repr

/-- A swap in progress (R321): the variant; the role that asked for it; the table loaded into STANDBY once its checks have passed; whether Hive has let
it start. -/
structure Swap where
  variant : Nat
  role    : Nat
  started : Bool := true
  loaded  : Option ClsTable := none
  deriving DecidableEq, Repr

/-- Maintenance state: the ACTIVE table and the variants available by class; swaps by class; the address each stack's patrol
reads next, when it read last, the banks it skipped because they were under repair, when its pass began with the REPAIR_THRESH of that
moment, whether its overrun was recorded; corrected words of the hour by stack, with the hour
and the CORR_LIMIT it began with; rows with corrected words (row, passes in a row, last pass); passes by stack; poisoned HBM and SRAM words;
repairs running by stack (address), waiting, and done (kept in MRAM); spare rows used by bank; the selection
each class's last swap stored (R319); the temperature crossings in force (0 alert, 1 critical; sensor); when Cicada last sampled. -/
structure Seqr where
  tables  : Tbl ClsTable := []
  avail   : Tbl Nat := []
  swaps   : Tbl Swap := []
  patrol  : Tbl Nat := []
  readAt  : Tbl Nat := []
  skipped : Tbl (List Nat) := []
  passAt  : Tbl (Nat × Nat) := []
  overran : List Nat := []
  pass    : Tbl Nat := []
  corr    : Tbl (Nat × Nat × Nat) := []
  rows    : Tbl (Nat × Nat) := []
  poison  : List Nat := []
  sramBad : List (Nat × Nat) := []
  repairs : Tbl Nat := []
  repairQ : List Nat := []
  repaired : List Nat := []
  spares  : Tbl Nat := []
  stored  : Tbl Nat := []
  hot     : List (Nat × Nat) := []
  sampleAt : Nat := 0
  deriving DecidableEq, Repr

/-! ### Power entry (file 14) -/

/-- What no register holds of a feed: when its state began, when its fault timer expires, since when its FEED_EN pin has
been low and its VIN below 37 V (R343, R344). -/
structure FeedSt where
  since  : Nat := 0
  timer  : Option Nat := none
  pinLow : Option Nat := some 0
  vinLow : Option Nat := some 0
  deriving DecidableEq, Repr

/-- Power-entry state: the feeds; since when the PGOOD conditions have held; the rail groups that have started, when the
last one did, and whether they go down; whether a rail failed to start (R349); since when both feeds have been down; the input
energy below a millijoule, in units of 0.05 nJ, and when it was last added up; the values PWR_LIMIT had before the writes of the last
second, with the writes' cycles; Cicada's input powers of the last second, with their cycles (R351). -/
structure Pwr where
  feeds  : Tbl FeedSt := []
  goodAt : Option Nat := none
  groups : Nat := 0
  groupAt : Nat := 0
  falling : Bool := false
  stuck  : Bool := false
  bothAt : Option Nat := some 0
  nj     : Nat := 0
  sampleAt : Nat := 0
  limits : List (Nat × Nat) := []
  powers : List (Nat × Nat) := []
  deriving DecidableEq, Repr

/-! ### Counters (file 19) -/

/-- A stream (R446): the function that enabled it, SEQ, when its next record is due. -/
structure Stream where
  slot : Nat
  seq  : Nat
  due  : Nat
  deriving DecidableEq, Repr

/-- Counter-bank state: the banks that count, overflows whose interrupt is not yet posted (bank, counter, cycle), the cycle of each
counter's last overflow (under 8b + k), SNAP_TIME of the armed snapshot, streams that run. -/
structure Pmc where
  on      : List Nat := []
  due     : List (Nat × Nat × Nat) := []
  wrapped : Tbl Nat := []
  snapAt  : Option Nat := none
  streams : Tbl Stream := []
  deriving DecidableEq, Repr

/-! ### Faults (file 16) -/

/-- A handling (R382, R383): its first source, the severity applied, its sources in order of first detection, MERGED, ESCALATED, LIST_FULL, FORCED, unit, detail, mode and HGT at detection. -/
structure Handling where
  first     : Nat
  sev       : Nat
  list      : List Nat
  merged    : Nat
  escalated : Bool
  listFull  : Bool
  forced    : Bool
  unit      : FUnit
  detail    : Nat
  mode      : Nat
  hgt       : Nat
  deriving DecidableEq, Repr

/-- Fault-collector state: detections on their way (oldest first), active kind-L conditions, the cycle of the latest
detection of each source (R430; under 1000 + s of the containment of slot s, under 2000 + n of the fault of rail n), the open handling, the handling last closed (its captures stay), whether
FLT_ACK has been written since the last SAFE or LOCKOUT reaction completed (R385), when the next self-check is due (R377). -/
structure Flt where
  wires    : List Detection := []
  active   : List (Nat × FUnit) := []
  lastSet  : Tbl Nat := []
  handling : Option Handling := none
  last     : Option Handling := none
  acked    : Bool := false
  checkAt  : Nat := 0
  deriving DecidableEq, Repr

/-! ### Event recorder (file 17) -/

/-- What the body of a record holds: nothing; the facts of an event whose layout the spec does not give; bytes 32
onward (without the trailer) of a record whose layout it gives; or a fault record (Table 16-7). -/
inductive RecBody where
  | plain (facts : List Nat)
  | bytes (b : List Byte)
  | fault (h : Handling) (open_ : Bool) (modeClose closeTs reactTs : Nat)
  deriving DecidableEq, Repr

/-- A record (Table 17-2). `seq`, `place` (its MRAM offset) and `keep` are fixed at acceptance (R391). -/
structure Rec where
  code     : Nat
  sev      : Nat
  role     : Nat
  origin   : Nat
  aonStamp : Bool
  hgt      : Nat
  body     : RecBody
  seq      : Nat := 0
  place    : Nat := 0
  keep     : Bool := false
  reloc    : Bool := false
  reserved : Bool := false
  amended  : Bool := false
  boot     : Nat := 0
  deriving DecidableEq, Repr

/-- A token bucket (R397): credit in units of 1 / 16,000,000,000 of a token, and the AON HGT it was settled at. -/
structure Bucket where
  credit : Nat
  atc     : Nat
  deriving DecidableEq, Repr

/-- Where an accepted record stands in MRAM. -/
structure RecAt where
  seq   : Nat
  place : Nat
  len   : Nat
  deriving DecidableEq, Repr

/-- A register write that waits for its 0x9001 record to be accepted (R428), with the writes behind it; `mask` has the bits of the
register that it writes. A `read` is a read of an AON window, which returns only after the function's earlier AON writes (R429). -/
structure StalledWrite where
  req  : Requester
  off  : Nat
  val  : Word
  mask : Word := 0xFFFFFFFF#32
  read : Bool := false
  deriving DecidableEq, Repr

/-- What RD_BUF of a function holds and how the last copy ended (R400). -/
structure RdBuf where
  bytes  : List Byte := []
  done   : Bool := false
  open_  : Bool := false
  len    : Nat := 0
  result : Nat := 0
  deriving DecidableEq, Repr

/-- An export (R401): whether it runs, and what it reports. `upTo` is the NEXT_SEQ held when it started, `next` the
record it comes to next, `atc` the address; `wait` while its next write waits for a translation. -/
structure Export where
  busy  : Bool := false
  gap   : Bool := false
  err   : Nat := 0
  next  : Nat := 0
  bytes : Nat := 0
  upTo  : Nat := 0
  atc    : Nat := 0
  limit : Nat := 0
  pd    : Nat := 0
  wait  : Bool := false
  deriving DecidableEq, Repr

/-- Recorder and ledger state: NEXT_SEQ; the queue, the records held under R394 and those whose producer waits; where
each accepted record in use stands, in SEQ order; the write positions; LOST counts; suppressed records by
code (count, first stamp); buckets by code and of the codes never recorded; stalled writes; RD_BUF and exports
by function; the ledger's count and its checks; the fault record still open, and the amended records that the end of the command copies over the old ones in MRAM. -/
structure Evr where
  nextSeq   : Nat := 0
  queue     : List Rec := []
  held      : List Rec := []
  waiting   : List Rec := []
  where_    : List RecAt := []
  keepNext  : Nat := 0
  keepFull  : Bool := false
  ringNext  : Nat := 0
  lostNow   : Nat := 0
  lostAt    : Nat := 0
  supp      : Tbl (Nat × Nat) := []
  buckets   : Tbl Bucket := []
  dflt      : Option Bucket := none
  stalled   : List StalledWrite := []
  bufs      : Tbl RdBuf := []
  exports   : Tbl Export := []
  ledger    : Nat := 0
  verBusy   : Bool := false
  verBad    : Bool := false
  verPos    : Nat := 0
  verAt     : Nat := 0
  verFrom   : Nat := 0
  openRec   : Option Rec := none
  amends    : List Rec := []
  deriving DecidableEq, Repr

/-! ### Modes, boot (file 15) -/

/-- Boot and mode state that no register holds: whether the boot reached the end of its ATTEST steps (R370), whether
it stands in recovery (R368), when PGOOD rose, when TRAIN
and DRAIN were entered, whether DRAINED was recorded since, the versions measured, and measurement 9 as it was taken last
(R411; empty before the first). -/
structure Boot where
  attestOk   : Bool := false
  recovery   : Bool := false
  lockMarker : Bool := false
  pgoodAt    : Nat := 0
  trainAt    : Nat := 0
  drainSeen  : Bool := false
  started    : Bool := false
  prefSlot   : Nat := 0
  svn        : Nat := 0
  fuse       : Nat := 0
  mgcVersion : Nat := 0
  lacewing   : Nat := 0
  settings   : List Byte := []
  deriving DecidableEq, Repr

/-! ### Roles and sessions (file 18) -/

/-- An open SPDM session: its transport, role, key slot matched, whether mutually authenticated, whether FINISH has come,
and when its last message came. -/
structure Session where
  via    : Transport
  role   : Role
  keySlot : Option Nat
  mutualAuth: Bool
  done   : Bool
  keyHash : List Byte
  last   : Nat
  deriving DecidableEq, Repr

/-- A grant of a session's role to a slot's PF0 (R422). -/
structure Grant where
  sess : Nat
  role : Role
  ends : Nat
  deriving DecidableEq, Repr

/-- Roles: sessions, grants, enrolled keys by slot, CLAIMED, JTAG, authentication failures of each transport (cycles,
newest first) and until when a transport answers Busy (R421), the negotiated algorithms of each transport, the dynamic address, the static address the straps
gave (R459). -/
structure Rol where
  sessions : Tbl Session := []
  grants   : Tbl Grant := []
  keys     : Tbl (List Byte) := []
  claimed  : Bool := false
  jtag     : Option Nat := none
  fails    : List Nat := []
  busy     : Tbl Nat := []
  algs     : Tbl Bool := []
  i3cAddr  : Option Nat := none
  staticAddr : Nat := 0x28
  deriving DecidableEq, Repr

/-- The SPDM measurement value types that R411 gives the measurements. -/
inductive MeasKind where
  | immutableRom | mutableFirmware | firmwareConfiguration | informational | securityVersion
  deriving DecidableEq, Repr

/-- A block of GET_MEASUREMENTS (R411): its index, its value type (the count, index 0, has none), its value. -/
structure MeasBlock where
  index : Nat
  kind  : Option MeasKind
  value : Nat
  deriving DecidableEq, Repr

/-- A management response: SPDM answers (R410, R411), and the vendor-defined commands' completion code with
what follows it (Tables 2-2, 17-8, 18-5). -/
inductive MgmtRsp where
  | code (c : Nat)
  | partial_ (c : Nat) (partialWrite : Bool)
  | values (vs : List Word)
  | timeQuery (state : Nat) (utc : Nat) (hgt epoch : Nat)
  | ledger (first count total : Nat) (bytes : List Byte)
  | records (gap : Bool) (next ringFirst : Nat) (bytes : List Byte)
  | version
  | capabilities
  | algorithms (ok : Bool)
  | digests (d : List Nat)
  | certificate (offset : Nat) (bytes : List Byte)
  | challenge (nonce : Nat) (signature : Nat)
  | measurements (blocks : List MeasBlock) (signature : Option Nat)
  | keyExchange (session : Nat)
  | finished (role : Role)
  | heartbeatAck
  | keyUpdated
  | sessionEnded
  | busy
  | spdmError
  | event (seq : Nat)
  deriving DecidableEq, Repr

/-! ### What leaves the module -/

/-- An effect on the outside, in the order it happens (newest first in `Mach.out`): a frame on a port; an idle
block, a wake burst, an IDLE_NOTICE, ALIGN codewords (for each, the physical lane and its block's bytes); the symbols that a lane
sends with its filter's output in units of 1/12 mV (R64); a read or a posted write of host memory; an MSI-X
message; a PM_PME message; a PTM response; a management response; pins. -/
inductive Out where
  | frame (p : Nat) (f : Frame)
  | idleBlock (p : Nat)
  | wakeBurst (p : Nat)
  | idleNotice (p : Nat)
  | align (p : Nat) (blocks : List (Nat × List Byte))
  | symbols (l : Nat) (values : List Nat) (volts : List Int)
  | hostRead (slot func : Nat) (id : Nat) (segs : List (Nat × Nat))
  | hostWrite (slot func : Nat) (pa : Nat) (data : List Byte)
  | msix (slot func vec : Nat)
  | pme (slot func : Nat)
  | ptm (slot : Nat) (masterTime propDelay : Nat)
  | mgmt (p : Path) (r : MgmtRsp)
  | readValue (r : Requester) (off : Nat) (v : Word)
  | faultEvent (seq : Nat)
  | ppsEdge (hgt : Nat)
  deriving DecidableEq, Repr

/-! ### The machine -/

/-- The shadow that reads of the AON windows return (R8, R429): registers and state of the AON die as they stood at the last AONCLK
edge. -/
structure AonShadow where
  regs : Tbl Nat := []
  pwr  : Pwr := {}
  flt  : Flt := {}
  evr  : Evr := {}
  deriving DecidableEq, Repr

/-- Everything the block holds but the MRAM recorder array and the queue of waiting commands. `clk` counts CORECLK
cycles of 0.5 ns; `free` is the model's own counter that the free values of Config are applied to;
`regs` holds the fields of every register by `Field.key`, an unlisted one being at its reset value; `hold` the holding copies
of R6; `scans` the lanes with a margin scan running, `scanRuns` for each the DWELL of its points (from which point on, the DWELL, and
the cycle of that point), `scanWait` the lanes whose scan waits for the exit from electrical idle (R77, R78). -/
structure Mach where
  clk    : Nat := 0
  free   : Nat := 0
  nextId : Nat := 0
  regs   : Tbl Nat := []
  hold   : Tbl Nat := []
  out    : List Out := []
  engines : Tbl Eng := []
  quads  : Tbl QuadSt := []
  die    : Tbl DieLink := []
  tim    : Tim := {}
  lanes  : Tbl LaneSt := []
  idle   : Tbl IdleSt := []
  scans  : List Nat := []
  scanRuns : Tbl (List (Nat × Nat × Nat)) := []
  scanWait : List Nat := []
  hive   : Hive := {}
  links  : Tbl Link := []
  rte    : Rte := {}
  xlt    : Xlt := {}
  hif    : Hif := {}
  cxn    : Cxn := {}
  mat    : Mat := {}
  sch    : Sch := {}
  groups : Tbl CollGroup := []
  lka    : Lka := {}
  seqr   : Seqr := {}
  pwr    : Pwr := {}
  pmc    : Pmc := {}
  flt    : Flt := {}
  evr    : Evr := {}
  boot   : Boot := {}
  rol    : Rol := {}
  shadow : AonShadow := {}
  deriving DecidableEq, Repr

/-- MRAM bytes, in canonical form: addresses strictly rising, no entry equal to what an unlisted address reads as. -/
abbrev Memory := List Host.Cell

/-- The state: the block, the MRAM recorder array (R388), and the commands that wait, first in first out. -/
structure State where
  m       : Mach := {}
  mram    : Memory := []
  pending : List Instr := []
  deriving DecidableEq, Repr

/-- Why a step stops with a fault. Both name an operand that designates a part the module does not have. -/
inductive Fault where
  /-- DIE_LINK_DOWN or DIE_LINK_GATE names a quadrant twice: no die-to-die link joins a quadrant to itself
  (Table 1-3). Safe: the hardware has no such event. -/
  | noSuchDieLink
  /-- YARROW_STEP, ENGINE_GATE_CLOSE or ENGINE_WAKE names an engine number its class does not have (Table 1-4).
  Safe: the hardware has no such event. -/
  | noSuchEngine
  deriving DecidableEq, Repr

/-- Why a command is refused. -/
inductive Refusal where
  /-- The command has no meaning yet; raised by the dispatch only. Safe: the machine stops. -/
  | notModelled (mnemonic : String)
  deriving DecidableEq, Repr

/-- The block right after a power-on reset: every register at its reset value, nothing in any store, mode ATTEST
(GLB_MODE resets to 1, Table 15-7), and no command waiting. -/
def State.reset : State := {}

end Sys2Proof.Machine
end

