-- ==== Sys2Proof/Machine/Tbl.lean ====
section
/-!
DEFINITION. The operations on keyed stores: find, read with a default, write, remove, keep, in rising key order.
-/

namespace Sys2Proof

variable {α : Type}

/-- The value under a key, if listed. -/
def Tbl.find (t : Tbl α) (k : Nat) : Option α :=
  match t with
  | [] => none
  | (k', v) :: r => if k' = k then some v else Tbl.find r k

/-- The value under a key; `d` where the key is not listed. -/
def Tbl.get (t : Tbl α) (k : Nat) (d : α) : α := (Tbl.find t k).getD d

/-- The table with `v` under `k`. -/
def Tbl.set (t : Tbl α) (k : Nat) (v : α) : Tbl α :=
  match t with
  | [] => [(k, v)]
  | (k', v') :: r =>
    if k < k' then (k, v) :: (k', v') :: r
    else if k' = k then (k, v) :: r
    else (k', v') :: Tbl.set r k v

/-- The table without `k`. -/
def Tbl.del (t : Tbl α) (k : Nat) : Tbl α := t.filter (fun c => c.1 != k)

/-- The entry under `k` changed by `f`; an unlisted one is taken as `d`. -/
def Tbl.modify (t : Tbl α) (k : Nat) (d : α) (f : α → α) : Tbl α := Tbl.set t k (f (Tbl.get t k d))

/-- The keys listed. -/
def Tbl.keys (t : Tbl α) : List Nat := t.map (·.1)

/-- The values listed. -/
def Tbl.vals (t : Tbl α) : List α := t.map (·.2)

/-- The entries that satisfy `p`. -/
def Tbl.keep (t : Tbl α) (p : Nat → α → Bool) : Tbl α := t.filter (fun c => p c.1 c.2)

/-- The first element of a list that satisfies `p`, and the list without it. -/
def takeFirst (p : α → Bool) : List α → Option (α × List α)
  | [] => none
  | a :: r =>
    if p a then some (a, r)
    else match takeFirst p r with
      | none => none
      | some (b, r') => some (b, a :: r')

/-- The elements of a list with the first one that satisfies `p` changed by `f`. -/
def modifyFirst (p : α → Bool) (f : α → α) : List α → List α
  | [] => []
  | a :: r => if p a then f a :: r else a :: modifyFirst p f r

end Sys2Proof
end

