-- ==== Sys2Proof/Machine/Flags.lean ====
section
/-!
DEFINITION. Pure arithmetic that the chapters share: byte strings, CRC-32C (R84), comparisons over a half-range
(R31, R89), saturation, the PAM4 map and precoder (R60 to R62), the transmit filter (R64), the scrambler (R55).
-/

namespace Sys2Proof.Machine

/-! ### Byte strings (R4: little-endian) -/

/-- The `n` low bytes of `v`, the least significant first. -/
def leBytes : Nat → Nat → List Byte
  | 0, _ => []
  | n + 1, v => BitVec.ofNat 8 v :: leBytes n (v / 256)

/-- The number a byte string spells, the least significant byte first. -/
def leNat : List Byte → Nat
  | [] => 0
  | b :: r => b.toNat + 256 * leNat r

/-- `n` zero bytes. -/
def zeros (n : Nat) : List Byte := List.replicate n 0

/-- `n` bytes of `b` from offset `off`; a byte past the end reads as 0. -/
def slice (b : List Byte) (off n : Nat) : List Byte :=
  let s := (b.drop off).take n
  s ++ zeros (n - s.length)

/-- The number spelt by `n` bytes of `b` at offset `off`. -/
def field (b : List Byte) (off n : Nat) : Nat := leNat (slice b off n)

/-! ### CRC-32C (R84) -/

/-- One bit of the reflected CRC-32C: polynomial 0x1EDC_6F41 reflected is 0x82F6_3B78. -/
def crcBit (c : BitVec 32) : BitVec 32 :=
  if c.getLsbD 0 then (c >>> 1) ^^^ 0x82F63B78#32 else c >>> 1

/-- One byte. -/
def crcByte (c : BitVec 32) (b : Byte) : BitVec 32 :=
  let x := c ^^^ b.setWidth 32
  crcBit (crcBit (crcBit (crcBit (crcBit (crcBit (crcBit (crcBit x)))))))

/-- CRC-32C of a byte string: initial value and final XOR 0xFFFF_FFFF. -/
def crc32c (b : List Byte) : BitVec 32 := (b.foldl crcByte 0xFFFFFFFF#32) ^^^ 0xFFFFFFFF#32

/-- A stomp CRC is the correct CRC XOR 0xFFFF_FFFF (R85). -/
def stompCrc (b : List Byte) : BitVec 32 := crc32c b ^^^ 0xFFFFFFFF#32

/-! ### Comparisons over a half-range -/

/-- `a` is ahead of `x` modulo 2^16: in (x, x + 32,768) (R89). -/
def ahead16 (a x : Nat) : Bool :=
  let d := (a + 65536 - x % 65536) % 65536
  0 < d && d < 32768

/-- `a` is behind `x` modulo 2^16: in (x − 32,768, x) (R89). -/
def behind16 (a x : Nat) : Bool := ahead16 x a

/-- `a` is ahead of `x` modulo 2^32 over a half-range (R207, as in R31). -/
def ahead32 (a x : Nat) : Bool :=
  let d := (a + 4294967296 - x % 4294967296) % 4294967296
  0 < d && d < 2147483648

/-- `a` is behind `x` modulo 2^32 over a half-range. -/
def behind32 (a x : Nat) : Bool := ahead32 x a

/-- a − b modulo 2^32. -/
def sub32 (a b : Nat) : Nat := (a + 4294967296 - b % 4294967296) % 4294967296

/-- A count that sticks at the top of its `w` bits. -/
def satAdd (w a n : Nat) : Nat := min (a + n) (2 ^ w - 1)

/-- `v` taken to the nearer limit of `lo` to `hi`. -/
def clamp (lo hi v : Nat) : Nat := min (max v lo) hi

/-- A signed number as the low `w` bits of its two's complement. -/
def ofSigned (w : Nat) (i : Int) : Nat := (BitVec.ofInt w i).toNat

/-- The signed number that `w` bits spell. -/
def toSigned (w v : Nat) : Int := (BitVec.ofNat w v).toInt

/-! ### PAM4 symbols (file 03) -/

/-- The Gray map of Table 3-2: the first bit is the more significant. -/
def gray (first second : Bool) : Nat :=
  match first, second with
  | false, false => 0
  | false, true  => 1
  | true,  true  => 2
  | true,  false => 3

/-- The bit pair a symbol stands for. -/
def ungray (g : Nat) : Bool × Bool :=
  match g % 4 with
  | 0 => (false, false)
  | 1 => (false, true)
  | 2 => (true, true)
  | _ => (true, false)

/-- The level of a symbol value, −3 to +3 (Table 3-2). -/
def level (g : Nat) : Int := 2 * ((g % 4 : Nat) : Int) - 3

/-- The precoder (R61): p(n) = (g(n) − p(n − 1)) mod 4. -/
def precode (prev : Nat) : List Nat → List Nat
  | [] => []
  | g :: r =>
    let p := (g + 4 - prev % 4) % 4
    p :: precode p r

/-- The receiver's decoding (R61): g(n) = (p(n) + p(n − 1)) mod 4. -/
def unprecode (prev : Nat) : List Nat → List Nat
  | [] => []
  | p :: r => ((p + prev) % 4) :: unprecode p r

/-- Inverted polarity sends 3 − p(n) (R62). -/
def invert (p : Nat) : Nat := 3 - p % 4

/-- The self-synchronising scrambler x^58 + x^39 + 1 of R55, over the last 58 scrambled bits, newest first. -/
def scramble (hist : List Bool) : List Bool → List Bool
  | [] => []
  | b :: r =>
    let s := xor b (xor (hist.getD 38 false) (hist.getD 57 false))
    s :: scramble (s :: hist.take 57) r

/-- Its inverse at the receiver. -/
def descramble (hist : List Bool) : List Bool → List Bool
  | [] => []
  | s :: r => xor s (xor (hist.getD 38 false) (hist.getD 57 false)) :: descramble (s :: hist.take 57) r

/-- The transmit filter of R64, in units of 400 mV / 192: C_MAIN × a(n) − C_PRE × a(n + 1) − C_POST × a(n − 1), with
the levels of Table 3-2 not yet divided by 3. -/
def txFir (cPre cPost : Nat) (before now after : Int) : Int :=
  (64 - cPre - cPost : Int) * now - cPre * after - cPost * before

/-- The length, in points, of the run of open points through the centre (R77): 0 where the centre is not open. -/
def runThroughCentre (pts : List Bool) : Nat :=
  let c := pts.length / 2
  if pts.getD c false then
    1 + ((pts.drop (c + 1)).takeWhile (· == true)).length + ((pts.take c).reverse.takeWhile (· == true)).length
  else 0

/-- The highest set bit pattern: the number of lanes in a mask. -/
def popCount (m : Nat) : Nat := ((List.range 8).filter (fun k => (m / 2 ^ k) % 2 == 1)).length

/-- Bit `k` of `m`. -/
def bit (m k : Nat) : Bool := (m / 2 ^ k) % 2 == 1

/-- `m` with bit `k` set. -/
def setBit (m k : Nat) : Nat := if bit m k then m else m + 2 ^ k

/-- `m` with bit `k` clear. -/
def clearBit (m k : Nat) : Nat := if bit m k then m - 2 ^ k else m

/-- A Bool as a bit. -/
def b2n (b : Bool) : Nat := if b then 1 else 0

end Sys2Proof.Machine
end

