-- ==== Sys2Proof/Machine/RegMap.lean ====
section
/-!
DEFINITION. The register map: every field of every register table of the spec, as a descriptor that
names its BAR0 offset (window base plus offset, Table 18-4), its bits, its access code (Table 0-3), the
lowest role that may write it (R9), its reset value, and what its register is scoped to (R432, R433).
The tables are those of R51 (TIM), R80 (LAN), R115 (LNK), R147 (RTE), R177 (HIF), R200 (XLT), R229 (CXN),
R256 (MAT), R280 (COL), R300 (LKA), R316 (SCH), R332 (SEQ), R354 (PWR), R374 (GLB), R387 (FLT), R414 (EVR),
R437 (ROL) and R447 (PMC).  A name ending in `_AT_xx` is a field name its table uses twice; xx is the offset.
-/

namespace Sys2Proof.Machine

/-! ### GLB: file 15, R374, Table 15-7 -/
namespace Reg.GLB

def TRANSITION : Field := ⟨0x0, 3, 3, .ro, .none, 0, .module⟩
def GLB_MODE : Field := ⟨0x0, 2, 0, .ro, .none, 1, .module⟩
def MODE_REQ : Field := ⟨0x4, 2, 0, .wo, .operator, 0, .module⟩
def MODE_ERR : Field := ⟨0x8, 3, 0, .ro, .none, 0, .module⟩
def CAUSE_FS : Field := ⟨0xC, 23, 16, .ro, .none, 0, .module⟩
def LAST_CAUSE : Field := ⟨0xC, 1, 0, .ro, .none, 3, .module⟩
def MODE_TS_LO : Field := ⟨0x10, 31, 0, .ro, .none, 0, .module⟩
def MODE_TS_HI : Field := ⟨0x14, 31, 0, .ro, .none, 0, .module⟩
def AUTO_START : Field := ⟨0x18, 0, 0, .rw, .installer, 0, .module⟩
def TRAIN_TIMEOUT : Field := ⟨0x1C, 15, 0, .rw, .installer, 1000, .module⟩
def REQ_TIME_LOCK : Field := ⟨0x20, 0, 0, .rw, .installer, 1, .module⟩
def COLL_IDLE : Field := ⟨0x24, 4, 4, .ro, .none, 1, .module⟩
def LKU_IDLE : Field := ⟨0x24, 3, 3, .ro, .none, 1, .module⟩
def TX_IDLE : Field := ⟨0x24, 2, 2, .ro, .none, 1, .module⟩
def RINGS_IDLE : Field := ⟨0x24, 1, 1, .ro, .none, 1, .module⟩
def DRAINED : Field := ⟨0x24, 0, 0, .ro, .none, 0, .module⟩
def MODULE_RESET : Field := ⟨0x28, 1, 1, .wo, .installer, 0, .module⟩
def WARM_RESET : Field := ⟨0x28, 0, 0, .wo, .operator, 0, .module⟩
def PARK_COLD : Field := ⟨0x2C, 2, 2, .rw, .operator, 0, .module⟩
def PARK_EN : Field := ⟨0x2C, 1, 1, .rw, .operator, 1, .module⟩
def GATE_EN : Field := ⟨0x2C, 0, 0, .rw, .operator, 1, .module⟩
def QSTATE : Field := ⟨0x30, 7, 0, .ro, .none, 0, .module⟩
def BOOT_FALLBACK : Field := ⟨0x34, 1, 1, .ro, .none, 0, .module⟩
def BOOT_SLOT : Field := ⟨0x34, 0, 0, .ro, .none, 0, .module⟩
def SERIAL_LO : Field := ⟨0x38, 31, 0, .ro, .none, 0, .module⟩
def SERIAL_HI : Field := ⟨0x3C, 31, 0, .ro, .none, 0, .module⟩
def BOOT_COUNT : Field := ⟨0x40, 31, 0, .ro, .none, 0, .module⟩
def START_TIME : Field := ⟨0x44, 31, 0, .ro, .none, 0, .module⟩
def STEPPING : Field := ⟨0x48, 7, 0, .ro, .none, 1, .module⟩

def part0 : List Field :=
  [TRANSITION, GLB_MODE, MODE_REQ, MODE_ERR, CAUSE_FS, LAST_CAUSE, MODE_TS_LO, MODE_TS_HI, AUTO_START, TRAIN_TIMEOUT, REQ_TIME_LOCK, COLL_IDLE, LKU_IDLE, TX_IDLE, RINGS_IDLE, DRAINED, MODULE_RESET, WARM_RESET, PARK_COLD, PARK_EN, GATE_EN, QSTATE, BOOT_FALLBACK, BOOT_SLOT]
def part1 : List Field :=
  [SERIAL_LO, SERIAL_HI, BOOT_COUNT, START_TIME, STEPPING]
/-- Every field of the GLB window. -/
def all : List Field :=
  part0 ++
  part1

end Reg.GLB

/-! ### TIM: file 02, R51, Table 2-5 -/
namespace Reg.TIM

def PPS_IN_EN : Field := ⟨0x10000, 4, 4, .rw, .installer, 0, .module⟩
def PPS_OUT_EN : Field := ⟨0x10000, 3, 3, .rw, .operator, 0, .module⟩
def PPS_OUT_HOLD : Field := ⟨0x10000, 2, 2, .rw, .operator, 1, .module⟩
def CLKOUT_EN : Field := ⟨0x10000, 1, 1, .rw, .operator, 0, .module⟩
def EXCH_EN : Field := ⟨0x10000, 0, 0, .rw, .installer, 1, .module⟩
def ROOT_SEQ : Field := ⟨0x10004, 31, 16, .ro, .none, 0, .module⟩
def HOPS : Field := ⟨0x10004, 15, 12, .ro, .none, 0, .module⟩
def PARENT : Field := ⟨0x10004, 11, 4, .ro, .none, 255, .module⟩
def PPS_IN_OK : Field := ⟨0x10004, 3, 3, .ro, .none, 0, .module⟩
def STATE : Field := ⟨0x10004, 2, 0, .ro, .none, 0, .module⟩
def HGT_LO : Field := ⟨0x10008, 31, 0, .ro, .none, 0, .module⟩
def HGT_HI : Field := ⟨0x1000C, 31, 0, .ro, .none, 0, .module⟩
def EPOCH_LO : Field := ⟨0x10010, 31, 0, .rw, .installer, 0, .module⟩
def EPOCH_HI : Field := ⟨0x10014, 31, 0, .rw, .installer, 0, .module⟩
def UTC_OFFSET : Field := ⟨0x10018, 15, 0, .rw, .operator, 0, .module⟩
def CUR_ROOT_PRIO : Field := ⟨0x1001C, 15, 8, .ro, .none, 0, .module⟩
def OWN_PRIO : Field := ⟨0x1001C, 7, 0, .rw, .installer, 0, .module⟩
def ROOT_SERIAL_LO : Field := ⟨0x10020, 31, 0, .ro, .none, 0, .module⟩
def ROOT_SERIAL_HI : Field := ⟨0x10024, 31, 0, .ro, .none, 0, .module⟩
def OFFSET : Field := ⟨0x10028, 31, 0, .ro, .none, 0, .module⟩
def RATE : Field := ⟨0x1002C, 31, 0, .ro, .none, 0, .module⟩
def LOSS_TIMEOUT : Field := ⟨0x10030, 7, 0, .rw, .installer, 16, .module⟩
def HOLD_DRIFT : Field := ⟨0x10034, 15, 0, .rw, .installer, 50, .module⟩
def HOLD_LIMIT : Field := ⟨0x10038, 31, 0, .rw, .installer, 1000, .module⟩
def WIDTH : Field := ⟨0x1003C, 8, 0, .rw, .operator, 100, .module⟩
def CLKOUT_FREQ : Field := ⟨0x10040, 27, 0, .rw, .operator, 0, .module⟩
def PPS_IN_LO : Field := ⟨0x10048, 31, 0, .ro, .none, 0, .module⟩
def PPS_IN_HI : Field := ⟨0x1004C, 31, 0, .ro, .none, 0, .module⟩
def SET_LO : Field := ⟨0x10050, 31, 0, .rw, .installer, 0, .module⟩
def SET_HI : Field := ⟨0x10054, 31, 0, .rw, .installer, 0, .module⟩
def STEP : Field := ⟨0x10058, 0, 0, .wo, .installer, 0, .module⟩
def PORT_IDX : Field := ⟨0x10060, 6, 0, .rw, .operator, 0, .fn⟩
def ASYM : Field := ⟨0x10064, 31, 16, .rw, .installer, 0, .port⟩
def PORT_EXCH_EN : Field := ⟨0x10064, 0, 0, .rw, .installer, 1, .port⟩
def DELAY : Field := ⟨0x10068, 31, 0, .ro, .none, 0, .port⟩
def NBR_HOPS : Field := ⟨0x1006C, 7, 4, .ro, .none, 15, .port⟩
def NBR_LOCKED : Field := ⟨0x1006C, 1, 1, .ro, .none, 0, .port⟩
def VALID : Field := ⟨0x1006C, 0, 0, .ro, .none, 0, .port⟩

def part0 : List Field :=
  [PPS_IN_EN, PPS_OUT_EN, PPS_OUT_HOLD, CLKOUT_EN, EXCH_EN, ROOT_SEQ, HOPS, PARENT, PPS_IN_OK, STATE, HGT_LO, HGT_HI, EPOCH_LO, EPOCH_HI, UTC_OFFSET, CUR_ROOT_PRIO, OWN_PRIO, ROOT_SERIAL_LO, ROOT_SERIAL_HI, OFFSET, RATE, LOSS_TIMEOUT, HOLD_DRIFT, HOLD_LIMIT]
def part1 : List Field :=
  [WIDTH, CLKOUT_FREQ, PPS_IN_LO, PPS_IN_HI, SET_LO, SET_HI, STEP, PORT_IDX, ASYM, PORT_EXCH_EN, DELAY, NBR_HOPS, NBR_LOCKED, VALID]
/-- Every field of the TIM window. -/
def all : List Field :=
  part0 ++
  part1

end Reg.TIM

/-! ### LAN: file 03, R80 -/
namespace Reg.LAN

def LANE_IDX : Field := ⟨0x20000, 8, 0, .rw, .operator, 0, .fn⟩
def PRBS_CHK_EN : Field := ⟨0x20004, 12, 12, .rw, .operator, 0, .lane⟩
def PRBS_SEL : Field := ⟨0x20004, 11, 10, .rw, .operator, 0, .lane⟩
def PRBS_TX_EN : Field := ⟨0x20004, 9, 9, .rw, .operator, 0, .lane⟩
def PRECODE_TX : Field := ⟨0x20004, 8, 8, .rw, .installer, 1, .lane⟩
def RX_INV_OVR : Field := ⟨0x20004, 7, 7, .rw, .installer, 0, .lane⟩
def RX_INV : Field := ⟨0x20004, 6, 6, .rw, .installer, 0, .lane⟩
def TX_INV : Field := ⟨0x20004, 5, 5, .rw, .installer, 0, .lane⟩
def EQ_MODE : Field := ⟨0x20004, 4, 3, .rw, .installer, 1, .lane⟩
def LANE_EN : Field := ⟨0x20004, 0, 0, .rw, .installer, 1, .lane⟩
def C_PRE : Field := ⟨0x20008, 20, 16, .rw, .installer, 4, .lane⟩
def C_POST : Field := ⟨0x20008, 12, 8, .rw, .installer, 8, .lane⟩
def C_MAIN : Field := ⟨0x20008, 6, 0, .ro, .none, 52, .lane⟩
def CTLE : Field := ⟨0x2000C, 27, 24, .ro, .none, 0, .lane⟩
def DFE1 : Field := ⟨0x2000C, 22, 16, .ro, .none, 0, .lane⟩
def CTLE_SET : Field := ⟨0x20010, 3, 0, .rw, .installer, 8, .lane⟩
def LOGICAL : Field := ⟨0x20014, 10, 9, .ro, .none, 0, .lane⟩
def PRBS_LOCK : Field := ⟨0x20014, 8, 8, .ro, .none, 0, .lane⟩
def RATE_AT_14 : Field := ⟨0x20014, 7, 6, .ro, .none, 0, .lane⟩
def ADAPT_FROZEN : Field := ⟨0x20014, 5, 5, .ro, .none, 0, .lane⟩
def RX_INV_DET : Field := ⟨0x20014, 4, 4, .ro, .none, 0, .lane⟩
def EI : Field := ⟨0x20014, 3, 3, .ro, .none, 1, .lane⟩
def CW_LOCK : Field := ⟨0x20014, 2, 2, .ro, .none, 0, .lane⟩
def CDR_LOCK : Field := ⟨0x20014, 1, 1, .ro, .none, 0, .lane⟩
def SIG_DET : Field := ⟨0x20014, 0, 0, .ro, .none, 0, .lane⟩
def PRBS_ERR : Field := ⟨0x20018, 31, 0, .ro, .none, 0, .lane⟩
def PRBS_BITS_LO : Field := ⟨0x2001C, 31, 0, .ro, .none, 0, .lane⟩
def PRBS_BITS_HI : Field := ⟨0x20020, 31, 0, .ro, .none, 0, .lane⟩
def CW_CORR : Field := ⟨0x20024, 31, 0, .ro, .none, 0, .lane⟩
def CW_UNCORR : Field := ⟨0x20028, 31, 0, .ro, .none, 0, .lane⟩
def SYM_CORR : Field := ⟨0x2002C, 31, 0, .ro, .none, 0, .lane⟩
def CNT_CLR : Field := ⟨0x20030, 0, 0, .wo, .operator, 0, .lane⟩
def RX_ORDER_OVR : Field := ⟨0x20040, 8, 8, .rw, .installer, 0, .port⟩
def RX_ORDER_REV : Field := ⟨0x20040, 7, 7, .rw, .installer, 0, .port⟩
def TX_ORDER_REV : Field := ⟨0x20040, 6, 6, .rw, .installer, 0, .port⟩
def FEC_EN : Field := ⟨0x20040, 2, 2, .rw, .installer, 1, .port⟩
def RATE_MAX : Field := ⟨0x20040, 1, 0, .rw, .installer, 0, .port⟩
def EI_DELAY : Field := ⟨0x20044, 19, 0, .rw, .operator, 1000, .port⟩
def ACTIVE : Field := ⟨0x20048, 11, 8, .ro, .none, 0, .port⟩
def WIDTH : Field := ⟨0x20048, 6, 4, .ro, .none, 0, .port⟩
def RX_ORDER_REV_DET : Field := ⟨0x20048, 3, 3, .ro, .none, 0, .port⟩
def FEC : Field := ⟨0x20048, 2, 2, .ro, .none, 0, .port⟩
def RATE_AT_48 : Field := ⟨0x20048, 1, 0, .ro, .none, 0, .port⟩
def SKEW : Field := ⟨0x2004C, 15, 0, .ro, .none, 0, .port⟩
def SCAN_START : Field := ⟨0x20050, 0, 0, .wo, .operator, 0, .port⟩
def DWELL : Field := ⟨0x20054, 4, 0, .rw, .operator, 20, .port⟩
def SCAN_STATUS : Field := ⟨0x20058, 2, 0, .ro, .none, 0, .port⟩
def EYE_U_W : Field := ⟨0x2005C, 15, 8, .ro, .none, 0, .lane⟩
def EYE_U_H : Field := ⟨0x2005C, 7, 0, .ro, .none, 0, .lane⟩
def EYE_M_W : Field := ⟨0x20060, 15, 8, .ro, .none, 0, .lane⟩
def EYE_M_H : Field := ⟨0x20060, 7, 0, .ro, .none, 0, .lane⟩
def EYE_L_W : Field := ⟨0x20064, 15, 8, .ro, .none, 0, .lane⟩
def EYE_L_H : Field := ⟨0x20064, 7, 0, .ro, .none, 0, .lane⟩
def W_MIN : Field := ⟨0x20068, 15, 8, .rw, .installer, 12, .module⟩
def H_MIN : Field := ⟨0x20068, 7, 0, .rw, .installer, 10, .module⟩
def SCAN_PERIOD : Field := ⟨0x2006C, 15, 0, .rw, .installer, 60, .module⟩
def FEC_LIMIT : Field := ⟨0x20070, 15, 0, .rw, .installer, 16, .module⟩

def part0 : List Field :=
  [LANE_IDX, PRBS_CHK_EN, PRBS_SEL, PRBS_TX_EN, PRECODE_TX, RX_INV_OVR, RX_INV, TX_INV, EQ_MODE, LANE_EN, C_PRE, C_POST, C_MAIN, CTLE, DFE1, CTLE_SET, LOGICAL, PRBS_LOCK, RATE_AT_14, ADAPT_FROZEN, RX_INV_DET, EI, CW_LOCK, CDR_LOCK]
def part1 : List Field :=
  [SIG_DET, PRBS_ERR, PRBS_BITS_LO, PRBS_BITS_HI, CW_CORR, CW_UNCORR, SYM_CORR, CNT_CLR, RX_ORDER_OVR, RX_ORDER_REV, TX_ORDER_REV, FEC_EN, RATE_MAX, EI_DELAY, ACTIVE, WIDTH, RX_ORDER_REV_DET, FEC, RATE_AT_48, SKEW, SCAN_START, DWELL, SCAN_STATUS, EYE_U_W]
def part2 : List Field :=
  [EYE_U_H, EYE_M_W, EYE_M_H, EYE_L_W, EYE_L_H, W_MIN, H_MIN, SCAN_PERIOD, FEC_LIMIT]
/-- Every field of the LAN window. -/
def all : List Field :=
  part0 ++
  part1 ++
  part2

end Reg.LAN

/-! ### LNK: file 04, R115 -/
namespace Reg.LNK

def PORT_IDX : Field := ⟨0x30000, 6, 0, .rw, .operator, 0, .fn⟩
def LOOP_OK : Field := ⟨0x30004, 10, 10, .rw, .installer, 0, .port⟩
def AUDIT_EN : Field := ⟨0x30004, 9, 9, .rw, .installer, 1, .port⟩
def AUTO_WIDTH_UP : Field := ⟨0x30004, 8, 8, .rw, .installer, 1, .port⟩
def WIDTH_MAX : Field := ⟨0x30004, 6, 4, .rw, .installer, 4, .port⟩
def PORT_EN : Field := ⟨0x30004, 0, 0, .rw, .installer, 1, .port⟩
def CNT_CLR : Field := ⟨0x30008, 3, 3, .wo, .operator, 0, .port⟩
def AUDIT_NOW : Field := ⟨0x30008, 2, 2, .wo, .operator, 0, .port⟩
def WIDTH_CHANGE : Field := ⟨0x30008, 1, 1, .wo, .operator, 0, .port⟩
def RETRAIN : Field := ⟨0x30008, 0, 0, .wo, .operator, 0, .port⟩
def TARGET_LANES : Field := ⟨0x3000C, 3, 0, .rw, .operator, 15, .port⟩
def LEADER : Field := ⟨0x30010, 14, 14, .ro, .none, 0, .port⟩
def AUDIT_DEFERRED : Field := ⟨0x30010, 13, 13, .ro, .none, 0, .port⟩
def RETRAIN_SCHED : Field := ⟨0x30010, 12, 12, .ro, .none, 0, .port⟩
def ACTIVE : Field := ⟨0x30010, 11, 8, .ro, .none, 0, .port⟩
def WIDTH : Field := ⟨0x30010, 6, 4, .ro, .none, 0, .port⟩
def LINK_STATE : Field := ⟨0x30010, 2, 0, .ro, .none, 0, .port⟩
def NBR_SERIAL_LO : Field := ⟨0x30014, 31, 0, .ro, .none, 0, .port⟩
def NBR_SERIAL_HI : Field := ⟨0x30018, 31, 0, .ro, .none, 0, .port⟩
def NBR_PORT : Field := ⟨0x3001C, 6, 0, .ro, .none, 0, .port⟩
def UNA : Field := ⟨0x30020, 31, 16, .ro, .none, 0, .port⟩
def NEXT_FSN : Field := ⟨0x30020, 15, 0, .ro, .none, 0, .port⟩
def EXPECTED : Field := ⟨0x30024, 15, 0, .ro, .none, 0, .port⟩
def REPLAY_TIMEOUT : Field := ⟨0x30028, 15, 0, .rw, .installer, 200, .port⟩
def REPLAY_LIMIT : Field := ⟨0x3002C, 3, 0, .rw, .installer, 4, .port⟩
def ACK_DELAY : Field := ⟨0x30030, 11, 0, .rw, .installer, 100, .port⟩
def CREDIT_BATCH : Field := ⟨0x30034, 7, 0, .rw, .installer, 16, .port⟩
def NAK_RESEND : Field := ⟨0x30038, 15, 0, .rw, .installer, 1000, .port⟩
def TRAIN_RETRY : Field := ⟨0x3003C, 15, 0, .rw, .installer, 1000, .port⟩
def VC_CELLS (k : Nat) : Field := ⟨0x30040 + 4 * k, 13, 0, .rw, .installer, 512, .port⟩
def SHARED_CELLS : Field := ⟨0x30060, 13, 0, .ro, .none, 4096, .port⟩
def LEAK_LIMIT : Field := ⟨0x30064, 13, 0, .rw, .installer, 1024, .port⟩
def LEAK_CELLS : Field := ⟨0x30068, 13, 0, .ro, .none, 0, .port⟩
def CRC_ERR : Field := ⟨0x30080, 31, 0, .ro, .none, 0, .port⟩
def NAK_TX : Field := ⟨0x30084, 31, 0, .ro, .none, 0, .port⟩
def NAK_RX : Field := ⟨0x30088, 31, 0, .ro, .none, 0, .port⟩
def REPLAYS : Field := ⟨0x3008C, 31, 0, .ro, .none, 0, .port⟩
def REPLAY_FRAMES : Field := ⟨0x30090, 31, 0, .ro, .none, 0, .port⟩
def DUP_DROP : Field := ⟨0x30094, 31, 0, .ro, .none, 0, .port⟩
def GAP_DROP : Field := ⟨0x30098, 31, 0, .ro, .none, 0, .port⟩
def CTRL_DROP : Field := ⟨0x3009C, 31, 0, .ro, .none, 0, .port⟩
def RETRAINS : Field := ⟨0x300A0, 31, 0, .ro, .none, 0, .port⟩
def WIDTH_CHANGES : Field := ⟨0x300A4, 31, 0, .ro, .none, 0, .port⟩
def COLLISIONS : Field := ⟨0x300A8, 31, 0, .ro, .none, 0, .port⟩
def STOMPS : Field := ⟨0x300AC, 31, 0, .ro, .none, 0, .port⟩
def REINJECTED : Field := ⟨0x300B0, 31, 0, .ro, .none, 0, .port⟩
def VC_IDX : Field := ⟨0x300B4, 3, 0, .rw, .operator, 0, .fn⟩
def TX_CREDITS : Field := ⟨0x300B8, 13, 0, .ro, .none, 0, .port⟩
def RX_OCCUPIED : Field := ⟨0x300BC, 13, 0, .ro, .none, 0, .port⟩
def REPLAY_ENTRIES : Field := ⟨0x300C0, 31, 16, .ro, .none, 0, .port⟩
def REPLAY_CELLS : Field := ⟨0x300C0, 13, 0, .ro, .none, 0, .port⟩

def part0 : List Field :=
  [PORT_IDX, LOOP_OK, AUDIT_EN, AUTO_WIDTH_UP, WIDTH_MAX, PORT_EN, CNT_CLR, AUDIT_NOW, WIDTH_CHANGE, RETRAIN, TARGET_LANES, LEADER, AUDIT_DEFERRED, RETRAIN_SCHED, ACTIVE, WIDTH, LINK_STATE, NBR_SERIAL_LO, NBR_SERIAL_HI, NBR_PORT, UNA, NEXT_FSN, EXPECTED, REPLAY_TIMEOUT]
def part1 : List Field :=
  [REPLAY_LIMIT, ACK_DELAY, CREDIT_BATCH, NAK_RESEND, TRAIN_RETRY, SHARED_CELLS, LEAK_LIMIT, LEAK_CELLS, CRC_ERR, NAK_TX, NAK_RX, REPLAYS, REPLAY_FRAMES, DUP_DROP, GAP_DROP, CTRL_DROP, RETRAINS, WIDTH_CHANGES, COLLISIONS, STOMPS, REINJECTED, VC_IDX, TX_CREDITS, RX_OCCUPIED]
def part2 : List Field :=
  [REPLAY_ENTRIES, REPLAY_CELLS]
/-- Every field of the LNK window. -/
def all : List Field :=
  part0 ++
  part1 ++
  part2 ++
  (List.range 8).map VC_CELLS

end Reg.LNK

/-! ### RTE: file 05, R147 -/
namespace Reg.RTE

def DIMS : Field := ⟨0x40000, 25, 24, .rw, .installer, 0, .module⟩
def W3 : Field := ⟨0x40000, 15, 12, .rw, .installer, 0, .module⟩
def W2 : Field := ⟨0x40000, 11, 8, .rw, .installer, 0, .module⟩
def W1 : Field := ⟨0x40000, 7, 4, .rw, .installer, 0, .module⟩
def W0 : Field := ⟨0x40000, 3, 0, .rw, .installer, 0, .module⟩
def S3_M1 : Field := ⟨0x40004, 29, 24, .rw, .installer, 0, .module⟩
def S2_M1 : Field := ⟨0x40004, 21, 16, .rw, .installer, 0, .module⟩
def S1_M1 : Field := ⟨0x40004, 13, 8, .rw, .installer, 0, .module⟩
def S0_M1 : Field := ⟨0x40004, 5, 0, .rw, .installer, 0, .module⟩
def OWN_DA : Field := ⟨0x40008, 15, 0, .rw, .installer, 0, .module⟩
def CT_EN : Field := ⟨0x4000C, 3, 3, .rw, .installer, 1, .module⟩
def FF_EN : Field := ⟨0x4000C, 2, 2, .rw, .installer, 1, .module⟩
def NM_EN : Field := ⟨0x4000C, 1, 1, .rw, .installer, 1, .module⟩
def ADAPT_EN : Field := ⟨0x4000C, 0, 0, .rw, .installer, 1, .module⟩
def LIFETIME : Field := ⟨0x40010, 8, 0, .rw, .installer, 100, .module⟩
def HOP_MAX : Field := ⟨0x40014, 5, 0, .rw, .installer, 16, .module⟩
def ESC_WAIT : Field := ⟨0x40018, 9, 0, .rw, .installer, 50, .module⟩
def NM_SAMPLES : Field := ⟨0x4001C, 17, 16, .rw, .installer, 2, .module⟩
def NM_BIAS : Field := ⟨0x4001C, 11, 0, .rw, .installer, 64, .module⟩
def FF_WEIGHT : Field := ⟨0x40020, 27, 24, .rw, .installer, 4, .module⟩
def FF_STALE : Field := ⟨0x40020, 20, 16, .rw, .installer, 16, .module⟩
def FF_FRESH : Field := ⟨0x40020, 12, 8, .rw, .installer, 4, .module⟩
def FF_PERIOD : Field := ⟨0x40020, 7, 0, .rw, .installer, 10, .module⟩
def DISCARD_LIMIT : Field := ⟨0x40024, 15, 0, .rw, .installer, 1000, .module⟩
def CNT_CLR : Field := ⟨0x40028, 1, 1, .wo, .operator, 0, .module⟩
def CFG_CHECK : Field := ⟨0x40028, 0, 0, .wo, .installer, 0, .module⟩
def CFG_OK : Field := ⟨0x4002C, 8, 8, .ro, .none, 0, .module⟩
def CFG_ERR : Field := ⟨0x4002C, 3, 0, .ro, .none, 0, .module⟩
def PM_IDX : Field := ⟨0x40030, 7, 0, .rw, .installer, 0, .fn⟩
def V3 : Field := ⟨0x40034, 31, 31, .rw, .installer, 0, .pm⟩
def MEMBER3 : Field := ⟨0x40034, 30, 24, .rw, .installer, 0, .pm⟩
def V2 : Field := ⟨0x40034, 23, 23, .rw, .installer, 0, .pm⟩
def MEMBER2 : Field := ⟨0x40034, 22, 16, .rw, .installer, 0, .pm⟩
def V1 : Field := ⟨0x40034, 15, 15, .rw, .installer, 0, .pm⟩
def MEMBER1 : Field := ⟨0x40034, 14, 8, .rw, .installer, 0, .pm⟩
def V0 : Field := ⟨0x40034, 7, 7, .rw, .installer, 0, .pm⟩
def MEMBER0 : Field := ⟨0x40034, 6, 0, .rw, .installer, 0, .pm⟩
def DETOUR_V : Field := ⟨0x40038, 8, 8, .rw, .installer, 0, .pm⟩
def DETOUR_COORD : Field := ⟨0x40038, 5, 0, .rw, .installer, 0, .pm⟩
def PORT_IDX : Field := ⟨0x4003C, 6, 0, .rw, .operator, 0, .fn⟩
def ROUTE_EN : Field := ⟨0x40040, 0, 0, .rw, .installer, 1, .port⟩
def USABLE : Field := ⟨0x40044, 20, 20, .ro, .none, 0, .port⟩
def STALE : Field := ⟨0x40044, 19, 19, .ro, .none, 0, .port⟩
def CABLE_ERR : Field := ⟨0x40044, 18, 18, .ro, .none, 0, .port⟩
def MAPPED : Field := ⟨0x40044, 17, 17, .ro, .none, 0, .port⟩
def DIM : Field := ⟨0x40044, 13, 12, .ro, .none, 0, .port⟩
def COORD : Field := ⟨0x40044, 5, 0, .ro, .none, 0, .port⟩
def BEACON_AGE : Field := ⟨0x40048, 31, 0, .ro, .none, 4294967295, .port⟩
def PORT_QUEUE : Field := ⟨0x4004C, 15, 0, .ro, .none, 0, .port⟩
def DISC_LIFETIME : Field := ⟨0x40080, 31, 0, .ro, .none, 0, .module⟩
def DISC_HOPS : Field := ⟨0x40084, 31, 0, .ro, .none, 0, .module⟩
def DISC_HDR : Field := ⟨0x40088, 31, 0, .ro, .none, 0, .module⟩
def DISC_NOROUTE : Field := ⟨0x4008C, 31, 0, .ro, .none, 0, .module⟩
def HOPS_MIN : Field := ⟨0x40090, 31, 0, .ro, .none, 0, .module⟩
def HOPS_NONMIN : Field := ⟨0x40094, 31, 0, .ro, .none, 0, .module⟩
def HOPS_ESC : Field := ⟨0x40098, 31, 0, .ro, .none, 0, .module⟩
def HOPS_DETOUR : Field := ⟨0x4009C, 31, 0, .ro, .none, 0, .module⟩
def ESC_FALLBACK : Field := ⟨0x400A0, 31, 0, .ro, .none, 0, .module⟩

def part0 : List Field :=
  [DIMS, W3, W2, W1, W0, S3_M1, S2_M1, S1_M1, S0_M1, OWN_DA, CT_EN, FF_EN, NM_EN, ADAPT_EN, LIFETIME, HOP_MAX, ESC_WAIT, NM_SAMPLES, NM_BIAS, FF_WEIGHT, FF_STALE, FF_FRESH, FF_PERIOD, DISCARD_LIMIT]
def part1 : List Field :=
  [CNT_CLR, CFG_CHECK, CFG_OK, CFG_ERR, PM_IDX, V3, MEMBER3, V2, MEMBER2, V1, MEMBER1, V0, MEMBER0, DETOUR_V, DETOUR_COORD, PORT_IDX, ROUTE_EN, USABLE, STALE, CABLE_ERR, MAPPED, DIM, COORD, BEACON_AGE]
def part2 : List Field :=
  [PORT_QUEUE, DISC_LIFETIME, DISC_HOPS, DISC_HDR, DISC_NOROUTE, HOPS_MIN, HOPS_NONMIN, HOPS_ESC, HOPS_DETOUR, ESC_FALLBACK]
/-- Every field of the RTE window. -/
def all : List Field :=
  part0 ++
  part1 ++
  part2

end Reg.RTE

/-! ### HIF: file 06, R177 -/
namespace Reg.HIF

def WR_IDX : Field := ⟨0x50000, 15, 0, .rw, .operator, 0, .fn⟩
def WR_BASE_LO : Field := ⟨0x50004, 31, 0, .rw, .operator, 0, .wring⟩
def WR_BASE_HI : Field := ⟨0x50008, 31, 0, .rw, .operator, 0, .wring⟩
def SIZE_LOG2 : Field := ⟨0x5000C, 28, 24, .rw, .operator, 4, .wring⟩
def WR_TXE : Field := ⟨0x5000C, 23, 20, .rw, .operator, 0, .wring⟩
def SUPERVISOR : Field := ⟨0x5000C, 19, 19, .rw, .operator, 0, .wring⟩
def CONS_WB_EN : Field := ⟨0x5000C, 18, 18, .rw, .operator, 0, .wring⟩
def WR_FUNC : Field := ⟨0x5000C, 7, 0, .rw, .operator, 0, .wring⟩
def WR_PD : Field := ⟨0x50010, 15, 0, .rw, .operator, 0, .wring⟩
def WR_DB_PAGE : Field := ⟨0x50014, 13, 0, .rw, .operator, 0, .wring⟩
def WR_SCHQ : Field := ⟨0x50018, 15, 0, .rw, .operator, 0, .wring⟩
def CONS_WB_LO : Field := ⟨0x5001C, 31, 0, .rw, .operator, 0, .wring⟩
def CONS_WB_HI : Field := ⟨0x50020, 31, 0, .rw, .operator, 0, .wring⟩
def WR_CMD : Field := ⟨0x50024, 1, 0, .wo, .operator, 0, .wring⟩
def WR_POS : Field := ⟨0x50028, 31, 16, .ro, .none, 0, .wring⟩
def WR_PHASE : Field := ⟨0x50028, 15, 15, .ro, .none, 1, .wring⟩
def WR_STATE : Field := ⟨0x50028, 14, 12, .ro, .none, 0, .wring⟩
def WR_ERR : Field := ⟨0x50028, 3, 0, .ro, .none, 0, .wring⟩
def WR_INFLIGHT : Field := ⟨0x5002C, 12, 0, .ro, .none, 0, .wring⟩
def WR_DEF_CR : Field := ⟨0x50030, 13, 0, .rw, .operator, 0, .wring⟩
def CR_IDX : Field := ⟨0x50040, 13, 0, .rw, .operator, 0, .fn⟩
def CR_BASE_LO : Field := ⟨0x50044, 31, 0, .rw, .operator, 0, .cring⟩
def CR_BASE_HI : Field := ⟨0x50048, 31, 0, .rw, .operator, 0, .cring⟩
def CR_SIZE_LOG2 : Field := ⟨0x5004C, 28, 24, .rw, .operator, 4, .cring⟩
def TWO_WRITE : Field := ⟨0x5004C, 20, 20, .rw, .operator, 1, .cring⟩
def CR_FUNC : Field := ⟨0x5004C, 7, 0, .rw, .operator, 0, .cring⟩
def POLLED : Field := ⟨0x50050, 15, 15, .rw, .operator, 0, .cring⟩
def VECTOR : Field := ⟨0x50050, 10, 0, .rw, .operator, 0, .cring⟩
def CR_DB_PAGE : Field := ⟨0x50054, 13, 0, .rw, .operator, 0, .cring⟩
def MOD_TIME : Field := ⟨0x50058, 31, 16, .rw, .operator, 100, .cring⟩
def MOD_COUNT : Field := ⟨0x50058, 7, 0, .rw, .operator, 16, .cring⟩
def CR_CMD : Field := ⟨0x5005C, 2, 0, .wo, .operator, 0, .cring⟩
def CR_TAIL : Field := ⟨0x50060, 31, 16, .ro, .none, 0, .cring⟩
def CR_PHASE : Field := ⟨0x50060, 15, 15, .ro, .none, 1, .cring⟩
def CR_STATE : Field := ⟨0x50060, 14, 12, .ro, .none, 0, .cring⟩
def ARMED : Field := ⟨0x50060, 9, 9, .ro, .none, 0, .cring⟩
def IRQ_HELD : Field := ⟨0x50060, 8, 8, .ro, .none, 0, .cring⟩
def CR_ERR : Field := ⟨0x50060, 3, 0, .ro, .none, 0, .cring⟩
def HEAD_WRAP : Field := ⟨0x50064, 16, 16, .ro, .none, 0, .cring⟩
def CR_HEAD : Field := ⟨0x50064, 15, 0, .ro, .none, 0, .cring⟩
def CR_HELD : Field := ⟨0x50068, 20, 0, .ro, .none, 0, .cring⟩
def HOLD_MAX : Field := ⟨0x50070, 20, 0, .rw, .operator, 65536, .cring⟩
def HP_IDX : Field := ⟨0x50084, 2, 0, .rw, .operator, 0, .fn⟩
def BIFURC : Field := ⟨0x50088, 4, 4, .rw, .installer, 1, .hp⟩
def GEN_MAX : Field := ⟨0x50088, 1, 0, .rw, .installer, 0, .hp⟩
def BIFURCATED : Field := ⟨0x5008C, 18, 18, .ro, .none, 1, .hp⟩
def L1_H1 : Field := ⟨0x5008C, 17, 17, .ro, .none, 0, .hp⟩
def L1_H0 : Field := ⟨0x5008C, 16, 16, .ro, .none, 0, .hp⟩
def WIDTH_H1 : Field := ⟨0x5008C, 15, 11, .ro, .none, 0, .hp⟩
def SPEED_H1 : Field := ⟨0x5008C, 10, 8, .ro, .none, 0, .hp⟩
def WIDTH_H0 : Field := ⟨0x5008C, 7, 3, .ro, .none, 0, .hp⟩
def SPEED_H0 : Field := ⟨0x5008C, 2, 0, .ro, .none, 0, .hp⟩
def DOORBELLS : Field := ⟨0x500C0, 31, 0, .ro, .none, 0, .slot⟩
def ENTRIES : Field := ⟨0x500C4, 31, 0, .ro, .none, 0, .slot⟩
def COMPLETIONS : Field := ⟨0x500C8, 31, 0, .ro, .none, 0, .slot⟩
def IRQS : Field := ⟨0x500CC, 31, 0, .ro, .none, 0, .slot⟩
def OVF_DROP : Field := ⟨0x500D0, 31, 0, .ro, .none, 0, .slot⟩
def DB_BAD : Field := ⟨0x500D4, 31, 0, .ro, .none, 0, .slot⟩
def PME_SENT : Field := ⟨0x500D8, 31, 0, .ro, .none, 0, .slot⟩
def CNT_CLR : Field := ⟨0x500DC, 0, 0, .wo, .operator, 0, .slot⟩

def part0 : List Field :=
  [WR_IDX, WR_BASE_LO, WR_BASE_HI, SIZE_LOG2, WR_TXE, SUPERVISOR, CONS_WB_EN, WR_FUNC, WR_PD, WR_DB_PAGE, WR_SCHQ, CONS_WB_LO, CONS_WB_HI, WR_CMD, WR_POS, WR_PHASE, WR_STATE, WR_ERR, WR_INFLIGHT, WR_DEF_CR, CR_IDX, CR_BASE_LO, CR_BASE_HI, CR_SIZE_LOG2]
def part1 : List Field :=
  [TWO_WRITE, CR_FUNC, POLLED, VECTOR, CR_DB_PAGE, MOD_TIME, MOD_COUNT, CR_CMD, CR_TAIL, CR_PHASE, CR_STATE, ARMED, IRQ_HELD, CR_ERR, HEAD_WRAP, CR_HEAD, CR_HELD, HOLD_MAX, HP_IDX, BIFURC, GEN_MAX, BIFURCATED, L1_H1, L1_H0]
def part2 : List Field :=
  [WIDTH_H1, SPEED_H1, WIDTH_H0, SPEED_H0, DOORBELLS, ENTRIES, COMPLETIONS, IRQS, OVF_DROP, DB_BAD, PME_SENT, CNT_CLR]
/-- Every field of the HIF window. -/
def all : List Field :=
  part0 ++
  part1 ++
  part2

end Reg.HIF

/-! ### XLT: file 07, R200 -/
namespace Reg.XLT

def PD_IDX : Field := ⟨0x60000, 15, 0, .rw, .operator, 0, .fn⟩
def S1_ROOT_LO : Field := ⟨0x60004, 31, 0, .rw, .operator, 0, .pd⟩
def S1_ROOT_HI : Field := ⟨0x60008, 31, 0, .rw, .operator, 0, .pd⟩
def S1_EN : Field := ⟨0x6000C, 31, 31, .rw, .operator, 0, .pd⟩
def PD_VMID : Field := ⟨0x6000C, 27, 16, .rw, .operator, 0, .pd⟩
def W_X_EXCL : Field := ⟨0x6000C, 9, 9, .rw, .operator, 1, .pd⟩
def PD_SUPER : Field := ⟨0x6000C, 8, 8, .rw, .operator, 0, .pd⟩
def PD_FUNC : Field := ⟨0x6000C, 7, 0, .rw, .operator, 0, .pd⟩
def PD_CMD : Field := ⟨0x60010, 1, 0, .wo, .operator, 0, .pd⟩
def PD_EN : Field := ⟨0x60014, 31, 31, .ro, .none, 0, .pd⟩
def PD_BUSY : Field := ⟨0x60014, 30, 30, .ro, .none, 0, .pd⟩
def PD_ERR : Field := ⟨0x60014, 3, 0, .ro, .none, 0, .pd⟩
def VMID_IDX : Field := ⟨0x60020, 11, 0, .rw, .operator, 0, .fn⟩
def S2_ROOT_LO : Field := ⟨0x60024, 31, 0, .rw, .operator, 0, .vmid⟩
def S2_ROOT_HI : Field := ⟨0x60028, 31, 0, .rw, .operator, 0, .vmid⟩
def S2_EN : Field := ⟨0x6002C, 31, 31, .rw, .operator, 0, .vmid⟩
def VMID_CMD : Field := ⟨0x60030, 1, 0, .wo, .operator, 0, .vmid⟩
def VMID_EN : Field := ⟨0x60034, 31, 31, .ro, .none, 0, .vmid⟩
def VMID_ERR : Field := ⟨0x60034, 3, 0, .ro, .none, 0, .vmid⟩
def INV_ADDR_LO : Field := ⟨0x60040, 31, 0, .rw, .operator, 0, .fn⟩
def INV_ADDR_HI : Field := ⟨0x60044, 31, 0, .rw, .operator, 0, .fn⟩
def INV_PAGES : Field := ⟨0x60048, 23, 0, .rw, .operator, 1, .fn⟩
def INV_SCOPE : Field := ⟨0x6004C, 18, 16, .rw, .operator, 0, .fn⟩
def INV_TARGET : Field := ⟨0x6004C, 15, 0, .rw, .operator, 0, .fn⟩
def INV_GO : Field := ⟨0x60050, 0, 0, .wo, .operator, 0, .fn⟩
def INV_BUSY : Field := ⟨0x60054, 4, 4, .ro, .none, 0, .fn⟩
def INV_ERR : Field := ⟨0x60054, 3, 0, .ro, .none, 0, .fn⟩
def RNG_IDX : Field := ⟨0x60060, 5, 0, .rw, .operator, 0, .fn⟩
def RNG_BASE_LO : Field := ⟨0x60064, 31, 0, .rw, .operator, 0, .range⟩
def RNG_BASE_HI : Field := ⟨0x60068, 31, 0, .rw, .operator, 0, .range⟩
def RNG_LIMIT_LO : Field := ⟨0x6006C, 31, 0, .rw, .operator, 0, .range⟩
def RNG_LIMIT_HI : Field := ⟨0x60070, 31, 0, .rw, .operator, 0, .range⟩
def RNG_EN : Field := ⟨0x60074, 0, 0, .rw, .operator, 0, .range⟩
def AUDIT_PERIOD : Field := ⟨0x60080, 9, 0, .rw, .installer, 10, .module⟩
def AUDIT_BATCH : Field := ⟨0x60084, 15, 0, .rw, .installer, 4096, .module⟩
def AUDIT_POS : Field := ⟨0x60088, 16, 0, .ro, .none, 0, .slot⟩
def FC_VALID : Field := ⟨0x60090, 31, 31, .w1c, .operator, 0, .slot⟩
def FC_ACCESS : Field := ⟨0x60090, 19, 16, .ro, .none, 0, .slot⟩
def FC_DETAIL : Field := ⟨0x60090, 4, 0, .ro, .none, 0, .slot⟩
def FC_VMID : Field := ⟨0x60094, 27, 16, .ro, .none, 0, .slot⟩
def FC_PD : Field := ⟨0x60094, 15, 0, .ro, .none, 0, .slot⟩
def FC_IN_LO : Field := ⟨0x60098, 31, 0, .ro, .none, 0, .slot⟩
def FC_IN_HI : Field := ⟨0x6009C, 31, 0, .ro, .none, 0, .slot⟩
def FC_ADDR_LO : Field := ⟨0x600A0, 31, 0, .ro, .none, 0, .slot⟩
def FC_ADDR_HI : Field := ⟨0x600A4, 31, 0, .ro, .none, 0, .slot⟩
def FC_MISSED : Field := ⟨0x600A8, 31, 0, .ro, .none, 0, .slot⟩
def WALKS : Field := ⟨0x600C0, 31, 0, .ro, .none, 0, .slot⟩
def WALK_READS : Field := ⟨0x600C4, 31, 0, .ro, .none, 0, .slot⟩
def UTLB_HITS : Field := ⟨0x600C8, 31, 0, .ro, .none, 0, .slot⟩
def QC_HITS : Field := ⟨0x600CC, 31, 0, .ro, .none, 0, .slot⟩
def XLT_FAULTS : Field := ⟨0x600D0, 31, 0, .ro, .none, 0, .slot⟩
def INVS : Field := ⟨0x600D4, 31, 0, .ro, .none, 0, .slot⟩
def AUDITED : Field := ⟨0x600D8, 31, 0, .ro, .none, 0, .slot⟩
def MISMATCHES : Field := ⟨0x600DC, 31, 0, .ro, .none, 0, .slot⟩
def DEV_ABORTS : Field := ⟨0x600E0, 31, 0, .ro, .none, 0, .slot⟩
def CNT_CLR : Field := ⟨0x600E4, 0, 0, .wo, .operator, 0, .slot⟩

def part0 : List Field :=
  [PD_IDX, S1_ROOT_LO, S1_ROOT_HI, S1_EN, PD_VMID, W_X_EXCL, PD_SUPER, PD_FUNC, PD_CMD, PD_EN, PD_BUSY, PD_ERR, VMID_IDX, S2_ROOT_LO, S2_ROOT_HI, S2_EN, VMID_CMD, VMID_EN, VMID_ERR, INV_ADDR_LO, INV_ADDR_HI, INV_PAGES, INV_SCOPE, INV_TARGET]
def part1 : List Field :=
  [INV_GO, INV_BUSY, INV_ERR, RNG_IDX, RNG_BASE_LO, RNG_BASE_HI, RNG_LIMIT_LO, RNG_LIMIT_HI, RNG_EN, AUDIT_PERIOD, AUDIT_BATCH, AUDIT_POS, FC_VALID, FC_ACCESS, FC_DETAIL, FC_VMID, FC_PD, FC_IN_LO, FC_IN_HI, FC_ADDR_LO, FC_ADDR_HI, FC_MISSED, WALKS, WALK_READS]
def part2 : List Field :=
  [UTLB_HITS, QC_HITS, XLT_FAULTS, INVS, AUDITED, MISMATCHES, DEV_ABORTS, CNT_CLR]
/-- Every field of the XLT window. -/
def all : List Field :=
  part0 ++
  part1 ++
  part2

end Reg.XLT

/-! ### CXN: file 08, R229 -/
namespace Reg.CXN

def LAT_MAX : Field := ⟨0x70000, 12, 0, .rw, .installer, 50, .module⟩
def RTO : Field := ⟨0x70004, 15, 0, .rw, .installer, 100, .module⟩
def RETRY_MAX : Field := ⟨0x70008, 3, 0, .rw, .installer, 8, .module⟩
def RNR_DELAY : Field := ⟨0x7000C, 15, 0, .rw, .installer, 100, .module⟩
def RNR_TIMEOUT : Field := ⟨0x70010, 15, 0, .rw, .installer, 1000, .module⟩
def RSX_ACK_COUNT : Field := ⟨0x70014, 7, 0, .rw, .installer, 8, .module⟩
def RSX_ACK_DELAY : Field := ⟨0x70018, 15, 0, .rw, .installer, 1000, .module⟩
def EVICT_IDLE : Field := ⟨0x7001C, 10, 0, .rw, .installer, 1000, .module⟩
def CC_EN : Field := ⟨0x70020, 0, 0, .rw, .installer, 1, .module⟩
def CWND_INIT : Field := ⟨0x70024, 23, 0, .rw, .installer, 131072, .module⟩
def CWND_MAX : Field := ⟨0x70028, 23, 0, .rw, .installer, 8519680, .module⟩
def TARGET_Q : Field := ⟨0x7002C, 15, 0, .rw, .installer, 2000, .module⟩
def AI : Field := ⟨0x70030, 15, 0, .rw, .installer, 4160, .module⟩
def BETA : Field := ⟨0x70034, 7, 0, .rw, .installer, 128, .module⟩
def BASE_WIN : Field := ⟨0x70038, 9, 0, .rw, .installer, 10, .module⟩
def WIN_IDX : Field := ⟨0x70040, 19, 0, .rw, .operator, 0, .fn⟩
def WIN_BASE_LO : Field := ⟨0x70044, 31, 0, .rw, .operator, 0, .window⟩
def WIN_BASE_HI : Field := ⟨0x70048, 31, 0, .rw, .operator, 0, .window⟩
def WIN_LEN_LO : Field := ⟨0x7004C, 31, 0, .rw, .operator, 0, .window⟩
def WIN_LEN_HI : Field := ⟨0x70050, 31, 0, .rw, .operator, 0, .window⟩
def WIN_PD : Field := ⟨0x70054, 31, 16, .rw, .operator, 0, .window⟩
def AT : Field := ⟨0x70054, 2, 2, .rw, .operator, 0, .window⟩
def WR : Field := ⟨0x70054, 1, 1, .rw, .operator, 0, .window⟩
def RD : Field := ⟨0x70054, 0, 0, .rw, .operator, 0, .window⟩
def PEER_ANY : Field := ⟨0x70058, 20, 20, .rw, .operator, 1, .window⟩
def WIN_PEER : Field := ⟨0x70058, 19, 0, .rw, .operator, 0, .window⟩
def WIN_CMD : Field := ⟨0x7005C, 1, 0, .wo, .operator, 0, .window⟩
def WIN_VALID : Field := ⟨0x70060, 31, 31, .ro, .none, 0, .window⟩
def WIN_BUSY : Field := ⟨0x70060, 30, 30, .ro, .none, 0, .window⟩
def WIN_ERR : Field := ⟨0x70060, 3, 0, .ro, .none, 0, .window⟩
def CTX_PEER : Field := ⟨0x70070, 19, 0, .rw, .operator, 0, .fn⟩
def CTX_LOOKUP : Field := ⟨0x70074, 0, 0, .wo, .operator, 0, .fn⟩
def FOUND : Field := ⟨0x70078, 31, 31, .ro, .none, 0, .fn⟩
def OPENING : Field := ⟨0x70078, 30, 30, .ro, .none, 0, .fn⟩
def QUIESCENT : Field := ⟨0x70078, 29, 29, .ro, .none, 0, .fn⟩
def ROUNDS : Field := ⟨0x70078, 27, 24, .ro, .none, 0, .fn⟩
def TX_EP : Field := ⟨0x70078, 15, 8, .ro, .none, 0, .fn⟩
def RX_EP : Field := ⟨0x70078, 7, 0, .ro, .none, 0, .fn⟩
def CTX_UNA : Field := ⟨0x7007C, 31, 0, .ro, .none, 0, .fn⟩
def CTX_NEXT : Field := ⟨0x70080, 31, 0, .ro, .none, 0, .fn⟩
def CTX_EPSN : Field := ⟨0x70084, 31, 0, .ro, .none, 0, .fn⟩
def CTX_CWND : Field := ⟨0x70088, 23, 0, .ro, .none, 0, .fn⟩
def OPENS : Field := ⟨0x700C0, 31, 0, .ro, .none, 0, .slot⟩
def RX_CREATES : Field := ⟨0x700C4, 31, 0, .ro, .none, 0, .slot⟩
def REPLACES : Field := ⟨0x700C8, 31, 0, .ro, .none, 0, .slot⟩
def DELETIONS : Field := ⟨0x700CC, 31, 0, .ro, .none, 0, .slot⟩
def EPOCH_NAKS : Field := ⟨0x700D0, 31, 0, .ro, .none, 0, .slot⟩
def LOSS_NAKS : Field := ⟨0x700D4, 31, 0, .ro, .none, 0, .slot⟩
def TIMER_ROUNDS : Field := ⟨0x700D8, 31, 0, .ro, .none, 0, .slot⟩
def RETX_PKTS : Field := ⟨0x700DC, 31, 0, .ro, .none, 0, .slot⟩
def DUP_DROP : Field := ⟨0x700E0, 31, 0, .ro, .none, 0, .slot⟩
def STALE_DROP : Field := ⟨0x700E4, 31, 0, .ro, .none, 0, .slot⟩
def RNR_NAKS : Field := ⟨0x700E8, 31, 0, .ro, .none, 0, .slot⟩
def RESULTS : Field := ⟨0x700EC, 31, 0, .ro, .none, 0, .slot⟩
def FAILED : Field := ⟨0x700F0, 31, 0, .ro, .none, 0, .slot⟩
def CNT_CLR : Field := ⟨0x700F8, 0, 0, .wo, .operator, 0, .slot⟩

def part0 : List Field :=
  [LAT_MAX, RTO, RETRY_MAX, RNR_DELAY, RNR_TIMEOUT, RSX_ACK_COUNT, RSX_ACK_DELAY, EVICT_IDLE, CC_EN, CWND_INIT, CWND_MAX, TARGET_Q, AI, BETA, BASE_WIN, WIN_IDX, WIN_BASE_LO, WIN_BASE_HI, WIN_LEN_LO, WIN_LEN_HI, WIN_PD, AT, WR, RD]
def part1 : List Field :=
  [PEER_ANY, WIN_PEER, WIN_CMD, WIN_VALID, WIN_BUSY, WIN_ERR, CTX_PEER, CTX_LOOKUP, FOUND, OPENING, QUIESCENT, ROUNDS, TX_EP, RX_EP, CTX_UNA, CTX_NEXT, CTX_EPSN, CTX_CWND, OPENS, RX_CREATES, REPLACES, DELETIONS, EPOCH_NAKS, LOSS_NAKS]
def part2 : List Field :=
  [TIMER_ROUNDS, RETX_PKTS, DUP_DROP, STALE_DROP, RNR_NAKS, RESULTS, FAILED, CNT_CLR]
/-- Every field of the CXN window. -/
def all : List Field :=
  part0 ++
  part1 ++
  part2

end Reg.CXN

/-! ### MAT: file 09, R256 -/
namespace Reg.MAT

def DOM_IDX : Field := ⟨0x80000, 12, 0, .rw, .operator, 0, .fn⟩
def COMM_BITS : Field := ⟨0x80004, 29, 24, .rw, .operator, 0, .domain⟩
def DOM_FUNC : Field := ⟨0x80004, 7, 0, .rw, .operator, 0, .domain⟩
def DOM_UNX_MAX : Field := ⟨0x80008, 13, 0, .rw, .operator, 1024, .domain⟩
def DOM_CMD : Field := ⟨0x8000C, 1, 0, .wo, .operator, 0, .domain⟩
def DOM_ACTIVE : Field := ⟨0x80010, 31, 31, .ro, .none, 0, .domain⟩
def DOM_BUSY : Field := ⟨0x80010, 30, 30, .ro, .none, 0, .domain⟩
def DOM_ERR : Field := ⟨0x80010, 3, 0, .ro, .none, 0, .domain⟩
def POSTED : Field := ⟨0x80014, 22, 0, .ro, .none, 0, .domain⟩
def WILD_POSTED : Field := ⟨0x80018, 22, 0, .ro, .none, 0, .domain⟩
def UNX_MSGS : Field := ⟨0x8001C, 23, 0, .ro, .none, 0, .domain⟩
def UNX_MIB : Field := ⟨0x80020, 13, 0, .ro, .none, 0, .domain⟩
def EAGER_MAX : Field := ⟨0x80040, 18, 0, .rw, .installer, 16384, .module⟩
def UNX_QUAD_MAX : Field := ⟨0x80044, 13, 0, .rw, .installer, 8192, .module⟩
def EAGER_MSGS : Field := ⟨0x800C0, 31, 0, .ro, .none, 0, .slot⟩
def RTS_MSGS : Field := ⟨0x800C4, 31, 0, .ro, .none, 0, .slot⟩
def MATCH_ARRIVAL : Field := ⟨0x800C8, 31, 0, .ro, .none, 0, .slot⟩
def MATCH_POST : Field := ⟨0x800CC, 31, 0, .ro, .none, 0, .slot⟩
def ORDER_HELD : Field := ⟨0x800D0, 31, 0, .ro, .none, 0, .slot⟩
def WILD_SCAN : Field := ⟨0x800D4, 31, 0, .ro, .none, 0, .slot⟩
def TRUNCATIONS : Field := ⟨0x800D8, 31, 0, .ro, .none, 0, .slot⟩
def CANCELS : Field := ⟨0x800DC, 31, 0, .ro, .none, 0, .slot⟩
def UNX_NAKS : Field := ⟨0x800E0, 31, 0, .ro, .none, 0, .slot⟩
def PULLS : Field := ⟨0x800E4, 31, 0, .ro, .none, 0, .slot⟩
def PULL_ABORTS : Field := ⟨0x800E8, 31, 0, .ro, .none, 0, .slot⟩
def ABANDONED : Field := ⟨0x800EC, 31, 0, .ro, .none, 0, .slot⟩
def CNT_CLR : Field := ⟨0x800F0, 0, 0, .wo, .operator, 0, .slot⟩

def part0 : List Field :=
  [DOM_IDX, COMM_BITS, DOM_FUNC, DOM_UNX_MAX, DOM_CMD, DOM_ACTIVE, DOM_BUSY, DOM_ERR, POSTED, WILD_POSTED, UNX_MSGS, UNX_MIB, EAGER_MAX, UNX_QUAD_MAX, EAGER_MSGS, RTS_MSGS, MATCH_ARRIVAL, MATCH_POST, ORDER_HELD, WILD_SCAN, TRUNCATIONS, CANCELS, UNX_NAKS, PULLS]
def part1 : List Field :=
  [PULL_ABORTS, ABANDONED, CNT_CLR]
/-- Every field of the MAT window. -/
def all : List Field :=
  part0 ++
  part1

end Reg.MAT

/-! ### COL: file 10, R280 -/
namespace Reg.COL

def GRP_IDX : Field := ⟨0x90000, 11, 0, .rw, .operator, 0, .fn⟩
def RANKTAB_LO : Field := ⟨0x90004, 31, 0, .rw, .operator, 0, .group⟩
def RANKTAB_HI : Field := ⟨0x90008, 31, 0, .rw, .operator, 0, .group⟩
def GRP_SIZE : Field := ⟨0x9000C, 20, 0, .rw, .operator, 1, .group⟩
def GRP_PD : Field := ⟨0x90010, 31, 16, .rw, .operator, 0, .group⟩
def HOME_Q : Field := ⟨0x90010, 9, 8, .rw, .operator, 0, .group⟩
def GEN : Field := ⟨0x90010, 7, 0, .rw, .operator, 0, .group⟩
def WINDOW : Field := ⟨0x90014, 6, 0, .rw, .operator, 8, .group⟩
def OP_TIMEOUT : Field := ⟨0x90018, 15, 0, .rw, .operator, 0, .group⟩
def GRP_CMD : Field := ⟨0x9001C, 1, 0, .wo, .operator, 0, .group⟩
def GRP_ACTIVE : Field := ⟨0x90020, 31, 31, .ro, .none, 0, .group⟩
def GRP_ABORTED : Field := ⟨0x90020, 30, 30, .ro, .none, 0, .group⟩
def GRP_BUSY : Field := ⟨0x90020, 29, 29, .ro, .none, 0, .group⟩
def ABORT_REASON : Field := ⟨0x90020, 23, 16, .ro, .none, 0, .group⟩
def GRP_ERR : Field := ⟨0x90020, 3, 0, .ro, .none, 0, .group⟩
def LOCAL_RANKS : Field := ⟨0x90024, 4, 0, .ro, .none, 0, .group⟩
def NEXT_OP_SEQ : Field := ⟨0x90028, 15, 0, .ro, .none, 0, .group⟩
def DONE_OP_SEQ : Field := ⟨0x9002C, 15, 0, .ro, .none, 65535, .group⟩
def POOL_MIB : Field := ⟨0x90040, 13, 0, .rw, .installer, 1024, .module⟩
def OPS_DONE : Field := ⟨0x900C0, 31, 0, .ro, .none, 0, .quad⟩
def CHUNKS_UP : Field := ⟨0x900C4, 31, 0, .ro, .none, 0, .quad⟩
def CHUNKS_DOWN : Field := ⟨0x900C8, 31, 0, .ro, .none, 0, .quad⟩
def FOLDS : Field := ⟨0x900CC, 31, 0, .ro, .none, 0, .quad⟩
def NAKS_SENT : Field := ⟨0x900D0, 31, 0, .ro, .none, 0, .quad⟩
def RESENDS : Field := ⟨0x900D4, 31, 0, .ro, .none, 0, .quad⟩
def DUP_DROP : Field := ⟨0x900D8, 31, 0, .ro, .none, 0, .quad⟩
def PROTO_DROP : Field := ⟨0x900DC, 31, 0, .ro, .none, 0, .quad⟩
def STALE : Field := ⟨0x900E0, 31, 0, .ro, .none, 0, .quad⟩
def ABORTS : Field := ⟨0x900E4, 31, 0, .ro, .none, 0, .quad⟩
def FP_EXC_FOLDS : Field := ⟨0x900E8, 31, 0, .ro, .none, 0, .quad⟩
def CNT_CLR : Field := ⟨0x900F0, 0, 0, .wo, .operator, 0, .quad⟩

def part0 : List Field :=
  [GRP_IDX, RANKTAB_LO, RANKTAB_HI, GRP_SIZE, GRP_PD, HOME_Q, GEN, WINDOW, OP_TIMEOUT, GRP_CMD, GRP_ACTIVE, GRP_ABORTED, GRP_BUSY, ABORT_REASON, GRP_ERR, LOCAL_RANKS, NEXT_OP_SEQ, DONE_OP_SEQ, POOL_MIB, OPS_DONE, CHUNKS_UP, CHUNKS_DOWN, FOLDS, NAKS_SENT]
def part1 : List Field :=
  [RESENDS, DUP_DROP, PROTO_DROP, STALE, ABORTS, FP_EXC_FOLDS, CNT_CLR]
/-- Every field of the COL window. -/
def all : List Field :=
  part0 ++
  part1

end Reg.COL

/-! ### LKA: file 11, R300 -/
namespace Reg.LKA

def LOCK_IDX : Field := ⟨0xA0000, 15, 0, .rw, .operator, 0, .fn⟩
def EVT_EN : Field := ⟨0xA0004, 31, 31, .rw, .operator, 0, .lock⟩
def EVT_PD : Field := ⟨0xA0004, 15, 0, .rw, .operator, 0, .lock⟩
def EVT_VA_LO : Field := ⟨0xA0008, 31, 0, .rw, .operator, 0, .lock⟩
def EVT_VA_HI : Field := ⟨0xA000C, 31, 0, .rw, .operator, 0, .lock⟩
def HELD : Field := ⟨0xA0010, 31, 31, .ro, .none, 0, .lock⟩
def ORPHANED : Field := ⟨0xA0010, 30, 30, .ro, .none, 0, .lock⟩
def HOLDER_EID : Field := ⟨0xA0010, 19, 0, .ro, .none, 0, .lock⟩
def LOCK_GEN : Field := ⟨0xA0014, 31, 0, .ro, .none, 0, .lock⟩
def WAITERS : Field := ⟨0xA0018, 23, 0, .ro, .none, 0, .lock⟩
def FORCE : Field := ⟨0xA0020, 0, 0, .wo, .operator, 0, .lock⟩
def LEASE_MS : Field := ⟨0xA0040, 13, 0, .rw, .installer, 100, .module⟩
def ACQUIRES : Field := ⟨0xA00C0, 31, 0, .ro, .none, 0, .quad⟩
def GRANTS : Field := ⟨0xA00C4, 31, 0, .ro, .none, 0, .quad⟩
def ORPHAN_GRANTS : Field := ⟨0xA00C8, 31, 0, .ro, .none, 0, .quad⟩
def LEASE_EXPIRIES : Field := ⟨0xA00CC, 31, 0, .ro, .none, 0, .quad⟩
def FORCES : Field := ⟨0xA00D0, 31, 0, .ro, .none, 0, .quad⟩
def WITHDRAWS : Field := ⟨0xA00D4, 31, 0, .ro, .none, 0, .quad⟩
def ATOMICS : Field := ⟨0xA00D8, 31, 0, .ro, .none, 0, .quad⟩
def AT_DUP : Field := ⟨0xA00DC, 31, 0, .ro, .none, 0, .quad⟩
def EVT_SKIPPED : Field := ⟨0xA00E0, 31, 0, .ro, .none, 0, .quad⟩
def PROTO_DROP : Field := ⟨0xA00E4, 31, 0, .ro, .none, 0, .quad⟩
def CNT_CLR : Field := ⟨0xA00F0, 0, 0, .wo, .operator, 0, .quad⟩

def part0 : List Field :=
  [LOCK_IDX, EVT_EN, EVT_PD, EVT_VA_LO, EVT_VA_HI, HELD, ORPHANED, HOLDER_EID, LOCK_GEN, WAITERS, FORCE, LEASE_MS, ACQUIRES, GRANTS, ORPHAN_GRANTS, LEASE_EXPIRIES, FORCES, WITHDRAWS, ATOMICS, AT_DUP, EVT_SKIPPED, PROTO_DROP, CNT_CLR]
/-- Every field of the LKA window. -/
def all : List Field :=
  part0

end Reg.LKA

/-! ### SCH: file 12, R316 -/
namespace Reg.SCH

def Q_IDX : Field := ⟨0xB0000, 13, 0, .rw, .operator, 0, .fn⟩
def Q_GROUP : Field := ⟨0xB0004, 23, 16, .rw, .operator, 0, .queue⟩
def Q_QUANTUM : Field := ⟨0xB0004, 11, 0, .rw, .operator, 128, .queue⟩
def Q_RATE : Field := ⟨0xB0008, 20, 0, .rw, .operator, 0, .queue⟩
def Q_BURST : Field := ⟨0xB000C, 15, 0, .rw, .operator, 0, .queue⟩
def Q_BACKLOG : Field := ⟨0xB0010, 31, 31, .ro, .none, 0, .queue⟩
def Q_PARKED : Field := ⟨0xB0010, 30, 30, .ro, .none, 0, .queue⟩
def Q_PKTS : Field := ⟨0xB0010, 19, 0, .ro, .none, 0, .queue⟩
def G_IDX : Field := ⟨0xB0020, 7, 0, .rw, .operator, 0, .fn⟩
def G_QUANTUM : Field := ⟨0xB0024, 11, 0, .rw, .operator, 128, .sgroup⟩
def G_RATE : Field := ⟨0xB0028, 20, 0, .rw, .operator, 0, .sgroup⟩
def G_BURST : Field := ⟨0xB002C, 15, 0, .rw, .operator, 0, .sgroup⟩
def G_BACKLOG : Field := ⟨0xB0030, 31, 31, .ro, .none, 0, .sgroup⟩
def G_PARKED : Field := ⟨0xB0030, 30, 30, .ro, .none, 0, .sgroup⟩
def TC1_QUANTUM : Field := ⟨0xB0040, 27, 16, .rw, .installer, 128, .quad⟩
def TC0_QUANTUM : Field := ⟨0xB0040, 11, 0, .rw, .installer, 128, .quad⟩
def SYS_QUANTUM : Field := ⟨0xB0044, 27, 16, .rw, .installer, 512, .quad⟩
def TC2_QUANTUM : Field := ⟨0xB0044, 11, 0, .rw, .installer, 128, .quad⟩
def TC3_RATE : Field := ⟨0xB0048, 20, 0, .rw, .installer, 400000, .quad⟩
def TC3_BURST : Field := ⟨0xB004C, 15, 0, .rw, .installer, 64, .quad⟩
def OVERHEAD : Field := ⟨0xB0050, 7, 0, .rw, .installer, 12, .module⟩
def UNLOCKED_OPEN : Field := ⟨0xB0060, 1, 1, .rw, .operator, 0, .module⟩
def GATE_EN : Field := ⟨0xB0060, 0, 0, .rw, .operator, 0, .module⟩
def GATE_BASE_LO : Field := ⟨0xB0064, 31, 0, .rw, .operator, 0, .module⟩
def GATE_BASE_HI : Field := ⟨0xB0068, 31, 0, .rw, .operator, 0, .module⟩
def GATE_CYCLE : Field := ⟨0xB006C, 31, 0, .rw, .operator, 1000000, .module⟩
def GATE_GUARD : Field := ⟨0xB0070, 11, 0, .rw, .operator, 50, .module⟩
def GL_IDX : Field := ⟨0xB0074, 3, 0, .rw, .operator, 0, .fn⟩
def OPEN : Field := ⟨0xB0078, 27, 24, .rw, .operator, 15, .gate⟩
def DURATION : Field := ⟨0xB0078, 23, 0, .rw, .operator, 1000000, .gate⟩
def GL_LEN : Field := ⟨0xB007C, 4, 0, .rw, .operator, 1, .module⟩
def GATE_SWAP : Field := ⟨0xB0080, 0, 0, .wo, .operator, 0, .module⟩
def SWAP_TIME_LO : Field := ⟨0xB0084, 31, 0, .rw, .operator, 0, .module⟩
def SWAP_TIME_HI : Field := ⟨0xB0088, 31, 0, .rw, .operator, 0, .module⟩
def SWAP_PENDING : Field := ⟨0xB008C, 31, 31, .ro, .none, 0, .module⟩
def OPEN_NOW : Field := ⟨0xB008C, 11, 8, .ro, .none, 15, .module⟩
def CUR_ENTRY : Field := ⟨0xB008C, 3, 0, .ro, .none, 0, .module⟩
def GRANTS : Field := ⟨0xB00C0, 31, 0, .ro, .none, 0, .quad⟩
def SYS_GRANTS : Field := ⟨0xB00C4, 31, 0, .ro, .none, 0, .quad⟩
def PARKS : Field := ⟨0xB00C8, 31, 0, .ro, .none, 0, .quad⟩
def GATE_WAITS : Field := ⟨0xB00CC, 31, 0, .ro, .none, 0, .quad⟩
def TC3_HELD : Field := ⟨0xB00D0, 31, 0, .ro, .none, 0, .quad⟩
def GATE_OVERRUNS : Field := ⟨0xB00D4, 31, 0, .ro, .none, 0, .quad⟩
def CNT_CLR : Field := ⟨0xB00F0, 0, 0, .wo, .operator, 0, .quad⟩

def part0 : List Field :=
  [Q_IDX, Q_GROUP, Q_QUANTUM, Q_RATE, Q_BURST, Q_BACKLOG, Q_PARKED, Q_PKTS, G_IDX, G_QUANTUM, G_RATE, G_BURST, G_BACKLOG, G_PARKED, TC1_QUANTUM, TC0_QUANTUM, SYS_QUANTUM, TC2_QUANTUM, TC3_RATE, TC3_BURST, OVERHEAD, UNLOCKED_OPEN, GATE_EN, GATE_BASE_LO]
def part1 : List Field :=
  [GATE_BASE_HI, GATE_CYCLE, GATE_GUARD, GL_IDX, OPEN, DURATION, GL_LEN, GATE_SWAP, SWAP_TIME_LO, SWAP_TIME_HI, SWAP_PENDING, OPEN_NOW, CUR_ENTRY, GRANTS, SYS_GRANTS, PARKS, GATE_WAITS, TC3_HELD, GATE_OVERRUNS, CNT_CLR]
/-- Every field of the SCH window. -/
def all : List Field :=
  part0 ++
  part1

end Reg.SCH

/-! ### SEQ: file 13, R332 -/
namespace Reg.SEQ

def CLS_IDX : Field := ⟨0xC0000, 2, 0, .rw, .operator, 1, .fn⟩
def VAR_SEL : Field := ⟨0xC0004, 3, 0, .rw, .installer, 0, .cls⟩
def CLASS : Field := ⟨0xC0008, 31, 24, .ro, .none, 0, .cls⟩
def VARIANT : Field := ⟨0xC0008, 19, 16, .ro, .none, 0, .cls⟩
def VERSION : Field := ⟨0xC0008, 15, 0, .ro, .none, 0, .cls⟩
def STEPS : Field := ⟨0xC000C, 13, 0, .ro, .none, 0, .cls⟩
def DIGEST (k : Nat) : Field := ⟨0xC0010 + 4 * k, 31, 0, .ro, .none, 0, .cls⟩
def AVAIL : Field := ⟨0xC0040, 15, 0, .ro, .none, 0, .cls⟩
def SWAP : Field := ⟨0xC0044, 0, 0, .wo, .installer, 0, .cls⟩
def SWAP_ERR : Field := ⟨0xC0048, 6, 4, .ro, .none, 0, .cls⟩
def SWAP_STATUS : Field := ⟨0xC0048, 2, 0, .ro, .none, 0, .cls⟩
def ENG_IDX : Field := ⟨0xC0050, 6, 0, .rw, .operator, 0, .fn⟩
def RUNNING : Field := ⟨0xC0054, 31, 31, .ro, .none, 0, .module⟩
def STOPPED : Field := ⟨0xC0054, 30, 30, .ro, .none, 0, .module⟩
def GATED : Field := ⟨0xC0054, 29, 29, .ro, .none, 1, .module⟩
def STEP_IDX : Field := ⟨0xC0054, 12, 0, .ro, .none, 0, .module⟩
def FLAG_VEC : Field := ⟨0xC0058, 31, 0, .ro, .none, 0, .module⟩
def ACT_IDX : Field := ⟨0xC0080, 3, 0, .rw, .operator, 0, .fn⟩
def ACT_RUNNING : Field := ⟨0xC0084, 31, 16, .ro, .none, 0, .module⟩
def ACT_DEFERRED : Field := ⟨0xC0084, 15, 0, .ro, .none, 0, .module⟩
def ACT_DEFERRALS : Field := ⟨0xC0088, 31, 0, .ro, .none, 0, .module⟩
def SCRUB_HBM_PERIOD : Field := ⟨0xC00A0, 15, 0, .rw, .installer, 3600, .module⟩
def SCRUB_SRAM_PERIOD : Field := ⟨0xC00A4, 15, 0, .rw, .installer, 10, .module⟩
def CORR_LIMIT : Field := ⟨0xC00A8, 15, 0, .rw, .installer, 1000, .module⟩
def REPAIR_THRESH : Field := ⟨0xC00AC, 3, 0, .rw, .installer, 3, .module⟩
def REPAIR_ADDR_LO : Field := ⟨0xC00B0, 31, 0, .rw, .installer, 0, .module⟩
def REPAIR_ADDR_HI : Field := ⟨0xC00B4, 31, 0, .rw, .installer, 0, .module⟩
def REPAIR_GO : Field := ⟨0xC00B8, 0, 0, .wo, .installer, 0, .module⟩
def SPARES_LEFT : Field := ⟨0xC00BC, 11, 8, .ro, .none, 0, .module⟩
def REPAIR_STATUS : Field := ⟨0xC00BC, 2, 0, .ro, .none, 0, .module⟩
def CIC_PERIOD : Field := ⟨0xC00C0, 9, 0, .rw, .installer, 1, .module⟩
def TEMP_ALERT : Field := ⟨0xC00C4, 7, 0, .rw, .installer, 105, .module⟩
def TEMP_CRIT : Field := ⟨0xC00C8, 7, 0, .rw, .installer, 120, .module⟩
def TEMP_IDX : Field := ⟨0xC00CC, 3, 0, .rw, .operator, 0, .fn⟩
def TEMP_MAX : Field := ⟨0xC00D0, 31, 16, .ro, .none, 32768, .module⟩
def TEMP : Field := ⟨0xC00D0, 15, 0, .ro, .none, 0, .module⟩
def REFRESH_X4 : Field := ⟨0xC00D4, 3, 0, .ro, .none, 0, .module⟩
def CORR_HBM : Field := ⟨0xC00E0, 31, 0, .ro, .none, 0, .module⟩
def UNCORR_HBM : Field := ⟨0xC00E4, 31, 0, .ro, .none, 0, .module⟩
def CORR_SRAM : Field := ⟨0xC00E8, 31, 0, .ro, .none, 0, .module⟩
def UNCORR_SRAM : Field := ⟨0xC00EC, 31, 0, .ro, .none, 0, .module⟩
def REPAIRS : Field := ⟨0xC00F0, 31, 0, .ro, .none, 0, .module⟩
def STEP_REWRITES : Field := ⟨0xC00F4, 31, 0, .ro, .none, 0, .module⟩
def CNT_CLR : Field := ⟨0xC00FC, 0, 0, .wo, .operator, 0, .module⟩

def part0 : List Field :=
  [CLS_IDX, VAR_SEL, CLASS, VARIANT, VERSION, STEPS, AVAIL, SWAP, SWAP_ERR, SWAP_STATUS, ENG_IDX, RUNNING, STOPPED, GATED, STEP_IDX, FLAG_VEC, ACT_IDX, ACT_RUNNING, ACT_DEFERRED, ACT_DEFERRALS, SCRUB_HBM_PERIOD, SCRUB_SRAM_PERIOD, CORR_LIMIT, REPAIR_THRESH]
def part1 : List Field :=
  [REPAIR_ADDR_LO, REPAIR_ADDR_HI, REPAIR_GO, SPARES_LEFT, REPAIR_STATUS, CIC_PERIOD, TEMP_ALERT, TEMP_CRIT, TEMP_IDX, TEMP_MAX, TEMP, REFRESH_X4, CORR_HBM, UNCORR_HBM, CORR_SRAM, UNCORR_SRAM, REPAIRS, STEP_REWRITES, CNT_CLR]
/-- Every field of the SEQ window. -/
def all : List Field :=
  part0 ++
  part1 ++
  (List.range 12).map DIGEST

end Reg.SEQ

/-! ### PWR: file 14, R354 -/
namespace Reg.PWR

def FEED_IDX : Field := ⟨0xD0000, 0, 0, .rw, .operator, 0, .fn⟩
def ILIM : Field := ⟨0xD0004, 29, 24, .rs, .installer, 24, .feed⟩
def FAULT_TIME : Field := ⟨0xD0004, 21, 16, .rs, .installer, 4, .feed⟩
def RETRY_MAX : Field := ⟨0xD0004, 10, 8, .rs, .installer, 0, .feed⟩
def SW_OFF : Field := ⟨0xD0004, 0, 0, .rs, .installer, 0, .feed⟩
def FEED_CLR : Field := ⟨0xD0008, 0, 0, .wo, .installer, 0, .feed⟩
def LATCHED : Field := ⟨0xD000C, 31, 31, .ro, .none, 0, .feed⟩
def CAUSE : Field := ⟨0xD000C, 30, 28, .ro, .none, 0, .feed⟩
def RETRIES_USED : Field := ⟨0xD000C, 26, 24, .ro, .none, 0, .feed⟩
def STATE : Field := ⟨0xD000C, 22, 20, .ro, .none, 0, .feed⟩
def IN_RANGE : Field := ⟨0xD000C, 16, 16, .ro, .none, 0, .feed⟩
def EN_PIN : Field := ⟨0xD000C, 15, 15, .ro, .none, 0, .feed⟩
def LIMITING : Field := ⟨0xD000C, 14, 14, .ro, .none, 0, .feed⟩
def TIMER_RUN : Field := ⟨0xD000C, 13, 13, .ro, .none, 0, .feed⟩
def ENHANCED : Field := ⟨0xD000C, 12, 12, .ro, .none, 0, .feed⟩
def VIN : Field := ⟨0xD0010, 15, 0, .ro, .none, 0, .feed⟩
def IIN : Field := ⟨0xD0014, 15, 0, .ro, .none, 0, .feed⟩
def TRIPS : Field := ⟨0xD0018, 31, 0, .ro, .none, 0, .feed⟩
def RETRIES : Field := ⟨0xD001C, 31, 0, .ro, .none, 0, .feed⟩
def VBUS : Field := ⟨0xD0040, 15, 0, .ro, .none, 0, .module⟩
def PIN : Field := ⟨0xD0044, 15, 0, .ro, .none, 0, .module⟩
def PWR_LIMIT : Field := ⟨0xD0048, 9, 0, .rs, .installer, 900, .module⟩
def SHARE_A : Field := ⟨0xD004C, 7, 0, .ro, .none, 0, .module⟩
def PGOOD : Field := ⟨0xD0050, 31, 31, .ro, .none, 0, .module⟩
def RAILS_UP : Field := ⟨0xD0050, 30, 30, .ro, .none, 0, .module⟩
def RAIL_IDX : Field := ⟨0xD0058, 4, 0, .rw, .operator, 0, .fn⟩
def RAIL_I : Field := ⟨0xD005C, 31, 16, .ro, .none, 0, .module⟩
def RAIL_V : Field := ⟨0xD005C, 15, 0, .ro, .none, 0, .module⟩
def RAIL_OK : Field := ⟨0xD0060, 25, 0, .ro, .none, 0, .module⟩
def RAIL_FAULT : Field := ⟨0xD0064, 25, 0, .w1c, .operator, 0, .module⟩
def ENERGY_LO : Field := ⟨0xD0068, 31, 0, .ro, .none, 0, .module⟩
def ENERGY_HI : Field := ⟨0xD006C, 31, 0, .ro, .none, 0, .module⟩
def PGOOD_FALLS : Field := ⟨0xD0070, 31, 0, .ro, .none, 0, .module⟩
def CNT_CLR : Field := ⟨0xD0078, 0, 0, .wo, .operator, 0, .module⟩

def part0 : List Field :=
  [FEED_IDX, ILIM, FAULT_TIME, RETRY_MAX, SW_OFF, FEED_CLR, LATCHED, CAUSE, RETRIES_USED, STATE, IN_RANGE, EN_PIN, LIMITING, TIMER_RUN, ENHANCED, VIN, IIN, TRIPS, RETRIES, VBUS, PIN, PWR_LIMIT, SHARE_A, PGOOD]
def part1 : List Field :=
  [RAILS_UP, RAIL_IDX, RAIL_I, RAIL_V, RAIL_OK, RAIL_FAULT, ENERGY_LO, ENERGY_HI, PGOOD_FALLS, CNT_CLR]
/-- Every field of the PWR window. -/
def all : List Field :=
  part0 ++
  part1

end Reg.PWR

/-! ### FLT: file 16, R387, Table 16-5 -/
namespace Reg.FLT

def FS_IDX : Field := ⟨0xE0000, 6, 0, .rw, .operator, 0, .fn⟩
def SEV : Field := ⟨0xE0004, 10, 8, .rs, .installer, 0, .source⟩
def FAULTN : Field := ⟨0xE0004, 4, 4, .rs, .installer, 0, .source⟩
def PWR : Field := ⟨0xE0004, 3, 3, .rs, .installer, 0, .source⟩
def STICKY : Field := ⟨0xE0008, 31, 31, .w1c, .operator, 0, .source⟩
def ACTIVE : Field := ⟨0xE0008, 30, 30, .ro, .none, 0, .source⟩
def FORCED : Field := ⟨0xE0008, 29, 29, .ro, .none, 0, .source⟩
def COUNT : Field := ⟨0xE0008, 15, 0, .ro, .none, 0, .source⟩
def STICKY_BANK (k : Nat) : Field := ⟨0xE0010 + 4 * k, 31, 0, .w1c, .operator, 0, .module⟩
def ACTIVE_BANK (k : Nat) : Field := ⟨0xE0020 + 4 * k, 31, 0, .ro, .none, 0, .module⟩
def FORCE (k : Nat) : Field := ⟨0xE0030 + 4 * k, 31, 0, .w1s, .installer, 0, .module⟩
def OPEN : Field := ⟨0xE0040, 31, 31, .ro, .none, 0, .module⟩
def SEV_APPLIED : Field := ⟨0xE0040, 30, 28, .ro, .none, 0, .module⟩
def FIRST_FS : Field := ⟨0xE0040, 22, 16, .ro, .none, 0, .module⟩
def MERGED : Field := ⟨0xE0040, 15, 0, .ro, .none, 0, .module⟩
def FLT_ACK : Field := ⟨0xE0044, 0, 0, .wo, .operator, 0, .module⟩
def CAP_TS_LO : Field := ⟨0xE0048, 31, 0, .ro, .none, 0, .module⟩
def CAP_TS_HI : Field := ⟨0xE004C, 31, 0, .ro, .none, 0, .module⟩
def CAP_UNIT : Field := ⟨0xE0050, 31, 0, .ro, .none, 0, .module⟩
def CAP_DETAIL : Field := ⟨0xE0054, 31, 0, .ro, .none, 0, .module⟩
def CAP_SEQ_LO : Field := ⟨0xE0058, 31, 0, .ro, .none, 0, .module⟩
def CAP_SEQ_HI : Field := ⟨0xE005C, 31, 0, .ro, .none, 0, .module⟩
def LIST (k : Nat) : Field := ⟨0xE0060 + 4 * k, 31, 0, .ro, .none, 4294967295, .module⟩
def PORT_CONT (k : Nat) : Field := ⟨0xE0070 + 4 * k, 31, 0, .ro, .none, 0, .module⟩
def SLOT_CONT : Field := ⟨0xE0080, 15, 0, .w1c, .operator, 0, .module⟩
def IRQ_EN : Field := ⟨0xE0090, 31, 31, .rw, .operator, 0, .module⟩
def MCTP_EN : Field := ⟨0xE0090, 30, 30, .rw, .operator, 1, .module⟩
def IRQ_SLOT : Field := ⟨0xE0090, 19, 16, .rw, .operator, 0, .module⟩
def IRQ_VEC : Field := ⟨0xE0090, 10, 0, .rw, .operator, 0, .module⟩
def FAULT_N_ON : Field := ⟨0xE0094, 4, 4, .ro, .none, 0, .module⟩
def GATES_OFF : Field := ⟨0xE0094, 3, 3, .ro, .none, 0, .module⟩
def BM_STOPPED : Field := ⟨0xE0094, 2, 2, .ro, .none, 0, .module⟩
def PPS_FORCED : Field := ⟨0xE0094, 1, 1, .ro, .none, 0, .module⟩
def LANES_IDLE : Field := ⟨0xE0094, 0, 0, .ro, .none, 0, .module⟩
def HANDLINGS : Field := ⟨0xE00C0, 31, 0, .ro, .none, 0, .module⟩
def MERGES : Field := ⟨0xE00C4, 31, 0, .ro, .none, 0, .module⟩
def ESCALATIONS : Field := ⟨0xE00C8, 31, 0, .ro, .none, 0, .module⟩
def CNT_CLR : Field := ⟨0xE00F0, 0, 0, .wo, .operator, 0, .module⟩

def part0 : List Field :=
  [FS_IDX, SEV, FAULTN, PWR, STICKY, ACTIVE, FORCED, COUNT, OPEN, SEV_APPLIED, FIRST_FS, MERGED, FLT_ACK, CAP_TS_LO, CAP_TS_HI, CAP_UNIT, CAP_DETAIL, CAP_SEQ_LO, CAP_SEQ_HI, SLOT_CONT, IRQ_EN, MCTP_EN, IRQ_SLOT, IRQ_VEC]
def part1 : List Field :=
  [FAULT_N_ON, GATES_OFF, BM_STOPPED, PPS_FORCED, LANES_IDLE, HANDLINGS, MERGES, ESCALATIONS, CNT_CLR]
/-- Every field of the FLT window. -/
def all : List Field :=
  part0 ++
  part1 ++
  (List.range 4).map STICKY_BANK ++
  (List.range 4).map ACTIVE_BANK ++
  (List.range 4).map FORCE ++
  (List.range 4).map LIST ++
  (List.range 4).map PORT_CONT

end Reg.FLT

/-! ### EVR: file 17, R414, Table 17-10 -/
namespace Reg.EVR

def NEXT_SEQ_LO : Field := ⟨0xF0000, 31, 0, .ro, .none, 0, .module⟩
def NEXT_SEQ_HI : Field := ⟨0xF0004, 31, 0, .ro, .none, 0, .module⟩
def RING_FIRST_SEQ_LO : Field := ⟨0xF0008, 31, 0, .ro, .none, 0, .module⟩
def RING_FIRST_SEQ_HI : Field := ⟨0xF000C, 31, 0, .ro, .none, 0, .module⟩
def KEEP_LAST_SEQ_LO : Field := ⟨0xF0010, 31, 0, .ro, .none, 0, .module⟩
def KEEP_LAST_SEQ_HI : Field := ⟨0xF0014, 31, 0, .ro, .none, 0, .module⟩
def KEEP_FULL : Field := ⟨0xF0018, 31, 31, .ro, .none, 0, .module⟩
def LEDGER_FULL : Field := ⟨0xF0018, 30, 30, .ro, .none, 0, .module⟩
def QUEUE_LEVEL : Field := ⟨0xF0018, 8, 0, .ro, .none, 0, .module⟩
def LOST : Field := ⟨0xF001C, 31, 0, .ro, .none, 0, .module⟩
def SUPPRESSED : Field := ⟨0xF0020, 31, 0, .ro, .none, 0, .module⟩
def RL_BURST : Field := ⟨0xF0024, 15, 8, .rs, .installer, 16, .module⟩
def RL_RATE : Field := ⟨0xF0024, 7, 0, .rs, .installer, 16, .module⟩
def RL_IDX : Field := ⟨0xF0028, 4, 0, .rw, .operator, 0, .fn⟩
def RL_EN : Field := ⟨0xF002C, 31, 31, .rs, .installer, 0, .rl⟩
def RL_CODE : Field := ⟨0xF002C, 15, 0, .rs, .installer, 0, .rl⟩
def RL_OBURST : Field := ⟨0xF0030, 15, 8, .rs, .installer, 16, .rl⟩
def RL_ORATE : Field := ⟨0xF0030, 7, 0, .rs, .installer, 16, .rl⟩
def RD_SEQ_LO : Field := ⟨0xF0040, 31, 0, .rw, .operator, 0, .fn⟩
def RD_SEQ_HI : Field := ⟨0xF0044, 31, 0, .rw, .operator, 0, .fn⟩
def LEDGER_GO : Field := ⟨0xF0048, 1, 1, .wo, .operator, 0, .fn⟩
def RD_GO : Field := ⟨0xF0048, 0, 0, .wo, .operator, 0, .fn⟩
def RD_DONE : Field := ⟨0xF004C, 31, 31, .ro, .none, 0, .fn⟩
def RD_OPEN : Field := ⟨0xF004C, 30, 30, .ro, .none, 0, .fn⟩
def RD_LEN : Field := ⟨0xF004C, 22, 16, .ro, .none, 0, .fn⟩
def RD_RESULT : Field := ⟨0xF004C, 3, 0, .ro, .none, 0, .fn⟩
def EXP_VA_LO : Field := ⟨0xF0050, 31, 0, .rw, .operator, 0, .fn⟩
def EXP_VA_HI : Field := ⟨0xF0054, 31, 0, .rw, .operator, 0, .fn⟩
def EXP_PD : Field := ⟨0xF0058, 15, 0, .rw, .operator, 0, .fn⟩
def EXP_LEN : Field := ⟨0xF005C, 27, 0, .rw, .operator, 4096, .fn⟩
def EXP_FROM_SEQ_LO : Field := ⟨0xF0060, 31, 0, .rw, .operator, 0, .fn⟩
def EXP_FROM_SEQ_HI : Field := ⟨0xF0064, 31, 0, .rw, .operator, 0, .fn⟩
def EXP_GO : Field := ⟨0xF0068, 0, 0, .wo, .operator, 0, .fn⟩
def EXP_BUSY : Field := ⟨0xF006C, 31, 31, .ro, .none, 0, .fn⟩
def GAP : Field := ⟨0xF006C, 30, 30, .ro, .none, 0, .fn⟩
def EXP_ERR : Field := ⟨0xF006C, 3, 0, .ro, .none, 0, .fn⟩
def EXP_NEXT_SEQ_LO : Field := ⟨0xF0070, 31, 0, .ro, .none, 0, .fn⟩
def EXP_NEXT_SEQ_HI : Field := ⟨0xF0074, 31, 0, .ro, .none, 0, .fn⟩
def EXP_BYTES : Field := ⟨0xF0078, 27, 0, .ro, .none, 0, .fn⟩
def LEDGER_COUNT : Field := ⟨0xF0080, 16, 0, .ro, .none, 0, .module⟩
def LEDGER_IDX : Field := ⟨0xF0084, 15, 0, .rw, .operator, 0, .fn⟩
def VERIFY_FROM : Field := ⟨0xF0088, 15, 0, .rw, .operator, 0, .module⟩
def VERIFY_GO : Field := ⟨0xF008C, 0, 0, .wo, .operator, 0, .module⟩
def VERIFY_BUSY : Field := ⟨0xF0090, 31, 31, .ro, .none, 0, .module⟩
def VERIFY_BAD : Field := ⟨0xF0090, 30, 30, .ro, .none, 0, .module⟩
def VERIFY_POS : Field := ⟨0xF0090, 16, 0, .ro, .none, 0, .module⟩
def CNT_CLR : Field := ⟨0xF00A0, 0, 0, .wo, .operator, 0, .module⟩
def RD_BUF (k : Nat) : Field := ⟨0xF0400 + 4 * k, 31, 0, .ro, .none, 0, .fn⟩

def part0 : List Field :=
  [NEXT_SEQ_LO, NEXT_SEQ_HI, RING_FIRST_SEQ_LO, RING_FIRST_SEQ_HI, KEEP_LAST_SEQ_LO, KEEP_LAST_SEQ_HI, KEEP_FULL, LEDGER_FULL, QUEUE_LEVEL, LOST, SUPPRESSED, RL_BURST, RL_RATE, RL_IDX, RL_EN, RL_CODE, RL_OBURST, RL_ORATE, RD_SEQ_LO, RD_SEQ_HI, LEDGER_GO, RD_GO, RD_DONE, RD_OPEN]
def part1 : List Field :=
  [RD_LEN, RD_RESULT, EXP_VA_LO, EXP_VA_HI, EXP_PD, EXP_LEN, EXP_FROM_SEQ_LO, EXP_FROM_SEQ_HI, EXP_GO, EXP_BUSY, GAP, EXP_ERR, EXP_NEXT_SEQ_LO, EXP_NEXT_SEQ_HI, EXP_BYTES, LEDGER_COUNT, LEDGER_IDX, VERIFY_FROM, VERIFY_GO, VERIFY_BUSY, VERIFY_BAD, VERIFY_POS, CNT_CLR]
/-- Every field of the EVR window. -/
def all : List Field :=
  part0 ++
  part1 ++
  (List.range 256).map RD_BUF

end Reg.EVR

/-! ### ROL: file 18, R437, Table 18-8 -/
namespace Reg.ROL

def GRANT_LEFT : Field := ⟨0x100000, 31, 16, .ro, .none, 0, .fn⟩
def GRANT_SESS : Field := ⟨0x100000, 11, 8, .ro, .none, 15, .fn⟩
def ROLE_NOW : Field := ⟨0x100000, 2, 0, .ro, .none, 2, .fn⟩
def ROLE_DROP : Field := ⟨0x100004, 0, 0, .wo, .operator, 0, .fn⟩
def OP_SLOTS : Field := ⟨0x100008, 15, 0, .wm, .installer, 65535, .module⟩
def CLAIMED : Field := ⟨0x10000C, 31, 31, .ro, .none, 0, .module⟩
def JTAG_OPEN : Field := ⟨0x10000C, 30, 30, .ro, .none, 0, .module⟩
def INST_KEYS : Field := ⟨0x10000C, 15, 12, .ro, .none, 0, .module⟩
def OPER_KEYS : Field := ⟨0x10000C, 11, 8, .ro, .none, 0, .module⟩
def SESSIONS : Field := ⟨0x10000C, 4, 0, .ro, .none, 0, .module⟩
def GRANT_MAX : Field := ⟨0x100010, 10, 0, .rw, .installer, 60, .module⟩
def AUTH_FAIL_LIMIT : Field := ⟨0x100014, 7, 0, .rw, .installer, 8, .module⟩
def SESS_IDLE : Field := ⟨0x100018, 11, 0, .rw, .installer, 90, .module⟩
def LAST_PRIV_SEQ_LO : Field := ⟨0x100020, 31, 0, .ro, .none, 0, .module⟩
def LAST_PRIV_SEQ_HI : Field := ⟨0x100024, 31, 0, .ro, .none, 0, .module⟩
def AON_ASEQ : Field := ⟨0x100028, 31, 16, .ro, .none, 0, .fn⟩
def AON_WSEQ : Field := ⟨0x100028, 15, 0, .ro, .none, 0, .fn⟩
def KEY_IDX : Field := ⟨0x100030, 3, 0, .rw, .operator, 0, .fn⟩
def KEY_VALID : Field := ⟨0x100034, 31, 31, .ro, .none, 0, .module⟩
def KEY_HASH (k : Nat) : Field := ⟨0x100040 + 4 * k, 31, 0, .ro, .none, 0, .module⟩
def SESS_IDX : Field := ⟨0x100080, 3, 0, .rw, .operator, 0, .fn⟩
def SESS_OPEN : Field := ⟨0x100084, 31, 31, .ro, .none, 0, .module⟩
def SESS_ROLE : Field := ⟨0x100084, 30, 28, .ro, .none, 0, .module⟩
def TRANSPORT : Field := ⟨0x100084, 25, 24, .ro, .none, 0, .module⟩
def SESS_SLOT : Field := ⟨0x100084, 19, 16, .ro, .none, 0, .module⟩
def SESS_QUIET : Field := ⟨0x100084, 11, 0, .ro, .none, 0, .module⟩
def PRIV_WRITES : Field := ⟨0x1000C0, 31, 0, .ro, .none, 0, .module⟩
def REFUSED : Field := ⟨0x1000C4, 31, 0, .ro, .none, 0, .module⟩
def SESS_OPENED : Field := ⟨0x1000C8, 31, 0, .ro, .none, 0, .module⟩
def AUTH_FAILS : Field := ⟨0x1000CC, 31, 0, .ro, .none, 0, .module⟩
def GRANTS : Field := ⟨0x1000D0, 31, 0, .ro, .none, 0, .module⟩
def CNT_CLR : Field := ⟨0x1000F0, 0, 0, .wo, .operator, 0, .module⟩

def part0 : List Field :=
  [GRANT_LEFT, GRANT_SESS, ROLE_NOW, ROLE_DROP, OP_SLOTS, CLAIMED, JTAG_OPEN, INST_KEYS, OPER_KEYS, SESSIONS, GRANT_MAX, AUTH_FAIL_LIMIT, SESS_IDLE, LAST_PRIV_SEQ_LO, LAST_PRIV_SEQ_HI, AON_ASEQ, AON_WSEQ, KEY_IDX, KEY_VALID, SESS_IDX, SESS_OPEN, SESS_ROLE, TRANSPORT, SESS_SLOT]
def part1 : List Field :=
  [SESS_QUIET, PRIV_WRITES, REFUSED, SESS_OPENED, AUTH_FAILS, GRANTS, CNT_CLR]
/-- Every field of the ROL window. -/
def all : List Field :=
  part0 ++
  part1 ++
  (List.range 12).map KEY_HASH

end Reg.ROL

/-! ### PMC: file 19, R449 -/
namespace Reg.PMC

def BANK_IDX : Field := ⟨0x110000, 5, 0, .rw, .operator, 0, .fn⟩
def BANK_EN : Field := ⟨0x110004, 0, 0, .rw, .operator, 0, .bank⟩
def SNAP_ARM : Field := ⟨0x110008, 4, 4, .wo, .operator, 0, .bank⟩
def SNAP_ALL : Field := ⟨0x110008, 3, 3, .wo, .operator, 0, .bank⟩
def SNAP : Field := ⟨0x110008, 2, 2, .wo, .operator, 0, .bank⟩
def CLR : Field := ⟨0x110008, 1, 1, .wo, .operator, 0, .bank⟩
def ENGINES : Field := ⟨0x11000C, 20, 16, .ro, .none, 0, .bank⟩
def KIND : Field := ⟨0x11000C, 9, 8, .ro, .none, 0, .bank⟩
def BANK_Q : Field := ⟨0x11000C, 5, 4, .ro, .none, 0, .bank⟩
def BANK_CLASS : Field := ⟨0x11000C, 2, 0, .ro, .none, 0, .bank⟩
def CYC_LO : Field := ⟨0x110010, 31, 0, .rw, .operator, 0, .bank⟩
def CYC_HI : Field := ⟨0x110014, 31, 0, .rw, .operator, 0, .bank⟩
def OVF : Field := ⟨0x110018, 7, 0, .w1c, .operator, 0, .bank⟩
def OVF_IRQ_EN : Field := ⟨0x11001C, 7, 0, .rw, .operator, 0, .bank⟩
def PC_LO (k : Nat) : Field := ⟨0x110020 + 8 * k, 31, 0, .rw, .operator, 0, .bank⟩
def PC_HI (k : Nat) : Field := ⟨0x110024 + 8 * k, 15, 0, .rw, .operator, 0, .bank⟩
def CHAIN (k : Nat) : Field := ⟨0x110060 + 4 * k, 31, 31, .rw, .operator, 0, .bank⟩
def ARG (k : Nat) : Field := ⟨0x110060 + 4 * k, 28, 16, .rw, .operator, 0, .bank⟩
def EVENT (k : Nat) : Field := ⟨0x110060 + 4 * k, 7, 0, .rw, .operator, 0, .bank⟩
def SNAP_TS_LO : Field := ⟨0x110080, 31, 0, .ro, .none, 0, .bank⟩
def SNAP_TS_HI : Field := ⟨0x110084, 31, 0, .ro, .none, 0, .bank⟩
def SNAP_CYC_LO : Field := ⟨0x110088, 31, 0, .ro, .none, 0, .bank⟩
def SNAP_CYC_HI : Field := ⟨0x11008C, 31, 0, .ro, .none, 0, .bank⟩
def SNAP_PC_LO (k : Nat) : Field := ⟨0x110090 + 8 * k, 31, 0, .ro, .none, 0, .bank⟩
def SNAP_PC_HI (k : Nat) : Field := ⟨0x110094 + 8 * k, 15, 0, .ro, .none, 0, .bank⟩
def SNAP_TIME_LO : Field := ⟨0x1100D0, 31, 0, .rw, .operator, 0, .module⟩
def SNAP_TIME_HI : Field := ⟨0x1100D4, 31, 0, .rw, .operator, 0, .module⟩
def SNAP_PENDING : Field := ⟨0x1100D8, 31, 31, .ro, .none, 0, .module⟩
def PMI_SLOT : Field := ⟨0x1100DC, 19, 16, .rw, .operator, 0, .module⟩
def PMI_VEC : Field := ⟨0x1100DC, 10, 0, .rw, .operator, 0, .module⟩
def STR_IDX : Field := ⟨0x1100E0, 4, 0, .rw, .operator, 0, .fn⟩
def STR_EN : Field := ⟨0x1100E4, 31, 31, .rw, .operator, 0, .stream⟩
def STR_BANK : Field := ⟨0x1100E4, 21, 16, .rw, .operator, 0, .stream⟩
def STR_PD : Field := ⟨0x1100E4, 15, 0, .rw, .operator, 0, .stream⟩
def STR_VA_LO : Field := ⟨0x1100E8, 31, 0, .rw, .operator, 0, .stream⟩
def STR_VA_HI : Field := ⟨0x1100EC, 31, 0, .rw, .operator, 0, .stream⟩
def STR_PERIOD : Field := ⟨0x1100F0, 19, 0, .rw, .operator, 1000, .stream⟩
def STR_ERR : Field := ⟨0x1100F4, 3, 0, .ro, .none, 0, .stream⟩

def part0 : List Field :=
  [BANK_IDX, BANK_EN, SNAP_ARM, SNAP_ALL, SNAP, CLR, ENGINES, KIND, BANK_Q, BANK_CLASS, CYC_LO, CYC_HI, OVF, OVF_IRQ_EN, SNAP_TS_LO, SNAP_TS_HI, SNAP_CYC_LO, SNAP_CYC_HI, SNAP_TIME_LO, SNAP_TIME_HI, SNAP_PENDING, PMI_SLOT, PMI_VEC, STR_IDX]
def part1 : List Field :=
  [STR_EN, STR_BANK, STR_PD, STR_VA_LO, STR_VA_HI, STR_PERIOD, STR_ERR]
/-- Every field of the PMC window. -/
def all : List Field :=
  part0 ++
  part1 ++
  (List.range 8).map PC_LO ++
  (List.range 8).map PC_HI ++
  [1, 3, 5, 7].map CHAIN ++
  (List.range 8).map ARG ++
  (List.range 8).map EVENT ++
  (List.range 8).map SNAP_PC_LO ++
  (List.range 8).map SNAP_PC_HI

end Reg.PMC

/-- Every field of every window. -/
def Reg.all : List Field :=
  Reg.GLB.all ++ Reg.TIM.all ++ Reg.LAN.all ++ Reg.LNK.all ++ Reg.RTE.all ++ Reg.HIF.all ++ Reg.XLT.all ++ Reg.CXN.all ++ Reg.MAT.all ++ Reg.COL.all ++ Reg.LKA.all ++ Reg.SCH.all ++ Reg.SEQ.all ++ Reg.PWR.all ++ Reg.FLT.all ++ Reg.EVR.all ++ Reg.ROL.all ++ Reg.PMC.all

end Sys2Proof.Machine
end

