-- ==== Sys2Proof/Machine/Operands.lean ====
section
/-!
DEFINITION. Operand forms: reading and writing a register field, who a requester is and what role it carries (R415),
which register an indexed offset reaches (R433), which windows a mode decodes (R356), and the values that
registers with a stated range act as.
-/

namespace Sys2Proof
namespace Machine

/-! ### The fault sources (Table 16-1) -/

/-- Every source that is not reserved: its number, its default severity, and whether it is of kind L. -/
def fsTable : List (Nat × Nat × Bool) :=
  [(0, 3, false), (1, 1, false), (2, 1, false), (3, 1, false), (4, 1, false), (5, 1, true), (6, 1, false),
   (7, 3, true), (8, 1, false), (9, 1, true), (10, 1, false), (11, 1, false), (12, 1, false), (13, 3, true),
   (14, 3, true), (16, 0, false), (17, 1, false), (18, 1, false), (19, 1, false), (20, 0, false), (21, 1, false),
   (22, 0, false), (23, 1, false), (24, 0, false), (25, 1, false), (26, 0, true), (27, 1, false), (28, 1, true)] ++
  [(48, 2, true), (49, 1, false), (50, 0, false), (51, 1, false), (52, 1, false), (53, 1, true), (54, 1, false),
   (56, 1, true), (64, 1, false), (65, 1, true), (66, 1, false), (67, 1, false), (68, 1, false), (69, 1, false),
   (70, 1, false), (71, 1, false), (72, 0, false), (80, 0, false), (81, 1, false), (82, 1, false), (83, 1, false),
   (84, 1, false), (85, 0, false), (86, 1, false), (87, 1, false), (88, 1, false), (89, 1, false), (90, 1, false)] ++
  [(91, 1, false), (92, 1, false), (94, 1, true), (95, 3, true), (104, 0, true), (105, 1, true), (106, 1, true),
   (108, 1, true), (112, 2, false), (113, 0, false), (114, 1, false), (115, 3, false), (116, 1, false),
   (117, 3, false), (120, 1, false), (121, 1, false), (122, 1, false), (123, 1, false), (124, 4, false)]

/-- The row of a source; none for a reserved one (R376). -/
def fsRow (fs : Nat) : Option (Nat × Bool) := (fsTable.find? (fun r => r.1 == fs)).map (·.2)

/-- The default severity of a source (Table 16-1). -/
def fsDefault (fs : Nat) : Nat := ((fsRow fs).map (·.1)).getD 0

/-- A source of kind L is active while its condition persists (R375). -/
def fsLevel (fs : Nat) : Bool := ((fsRow fs).map (·.2)).getD false

/-- A reserved source (R376). -/
def fsReserved (fs : Nat) : Bool := (fsRow fs).isNone

/-! ### Register fields -/

/-- The width of a field. -/
def Field.width (f : Field) : Nat := f.hi + 1 - f.lo

/-- The block window a field stands in (Table 0-4). -/
def Field.block (f : Field) : Nat := f.off / 65536

/-- Where a field of instance `i` is kept. -/
def Field.key (f : Field) (i : Nat) : Nat := (i * 16777216 + f.off) * 32 + f.lo

/-- The reset value of a field: that of its table. SEV and FAULTN reset by source (Table 16-1 and the note under
Table 16-2). -/
def Field.reset (f : Field) (i : Nat) : Nat :=
  if f.off = 0xE0004 then
    if f.lo = 8 then fsDefault i else if f.lo = 4 then b2n (2 ≤ fsDefault i) else f.rst
  else f.rst

/-- The value of a field of instance `i` (0 for a module-wide register). -/
def Mach.get (m : Mach) (f : Field) (i : Nat := 0) : Nat := Tbl.get m.regs (f.key i) (f.reset i)

/-- The machine with a field set; a value above the field's width is cut to it. -/
def Mach.put (m : Mach) (f : Field) (v : Nat) (i : Nat := 0) : Mach :=
  { m with regs := Tbl.set m.regs (f.key i) (v % 2 ^ f.width) }

/-- A flag field. -/
def Mach.isSet (m : Mach) (f : Field) (i : Nat := 0) : Bool := m.get f i != 0

/-- A counter field goes up by `n` and sticks at its maximum. -/
def Mach.bump (m : Mach) (f : Field) (n : Nat := 1) (i : Nat := 0) : Mach :=
  m.put f (satAdd f.width (m.get f i) n) i

/-- A 64-bit quantity over two registers (R6). -/
def Mach.get64 (m : Mach) (lo hi : Field) (i : Nat := 0) : Nat := m.get lo i + 4294967296 * m.get hi i

/-- Sets a 64-bit quantity over two registers. -/
def Mach.put64 (m : Mach) (lo hi : Field) (v : Nat) (i : Nat := 0) : Mach :=
  (m.put lo (v % 4294967296) i).put hi (v / 4294967296) i

/-- Several fields of instance `i` go to 0, as a counter clear does. -/
def Mach.clear (m : Mach) (fs : List Field) (i : Nat := 0) : Mach := fs.foldl (fun a f => a.put f 0 i) m

/-! ### Modes -/

/-- The code of a mode in GLB_MODE (Table 15-1). -/
def Mode.code : Mode → Nat
  | .dormant => 0 | .attest => 1 | .config => 2 | .train => 3 | .run => 4 | .drain => 5 | .safe => 6 | .lockout => 7

/-- The mode a code names. -/
def Mode.ofCode (n : Nat) : Mode :=
  match n with
  | 0 => .dormant | 1 => .attest | 2 => .config | 3 => .train | 4 => .run | 5 => .drain | 6 => .safe | _ => .lockout

/-- The mode the module is in (R355). -/
def Mach.mode (m : Mach) : Mode := Mode.ofCode (m.get Reg.GLB.GLB_MODE)

/-- The BAR0 windows a mode decodes (Table 15-1, R356): GLB, PWR, FLT, EVR and ROL in every mode, the others not in
DORMANT, ATTEST or LOCKOUT. -/
def Mode.decodes (md : Mode) (block : Nat) : Bool :=
  block = 0 || block = 13 || block = 14 || block = 15 || block = 16 ||
  !(md = .dormant || md = .attest || md = .lockout)

/-- The decode width of a block (Table 18-4). -/
def decodeWidth (block : Nat) : Nat :=
  if block = 1 || block = 2 || block = 13 then 128
  else if block = 15 then 2048 else 256

/-- The BAR0 offset as decoded (R431): the window base plus the offset modulo the block's decode width. -/
def decoded (off : Nat) : Nat := (off / 65536) * 65536 + off % 65536 % decodeWidth (off / 65536)

end Machine

/-! ### Requesters -/

/-- The function whose index registers and per-function registers a requester uses (R433): each PF0, and each pair of
session and VIEW_SLOT. -/
def Requester.fnKey : Requester → Nat
  | .pf0 s => s
  | .session none v => 16 + v
  | .session (some k) v => 32 + 16 * k.val + v
  | .jtag => 300

/-- The slot whose slot-scoped registers a requester reaches (R435: VIEW_SLOT takes the place of the slot). -/
def Requester.slotOf : Requester → Nat
  | .pf0 s => s
  | .session _ v => v
  | .jtag => 0

/-- The code of a role (Table 17-2). -/
def Role.code : Role → Nat
  | .none => 0 | .user => 1 | .operator => 2 | .installer => 3 | .maker => 4

/-- A role includes every right of the roles below it (R415). -/
def Role.covers (have_ need : Role) : Bool := need.code ≤ have_.code

namespace Machine

/-- The role a requester carries (Table 18-1). -/
def Mach.roleOf (m : Mach) (r : Requester) : Role :=
  match r with
  | .pf0 s =>
    match Tbl.find m.rol.grants s with
    | some g => g.role
    | none => if bit (m.get Reg.ROL.OP_SLOTS) s then .operator else .none
  | .session none _ => .none
  | .session (some k) _ =>
    match Tbl.find m.rol.sessions k with
    | some x => if x.done then x.role else .none
    | none => .none
  | .jtag => if m.rol.jtag.isSome then .maker else .none

/-- The role a management message carries. -/
def Mach.pathRole (m : Mach) (p : Path) : Role :=
  match p.sess with
  | none => .none
  | some k => m.roleOf (.session (some k) 0)

/-! ### Which register an offset reaches (R432, R433) -/

/-- The index register that selects the instance of a register scoped `sc` in block `b`. -/
def indexField (b : Nat) (sc : Scope) : Option Field :=
  match sc with
  | .lane => some Reg.LAN.LANE_IDX
  | .port =>
    if b = 1 then some Reg.TIM.PORT_IDX else if b = 2 then some Reg.LAN.LANE_IDX
    else if b = 3 then some Reg.LNK.PORT_IDX else some Reg.RTE.PORT_IDX
  | .pm => some Reg.RTE.PM_IDX
  | .wring => some Reg.HIF.WR_IDX
  | .cring => some Reg.HIF.CR_IDX
  | .hp => some Reg.HIF.HP_IDX
  | .pd => some Reg.XLT.PD_IDX
  | .vmid => some Reg.XLT.VMID_IDX
  | .range => some Reg.XLT.RNG_IDX
  | .window => some Reg.CXN.WIN_IDX
  | .domain => some Reg.MAT.DOM_IDX
  | .group => some Reg.COL.GRP_IDX
  | .lock => some Reg.LKA.LOCK_IDX
  | .queue => some Reg.SCH.Q_IDX
  | .sgroup => some Reg.SCH.G_IDX
  | .gate => some Reg.SCH.GL_IDX
  | .cls => some Reg.SEQ.CLS_IDX
  | .feed => some Reg.PWR.FEED_IDX
  | .source => some Reg.FLT.FS_IDX
  | .rl => some Reg.EVR.RL_IDX
  | .bank => some Reg.PMC.BANK_IDX
  | .stream => some Reg.PMC.STR_IDX
  | _ => none

/-- The value a requester holds in an index register. -/
def Mach.idx (m : Mach) (r : Requester) (f : Field) : Nat := m.get f r.fnKey

/-- The instance of a field that a requester reaches; none where its index is beyond the range (R433). -/
def Mach.inst (m : Mach) (r : Requester) (f : Field) : Option Nat :=
  if f.off = 0xD005C then (let i := m.idx r Reg.PWR.RAIL_IDX; if i < 26 then some i else none)
  else if f.off = 0xE0004 && fsReserved (m.idx r Reg.FLT.FS_IDX) then none
  else if f.off = 0xC00D0 then some (min 8 (m.idx r Reg.SEQ.TEMP_IDX))
  else match f.scope with
  | .module => some 0
  | .fn => some r.fnKey
  | .slot => some r.slotOf
  | .quad => some (quadOfSlot r.slotOf)
  | .port => (indexField f.block .port).map (fun g => if f.block = 2 then m.idx r g / 4 else m.idx r g)
  | .range => (indexField f.block .range).map (fun g => 64 * r.slotOf + m.idx r g)
  | .queue => (indexField f.block .queue).map (fun g => 16384 * quadOfSlot r.slotOf + m.idx r g)
  | .sgroup => (indexField f.block .sgroup).map (fun g => 256 * quadOfSlot r.slotOf + m.idx r g)
  | .cls => (let i := m.idx r Reg.SEQ.CLS_IDX; some (if 1 ≤ i ∧ i ≤ 5 then i else 1))
  | .bank => (let i := m.idx r Reg.PMC.BANK_IDX; if i < 36 then some i else none)
  | sc => (indexField f.block sc).map (fun g => m.idx r g)

/-! ### Fields that survive a warm reset, a module reset and a power-on -/

/-- The persistent settings (R366, R378, R397, R437; Tables 15-7, 16-5, 17-10, 18-8). VAR_SEL is stored by a completed
swap instead (R319). -/
def persistent : List Field :=
  [Reg.GLB.AUTO_START, Reg.FLT.SEV, Reg.FLT.FAULTN, Reg.FLT.PWR, Reg.EVR.RL_BURST, Reg.EVR.RL_RATE, Reg.EVR.RL_EN,
   Reg.EVR.RL_CODE, Reg.EVR.RL_OBURST, Reg.EVR.RL_ORATE, Reg.ROL.OP_SLOTS, Reg.ROL.GRANT_MAX,
   Reg.ROL.AUTH_FAIL_LIMIT, Reg.ROL.SESS_IDLE, Reg.GLB.BOOT_COUNT]

/-- A stored field's key belongs to a persistent setting. -/
def persistentKey (k : Nat) : Bool := persistent.any (fun f => k % 536870912 == f.key 0)

/-- The BAR0 offset a stored field's key names. -/
def keyOff (k : Nat) : Nat := k / 32 % 16777216

end Machine
end Sys2Proof
end

