-- ==== Sys2Proof/Machine/PmcOps.lean ====
section
/-!
DEFINITION. Counting (file 19): the banks and their counters (R438, R439, R442, R443), the class of an engine's slot
(R441), what each cycle adds (Table 19-2), and the counting of an event.
-/

namespace Sys2Proof.Machine

/-! ### Engines -/

/-- Where an engine is kept. -/
def engKey (e : Engine) : Nat := e.cls.code * 256 + e.q.val * 16 + e.n.val

/-- The engine as it stands. -/
def Mach.eng (m : Mach) (e : Engine) : Eng := Tbl.get m.engines (engKey e) {}

/-- The machine with an engine changed. -/
def Mach.setEng (m : Mach) (e : Engine) (x : Eng) : Mach := { m with engines := Tbl.set m.engines (engKey e) x }

/-- The engine exists: its number is below its class's count for a quadrant (Table 1-4). -/
def engExists (e : Engine) : Bool := e.n.val < e.cls.perQuad

/-- The engines of a class in a quadrant. -/
def enginesIn (c : EngClass) (q : Quad) : List Engine :=
  (List.range c.perQuad).map (fun n => { cls := c, q := q, n := Fin.ofNat 16 n })

/-- The engines of a quadrant, all classes. -/
def enginesOf (q : Quad) : List Engine :=
  [EngClass.txe, .rxe, .mte, .cle, .lku].flatMap (fun c => enginesIn c q)

/-- The class a code of Table 1-7 names. -/
def EngClass.ofCode (c : Nat) : EngClass :=
  match c with
  | 1 => .txe | 2 => .rxe | 3 => .mte | 4 => .cle | _ => .lku

/-- The event that an engine's slot falls under (R441): gated or stopped, waiting on its command, or issuing. -/
def Eng.slotEvent (x : Eng) : Nat :=
  if x.gated || x.stopped then 0x08
  else if x.waiting then
    match x.outstanding with
    | some .host => 0x02 | some .hbm => 0x03 | some .walk => 0x04 | some .credit => 0x05 | some .context => 0x06
    | some .other => 0x07 | none => 0x07
  else 0x01

/-! ### Banks (Table 19-1) -/

/-- The quadrant of a bank. -/
def bankQuad (b : Nat) : Nat := if b < 20 then b / 5 % 4 else (b - 20) / 4 % 4
/-- The class of an engine bank. -/
def bankClass (b : Nat) : EngClass := EngClass.ofCode (b % 5 + 1)
/-- n of an engine bank; 0 for a port bank. -/
def bankEngines (b : Nat) : Nat := if b < 20 then (bankClass b).perQuad else 0
/-- The engine bank of a class in a quadrant. -/
def engBank (q : Nat) (c : EngClass) : Nat := 5 * q + c.code - 1

/-- PCk of a bank, 48 bits. -/
def Mach.pc (m : Mach) (b k : Nat) : Nat := m.get64 (Reg.PMC.PC_LO k) (Reg.PMC.PC_HI k) b
/-- PCk takes a value. -/
def Mach.setPc (m : Mach) (b k v : Nat) : Mach := m.put64 (Reg.PMC.PC_LO k) (Reg.PMC.PC_HI k) v b
/-- PCk is chained to the counter before it (R442); CHAIN in an even counter is ignored. -/
def Mach.pcChained (m : Mach) (b k : Nat) : Bool := k % 2 == 1 && m.isSet (Reg.PMC.CHAIN k) b

/-- A counter wraps in a cycle: OVFk is set, and its interrupt is due where OVF_IRQ_EN says so (R439, R443). -/
def Mach.pcOverflow (m : Mach) (b k atc : Nat) : Mach :=
  let m := m.put Reg.PMC.OVF (m.get Reg.PMC.OVF b ||| 2 ^ k) b
  let m := { m with pmc := { m.pmc with wrapped := Tbl.set m.pmc.wrapped (8 * b + k) atc } }
  if bit (m.get Reg.PMC.OVF_IRQ_EN b) k && !m.pmc.due.any (fun d => d.1 == b && d.2.1 == k) then
    { m with pmc := { m.pmc with due := m.pmc.due ++ [(b, k, atc)] } }
  else m

/-- An unchained PCk counts `n`, a wrap being in cycle `atc`. Its carries out of bit 47 go to the next counter where that is chained,
which sets no OVF (R442); else the wrap sets OVFk. -/
def Mach.pcAdd (m : Mach) (b k n atc : Nat) : Mach :=
  let v := m.pc b k + n
  let m1 := m.setPc b k (v % 2 ^ 48)
  if v < 2 ^ 48 then m1
  else if m.pcChained b (k + 1) then m1.setPc b (k + 1) ((m1.pc b (k + 1) + v / 2 ^ 48) % 2 ^ 48)
  else m1.pcOverflow b k atc

/-- OVF bits are cleared, but for one whose counter wraps in this very cycle (Table 19-4). -/
def Mach.clearOvf (m : Mach) (b bits : Nat) : Mach :=
  (List.range 8).foldl (fun a k =>
    if bit bits k && Tbl.find m.pmc.wrapped (8 * b + k) != some m.clk then a.put Reg.PMC.OVF (clearBit (a.get Reg.PMC.OVF b) k) b else a) m

/-- What each cycle adds for the events that are states and not happenings (Table 19-2). -/
def Mach.pcRate (m : Mach) (b ev arg : Nat) : Nat :=
  if b < 20 then
    let es := enginesIn (bankClass b) (Fin.ofNat 4 (bankQuad b))
    if ev = 0x09 then es.length
    else if 1 ≤ ev ∧ ev ≤ 8 then (es.filter (fun e => (m.eng e).slotEvent == ev)).length
    else 0
  else
    let ps := ((List.range 8).filter (bit arg)).map (fun i => 8 * (b - 20) + i)
    if ev = 0x26 then
      (ps.filter (fun p =>
        let sel := (Tbl.get m.rte.ports p {}).sel
        let avail := (Tbl.get m.links p {}).avail
        !sel.isEmpty && sel.all (fun x =>
          decide (Tbl.get avail (x.vc % 8) 0 < (x.arr.len + 63) / 64) && decide (Tbl.get avail 8 0 < (x.arr.len + 63) / 64)))).length
    else if ev = 0x27 then (ps.filter (fun p => (Tbl.get m.idle p {}).driversOff)).length
    else 0

/-- `n` cycles pass for a bank: CYC and the counters of states advance, unless the quadrant is parked (R439). -/
def Mach.bankTick (m : Mach) (n b : Nat) : Mach :=
  if (Tbl.get m.quads (bankQuad b) {}).park != 0 then m
  else
    let cyc := m.get64 Reg.PMC.CYC_LO Reg.PMC.CYC_HI b
    (List.range 8).foldl (fun a k =>
      let r := m.pcRate b (m.get (Reg.PMC.EVENT k) b) (m.get (Reg.PMC.ARG k) b)
      if r = 0 || m.pcChained b k then a else a.pcAdd b k (n * r) (m.clk + (2 ^ 48 - m.pc b k + r - 1) / r))
      (m.put64 Reg.PMC.CYC_LO Reg.PMC.CYC_HI ((cyc + n) % 2 ^ 64) b)

/-- `n` cycles pass for every bank that counts. -/
def Mach.pmcTick (m : Mach) (n : Nat) : Mach := m.pmc.on.foldl (fun a b => a.bankTick n b) m

/-- An event happens `n` times in a bank: every counter that selects it, with an ARG that takes it in, counts. -/
def Mach.pmcEvent (m : Mach) (b ev n : Nat) (takes : Nat → Bool) : Mach :=
  if !m.pmc.on.contains b then m
  else (List.range 8).foldl (fun a k =>
    if m.get (Reg.PMC.EVENT k) b = ev && takes (m.get (Reg.PMC.ARG k) b) && !m.pcChained b k then a.pcAdd b k n m.clk else a) m

/-- An event of a port (Table 19-2: ARG is the port mask). -/
def Mach.pmcPort (m : Mach) (p ev n : Nat) : Mach := m.pmcEvent (20 + p / 8) ev n (fun arg => bit arg (p % 8))

/-- An event of an engine class in a quadrant. -/
def Mach.pmcEngine (m : Mach) (q : Nat) (c : EngClass) (ev n : Nat) : Mach := m.pmcEvent (engBank q c) ev n (fun _ => true)

/-- Bytes of a frame on the wire: whole blocks of 32 (R82, R83, Tables 4-3 to 4-7, 5-4). -/
def Frame.bytes : Frame → Nat
  | .data f _ => 32 * ((12 + f.pktLen + 31) / 32)
  | .credit _ => 32 | .nak _ => 32 | .audit _ => 64 | .timeReq _ => 64 | .timeRsp _ => 64 | .train _ => 96 | .beacon _ => 288

/-- A frame goes out on a port: its bytes, and a data frame or a replayed copy as such. -/
def Mach.pmcSent (m : Mach) (p : Nat) (f : Frame) : Mach :=
  let m := m.pmcPort p 0x20 (Frame.bytes f)
  match f with
  | .data d _ =>
    let m := m.pmcPort p 0x22 1
    if d.replay then m.pmcPort p 0x25 1 else m
  | _ => m

/-- A frame of so many bytes comes in on a port. -/
def Mach.pmcReceived (m : Mach) (p bytes : Nat) (data : Bool) : Mach :=
  let m := m.pmcPort p 0x21 bytes
  if data then m.pmcPort p 0x23 1 else m

end Sys2Proof.Machine
end

