-- ==== Sys2Proof/Machine/Ops.lean ====
section
/-!
DEFINITION. The operations every chapter shares: the clock and HGT (R29 to R33), raising a fault (R375), the event
recorder's acceptance of a record (R390 to R397), the check that stands before every register write and action
(R9, R356, R426 to R429), and the MRAM array as bytes.
-/

namespace Sys2Proof.Machine

/-- What a step of the block answers. -/
abbrev Result := Host.Outcome State Fault Refusal

/-- The next state: the block as `m`, the MRAM array and the queue as they were. -/
def ok (s : State) (m : Mach) : Result := .next { s with m := m }

/-! ### Time -/

/-- The accumulated count of a quadrant, in 2^-32 LSB. -/
def Hgt.acc (h : Hgt) (q : Nat) : Nat :=
  match q with
  | 0 => h.q0 | 1 => h.q1 | 2 => h.q2 | _ => h.q3

/-- The four counters with quadrant `q` set. -/
def Hgt.setAcc (h : Hgt) (q v : Nat) : Hgt :=
  match q with
  | 0 => { h with q0 := v } | 1 => { h with q1 := v } | 2 => { h with q2 := v } | _ => { h with q3 := v }

/-- HGT of quadrant `q`, 64 bits (R29); the AON copy while REFCLK is lost (R454). -/
def Mach.hgt (m : Mach) (q : Nat) : Nat := (if m.tim.osc.isSome then m.tim.aon else m.tim.hgt.acc q) / 2 ^ 32 % 2 ^ 64

/-- The AON die's coarse copy of HGT (R33). -/
def Mach.aonHgt (m : Mach) : Nat := m.tim.aon / 2 ^ 32 % 2 ^ 64

/-- A quadrant's counter runs unless its PLL is off (R25, R34). -/
def Mach.running (m : Mach) (q : Nat) : Bool := (Tbl.get m.quads q {}).park != 2

/-- The quadrant whose counter is the module's reference: that of the parent port (R32). Where there is no parent port, or
its quadrant is cold, the lowest quadrant that runs, and Q0 where none does (DESIGN CHOICE, log entry 28). -/
def Mach.refQuad (m : Mach) : Nat :=
  let p := m.get Reg.TIM.PARENT
  if p < 128 && m.running (quadOfPort p) then quadOfPort p
  else ((List.range 4).find? m.running).getD 0

/-- The module's HGT. -/
def Mach.hgtRef (m : Mach) : Nat := m.hgt m.refQuad

/-- The 1 ns stamp of quadrant `q`: floor(HGT / 16) mod 2^32 (R31). -/
def Mach.stamp (m : Mach) (q : Nat) : Nat := m.hgt q / 16 % 2 ^ 32

/-- A quadrant counter after `n` cycles. -/
def Mach.advanced (m : Mach) (n q : Nat) : Nat :=
  if m.running q then (m.tim.hgt.acc q + n * m.tim.rateWord) % 2 ^ 96 else m.tim.hgt.acc q

/-- The rate word that the AON copy advances by: that of the internal oscillator while REFCLK is lost (R454). -/
def Mach.aonRate (m : Mach) : Nat := m.tim.osc.getD m.tim.rateWord

/-- The AON copy after `n` cycles (R33): at each AONCLK edge it takes the value that the reference counter has there, which is
10,240 LSB on, corrected by the rate word, and so never later than HGT. Where no quadrant counter runs, or REFCLK is lost
(R454), it advances by itself. -/
def Mach.aonAfter (m : Mach) (n : Nat) : Nat :=
  let edges := (m.clk + n) / Config.aonCycles - m.clk / Config.aonCycles
  if edges = 0 then m.tim.aon
  else if m.tim.osc.isNone && m.running m.refQuad then
    m.advanced ((m.clk + n) / Config.aonCycles * Config.aonCycles - m.clk) m.refQuad
  else (m.tim.aon + edges * Config.aonCycles * m.aonRate) % 2 ^ 96

/-- PPS_OUT falls by cycle `t`: WIDTH ms after its edge (R45). -/
def Tim.pulseOver (x : Tim) (t : Nat) : Bool :=
  match x.ppsOut with
  | some e => decide (e ≤ t)
  | none => false

/-- The AON die as it stands, for the shadow that the next AONCLK edge refreshes (R429). -/
def Mach.aonNow (m : Mach) : AonShadow := { regs := m.regs, pwr := m.pwr, flt := m.flt, evr := m.evr }

/-- `n` CORECLK cycles pass: the quadrant counters advance by the rate word each cycle, the AON copy at each AONCLK
edge (R33), the banks that count (R439), a PPS_OUT pulse whose time is over ends (R45), and an AONCLK edge refreshes the shadow of
the AON registers (R429): what stood before the edge shows after it. -/
def Mach.elapse (m : Mach) (n : Nat) : Mach :=
  let shadow := if m.clk / Config.aonCycles < (m.clk + n) / Config.aonCycles then m.aonNow else m.shadow
  let m := m.pmcTick n
  { m with
    shadow := shadow
    clk := m.clk + n
    tim := { m.tim with
      hgt := { q0 := m.advanced n 0, q1 := m.advanced n 1, q2 := m.advanced n 2, q3 := m.advanced n 3 }
      aon := m.aonAfter n
      ppsHigh := m.tim.ppsHigh && !m.tim.pulseOver (m.clk + n)
      ppsOut := if m.tim.pulseOver (m.clk + n) then none else m.tim.ppsOut } }

/-- Time passes until cycle `t`, if it is not yet past. -/
def Mach.elapseTo (m : Mach) (t : Nat) : Mach := m.elapse (t - m.clk)

/-- A write on its way to the AON die crosses the management link and acts at the next AONCLK edge (Table 1-3, R429). -/
def Mach.toAonEdge (m : Mach) : Mach :=
  m.elapseTo (((m.clk + Config.mgmtCycles) / Config.aonCycles + 1) * Config.aonCycles)

/-- A slot is present (R149): at x16 the odd slot of a host port is absent. -/
def Mach.slotPresent (m : Mach) (slot : Nat) : Bool := slot < 16 && (slot % 2 = 0 || m.isSet Reg.HIF.BIFURCATED (slot / 2))

/-- HGT at a cold wake (R34): copied from a running quadrant, else loaded from the AON copy, and the time state becomes
UNLOCKED. -/
def Mach.loadHgt (m : Mach) (q : Nat) : Mach :=
  match (List.range 4).find? (fun o => o != q && m.running o) with
  | some o => { m with tim := { m.tim with hgt := m.tim.hgt.setAcc q (m.tim.hgt.acc o) } }
  | none =>
    let m := { m with tim := { m.tim with hgt := m.tim.hgt.setAcc q m.tim.aon, everLocked := false, goodRun := 0 } }
    m.put Reg.TIM.STATE 0

/-- A parked quadrant's PLL starts (R25): 2 µs warm, 20 µs cold. A park in this very cycle is cancelled (R26). -/
def Mach.wakeQuad (m : Mach) (q : Nat) : Mach :=
  let x := Tbl.get m.quads q {}
  if x.park = 0 then m
  else if x.parkedAt = m.clk && 0 < m.clk then { m with quads := Tbl.set m.quads q { park := 0, parkedAt := 0, usableAt := m.clk } }
  else
    let wait := if x.park = 2 then 20 * Config.usCycles else 2 * Config.usCycles
    let m1 := if x.park = 2 then m.loadHgt q else m
    { m1 with quads := Tbl.set m1.quads q { park := 0, parkedAt := 0, usableAt := m.clk + wait } }

/-- A register access by a PF0 arrives on a host port, so its quadrant's PLL starts if it is parked (R25, R364). -/
def Mach.wakeFor (m : Mach) (r : Requester) : Mach :=
  match r with
  | .pf0 s => m.wakeQuad (quadOfSlot s)
  | _ => m

/-- A fresh argument for a free value. -/
def Mach.fresh (m : Mach) : Nat × Mach := (m.free, { m with free := m.free + 1 })

/-- Adds an effect on the outside; a frame counts as sent (Table 19-2). -/
def Mach.emit (m : Mach) (o : Out) : Mach :=
  let m1 := { m with out := o :: m.out }
  match o with
  | .frame p f => m1.pmcSent p f
  | _ => m1

/-- A new number for a packet, a read, a walk or an invalidation. -/
def Mach.newId (m : Mach) : Nat × Mach := (m.nextId, { m with nextId := m.nextId + 1 })

/-! ### Raising a fault -/

/-- DETAIL of a detection (Table 16-7): the wire for FS0 (R377), the FSN for FS23, the step index for FS112; of any other
source it is source-specific, and a free value (log entry 46). -/
def faultDetail (fs : Nat) (unit : FUnit) (fact clk : Nat) : Nat :=
  if fs = 0 || fs = 23 || fs = 112 then fact else (Config.faultDetail fs unit fact clk).toNat

/-- A detector reports to the collector (R375): the detection goes on its wire, stamped with the HGT of `origin`
(a quadrant, or 4 and above for the AON domain, Table 2-3). A kind-L source that is already active for the unit
makes no further detection until its condition ends (Table 16-8). A reserved source is never raised (R376). -/
def Mach.raise (m : Mach) (fs : Nat) (unit : FUnit) (detail : Nat := 0) (origin : Nat := 4) : Mach :=
  if fsReserved fs then m
  else if fsLevel fs && m.flt.active.contains (fs, unit) then m
  else
    let d : Detection :=
      { fs := fs, unit := unit, detail := faultDetail fs unit detail m.clk, hgt := if origin < 4 then m.hgt origin else m.aonHgt, atc := m.clk,
        origin := origin }
    { m with flt := { m.flt with
        wires := m.flt.wires ++ [d]
        active := if fsLevel fs then (fs, unit) :: m.flt.active else m.flt.active } }

/-- The condition of a kind-L source ends for a unit (R375). -/
def Mach.endCondition (m : Mach) (fs : Nat) (unit : FUnit) : Mach :=
  { m with flt := { m.flt with active := m.flt.active.filter (· != (fs, unit)) } }

/-! ### Records -/

/-- A code that is never suppressed (Table 17-3). -/
def exemptCode (c : Nat) : Bool :=
  c < 0x1000 || (0x2000 ≤ c && c < 0x3000) || (0x9000 ≤ c && c < 0x9800) || (0xA000 ≤ c && c < 0xB000)

/-- A code whose producer never waits (R394): a mode change or a fault record. -/
def neverWaits (c : Nat) : Bool := c == 1 || (0x2000 ≤ c && c < 0x3000)

/-- LEN of a record, in units of 16 B (R392). A body of stated layout fixes it; an event whose layout the spec does not
give is 32 B with no facts, and otherwise of a length the spec leaves open. -/
def Rec.len16 (r : Rec) : Nat :=
  match r.body with
  | .plain [] => 2
  | .plain (x :: xs) => clamp 3 64 (Config.eventLen r.code (x :: xs).length)
  | .bytes b => (32 + b.length + 4 + 15) / 16
  | .fault .. => 8

/-- The kind and number of UNIT (Table 16-7). -/
def unitWord (u : FUnit) : Nat :=
  match u with
  | .none => 0
  | .port p => 1 * 268435456 + p % 1048576
  | .slot s => 2 * 268435456 + s % 1048576
  | .ring _ n => 3 * 268435456 + n % 1048576
  | .engine e => 4 * 268435456 + e.cls.code * 256 + e.q.val * 16 + e.n.val
  | .feed n => 5 * 268435456 + n % 1048576
  | .rail n => 6 * 268435456 + n % 1048576

/-- Bytes 32 to 123 of a fault record (Table 16-7). -/
def faultBody (h : Handling) (open_ : Bool) (modeClose closeTs reactTs : Nat) : List Byte :=
  leBytes 1 (h.first % 128) ++ leBytes 1 (h.sev + 8 * b2n h.forced) ++
  leBytes 1 (b2n open_ + 2 * b2n h.escalated + 4 * b2n h.listFull) ++ leBytes 1 (h.mode + 16 * modeClose) ++
  leBytes 4 (unitWord h.unit) ++ leBytes 4 h.detail ++ leBytes 4 h.merged ++
  (h.list.take 16).map (BitVec.ofNat 8) ++ List.replicate (16 - h.list.length) 0xFF#8 ++
  leBytes 8 closeTs ++ leBytes 8 reactTs ++ zeros 44

/-- The body bytes of a record, from byte 32 up to its trailer. -/
def Rec.bodyBytes (r : Rec) : List Byte :=
  match r.body with
  | .plain facts => (List.range (16 * r.len16 - 36)).map (fun k => Config.eventByte r.code facts k)
  | .bytes b => b ++ zeros (16 * r.len16 - 36 - b.length)
  | .fault h o mc ct rt => faultBody h o mc ct rt

/-- Bytes 0 to 27 of the header (Table 17-2). -/
def Rec.header (r : Rec) : List Byte :=
  leBytes 1 r.len16 ++ leBytes 1 (r.sev + 16 * r.role) ++ leBytes 2 r.code ++
  leBytes 1 (b2n r.keep + 2 * b2n r.amended + 4 * b2n r.aonStamp + 8 * b2n r.reloc) ++ leBytes 1 r.origin ++
  zeros 2 ++ leBytes 8 r.seq ++ leBytes 8 r.hgt ++ leBytes 4 r.boot

/-- The whole record as it stands in MRAM (R392): header, HDR_CRC, body, trailer. In a 32 B record HDR_CRC is the
trailer. -/
def Rec.toBytes (r : Rec) : List Byte :=
  let h := r.header ++ leBytes 4 (crc32c r.header).toNat
  if r.len16 ≤ 2 then h
  else
    let b := h ++ r.bodyBytes
    b ++ leBytes 4 (crc32c b).toNat

/-- The override entry that governs a code: the lowest-numbered in use that names it (R397). -/
def Mach.rlEntry (m : Mach) (code : Nat) : Option Nat :=
  if exemptCode code then none
  else (List.range 32).find? (fun i => m.isSet Reg.EVR.RL_EN i && m.get Reg.EVR.RL_CODE i == code)

/-- BURST and RATE in force for a code (R397). A BURST of 0 acts as 1. -/
def Mach.burstRate (m : Mach) (code : Nat) : Nat × Nat :=
  match m.rlEntry code with
  | some i => (max 1 (m.get Reg.EVR.RL_OBURST i), m.get Reg.EVR.RL_ORATE i)
  | none => (max 1 (m.get Reg.EVR.RL_BURST), m.get Reg.EVR.RL_RATE)

/-- A bucket brought up to `now` at a burst and a rate: one token is 16,000,000,000 units, one second's worth. -/
def Bucket.settle (b : Bucket) (now burst rate : Nat) : Bucket :=
  { credit := min (burst * Config.hgtSec) (b.credit + rate * (now - b.atc)), atc := now }

/-- The bucket of a code, brought up to the present. One never used follows the bucket of unused codes, which starts
full (R397). -/
def Mach.bucket (m : Mach) (code : Nat) : Bucket :=
  let (burst, rate) := m.burstRate code
  match Tbl.find m.evr.buckets code with
  | some b => b.settle m.aonHgt burst rate
  | none =>
    match m.evr.dflt with
    | some b => b.settle m.aonHgt burst rate
    | none => { credit := burst * Config.hgtSec, atc := m.aonHgt }

/-- Before RL_BURST, RL_RATE or an override entry changes, every bucket is settled at the old values, so that each keeps
what it has earned (R397). -/
def Mach.settleBuckets (m : Mach) : Mach :=
  let named := (List.range 32).map (fun i => m.get Reg.EVR.RL_CODE i)
  let codes := m.evr.buckets.keys ++ named.filter (fun c => c != 0)
  let burst := max 1 (m.get Reg.EVR.RL_BURST)
  let full : Bucket := { credit := burst * Config.hgtSec, atc := m.aonHgt }
  let d := (m.evr.dflt.map (fun b => b.settle m.aonHgt burst (m.get Reg.EVR.RL_RATE))).getD full
  { m with evr := { m.evr with
      buckets := codes.foldl (fun t c => Tbl.set t c (m.bucket c)) m.evr.buckets
      dflt := some d } }

/-- Entries of the queue that take no reserved place: at most 224 of 256 (R394). -/
def Evr.plainUsed (e : Evr) : Nat := (e.queue.filter (fun r => !r.reserved)).length
/-- Reserved places in use, of 32. -/
def Evr.reservedUsed (e : Evr) : Nat := (e.queue.filter (fun r => r.reserved)).length

/-- An exempt record finds room. -/
def Evr.roomExempt (e : Evr) : Bool := e.plainUsed < 224 || e.reservedUsed < 32

/-- Whether two spans of the Ring circle, given by start and length, share a byte. -/
def spansMeet (a la b lb : Nat) : Bool :=
  let size := 33554432
  (b + size - a % size) % size < la || (a + size - b % size) % size < lb

/-- The place of the next record of a length (R390): Keep until one does not fit, then the Ring. -/
def Evr.placeFor (e : Evr) (len : Nat) : Nat × Bool :=
  if !e.keepFull && e.keepNext + len ≤ 16777216 then (e.keepNext, true)
  else (16777216 + e.ringNext % 33554432, false)

/-- The recorder after giving a record its sequence number and place (R391, R393): older records whose bytes it would
cover go out of use. -/
def Evr.put (e : Evr) (r : Rec) : Evr :=
  let len := 16 * r.len16
  let (place, keep) := e.placeFor len
  let r' := { r with seq := e.nextSeq, place := place, keep := keep }
  let live := if keep then e.where_
    else e.where_.filter (fun a => a.place < 16777216 || !spansMeet (place - 16777216) len (a.place - 16777216) a.len)
  { e with
    nextSeq := e.nextSeq + 1
    queue := e.queue ++ [r']
    where_ := live ++ [{ seq := r'.seq, place := place, len := len }]
    keepNext := if keep then e.keepNext + len else e.keepNext
    keepFull := e.keepFull || !keep
    ringNext := if keep then e.ringNext else e.ringNext + len
    openRec := match r.body with
      | .fault _ true _ _ _ => some r'
      | _ => e.openRec }

/-- Whether a record of a length would cover the open fault record (R391). -/
def Evr.coversOpen (e : Evr) (len : Nat) : Bool :=
  match e.openRec with
  | none => false
  | some o =>
    match o.body with
    | .fault _ true _ _ _ =>
      let (place, keep) := e.placeFor len
      !keep && 16777216 ≤ o.place && spansMeet (place - 16777216) len (o.place - 16777216) (16 * o.len16)
    | _ => false

/-- Acceptance into the queue with relocation: if the record would cover the open fault record, a copy of that record
with its own HGT and the RELOCATED flag is accepted first (R391). -/
def Evr.enqueue (e : Evr) (r : Rec) : Evr :=
  if e.coversOpen (16 * r.len16) then
    match e.openRec with
    | some o => (e.put { o with reloc := true, reserved := false }).put r
    | none => e.put r
  else e.put r

/-- The record with the place in the queue that it takes: an exempt record takes a reserved place only where no other
is free. -/
def Evr.reserve (e : Evr) (r : Rec) : Rec := { r with reserved := !(e.plainUsed < 224) }

/-- An exempt record comes to the recorder (R394): accepted, or held (a mode change, a fault record), or its producer
waits. -/
def Mach.acceptExempt (m : Mach) (r : Rec) : Mach :=
  if m.evr.roomExempt && m.evr.waiting.isEmpty && (m.evr.held.isEmpty || !neverWaits r.code) then
    { m with evr := m.evr.enqueue (m.evr.reserve r) }
  else if neverWaits r.code then { m with evr := { m.evr with held := m.evr.held ++ [r] } }
  else { m with evr := { m.evr with waiting := m.evr.waiting ++ [r] } }

/-- A rate-limited record comes to the recorder (R394, R397): it takes a token or is suppressed, and is dropped where its
share of the queue is full. -/
def Mach.acceptLimited (m : Mach) (r : Rec) : Mach :=
  let b := m.bucket r.code
  let stampNow := r.hgt / 16 % 2 ^ 32
  if b.credit < Config.hgtSec || (m.burstRate r.code).2 = 0 then
    let m := m.bump Reg.EVR.SUPPRESSED
    { m with evr := { m.evr with
        buckets := Tbl.set m.evr.buckets r.code b
        supp := Tbl.modify m.evr.supp r.code (0, stampNow) (fun x => (x.1 + 1, x.2)) } }
  else
    let m1 := { m with evr := { m.evr with
      buckets := Tbl.set m.evr.buckets r.code { b with credit := b.credit - Config.hgtSec } } }
    if m.evr.plainUsed < 224 then { m1 with evr := m1.evr.enqueue r }
    else
      let m2 := m1.bump Reg.EVR.LOST
      { m2 with evr := { m2.evr with
          lostNow := m2.evr.lostNow + 1
          lostAt := if m2.evr.lostNow = 0 then stampNow else m2.evr.lostAt } }

/-- As soon as space has returned, a LOST record (Table 17-4) goes ahead of any other (R394). -/
def Mach.lostFirst (m : Mach) : Mach :=
  if m.evr.lostNow = 0 || 224 ≤ m.evr.plainUsed then m
  else
    let r : Rec := { code := 0x0FF1, sev := 0, role := 0, origin := 4, aonStamp := true, hgt := m.aonHgt
                     body := .bytes (zeros 4 ++ leBytes 4 m.evr.lostNow ++ leBytes 4 m.evr.lostAt)
                     boot := m.get Reg.GLB.BOOT_COUNT }
    { m with evr := { m.evr.enqueue r with lostNow := 0, lostAt := 0 } }

/-- A record comes to the recorder. -/
def Mach.accept (m : Mach) (r : Rec) : Mach :=
  let m := m.lostFirst
  let r := { r with boot := m.get Reg.GLB.BOOT_COUNT }
  if exemptCode r.code then m.acceptExempt r else m.acceptLimited r

/-- A record of a code from a part of the module (ORIGIN: 0 to 3 a quadrant, 4 AON logic, 5 MGC, 6 boot code), stamped as
Table 2-3 says. -/
def Mach.mkRec (m : Mach) (code origin : Nat) (body : RecBody) (role : Role := .none) (sev : Nat := 0) : Rec :=
  { code := code, sev := sev, role := role.code, origin := origin, aonStamp := decide (4 ≤ origin),
    hgt := if origin < 4 then m.hgt origin else m.aonHgt, body := body }

/-- An event is recorded with its facts. -/
def Mach.record (m : Mach) (code : Nat) (origin : Nat) (facts : List Nat := []) (role : Role := .none) : Mach :=
  m.accept (m.mkRec code origin (.plain facts) role)

/-! ### Crossings between dies (R14, R15, R24) -/

/-- Where a die-to-die link is kept: by its lower and its higher quadrant. -/
def dieKey (a b : Nat) : Nat := min a b * 4 + max a b

/-- The link of a pair of quadrants. -/
def Mach.dieLink (m : Mach) (a b : Nat) : DieLink := Tbl.get m.die (dieKey a b) {}

/-- The lower-numbered third quadrant, by which a pair whose link is down detours (R15). -/
def thirdQuad (a b : Nat) : Nat := ((List.range 4).find? (fun q => q != a && q != b)).getD 0

/-- Traffic uses the link of a pair (R24 to R26): a gated clock starts and the link is usable 40 ns later, at once where the gate is
closing in this very cycle; the quadrant it goes to starts its PLL. -/
def Mach.dieTraffic (m : Mach) (a b : Nat) : Mach :=
  if a = b then m
  else
    { m with die := Tbl.modify m.die (dieKey a b) {} (fun l => { l with
        gated := false, lastTraffic := m.clk
        usableAt := if l.gated && !(l.gateAt = m.clk && 0 < m.clk) then m.clk + 80 else l.usableAt }) }.wakeQuad b

/-- Cells of credit that a packet occupies: one for every 64 B begun (R83). -/
def cellsOf (len : Nat) : Nat := (len + 63) / 64

/-- The quadrant a packet is in as it arrives. -/
def ingQuad : Ingress → Nat
  | .port p => quadOfPort p.val
  | .engines q => q.val

/-- An arrival crosses the link from `a` to `b`. -/
def Arrival.crosses (x : Arrival) (a b : Nat) : Bool := ((ingQuad x.from_ :: x.path).zip x.path).contains (a, b)

/-- The cells of VC `vc` that the link from `a` to `b` holds (R14): of the packets that cross it and have not left the module. A
packet for an output is on the VC of its hop, one for local delivery on the VC it came in on (DEDUCED, log entry 43). -/
def Mach.dieCells (m : Mach) (a b vc : Nat) : Nat :=
  let cells := fun (x : Arrival) => if x.crosses a b then cellsOf x.len else 0
  ((m.rte.ports.flatMap (fun y => (y.2.sel.filter (fun z => z.vc == vc)).map (fun z => cells z.arr))) ++
   (m.rte.local_.flatMap (fun y => (y.2.filter (fun z => z.vc == vc)).map cells))).sum

/-- The quadrants that traffic crosses to on its way from `a` to `b`: the direct link, or the lower-numbered third quadrant where that
link is down (R15). HBM and register traffic takes this path always (R14). -/
def Mach.directPath (m : Mach) (a b : Nat) : List Nat :=
  if a = b then [] else if (m.dieLink a b).down then [thirdQuad a b, b] else [b]

/-- The path of a packet on VC `vc` (R14): on an adaptive VC, a direct link that is more than half full for the VC is avoided by the less
occupied of the two detours; of equal ones the lower-numbered, and none over a link that is down (DESIGN CHOICE, log entry 43). -/
def Mach.diePath (m : Mach) (a b vc : Nat) : List Nat :=
  if a = b || vc % 2 = 0 || (m.dieLink a b).down || 2 * m.dieCells a b vc ≤ Config.dieBuffer then m.directPath a b
  else
    let by_ := (List.range 4).filter (fun t => t != a && t != b && !(m.dieLink a t).down && !(m.dieLink t b).down)
    let held := fun (t : Nat) => m.dieCells a t vc + m.dieCells t b vc
    match by_ with
    | [] => [b]
    | t :: r => [r.foldl (fun x y => if held y < held x then y else x) t, b]

/-- Traffic goes from `a` along a path. -/
def Mach.crossDies (m : Mach) (a : Nat) (path : List Nat) : Mach :=
  ((a :: path).zip path).foldl (fun x l => x.dieTraffic l.1 l.2) m

/-- The cycle from which every link of a path is usable. -/
def Mach.pathReady (m : Mach) (a : Nat) (path : List Nat) : Nat :=
  (((a :: path).zip path).map (fun l => (m.dieLink l.1 l.2).usableAt)).foldl max 0

/-- A request that is forwarded, and a register access to a block of another quadrant, crosses and is awaited there (Table 1-3). -/
def Mach.forward (m : Mach) (a b : Nat) : Mach :=
  let path := m.directPath a b
  let m := m.crossDies a path
  m.elapseTo (m.pathReady a path)

/-! ### Register writes and actions -/

/-- The path code of Table 18-3, byte 48: 0 BAR0, 1 MCTP, 2 DOE, 3 JTAG. -/
def Mach.pathCode (m : Mach) (r : Requester) : Nat :=
  match r with
  | .pf0 _ => 0
  | .session none _ => 1
  | .session (some k) _ =>
    match (Tbl.find m.rol.sessions k).map (fun (x : Session) => x.via) with
    | some (Transport.doe _) => 2
    | _ => 1
  | .jtag => 3

/-- The session number of Table 18-3, bytes 50 to 51: that of the grant or of the requester; 0xFFFF from OP_SLOTS. -/
def Mach.sessCode (m : Mach) (r : Requester) : Nat :=
  match r with
  | .pf0 s => ((Tbl.find m.rol.grants s).map (·.sess)).getD 65535
  | .session (some k) _ => k
  | .session none _ => 65535
  | .jtag => m.rol.jtag.getD 65535

/-- The first and second index values of Table 18-3 for a field. -/
def Mach.idxWords (m : Mach) (r : Requester) (f : Field) : Nat × Nat :=
  let first := match indexField f.block f.scope with
    | some g => m.idx r g
    | none => 4294967295
  (first, if f.off = 0x300B8 ∨ f.off = 0x300BC then m.idx r Reg.LNK.VC_IDX else 4294967295)

/-- Body of record 0x9001 (Table 18-3), bytes 32 to 59. -/
def Mach.privBody (m : Mach) (r : Requester) (f : Field) (before written after : Nat) : List Byte :=
  let (i1, i2) := m.idxWords r f
  leBytes 4 f.off ++ leBytes 4 before ++ leBytes 4 written ++ leBytes 4 after ++ leBytes 1 (m.pathCode r) ++
  leBytes 1 (match r with | .jtag => 255 | _ => r.slotOf) ++ leBytes 2 (m.sessCode r) ++
  leBytes 4 i1 ++ leBytes 4 i2

/-- The AON blocks: PWR, FLT and EVR (R429). -/
def aonBlock (b : Nat) : Bool := b = 13 || b = 14 || b = 15

/-- An index register, which its function's quadrant holds (R433). -/
def isIndex (f : Field) : Bool :=
  f.scope = .fn && f.acc = .rw &&
  (f.off = 0xD0000 || f.off = 0xD0058 || f.off = 0xE0000 || f.off = 0xF0028 || f.off = 0xF0084 ||
   f.off = 0xF0040 || f.off = 0xF0044)

/-- The quadrant that holds an instance of a field (R432), where that is a port, a lane, a lock, a bank, a ring, a domain or a group
(Table 1-5). Of a block that no table places, the register file stands in every quadrant alike (DESIGN CHOICE, log entry 43). -/
def Mach.fieldQuad (m : Mach) (f : Field) (i : Nat) : Option Nat :=
  match f.scope with
  | .port => some (quadOfPort (i % 128))
  | .lane => some (quadOfPort (i / 4 % 128))
  | .lock => some (i / 16384 % 4)
  | .bank => some (bankQuad i)
  | .wring => (Tbl.find m.hif.wrs i).map (fun w => quadOfSlot w.slot)
  | .cring => (Tbl.find m.hif.crs i).map (fun c => quadOfSlot c.slot)
  | .domain => (Tbl.find m.mat.domains i).map (fun d => quadOfSlot d.slot)
  | .group => (Tbl.find m.groups i).map (fun g => g.homeQ)
  | _ => none

/-- The crossing that a register access of a PF0 makes to a block of another quadrant: from where, and where to (Table 1-3). -/
def Mach.crossing (m : Mach) (r : Requester) (f : Field) : Option (Nat × Nat) :=
  match r with
  | .pf0 s =>
    match (m.inst r f).bind (m.fieldQuad f) with
    | some q => if q = quadOfSlot s then none else some (quadOfSlot s, q)
    | none => none
  | _ => none

/-- An access goes to the quadrant of its block. -/
def Mach.reach (m : Mach) (r : Requester) (f : Field) : Mach :=
  match m.crossing r f with
  | some (a, b) => m.forward a b
  | none => m

/-- An AON write leaves the quadrant: AON_WSEQ of the function counts it, and time passes to the AONCLK edge at which it
acts; AON_ASEQ, which is read as a shadow, counts it there (R429). Any other write goes to the quadrant of its block. -/
def Mach.crossAon (m : Mach) (r : Requester) (f : Field) : Mach :=
  if aonBlock f.block && !isIndex f then
    let w := (m.get Reg.ROL.AON_WSEQ r.fnKey + 1) % 65536
    ((m.put Reg.ROL.AON_WSEQ w r.fnKey).toAonEdge).put Reg.ROL.AON_ASEQ w r.fnKey
  else m.reach r f

/-- A write to an offset is ignored and recorded: event 0x9802 (Table 18-7; in LOCKOUT every write, R356). -/
def Mach.ignoreAt (m : Mach) (r : Requester) (off v : Nat) : Mach :=
  (m.bump Reg.ROL.REFUSED).record 0x9802 (quadOfSlot r.slotOf) [off, v] (m.roleOf r)

/-- A write to a field is ignored because of the mode or of the state of what it acts on. -/
def Mach.ignoreWrite (m : Mach) (r : Requester) (f : Field) (v : Nat) : Mach := m.ignoreAt r f.off v

/-- A write is refused for rights: event 0x9801 with the refused bits (R426). -/
def Mach.refuseWrite (m : Mach) (r : Requester) (off : Nat) (v bits : Nat) : Mach :=
  (m.bump Reg.ROL.REFUSED).record 0x9801 (quadOfSlot r.slotOf) [off, v, bits] (m.roleOf r)

/-- The 0x9001 record of a privileged write or command is accepted (R427, R428). -/
def Mach.recordPriv (m : Mach) (r : Requester) (f : Field) (before written after : Nat) : Mach :=
  let seq := m.evr.nextSeq
  let m := m.accept (m.mkRec 0x9001 (quadOfSlot r.slotOf) (.bytes (m.privBody r f before written after)) (m.roleOf r))
  (m.bump Reg.ROL.PRIV_WRITES).put64 Reg.ROL.LAST_PRIV_SEQ_LO Reg.ROL.LAST_PRIV_SEQ_HI seq

/-- A write of the same function to the same block waits: this one takes effect after it (R17, R428). -/
def Mach.behindWrite (m : Mach) (r : Requester) (block : Nat) : Bool :=
  m.evr.stalled.any (fun w => !w.read && w.req.fnKey == r.fnKey && w.off / 65536 == block)

/-- A write must wait: a privileged one while the recorder has no room for its record, and any write of the same
function to the same block behind one that waits (R428). -/
def Mach.mustWait (m : Mach) (r : Requester) (f : Field) (priv : Bool) : Bool :=
  (priv && !(m.evr.roomExempt && m.evr.waiting.isEmpty)) || m.behindWrite r f.block

/-- A write joins those that wait. -/
def Mach.stall (m : Mach) (r : Requester) (off v mask : Nat) : Mach :=
  { m with evr := { m.evr with
    stalled := m.evr.stalled ++ [{ req := r, off := off, val := BitVec.ofNat 32 v, mask := BitVec.ofNat 32 mask }] } }

/-- The bits of its register that a field takes. -/
def Field.mask (f : Field) : Nat := (2 ^ f.width - 1) * 2 ^ f.lo

/-- What becomes of a write of value `v` to a field that performs an action, before the action: the wake of its quadrant, the
mode decode (R356), the writes of the function to the block that wait, behind which it is not yet judged (R17), the rights (R9, R426), what the action asks of the mode or of the state (Table 18-7: otherwise the write is ignored),
the record of a privileged change (R427, R428), the crossing to the AON die (R429). `act` gets the machine and the
instance the requester reaches. -/
def Mach.actionIf (m : Mach) (r : Requester) (f : Field) (v : Nat) (may : Mach → Nat → Bool)
    (act : Mach → Nat → Mach) : Mach :=
  let m := m.wakeFor r
  if m.mode = .lockout then m.ignoreWrite r f v
  else if !m.mode.decodes f.block then m
  else if m.behindWrite r f.block then m.stall r f.off (v * 2 ^ f.lo) 0xFFFFFFFF
  else match m.inst r f with
  | none => m
  | some i =>
    if !(m.roleOf r).covers f.rights then (m.crossAon r f).refuseWrite r f.off (v * 2 ^ f.lo) (v * 2 ^ f.lo)
    else if !may m i then (m.crossAon r f).ignoreWrite r f v
    else
      let priv := decide (Role.code .installer ≤ f.rights.code)
      if m.mustWait r f priv then m.stall r f.off (v * 2 ^ f.lo) 0xFFFFFFFF
      else
        let m := if priv then m.recordPriv r f 0 (v * 2 ^ f.lo) 0 else m
        act (m.crossAon r f) i

/-- Whether `Mach.actionIf` comes to its action. -/
def Mach.mayAct (m : Mach) (r : Requester) (f : Field) : Bool :=
  m.mode.decodes f.block && m.mode != .lockout && (m.inst r f).isSome && (m.roleOf r).covers f.rights &&
  !m.mustWait r f (decide (Role.code .installer ≤ f.rights.code))

/-- An action that asks nothing of the mode beyond its window's decode. -/
def Mach.action (m : Mach) (r : Requester) (f : Field) (v : Nat) (act : Mach → Nat → Mach) : Mach :=
  m.actionIf r f v (fun _ _ => true) act

/-- The fields of a block's window (Table 0-4). -/
def blockFields (b : Nat) : List Field :=
  match b with
  | 0 => Reg.GLB.all | 1 => Reg.TIM.all | 2 => Reg.LAN.all | 3 => Reg.LNK.all | 4 => Reg.RTE.all | 5 => Reg.HIF.all
  | 6 => Reg.XLT.all | 7 => Reg.CXN.all | 8 => Reg.MAT.all | 9 => Reg.COL.all | 10 => Reg.LKA.all
  | 11 => Reg.SCH.all | 12 => Reg.SEQ.all | 13 => Reg.PWR.all | 14 => Reg.FLT.all | 15 => Reg.EVR.all
  | 16 => Reg.ROL.all | 17 => Reg.PMC.all | _ => []

/-- The fields of the register at a decoded offset. -/
def regFields (off : Nat) : List Field := (blockFields (off / 65536)).filter (fun f => f.off == off)

/-- The register at an offset, put together from its stored fields. -/
def Mach.storedWord (m : Mach) (off i : Nat) : Nat :=
  (regFields off).foldl (fun a f => a + m.get f i * 2 ^ f.lo) 0

/-- A write of `v` to one RW field that has an effect of its own beside the stored value: as `Mach.action`, but a refusal
is recorded only where the value would have changed (R426), the record of a privileged write gives the register before
and after (Table 18-3), and the field takes the value before `act` runs. -/
def Mach.setting (m : Mach) (r : Requester) (f : Field) (v : Nat) (act : Mach → Nat → Mach) : Mach :=
  let m := m.wakeFor r
  if m.mode = .lockout then m.ignoreWrite r f v
  else if !m.mode.decodes f.block then m
  else if m.behindWrite r f.block then m.stall r f.off (v % 2 ^ f.width * 2 ^ f.lo) f.mask
  else match m.inst r f with
  | none => m
  | some i =>
    let v := v % 2 ^ f.width
    if !(m.roleOf r).covers f.rights then
      if m.get f i = v then m.crossAon r f
      else (m.crossAon r f).refuseWrite r f.off (v * 2 ^ f.lo) ((v ^^^ m.get f i) * 2 ^ f.lo)
    else
      let priv := decide (Role.code .installer ≤ f.rights.code)
      let w0 := m.storedWord f.off i
      let w1 := (m.put f v i).storedWord f.off i
      if m.mustWait r f priv then m.stall r f.off (v * 2 ^ f.lo) f.mask
      else
        let m := if priv then m.recordPriv r f w0 w1 w1 else m
        act ((m.crossAon r f).put f v i) i

/-! ### Hive (R328, R329) -/

/-- A request that conflicts with a running instance is deferred: event 0x8010. One that is already pending for the
resource is merged with it. -/
def Mach.defer (m : Mach) (act res origin : Nat) : Mach :=
  if m.hive.deferred.contains (act, res) then m
  else
    { m with hive := { m.hive with
        deferred := m.hive.deferred ++ [(act, res)]
        deferrals := Tbl.modify m.hive.deferrals act 0 (fun n => satAdd 32 n 1) } }.record 0x8010 origin [act, res]

/-- A deferred request starts: event 0x8011. -/
def Mach.undefer (m : Mach) (act res origin : Nat) : Mach :=
  { m with hive := { m.hive with deferred := m.hive.deferred.filter (· != (act, res)) } }.record 0x8011 origin [act, res]

/-! ### The MRAM array (R388) -/

/-- What a byte that nothing has written reads as: 0 (R390: the unused tail of Keep stays zero; log entry 5). -/
def Memory.blank : Byte := 0

/-- The byte at an address. -/
def Memory.read (mem : Memory) (a : Nat) : Byte :=
  match mem with
  | [] => Memory.blank
  | (b, v) :: r => if b = a then v else Memory.read r a

/-- The array with one byte written, in canonical form: rising addresses, and no entry that reads as a blank one. -/
def Memory.write (mem : Memory) (a : Nat) (v : Byte) : Memory :=
  match mem with
  | [] => if v = Memory.blank then [] else [(a, v)]
  | (b, w) :: r =>
    if a < b then (if v = Memory.blank then (b, w) :: r else (a, v) :: (b, w) :: r)
    else if a = b then (if v = Memory.blank then r else (a, v) :: r)
    else (b, w) :: Memory.write r a v

/-- A byte string written from an address up. -/
def Memory.writeAll (mem : Memory) (a : Nat) : List Byte → Memory
  | [] => mem
  | v :: r => Memory.writeAll (Memory.write mem a v) (a + 1) r

/-- `n` bytes read from an address up. -/
def Memory.readAll (mem : Memory) (a n : Nat) : List Byte :=
  (List.range n).map (fun k => Memory.read mem (a + k))

/-- The addresses rise strictly from `lo` on, and no entry reads as a blank one. -/
def Memory.wfFrom (lo : Nat) : Memory → Bool
  | [] => true
  | (a, v) :: r => decide (lo ≤ a) && v != Memory.blank && Memory.wfFrom (a + 1) r

/-- The canonical form of the array. -/
def Memory.wf (mem : Memory) : Bool := Memory.wfFrom 0 mem

/-- The address of byte `k` of a record that stands at `place`: a record may run across the end of the Ring and continue
at its start (R390). -/
def ringAddr (place k : Nat) : Nat :=
  if place < 16777216 then place + k else 16777216 + (place - 16777216 + k) % 33554432

/-- A record's bytes written at its place. -/
def Memory.writeRec (mem : Memory) (place : Nat) (b : List Byte) : Memory :=
  b.zipIdx.foldl (fun a c => Memory.write a (ringAddr place c.2) c.1) mem

/-- A record's bytes read from its place. -/
def Memory.readRec (mem : Memory) (place n : Nat) : List Byte :=
  (List.range n).map (fun k => Memory.read mem (ringAddr place k))

end Sys2Proof.Machine
end

