-- ==== Sys2Proof/Machine/Arch.lean ====
section
/-!
DEFINITION. Quadrants, engines and the Yarrow sequencer (file 01): steps and flags (R20 to R22), clock gates and waking
(R24 to R26, R468), parking (R25, R34), the die-to-die links (R14, R15).
-/

namespace Sys2Proof.Machine

/-- The HBM stack of a quadrant is in self-refresh: its quadrant is parked (Table 1-9). -/
def Mach.selfRefresh (m : Mach) (q : Nat) : Bool := (Tbl.get m.quads q {}).park != 0

/-- The RXE of a connection (Table 1-5): by a hash of the peer's EID over the RXEs of the slot's quadrant; a connection of a
stopped RXE is hashed over those that run (Table 16-4). -/
def Mach.rxeOf (m : Mach) (cx : Nat) : Nat :=
  let h := Config.rxeHash (cx % 1048576)
  let e : Engine := { cls := .rxe, q := Fin.ofNat 4 (quadOfSlot (cx / 1048576)), n := Fin.ofNat 16 h }
  if !(m.eng e).stopped then h % 16
  else
    let up := (List.range 16).filter (fun n => !(m.eng { e with n := Fin.ofNat 16 n }).stopped)
    up.getD (h / 16 % up.length) (h % 16)

/-- The engine that a delivered packet goes to: class, quadrant and number (R143, Table 1-5). -/
def Mach.packetEngine (m : Mach) (k : Packet) : EngClass × Nat × Nat :=
  let q := quadOfSlot (k.hdr.dst % 16)
  match k.body with
  | .rsx _ => (.rxe, q, m.rxeOf (1048576 * (k.hdr.dst % 16) + k.hdr.src % 1048576))
  | .coll h => (.cle, match Tbl.find m.groups h.group with | some g => g.homeQ | none => q, h.group % 2)
  | .lku h => (.lku, if k.hdr.kind < 0x27 && k.hdr.kind != 0x25 then h.lockId % 65536 / 16384 else q, 0)

/-- Work that waits for an engine: entries fetched and not yet begun, for the TXE of their ring and for the MTE or the CLE that they go
to; packets handed over and not yet taken up; down chunks in hand; atomics not yet done (R468). -/
def Mach.engQueue (m : Mach) (e : Engine) : Bool :=
  let fetched := m.hif.work.any (fun x => !x.started && (match Tbl.find m.hif.wrs x.ring with
    | some w => quadOfSlot w.slot == e.q.val && (match e.cls with
      | .txe => w.txe == e.n.val
      | .mte => (match x.entry.body with | .recv _ d .. => d % 4 == e.n.val | _ => false)
      | .cle => x.entry.opcode == 0x30 && x.entry.arg % 2 == e.n.val
      | _ => false)
    | none => false))
  fetched || m.rte.inbox.any (fun k => m.packetEngine k == (e.cls, e.q.val, e.n.val)) ||
  (e.cls == .cle && m.groups.any (fun g => g.2.homeQ == e.q.val && g.1 % 2 == e.n.val && g.2.ranks.any (fun r => r.down.isSome))) ||
  (e.cls == .lku && m.lka.atoms.any (fun a => quadOfSlot a.slot == e.q.val && a.st != .done))

/-- An engine has work (R468): a command outstanding, work that waits for it, or, for a TXE, a ring bound to it that is scanning or waits
for a read. -/
def Mach.engBusy (m : Mach) (e : Engine) : Bool :=
  (m.eng e).outstanding.isSome || m.engQueue e ||
  (e.cls == .txe && m.hif.wrs.vals.any (fun w => quadOfSlot w.slot == e.q.val && w.txe == e.n.val &&
    (w.scanning || w.reading)))

/-- The flag vector with its reserved bits 23 to 30 at 0 (R21). -/
def flagVec (v : BitVec 32) : BitVec 32 := v &&& 0x807FFFFF#32

/-- Conditions that the data path of an engine meets: bits of its flag vector are raised, and counted (Table 19-2), and others cleared
(R21, Table 1-6). -/
def Mach.flag (m : Mach) (e : Engine) (on off : List Nat) : Mach :=
  let x := m.eng e
  let set := on.foldl (fun a k => a ||| BitVec.ofNat 32 (2 ^ k)) (off.foldl (fun a k => a &&& ~~~(BitVec.ofNat 32 (2 ^ k))) x.flags)
  on.foldl (fun (a : Mach) k => a.pmcEvent (engBank e.q e.cls) 0x0C 1 (fun arg => arg % 32 == k))
    (m.setEng e { x with flags := flagVec set })

/-- One slot of a running Yarrow (R20): the step tests the flag vector of the previous cycle. A step that tests DONE, flag 0, while
its command is outstanding holds its slot and waits; any other issues and goes to its successor. -/
def Eng.slot (x : Eng) (w : StepWord) : Eng :=
  if w.flag.val = 0 && x.outstanding.isSome && !x.flags.getLsbD 0 then
    { x with flags := flagVec w.raised, waiting := true }
  else
    { x with
      step := if x.flags.getLsbD w.flag.val then w.onSet.val else w.onClear.val
      flags := flagVec w.raised
      outstanding := w.command.or (if x.flags.getLsbD 0 then none else x.outstanding)
      waiting := false }

/-- STEP_PARITY (R22): the Yarrow stops issuing and reports FS112 with its engine and step; an LKU raises FS117 with it
(R377). Its work is disposed of where the meaning is completed (Table 16-4). -/
def Mach.stepParity (m : Mach) (e : Engine) : Mach :=
  let x := m.eng e
  let m := m.setEng e { x with stopped := true, flags := x.flags ||| 0x80000000#32 }
  let m := m.raise 112 (.engine e) x.step e.q
  if e.cls == .lku then m.raise 117 (.engine e) x.step e.q else m

/-- DIE_LINK_DOWN (R15): FS56 and event 0x4050; the pair detours from then on. -/
def Mach.dieLinkDown (m : Mach) (a b : Nat) : Mach :=
  if (m.dieLink a b).down then m
  else
    let m := { m with die := Tbl.modify m.die (dieKey a b) {} (fun l => { l with down := true }) }
    (m.raise 56 .none (dieKey a b) a).record 0x4050 a [a, b]

/-- DIE_LINK_DOWN. -/
def execDieLinkDown (a b : Quad) (s : State) : Result :=
  if a = b then .fault .noSuchDieLink else ok s (s.m.dieLinkDown a b)

/-- A die-to-die link that has carried no traffic for 1 µs gates its clock (R24, Table 1-9). -/
def Mach.dieLinkGate (m : Mach) (a b : Nat) : Mach :=
  let l := m.dieLink a b
  if l.lastTraffic + Config.usCycles ≤ m.clk then
    { m with die := Tbl.set m.die (dieKey a b) { l with gated := true, gateAt := m.clk } }
  else m

/-- DIE_LINK_GATE. -/
def execDieLinkGate (a b : Quad) (s : State) : Result :=
  if a = b then .fault .noSuchDieLink else ok s (s.m.dieLinkGate a b)

/-- An engine's clock gate closes in the cycle after its last slot with work (R468), unless GATE_EN is 0 (R365). -/
def Mach.gateClose (m : Mach) (e : Engine) : Mach :=
  let x := m.eng e
  if m.isSet Reg.GLB.GATE_EN && !m.engBusy e && !x.gated then
    m.setEng e { x with gated := true, gateAt := m.clk }
  else m

/-- ENGINE_GATE_CLOSE. -/
def execEngineGateClose (e : Engine) (s : State) : Result :=
  if engExists e then ok s (s.m.gateClose e) else .fault .noSuchEngine

/-- A request to an engine (R24, R26): a gate that is closing in this very cycle is not closed after all; one that has
closed opens, and the engine is usable after 20 ns, or once it is held no longer (R323). In SAFE and LOCKOUT every engine stays gated
(R381). -/
def Mach.wakeEngine (m : Mach) (e : Engine) : Mach :=
  let x := m.eng e
  if x.gated && m.mode != .safe && m.mode != .lockout then
    (m.setEng e { x with
      gated := false
      usableAt := max x.usableAt (if x.gateAt = m.clk && 0 < m.clk then m.clk else m.clk + 40) }).pmcEngine
      e.q e.cls 0x0A 1
  else m

/-- A packet delivered in quadrant `q` calls the engine that serves it: one whose home is another quadrant is forwarded over the
die-to-die link, and a gated engine wakes (R18, R24, Table 1-3). -/
def Mach.callEngine (m : Mach) (q : Nat) (k : Packet) : Mach :=
  let (c, home, n) := m.packetEngine k
  let m := if home = q then m else m.forward q home
  m.wakeEngine { cls := c, q := Fin.ofNat 4 home, n := Fin.ofNat 16 n }

/-- An engine is called to work and takes it up once it and its quadrant are usable (R24, R468). -/
def Mach.callUp (m : Mach) (e : Engine) : Mach :=
  let m := m.wakeEngine e
  m.elapseTo (max (m.eng e).usableAt (Tbl.get m.quads e.q {}).usableAt)

/-- ENGINE_WAKE. -/
def execEngineWake (e : Engine) (s : State) : Result :=
  if engExists e then ok s (s.m.wakeEngine e) else .fault .noSuchEngine

/-- A port's drivers are off (R69). -/
def Mach.portIdle (m : Mach) (p : Nat) : Bool := (Tbl.get m.idle p {}).driversOff

/-- No packet in the module is on a link into a quadrant. -/
def Mach.diesQuiet (m : Mach) (q : Nat) : Bool :=
  m.rte.ports.all (fun y => y.2.sel.all (fun z => !z.arr.path.contains q)) &&
  m.rte.local_.all (fun y => y.2.all (fun z => !z.path.contains q))

/-- What R25 asks before a quadrant parks, outside DORMANT: its ports idle, its engines gated, no traffic on a die-to-die link into
it. That its host ports are in L1 is what the command's coming says (DESIGN CHOICE, log entry 41: the host puts them
there, and no command carries it). -/
def Mach.mayPark (m : Mach) (q : Quad) : Bool :=
  m.isSet Reg.GLB.PARK_EN &&
  (List.range 32).all (fun k => m.portIdle (32 * q.val + k)) &&
  (enginesOf q).all (fun e => (m.eng e).gated) && m.diesQuiet q.val

/-- A quadrant parks, warm or cold (R25, R365). -/
def Mach.park (m : Mach) (q : Nat) (cold : Bool) : Mach :=
  { m with quads := Tbl.set m.quads q { park := if cold then 2 else 1, parkedAt := m.clk, usableAt := 0 } }

/-- QUADRANT_PARK. A quadrant already parked keeps its park (R365). -/
def execQuadrantPark (q : Quad) (s : State) : Result :=
  ok s (if s.m.mode != .dormant && (Tbl.get s.m.quads q {}).park = 0 && s.m.mayPark q
    then s.m.park q (s.m.isSet Reg.GLB.PARK_COLD) else s.m)

/-- QUADRANT_WAKE. -/
def execQuadrantWake (q : Quad) (s : State) : Result := ok s (s.m.wakeQuad q)

/-- QSTATE: two bits a quadrant, Q0 lowest (Table 15-7). -/
def Mach.qstate (m : Mach) : Nat :=
  (List.range 4).foldl (fun a q => a + (Tbl.get m.quads q {}).park * 4 ^ q) 0

end Sys2Proof.Machine
end

