-- ==== Sys2Proof/Machine/Wire.lean ====
section
/-!
DEFINITION. Packets and frames as bytes (R4: least significant byte first, byte 0 first on the wire): the RSP header and its
transport areas (Tables 5-2, 8-3, 8-5, 9-1, 10-5, 11-2), the frames of RSL with their CRC (Tables 4-1 to 4-7, 5-4; R84,
R85), and the 257-bit blocks that carry them (R54, R81, Table 3-4).
-/

namespace Sys2Proof

open Machine

/-! ### Packets -/

/-- What stands in the zero fields of an area joins its other bytes. -/
def withReserved (b : List Byte) (rsv : Nat) : List Byte :=
  if rsv = 0 then b else List.zipWith (fun x y => x ||| y) b (leBytes b.length rsv)

/-- Bytes 0 to 23 of the RSP header (Table 5-2). -/
def RspHdr.wire (h : RspHdr) : List Byte :=
  withReserved
    (leBytes 1 (h.version % 16) ++
     leBytes 1 (h.tc % 4 + 4 * b2n h.esc + 8 * b2n h.minOnly + 16 * b2n h.detour + 32 * (h.detourDim % 4)) ++
     leBytes 1 (h.derouted % 16) ++ leBytes 1 h.hops ++ leBytes 4 (h.dst % 1048576) ++ leBytes 4 (h.src % 1048576) ++
     leBytes 4 h.injTs ++ leBytes 2 h.payLen ++ leBytes 1 h.kind ++ zeros 1 ++ leBytes 2 h.flow ++ zeros 2) h.rsv

/-- Every field of the RSP header that Table 5-2 calls zero is zero. -/
def RspHdr.zero (h : RspHdr) : Bool := h.rsv == 0

/-- The operation area, bytes 48 to 59 (Tables 8-5 and 9-1). -/
def RsxOp.wire : RsxOp → List Byte
  | .window w o => leBytes 4 (w % 1048576) ++ leBytes 8 o
  | .readRsp q => leBytes 4 q ++ zeros 8
  | .ack p o f => leBytes 4 p ++ leBytes 4 o ++ leBytes 2 f ++ zeros 2
  | .nak p r => leBytes 4 p ++ leBytes 1 r ++ zeros 7
  | .epochNak p => leBytes 4 p ++ zeros 8
  | .result m s d f => leBytes 4 m ++ leBytes 1 s ++ leBytes 1 d ++ zeros 2 ++ leBytes 2 f ++ zeros 2
  | .match_ d b e m _ => leBytes 8 b ++ leBytes 4 (d % 8192 + 8192 * (m % 32768) + 268435456 * (e % 16))
  | .pullReq m l a => leBytes 4 m ++ leBytes 4 l ++ leBytes 1 (b2n a) ++ zeros 3
  | .pullRsp q => leBytes 4 q ++ zeros 8

/-- Bytes 24 to 63 of an RSX packet (Table 8-3). -/
def RsxHdr.wire (h : RsxHdr) : List Byte :=
  withReserved
    (leBytes 1 (b2n h.opn + 2 * b2n h.ackReq + 4 * b2n h.retx + 8 * b2n h.poison) ++ leBytes 1 h.epoch ++ zeros 2 ++
     leBytes 4 h.psn ++ leBytes 4 h.msn ++ leBytes 4 h.totalLen ++ leBytes 4 h.offset ++ leBytes 3 h.pktCount ++ zeros 1 ++
     h.op.wire ++ leBytes 4 h.openTs) h.rsv

/-- The kinds that carry no PSN and no MSN: ACK, NAK and EPOCH_NAK (Table 8-4). -/
def unsequenced (kind : Nat) : Bool := kind == 5 || kind == 6 || kind == 7

/-- Every field of an RSX packet that is zero in its kind is zero (Tables 8-3, 8-5, 9-1). -/
def RsxHdr.zero (h : RsxHdr) (kind : Nat) : Bool := h.rsv == 0 && (!unsequenced kind || (h.psn == 0 && h.msn == 0))

/-- Bytes 24 to 63 of a collective packet (Table 10-5). -/
def CollHdr.wire (h : CollHdr) : List Byte :=
  withReserved
    (leBytes 2 (h.group % 4096) ++ leBytes 1 h.gen ++
     leBytes 1 (h.op % 8 + 8 * b2n h.promoted + 16 * b2n h.last + 32 * b2n h.x) ++ leBytes 4 h.esn ++ leBytes 2 h.opSeq ++
     leBytes 1 h.dtype ++ leBytes 1 h.redop ++ leBytes 4 h.count ++ leBytes 4 h.chunk ++ leBytes 4 (h.srcRank % 1048576) ++
     leBytes 1 (h.fpFlags % 16) ++ leBytes 1 h.reason ++ leBytes 1 (b2n h.echo) ++ zeros 1 ++ leBytes 4 (h.root % 1048576) ++
     zeros 8) h.rsv

/-- Every field of a collective packet that is zero in its kind is zero: ABORT_REASON and ECHO belong to COLL_ABORT
(Table 10-5). -/
def CollHdr.zero (h : CollHdr) (kind : Nat) : Bool := h.rsv == 0 && (kind == 0x14 || (h.reason == 0 && !h.echo))

/-- Bytes 24 to 63 of a lock or atomic packet (Table 11-2). -/
def LkuHdr.wire (h : LkuHdr) : List Byte :=
  leBytes 1 h.code ++ leBytes 1 h.b25 ++ leBytes 2 h.lockId ++ leBytes 4 h.tag ++ leBytes 4 h.gen ++ leBytes 4 h.queued ++
  leBytes 8 h.offset ++ leBytes 8 h.op1 ++ leBytes 8 h.op2

/-- Every field of a lock or atomic packet that is zero in its kind is zero (Table 11-2). -/
def LkuHdr.zero (h : LkuHdr) (kind : Nat) : Bool :=
  if kind ≤ 0x27 then
    (kind == 0x25 || h.code == 0) &&
    (h.b25 == 0 || (kind == 0x25 && h.code == 2 && h.b25 == 1)) &&
    (h.gen == 0 || !(kind == 0x20 || kind == 0x22 || kind == 0x24)) &&
    (h.queued == 0 || (kind == 0x25 && h.code == 1)) && h.offset == 0 && h.op1 == 0 && h.op2 == 0
  else
    h.lockId == 0 && h.gen == 0 &&
    (match kind with
      | 0x28 => decide (h.queued < 1048576)
      | 0x29 => h.queued == 0 && h.offset == 0 && h.op2 == 0
      | _ => h.code == 0 && h.b25 == 0 && h.queued == 0 && h.offset == 0 && h.op1 == 0 && h.op2 == 0)

/-- The transport area. -/
def Body.wire : Body → List Byte
  | .rsx h => h.wire
  | .coll h => h.wire
  | .lku h => h.wire

/-- An RSP packet as bytes (R119). -/
def Packet.wire (k : Packet) : List Byte := k.hdr.wire ++ k.body.wire ++ k.payload

/-! ### Frames -/

/-- A frame's bytes up to its CRC, followed by that CRC, or the stomp CRC (R84, R85). -/
def withCrc (b : List Byte) (stomped : Bool) : List Byte :=
  b ++ leBytes 4 (if stomped then stompCrc b else crc32c b).toNat

/-- `b` padded with zeros to `n` bytes. -/
def padTo (n : Nat) (b : List Byte) : List Byte := b ++ zeros (n - b.length)

/-- Blocks of a DATA frame (R83). -/
def dataBlocks (pktLen : Nat) : Nat := (8 + pktLen + 4 + 31) / 32

/-- A DATA frame up to its CRC (Table 4-2). -/
def DataFrame.wire (f : DataFrame) : List Byte :=
  padTo (32 * dataBlocks f.pktLen - 4)
    (leBytes 1 0x01 ++ leBytes 1 (f.vc % 8 + 8 * b2n f.shared + 16 * b2n f.replay + 32 * (f.rsv % 8)) ++ leBytes 2 f.fsn ++
     leBytes 2 f.pktLen ++ leBytes 2 (f.rsv / 8) ++ slice f.pkt.wire 0 f.pktLen)

/-- A CREDIT frame up to its CRC (Table 4-3). -/
def CreditFrame.wire (f : CreditFrame) : List Byte :=
  leBytes 1 0x10 ++ leBytes 1 1 ++ leBytes 2 f.ackFsn ++ leBytes 1 (b2n f.ackValid) ++ zeros 1 ++ leBytes 2 f.shared ++
  (List.range 8).flatMap (fun k => leBytes 2 (f.cells.getD k 0)) ++ zeros 4

/-- A NAK frame up to its CRC (Table 4-4). -/
def NakFrame.wire (f : NakFrame) : List Byte :=
  leBytes 1 0x11 ++ leBytes 1 1 ++ leBytes 2 f.fsn ++ leBytes 1 f.reason ++ zeros 23

/-- An AUDIT frame up to its CRC (Table 4-5). -/
def AuditFrame.wire (f : AuditFrame) : List Byte :=
  leBytes 1 0x12 ++ leBytes 1 2 ++ leBytes 2 f.seq ++ leBytes 4 f.shared ++
  (List.range 8).flatMap (fun k => leBytes 4 (f.cells.getD k 0)) ++ leBytes 1 (b2n f.rxMismatch) ++ zeros 19

/-- A TIME_REQ (0x20) or TIME_RSP (0x21) frame up to its CRC (Table 4-6). -/
def TimeFrame.wire (ty : Nat) (f : TimeFrame) : List Byte :=
  leBytes 1 ty ++ leBytes 1 2 ++ leBytes 1 f.exch ++ leBytes 1 f.view.state ++ leBytes 8 f.serial ++ leBytes 1 f.port ++
  leBytes 1 f.view.rootPrio ++ leBytes 1 f.view.hops ++ zeros 1 ++ leBytes 8 f.view.rootSerial ++ leBytes 2 f.view.rootSeq ++
  zeros 6 ++ leBytes 8 f.t1 ++ leBytes 8 f.t2 ++ leBytes 8 f.t3 ++ zeros 4

/-- The code of PHASE (Table 4-7). -/
def TrainPhase.code : TrainPhase → Nat
  | .req => 1 | .ack => 2 | .done => 3 | .eq => 4

/-- The code of ACTION (Table 4-7). -/
def TrainAction.code : TrainAction → Nat
  | .full => 0 | .retrain => 1 | .width => 2

/-- A TRAIN frame up to its CRC (Table 4-7). -/
def TrainFrame.wire (f : TrainFrame) : List Byte :=
  leBytes 1 0x30 ++ leBytes 1 3 ++ leBytes 1 f.phase.code ++ leBytes 1 f.action.code ++ leBytes 8 f.serial ++ leBytes 1 f.port ++
  leBytes 1 (f.goodLanes % 16 + 16 * (f.proposed % 16)) ++ leBytes 1 (f.rates % 8 + 16 * (f.chosenRate % 4)) ++
  leBytes 1 f.reason ++ leBytes 2 f.ackFsn ++ leBytes 1 (b2n f.ackValid) ++ zeros 1 ++
  (List.range 8).flatMap (fun k => leBytes 2 (f.credits.getD k 0)) ++ leBytes 2 f.shared ++ zeros 2 ++
  (List.range 4).flatMap (fun k => leBytes 1 (f.eqTaps.getD k (0, 0)).1 ++ leBytes 1 (f.eqTaps.getD k (0, 0)).2) ++
  (List.range 8).flatMap (fun k => leBytes 2 (f.poolSize.getD k 0)) ++ leBytes 2 f.poolShared ++ zeros 26

/-- A BEACON frame up to its CRC (Table 5-4). -/
def Beacon.wire (b : Beacon) : List Byte :=
  leBytes 1 0x40 ++ leBytes 1 9 ++ leBytes 1 b.seq ++ leBytes 1 ((b.dims - 1) % 4) ++ leBytes 2 b.da ++ leBytes 1 b.port ++
  zeros 1 ++ leBytes 4 b.stamp ++ zeros 4 ++ (List.range 256).map (fun k => BitVec.ofNat 8 (Tbl.get b.levels k 0xFF)) ++ zeros 12

/-- A frame's bytes up to its CRC. -/
def Frame.body : Frame → List Byte
  | .data f _ => f.wire
  | .credit f => f.wire
  | .nak f => f.wire
  | .audit f => f.wire
  | .timeReq f => TimeFrame.wire 0x20 f
  | .timeRsp f => TimeFrame.wire 0x21 f
  | .train f => f.wire
  | .beacon b => b.wire

/-- A whole frame as it crosses the link. -/
def Frame.wire (f : Frame) : List Byte :=
  withCrc f.body (match f with | .data _ stomped => stomped | _ => false)

/-- The TYPE codes of Table 4-1. -/
def frameTypes : List Nat := [0x01, 0x10, 0x11, 0x12, 0x20, 0x21, 0x30, 0x40]

/-- A control frame of a TYPE that Table 4-1 does not list, cut from the bytes that arrive by the BLOCKS in its byte 1 (R82):
its bytes up to its CRC; none where TYPE is listed or the frame does not hold those blocks. -/
def unlistedFrame (bytes : List Byte) : Option (List Byte) :=
  let n := 32 * field bytes 1 1
  if frameTypes.contains (field bytes 0 1) || n = 0 || bytes.length < n then none else some (bytes.take (n - 4))

/-- A framing error in a DATA frame (R83): PKT_LEN outside 64 to 4,160 or a reserved bit set. A receiver supports the eight
VCs that bits 2 to 0 can name. -/
def DataFrame.framingError (f : DataFrame) : Bool :=
  f.pktLen < 64 || 4160 < f.pktLen || f.rsv != 0 || 7 < f.vc

/-! ### Blocks (R54) -/

/-- The type byte of a non-frame block. -/
inductive BlockType where
  | idle | align | idleNotice
  deriving DecidableEq, Repr

/-- Its code (R54). -/
def BlockType.code : BlockType → Nat
  | .idle => 0x00 | .align => 0x5A | .idleNotice => 0x5B

/-- An idle block. -/
def idleBlock : Block := { data := false, bytes := zeros 32 }

/-- An IDLE_NOTICE block of a logical lane (R63). -/
def noticeBlock (k : Nat) : Block := { data := false, bytes := leBytes 1 0x5B ++ leBytes 1 k ++ zeros 30 }

/-- An ALIGN block (Table 3-4). -/
def alignBlock (k : Nat) (fecEn precode ready : Bool) (rate index : Nat) : Block :=
  { data := false
    bytes := leBytes 1 0x5A ++ leBytes 1 k ++ leBytes 1 (b2n fecEn + 2 * b2n precode + 4 * b2n ready) ++ leBytes 1 rate ++
      leBytes 4 index ++ zeros 24 }

/-- The data blocks of a frame's bytes (R81): whole blocks of 32 bytes. `fuel` is at least the number of blocks. -/
def dataBlocksOf : Nat → List Byte → List Block
  | 0, _ => []
  | _, [] => []
  | n + 1, b => { data := true, bytes := padTo 32 (b.take 32) } :: dataBlocksOf n (b.drop 32)

/-- The blocks of a frame. -/
def Frame.blocks (f : Frame) : List Block :=
  let b := f.wire
  dataBlocksOf (b.length / 32 + 1) b

/-- The bits of a byte, least significant first (R54). -/
def byteBits (b : Byte) : List Bool := (List.range 8).map (fun k => b.getLsbD k)

/-- The byte that eight bits spell, least significant first. -/
def bitsByte (b : List Bool) : Byte :=
  BitVec.ofNat 8 ((b.zipIdx.map (fun c => b2n c.1 * 2 ^ c.2)).sum)

/-- The bits of a block in the order they are sent: the header bit, then byte 0 first (R54). -/
def Block.bits (b : Block) : List Bool := b.data :: b.bytes.flatMap byteBits

/-- A list cut into pieces of `n`. `fuel` is at least the number of pieces. -/
def chunks {α : Type} (n : Nat) : Nat → List α → List (List α)
  | 0, _ => []
  | _, [] => []
  | f + 1, l => l.take n :: chunks n f (l.drop n)

/-- The block that 257 bits spell. -/
def Block.ofBits (b : List Bool) : Block :=
  { data := b.headD false, bytes := (chunks 8 32 (b.drop 1)).map bitsByte }

end Sys2Proof
end

