-- ==== Sys2Proof/Machine/Fec.lean ====
section
/-!
DEFINITION. The codewords of a lane (R56): RS(544,514) over GF(2^10) with the field polynomial x^10 + x^3 + 1 and the
generator of IEEE 802.3 Clause 91, whose roots are the first 30 powers of the field's element x (PRESUMED, log entry 57:
the spec names the standard and does not copy it); the fill of a codeword without FEC; and the packing of blocks into symbols.
-/

namespace Sys2Proof.Machine

/-! ### GF(2^10) -/

/-- A product by x, reduced by x^10 + x^3 + 1. -/
def gfTimes2 (a : Nat) : Nat := if a < 512 then 2 * a else (2 * a) ^^^ 0x409

/-- A product, one bit of `b` for each step. -/
def gfMulGo : Nat → Nat → Nat → Nat
  | 0, _, _ => 0
  | n + 1, a, b => (if b % 2 = 1 then a else 0) ^^^ gfMulGo n (gfTimes2 a) (b / 2)

/-- The product of two elements. -/
def gfMul (a b : Nat) : Nat := if a = 0 || b = 0 then 0 else gfMulGo 10 a b

/-- A power, by squaring; `fuel` is at least the length of the exponent in bits. -/
def gfPowGo : Nat → Nat → Nat → Nat
  | 0, _, _ => 1
  | f + 1, a, n =>
    if n = 0 then 1
    else let r := gfPowGo f (gfMul a a) (n / 2)
      if n % 2 = 1 then gfMul a r else r

/-- A power of an element. -/
def gfPow (a n : Nat) : Nat := gfPowGo 11 a n

/-- The inverse of an element: its 1,022nd power. -/
def gfInv (a : Nat) : Nat := gfPow a 1022

/-- The powers of the field's element x. -/
def alpha (n : Nat) : Nat := gfPow 2 (n % 1023)

/-! ### RS(544,514) -/

/-- A polynomial, coefficient of the highest power first, times (x − r). -/
def polyTimesRoot (p : List Nat) (r : Nat) : List Nat :=
  List.zipWith (fun a b => a ^^^ b) (p ++ [0]) (0 :: p.map (gfMul r))

/-- The generator: the product of x − α^j for j from 0 to 29, the highest power first. -/
def rsGenerator : List Nat :=
  [1, 575, 552, 187, 230, 552, 1, 108, 565, 282, 249, 593, 132, 94, 720, 495, 385, 942, 503, 883, 361, 788, 610, 193,
   392, 127, 185, 158, 128, 834, 523]

/-- One message symbol enters the remainder. -/
def rsStep (rem : List Nat) (s : Nat) : List Nat :=
  let q := rem.headD 0 ^^^ s
  if q = 0 then rem.drop 1 ++ [0]
  else List.zipWith (fun a g => a ^^^ gfMul q g) (rem.drop 1 ++ [0]) (rsGenerator.drop 1)

/-- The 30 parity symbols of a message, first symbol first. -/
def rsParity (msg : List Nat) : List Nat := msg.foldl rsStep (List.replicate 30 0)

/-- The syndromes: the word at α^j. -/
def rsSyndromes (word : List Nat) : List Nat :=
  (List.range 30).map (fun j => let x := alpha j; word.foldl (fun s c => gfMul s x ^^^ c) 0)

/-- A polynomial, coefficient of the lowest power first, at a point. -/
def polyAt (p : List Nat) (x : Nat) : Nat := p.foldr (fun c s => c ^^^ gfMul x s) 0

/-- The state of the Berlekamp–Massey recursion: the locator and the last one before the length changed (lowest power first),
the length, the distance since, and the last discrepancy. -/
structure Locator where
  sigma : List Nat := [1]
  old   : List Nat := [1]
  len   : Nat := 0
  gap   : Nat := 1
  disc  : Nat := 1
  deriving DecidableEq, Repr

/-- The sum of two polynomials, lowest power first. -/
def polyAdd (a b : List Nat) : List Nat :=
  (List.range (max a.length b.length)).map (fun k => a.getD k 0 ^^^ b.getD k 0)

/-- One step of the recursion. -/
def Locator.step (syn : List Nat) (l : Locator) (n : Nat) : Locator :=
  let d := ((List.range (l.len + 1)).map (fun i => gfMul (l.sigma.getD i 0) (if i ≤ n then syn.getD (n - i) 0 else 0))).foldl
    (fun a b => a ^^^ b) 0
  if d = 0 then { l with gap := l.gap + 1 }
  else
    let c := gfMul d (gfInv l.disc)
    let sigma := polyAdd l.sigma (List.replicate l.gap 0 ++ l.old.map (gfMul c))
    if 2 * l.len ≤ n then { sigma := sigma, old := l.sigma, len := n + 1 - l.len, gap := 1, disc := d }
    else { l with sigma := sigma, gap := l.gap + 1 }

/-- The error that a locator and the syndromes place at the symbol of power `i` (Forney), and 0 where they place none. -/
def errorAt (syn : List Nat) (sigma : List Nat) (i : Nat) : Nat :=
  let xi := alpha (1023 - i)
  if polyAt sigma xi != 0 then 0
  else
    let omega := (List.range 30).map (fun k =>
      ((List.range (k + 1)).map (fun j => gfMul (sigma.getD j 0) (syn.getD (k - j) 0))).foldl (fun a b => a ^^^ b) 0)
    let deriv := (List.range (sigma.length - 1)).map (fun k => if k % 2 = 0 then sigma.getD (k + 1) 0 else 0)
    gfMul (alpha i) (gfMul (polyAt omega xi) (gfInv (polyAt deriv xi)))

/-- A word decodes: its symbols corrected and how many of them were in error; none where it is uncorrectable (R56: up to 15
symbol errors). -/
def rsDecode (word : List Nat) : Option (List Nat × Nat) :=
  let syn := rsSyndromes word
  if syn.all (· == 0) then some (word, 0)
  else
    let l := (List.range 30).foldl (Locator.step syn) {}
    let errs := (List.range 544).map (fun k => errorAt syn l.sigma (543 - k))
    let n := (errs.filter (· != 0)).length
    if 15 < l.len || n != l.len then none
    else some (List.zipWith (fun a b => a ^^^ b) word errs, n)

/-! ### Codewords -/

/-- The fill symbols of a codeword without FEC (R56): 0x3A5 at even positions and 0x05A at odd ones. -/
def fillSymbols : List Nat := (List.range 30).map (fun k => if k % 2 = 0 then 0x3A5 else 0x05A)

/-- The number that bits spell, the first the least significant (R56). -/
def bitsNat : List Bool → Nat
  | [] => 0
  | b :: r => b2n b + 2 * bitsNat r

/-- The low `n` bits of a number, the least significant first. -/
def natBits : Nat → Nat → List Bool
  | 0, _ => []
  | n + 1, v => (v % 2 == 1) :: natBits n (v / 2)

/-- The 544 symbols of the codeword that twenty blocks make. -/
def codewordOf (fec : Bool) (blocks : List Block) : List Nat :=
  let msg := (chunks 10 514 (blocks.flatMap Block.bits)).map bitsNat
  msg ++ (if fec then rsParity msg else fillSymbols)

/-- The bits of symbols, as they are sent. -/
def symbolBits (w : List Nat) : List Bool := w.flatMap (natBits 10)

/-- Bits in pairs on the Gray map (R60). -/
def grayPairs : List Bool → List Nat
  | a :: b :: r => gray a b :: grayPairs r
  | _ => []

/-- What the decoder makes of a codeword: with FEC on, the symbol errors corrected, or none where it is uncorrectable; with FEC
off, whether the fill is there; and its twenty blocks, still scrambled. -/
structure Decoded where
  errors : Option Nat
  fillOk : Bool
  blocks : List Block
  deriving DecidableEq, Repr

/-- The 2,720 Gray symbols of a codeword are decoded (R56, R58). -/
def decodeCodeword (fec : Bool) (g : List Nat) : Decoded :=
  let bits := g.flatMap (fun x => [(ungray x).1, (ungray x).2])
  let word := (chunks 10 544 bits).map bitsNat
  let blocksOf := fun (w : List Nat) => (chunks 257 20 (symbolBits (w.take 514))).map Block.ofBits
  if fec then
    match rsDecode word with
    | some (w, n) => { errors := some n, fillOk := false, blocks := blocksOf w }
    | none => { errors := none, fillOk := false, blocks := blocksOf word }
  else { errors := some 0, fillOk := word.drop 514 == fillSymbols, blocks := blocksOf word }

end Sys2Proof.Machine
end

