-- ==== Sys2Proof/Machine/LaneOps.lean ====
section
/-!
DEFINITION. What lanes and ports share: reading and changing them, the order and the choice of lanes (R53, R63, R104), the
freezing of adaptation (R65 to R67), and the way of a port's blocks to symbols and from symbols (R54 to R64, R75, R87).
-/

namespace Sys2Proof.Machine

/-! ### Reading and changing a port or a lane -/

/-- The link of a port. -/
def Mach.link (m : Mach) (p : Nat) : Link := Tbl.get m.links p {}
/-- The machine with a port's link changed. -/
def Mach.updLink (m : Mach) (p : Nat) (f : Link → Link) : Mach := { m with links := Tbl.modify m.links p {} f }
/-- A lane. -/
def Mach.lane (m : Mach) (l : Nat) : LaneSt := Tbl.get m.lanes l {}
/-- The machine with a lane changed. -/
def Mach.updLane (m : Mach) (l : Nat) (f : LaneSt → LaneSt) : Mach := { m with lanes := Tbl.modify m.lanes l {} f }
/-- The electrical-idle state of a port. -/
def Mach.ei (m : Mach) (p : Nat) : IdleSt := Tbl.get m.idle p {}
/-- The machine with a port's electrical-idle state changed. -/
def Mach.updEi (m : Mach) (p : Nat) (f : IdleSt → IdleSt) : Mach := { m with idle := Tbl.modify m.idle p {} f }
/-- The routing state of a port. -/
def Mach.rp (m : Mach) (p : Nat) : RtePort := Tbl.get m.rte.ports p {}
/-- The machine with a port's routing state changed. -/
def Mach.updRp (m : Mach) (p : Nat) (f : RtePort → RtePort) : Mach :=
  { m with rte := { m.rte with ports := Tbl.modify m.rte.ports p {} f } }

/-- LINK_STATE of a port: 0 DOWN, 1 TRAINING, 2 UP, 3 RETRAIN, 4 WIDTH_CHANGE, 5 LOOPBACK (Table 4-12). -/
def Mach.linkState (m : Mach) (p : Nat) : Nat := m.get Reg.LNK.LINK_STATE p
/-- A trained port: UP, RETRAIN or WIDTH_CHANGE. -/
def Mach.trained (m : Mach) (p : Nat) : Bool := 2 ≤ m.linkState p && m.linkState p ≤ 4
/-- Exchanges run on a port: both enables, and an UP link (R38: they pause during a retrain or width change). -/
def Mach.exchanges (m : Mach) (p : Nat) : Bool :=
  m.isSet Reg.TIM.EXCH_EN && m.isSet Reg.TIM.PORT_EXCH_EN p && m.linkState p = 2
/-- The modes in which ports may train or carry frames (Table 15-1). -/
def Mach.netModes (m : Mach) : Bool := m.mode = .train || m.mode = .run || m.mode = .drain
/-- A port may train. -/
def Mach.mayTrain (m : Mach) (p : Nat) : Bool :=
  m.netModes && m.isSet Reg.LNK.PORT_EN p && !bit (m.get (Reg.FLT.PORT_CONT (p / 32 % 4))) (p % 32)

/-- The valid member ports that an entry's registers name (R122). -/
def Mach.namedMembers (m : Mach) (e : Nat) : List Nat :=
  [(Reg.RTE.V0, Reg.RTE.MEMBER0), (Reg.RTE.V1, Reg.RTE.MEMBER1), (Reg.RTE.V2, Reg.RTE.MEMBER2),
   (Reg.RTE.V3, Reg.RTE.MEMBER3)].filterMap (fun (v, k) => if m.isSet v e then some (m.get k e) else none)

/-- The entry a port belongs to: the lowest-numbered that names it as a valid member (R123). -/
def Mach.entryOf (m : Mach) (p : Nat) : Option Nat :=
  (List.range 256).find? (fun e => (m.namedMembers e).contains p)

/-- The receive lane order of a port is reversed (R63). -/
def Mach.rxReversed (m : Mach) (p : Nat) : Bool :=
  if m.isSet Reg.LAN.RX_ORDER_OVR p then m.isSet Reg.LAN.RX_ORDER_REV p else m.isSet Reg.LAN.RX_ORDER_REV_DET p

/-- The logical number of a physical lane (R53), and the physical lane of a logical one: the map is its own inverse. -/
def Mach.logicalOf (m : Mach) (l : Nat) : Nat := if m.rxReversed (portOfLane l) then 3 - l % 4 else l % 4
/-- The physical lane that is logical lane `k` of a port. -/
def Mach.physOf (m : Mach) (p k : Nat) : Nat := 4 * p + (if m.rxReversed p then 3 - k % 4 else k % 4)

/-- A lane is active: its logical number is in ACTIVE of its port. -/
def Mach.laneActive (m : Mach) (l : Nat) : Bool := bit (m.get Reg.LNK.ACTIVE (portOfLane l)) (m.logicalOf l)

/-- WIDTH_MAX as it acts: 3 as 2, and 0 or 5 to 7 as 4 (Table 4-12). -/
def Mach.widthMax (m : Mach) (p : Nat) : Nat :=
  match m.get Reg.LNK.WIDTH_MAX p with
  | 1 => 1 | 2 => 2 | 3 => 2 | _ => 4

/-- The widest set of R104, step 4, among good lanes, of at most `w` lanes: x4, else x2 on 0 and 1, else x2 on 2 and 3,
else x1 on the lowest good lane; 0 with no good lane. -/
def chooseLanes (w good : Nat) : Nat :=
  if 4 ≤ w && good % 16 = 15 then 15
  else if 2 ≤ w && good % 4 = 3 then 3
  else if 2 ≤ w && good / 4 % 4 = 3 then 12
  else match (List.range 4).find? (bit good) with
    | some k => 2 ^ k
    | none => 0


/-- The physical lane on which logical lane `k` of a port is sent: the transmit direction has an order of its own (R53, R63). -/
def Mach.physTx (m : Mach) (p k : Nat) : Nat := 4 * p + (if m.isSet Reg.LAN.TX_ORDER_REV p then 3 - k % 4 else k % 4)

/-- The logical lanes on which a port sends: its active lanes; in a full training, before it has any, those it receives well, or
all four (DEDUCED, log entry 58). -/
def Mach.txLanes (m : Mach) (p : Nat) : List Nat :=
  let act := m.get Reg.LNK.ACTIVE p
  let set := if act != 0 then act else match (m.link p).train with | some t => t.good | none => 15
  (List.range 4).filter (bit (if set % 16 = 0 then 15 else set))

/-! ### Adaptation (R65 to R67) -/

/-- Lacewing adapts the lane's receiver: the mode in force is not FIXED, and adaptation is not frozen. -/
def Mach.adapts (m : Mach) (l : Nat) : Bool :=
  (m.lane l).eqMode != 0 && !m.isSet Reg.LAN.ADAPT_FROZEN l && !m.isSet Reg.LAN.EI l

/-- The CTLE peaking in dB: CTLE_SET in FIXED; else the value at which adaptation froze; while it runs, a free value that went on from
there (R66, R67). -/
def Mach.ctleNow (m : Mach) (l : Nat) : Nat :=
  let x := m.lane l
  if x.eqMode = 0 then m.get Reg.LAN.CTLE_SET l
  else if m.adapts l then Config.ctle m.free x.ctle % 16 else x.ctle

/-- DFE tap `k`, 1 to 12, in units of 1/128 of the outer level: 0 in FIXED, where the DFE is off; tap 1 from −64 to +63, the others
from −32 to +31 (R65, R66). -/
def Mach.dfeNow (m : Mach) (l k : Nat) : Int :=
  let x := m.lane l
  let held := x.dfe.getD (k - 1) 0
  let lim : Int := if k = 1 then 64 else 32
  if x.eqMode = 0 then 0
  else if m.adapts l then max (-lim) (min (lim - 1) (Config.dfe m.free k held)) else held

/-- Adaptation of a lane freezes: its equaliser holds the values it has (R67). -/
def Mach.freeze (m : Mach) (l : Nat) : Mach :=
  if m.isSet Reg.LAN.ADAPT_FROZEN l then m
  else
    let m1 := if (m.lane l).eqMode = 0 then m
      else { m.updLane l (fun x => { x with ctle := m.ctleNow l, dfe := (List.range 12).map (fun k => m.dfeNow l (k + 1)) }) with
        free := m.free + 1 }
    m1.put Reg.LAN.ADAPT_FROZEN 1 l

/-- Adaptation of a lane is frozen in electrical idle and during a margin scan of the lane, and runs on otherwise (R67). -/
def Mach.refreeze (m : Mach) (l : Nat) : Mach :=
  if m.isSet Reg.LAN.EI l || m.scans.contains l then m.freeze l else m.put Reg.LAN.ADAPT_FROZEN 0 l

/-- A lane enters or leaves electrical idle (R67, R69). -/
def Mach.setEi (m : Mach) (l : Nat) (on : Bool) : Mach := (m.put Reg.LAN.EI (b2n on) l).refreeze l

/-- Every lane of a port in a mask of logical lanes enters or leaves electrical idle. -/
def Mach.setEiMask (m : Mach) (p mask : Nat) (on : Bool) : Mach :=
  (List.range 4).foldl (fun a k => if bit mask k then a.setEi (m.physOf p k) on else a) m

/-! ### From blocks to symbols (R54 to R56, R60 to R64) -/

/-- The next bit of a pattern from the bits before it, newest first: PRBS7, PRBS13Q (x^13 + x^12 + x^2 + x + 1, IEEE
802.3) or PRBS31. PRBS_SEL 3 acts as 2. -/
def prbsNext (sel : Nat) (h : List Bool) : Bool :=
  let b := fun k => h.getD (k - 1) false
  match sel with
  | 0 => xor (b 7) (b 6)
  | 1 => xor (xor (b 13) (b 12)) (xor (b 2) (b 1))
  | _ => xor (b 31) (b 28)

/-- `n` bits of a pattern, with the bits before the next one. -/
def prbsBits (sel : Nat) : Nat → List Bool → List Bool × List Bool
  | 0, h => ([], h)
  | n + 1, h =>
    let b := prbsNext sel h
    let (r, h') := prbsBits sel n ((b :: h).take 31)
    (b :: r, h')

/-- The filter's output in units of 1/12 mV for each level but the last, given the one before the first (R64):
400 mV / 64 / 3 for each unit of `txFir`. -/
def firVolts (cPre cPost : Nat) : Int → List Int → List Int
  | before, now :: after :: r => 25 * txFir cPre cPost before now after :: firVolts cPre cPost now (after :: r)
  | _, _ => []

/-- Gray symbols leave a lane: precoded (R61), inverted (R62) and filtered (R64). The level that waits for its successor is sent
with the next. -/
def Mach.laneOut (m : Mach) (l : Nat) (g : List Nat) : Mach :=
  let x := m.lane l
  let pre := if m.isSet Reg.LAN.PRECODE_TX l then precode x.txPrev g else g
  let sent := if m.isSet Reg.LAN.TX_INV l then pre.map invert else pre
  let levels := x.txTail.drop 1 ++ sent.map level
  let volts := firVolts (min 16 (m.get Reg.LAN.C_PRE l)) (min 16 (m.get Reg.LAN.C_POST l)) (x.txTail.headD 0) levels
  let m := m.updLane l (fun x => { x with txPrev := pre.getLastD x.txPrev, txTail := levels.drop (levels.length - 2) })
  { m with out := .symbols l sent volts :: m.out }

/-- `n` symbols of a lane's pattern generator (R75). It starts from bits that no rule gives (log entry 58). -/
def Mach.pattern (m : Mach) (l sel n : Nat) : Mach :=
  let x := m.lane l
  let (bits, h) := prbsBits sel (2 * n) (if x.gen.isEmpty then Config.prbsSeed l else x.gen)
  (m.updLane l (fun x => { x with gen := h })).laneOut l (grayPairs bits)

/-- Twenty scrambled blocks leave a lane as a codeword (R56); the pattern generator replaces it (R75). -/
def Mach.sendCodeword (m : Mach) (l : Nat) (blocks : List Block) : Mach :=
  if m.isSet Reg.LAN.PRBS_TX_EN l then m.pattern l (m.get Reg.LAN.PRBS_SEL l) 2720
  else m.laneOut l (grayPairs (symbolBits (codewordOf (m.isSet Reg.LAN.FEC (portOfLane l)) blocks)))

/-- The payload of a block scrambled by its lane, and the lane's last 58 scrambled bits (R55). -/
def scrambleBlock (hist : List Bool) (b : Block) : Block × List Bool :=
  let s := scramble hist (b.bytes.flatMap byteBits)
  ({ b with bytes := (chunks 8 32 s).map bitsByte }, (s.reverse ++ hist).take 58)

/-- One block goes to a lane; the twentieth completes the codeword (R54 to R56). -/
def Mach.laneBlock (m : Mach) (l : Nat) (b : Block) : Mach :=
  let x := m.lane l
  let (s, h) := scrambleBlock x.txHist b
  let part := x.txPart ++ [s]
  let full := decide (20 ≤ part.length)
  let m := m.updLane l (fun x => { x with
    txHist := h, txPart := if full then [] else part, txAt := if x.txPart.isEmpty then m.clk else x.txAt })
  if full then m.sendCodeword l part else m

/-- A codeword's time at a RATE code, in CORECLK cycles: 12.8 ns at 212.5 GBd (R56). -/
def codewordCycles (rate : Nat) : Nat := 26 * 2 ^ rate

/-- The codeword in progress on each lane of a port is filled up with idle blocks, and the next block is dealt to the lowest lane. -/
def Mach.fillCodewords (m : Mach) (p : Nat) : Mach :=
  let m := (m.txLanes p).foldl (fun a k =>
    let l := m.physTx p k
    let n := (a.lane l).txPart.length
    if n = 0 then a else (List.range (20 - n)).foldl (fun b _ => b.laneBlock l idleBlock) a) m
  m.updLink p (fun l => { l with turn := 0 })

/-- A codeword that no frame has filled in its time has gone out filled with idle blocks (log entry 58). -/
def Mach.fillStale (m : Mach) (p : Nat) : Mach :=
  if (m.txLanes p).any (fun k =>
      let l := m.physTx p k
      !(m.lane l).txPart.isEmpty && decide ((m.lane l).txAt + codewordCycles (m.get Reg.LAN.RATE_AT_14 l) ≤ m.clk))
  then m.fillCodewords p else m

/-- A port deals its blocks to its active logical lanes in turn (R54). -/
def Mach.deal (m : Mach) (p : Nat) : List Block → Mach
  | [] => m
  | b :: r =>
    let lanes := m.txLanes p
    let k := (m.link p).turn % lanes.length
    let m := (m.laneBlock (m.physTx p (lanes.getD k 0)) b).updLink p (fun l => { l with turn := (k + 1) % lanes.length })
    Mach.deal m p r

/-- A frame leaves on a port, as its bytes in data blocks (R81). -/
def Mach.sendFrame (m : Mach) (p : Nat) (f : Frame) : Mach := ((m.emit (.frame p f)).fillStale p).deal p f.blocks

/-- One idle block leaves on a port. -/
def Mach.sendIdle (m : Mach) (p : Nat) : Mach := ((m.emit (.idleBlock p)).fillStale p).deal p [idleBlock]

/-- Idle blocks until the next block slot is the lowest active lane's (R87). -/
def Mach.toLowestLane (m : Mach) (p : Nat) : Nat → Mach
  | 0 => m
  | n + 1 => if (m.link p).turn = 0 then m else Mach.toLowestLane (m.sendIdle p) p n

/-- A time frame starts on a block of the lowest active logical lane (R87). -/
def Mach.sendTimeFrame (m : Mach) (p : Nat) (f : Frame) : Mach := (((m.fillStale p).toLowestLane p 4)).sendFrame p f

/-- IDLE_NOTICE on every active lane (R69). -/
def Mach.sendNotice (m : Mach) (p : Nat) : Mach :=
  let m := (m.emit (.idleNotice p)).fillStale p
  (m.txLanes p).foldl (fun a k => a.laneBlock (m.physTx p k) (noticeBlock k)) m

/-- One ALIGN codeword on each of these logical lanes: twenty ALIGN blocks with the index that all lanes carry (Table 3-4). -/
def Mach.alignCodeword (m : Mach) (p : Nat) (lanes : List Nat) (ready : Bool) : Mach :=
  let block := fun (k : Nat) => alignBlock k (m.isSet Reg.LAN.FEC_EN p) (m.isSet Reg.LAN.PRECODE_TX (m.physTx p k)) ready
    (m.get Reg.LAN.RATE_AT_14 (m.physTx p k)) (m.link p).alignIndex
  let m1 := lanes.foldl (fun a k => (List.range 20).foldl (fun b _ => b.laneBlock (m.physTx p k) (block k)) a) m
  (m1.emit (.align p (lanes.map (fun k => (m.physTx p k, (block k).bytes))))).updLink p (fun l =>
    { l with alignIndex := (l.alignIndex + 1) % 4294967296 })

/-- Two ALIGN codewords a lane (R70, R105), on whole codewords. -/
def Mach.sendAlign (m : Mach) (p : Nat) (lanes : List Nat) (ready : Bool) : Mach :=
  ((m.fillCodewords p).alignCodeword p lanes ready).alignCodeword p lanes ready

/-- A wake burst (Table 3-6): 4,096 symbols of PRBS13Q on each of these logical lanes, precoded from p(−1) = 0 (R61). -/
def Mach.sendBurst (m : Mach) (p : Nat) (lanes : List Nat) : Mach :=
  let m := m.emit (.wakeBurst p)
  lanes.foldl (fun a k =>
    let l := m.physTx p k
    (a.updLane l (fun x => { x with txPrev := 0, txPart := [], gen := [] })).pattern l 1 4096) m

/-! ### From symbols to blocks -/

/-- The receive inversion in force (R62). -/
def Mach.rxInverted (m : Mach) (l : Nat) : Bool :=
  if m.isSet Reg.LAN.RX_INV_OVR l then m.isSet Reg.LAN.RX_INV l else m.isSet Reg.LAN.RX_INV_DET l

/-- Symbols as they are received are turned upright (R62) and, as the far end advertised, decoded (R61): the Gray symbols. -/
def Mach.laneIn (m : Mach) (l : Nat) (symbols : List Nat) : List Nat × Mach :=
  let x := m.lane l
  let up := if m.rxInverted l then symbols.map invert else symbols.map (· % 4)
  (if x.farPrec then unprecode x.rxPrev up else up, m.updLane l (fun x => { x with rxPrev := up.getLastD x.rxPrev }))

/-- Blocks descrambled in order, with the lane's last 58 scrambled bits (R55). -/
def descrambleBlocks (hist : List Bool) : List Block → List Block × List Bool
  | [] => ([], hist)
  | b :: r =>
    let s := b.bytes.flatMap byteBits
    let d := { b with bytes := (chunks 8 32 (descramble hist s)).map bitsByte }
    let (ds, h) := descrambleBlocks ((s.reverse ++ hist).take 58) r
    (d :: ds, h)

/-- A port's blocks of the last codeword of its lanes, collected in the order in which they were dealt (R54), each with whether it is
marked errored (R59). -/
def Mach.collected (m : Mach) (p : Nat) : List (Block × Bool) :=
  let lanes := ((List.range 4).filter (bit (m.get Reg.LNK.ACTIVE p))).map (fun k => m.lane (m.physOf p k))
  (List.range 20).flatMap (fun n => lanes.filterMap (fun x => (x.rxBlocks[n]?).map (fun b => (b, x.rxErr))))

/-- Some block of the last codeword of an active lane is marked errored (R59). -/
def Mach.anyErrored (m : Mach) (p : Nat) : Bool := (m.collected p).any (·.2)

/-- What a receiver makes of a frame of these bytes (R59, R81, R83 to R85, R91). In RESYNC it discards data blocks up to a non-frame
block: one before the frame lets the frame in, and one within it makes a frame start of what follows, whose CRC fails. A framing
error is taken before the CRC (DEDUCED, log entry 59). -/
def Mach.checkFrame (m : Mach) (p : Nat) (body : List Byte) (framing : Bool) (rx : Rx) : FrameCheck :=
  if (m.link p).resync && !rx.before then (if rx.within = 0 then .discarded else .bad)
  else if framing then .framing
  else if rx.inLast && m.anyErrored p then .bad
  else if rx.crc = (crc32c body).toNat then .good
  else if rx.crc = (stompCrc body).toNat then .stomp
  else .bad

end Sys2Proof.Machine
end

