-- ==== Sys2Proof/Machine/LinkOps.lean ====
section
/-!
DEFINITION. What lanes and links share (files 03 and 04): electrical idle, pools and credit, control frames, a link going
down with failover, and the start and the end of a full training, a retrain or a width change.
-/

namespace Sys2Proof.Machine

/-! ### Pools (R98 to R100): 0 to 7 the private pools, 8 the shared one -/

/-- VC_CELLS as it acts: below 65 as 65. -/
def Mach.vcCells (m : Mach) (p k : Nat) : Nat := max 65 (m.get (Reg.LNK.VC_CELLS k) p)
/-- ΣVC_CELLS. -/
def Mach.vcSum (m : Mach) (p : Nat) : Nat := ((List.range 8).map (m.vcCells p)).sum
/-- The pool sizes that VC_CELLS gives. -/
def Mach.poolSizes (m : Mach) (p : Nat) : Pools :=
  (List.range 8).map (fun k => (k, m.vcCells p k)) ++ [(8, 8192 - m.vcSum p)]
/-- The pool a frame draws on. -/
def poolOf (vc : Nat) (shared : Bool) : Nat := if shared then 8 else vc % 8
/-- Bytes of a packet: header and payload. -/
def pktLen (k : Packet) : Nat := 64 + k.payload.length
/-- A count in a pool. -/
def pool (t : Pools) (k : Nat) : Nat := Tbl.get t k 0
/-- A pool with `n` more. -/
def addPool (t : Pools) (k n : Nat) : Pools := Tbl.modify t k 0 (· + n)
/-- A pool with `n` fewer. -/
def subPool (t : Pools) (k n : Nat) : Pools := Tbl.modify t k 0 (· - n)

/-- ACK_DELAY as it acts: 10 to 4,000 ns. A live write applies to the next frame accepted (Table 4-12). -/
def Mach.linkAckDelay (m : Mach) (p : Nat) : Nat := 2 * clamp 10 4000 (m.get Reg.LNK.ACK_DELAY p)

/-- Cells of the input buffer are freed and wait to be returned, by a CREDIT that falls due ACK_DELAY later (R93). -/
def Mach.freeCells (m : Mach) (p k n : Nat) : Mach :=
  m.updLink p (fun l => { l with
    occupied := subPool l.occupied k n
    toReturn := addPool l.toReturn k n
    freeDue := l.freeDue.or (some (m.clk + l.ackWait.getD (m.linkAckDelay p))) })

/-- The cells an arrival holds are freed: those of its input buffer, or the replay entry that served as one (R112). -/
def Mach.freeArrival (m : Mach) (a : Arrival) : Mach :=
  match a.replayOf with
  | some p => m.updLink p (fun l => { l with reinject := l.reinject.erase a.pkt })
  | none =>
    match a.from_ with
    | .port p => m.freeCells p.val (poolOf a.vc a.shared) (cellsOf a.len)
    | .engines _ => m

/-! ### Quiet and idle -/

/-- A data, TRAIN or NAK frame is sent or received: the EI_DELAY count restarts, and a notice not yet acted on is
cancelled (R69). -/
def Mach.busyPort (m : Mach) (p : Nat) : Mach :=
  if (m.ei p).driversOff then m
  else m.updEi p (fun e => { e with quietSince := m.clk, sentNotice := false, rcvdNotice := false })

/-- Every lane of a port in a mask of logical lanes gets a value of a lane field. -/
def Mach.setLanes (m : Mach) (p mask : Nat) (f : Field) (v : Nat) : Mach :=
  (List.range 4).foldl (fun a k => if bit mask k then a.put f v (m.physOf p k) else a) m

/-- A margin scan of a lane out of electrical idle starts from its first point, with DWELL as it stands, and adaptation frozen (R67,
R77, R78); a notice not yet acted on is cancelled, and the port stays out of idle. -/
def Mach.startScan (m : Mach) (l : Nat) : Mach :=
  let p := portOfLane l
  let m := { m with
    scans := m.scans.filter (· != l) ++ [l]
    scanWait := m.scanWait.filter (· != l)
    scanRuns := Tbl.set m.scanRuns l [(0, m.get Reg.LAN.DWELL p, m.clk)] }
  let m := ((m.put Reg.LAN.SCAN_STATUS 1 p).freeze l)
  if (m.ei p).driversOff then m else m.updEi p (fun e => { e with sentNotice := false, rcvdNotice := false })

/-- The drivers of a port turn off after the codeword in progress: its lanes are in electrical idle and their adaptation is frozen
(R67, R69). -/
def Mach.driversOff (m : Mach) (p : Nat) : Mach :=
  let m := m.fillCodewords p
  let m := m.updEi p (fun _ => { driversOff := true, offAt := m.clk, quietSince := m.clk })
  (m.setEiMask p 15 true).setLanes p 15 Reg.LAN.SIG_DET 0

/-- The drivers of a port's active lanes are on: adaptation resumes (R67), scans that waited for the exit start (R78), and a scheduled
retrain is made before any data frame (R102). -/
def Mach.driversOn (m : Mach) (p : Nat) : Mach :=
  let act := m.get Reg.LNK.ACTIVE p
  let m := m.updEi p (fun _ => { driversOff := false, quietSince := m.clk })
  let m := (m.setEiMask p act false).setLanes p act Reg.LAN.SIG_DET 1
  let m := m.updRp p (fun x => { x with freshFrom := m.clk })
  let m := m.updLink p (fun l => { l with schedExit := l.schedAt.isSome, resync := false })
  (m.scanWait.filter (fun l => portOfLane l == p)).foldl Mach.startScan m

/-- A scan runs or waits on a lane of the port: the port stays out of idle until it ends (R78). -/
def Mach.scanOn (m : Mach) (p : Nat) : Bool :=
  m.scans.any (fun l => portOfLane l == p) || m.scanWait.any (fun l => portOfLane l == p) ||
  m.hive.deferred.any (fun d => d.1 == 4 && portOfLane d.2 == p)

/-! ### Control frames (R88) -/

/-- The place of a control frame in the order of precedence. -/
def Ctrl.rank : Ctrl → Nat
  | .train _ => 1 | .nak _ => 2 | .credit => 3 | .timeReq => 4 | .timeRsp .. => 4 | .audit => 5 | .beacon => 6

/-- A control frame is queued; a CREDIT, AUDIT or BEACON that already waits covers a second one. -/
def Mach.queueCtrl (m : Mach) (p : Nat) (c : Ctrl) : Mach :=
  m.updLink p (fun l =>
    if (3 == c.rank || 5 ≤ c.rank) && l.ctrl.contains c then l else { l with ctrl := l.ctrl ++ [c] })

/-- A control frame that makes an idle port leave electrical idle (R70): every one but AUDIT (R103) and BEACON (R133). -/
def Ctrl.wakes (c : Ctrl) : Bool := c.rank ≤ 4

/-- Something makes an end leave electrical idle (R70): a frame or a credit return to send, or a margin scan. -/
def Mach.exitWanted (m : Mach) (p : Nat) : Bool :=
  let l := m.link p
  l.ctrl.any Ctrl.wakes || l.toReturn.any (fun c => c.2 != 0) || l.ackDue.isSome || l.pendingNak.isSome ||
  l.rp.isSome || !(m.rp p).sel.isEmpty || m.scanWait.any (fun x => portOfLane x == p)

/-- A NAK of EXPECTED goes out unless one is outstanding (R91). -/
def Mach.nak (m : Mach) (p reason : Nat) : Mach :=
  if (m.link p).nakAt.isSome then m
  else (m.queueCtrl p (.nak reason)).updLink p (fun l => { l with nakAt := some m.clk })

/-- A CRC failure or a framing error in any frame (R91): the frame is dropped, NAKed, and the receiver resynchronises. -/
def Mach.frameBad (m : Mach) (p reason : Nat) : Mach :=
  (((m.bump Reg.LNK.CRC_ERR 1 p).pmcPort p 0x24 1).nak p reason).updLink p (fun l => { l with resync := true })

/-- The receiver has met a non-frame block or a frame start: it is out of RESYNC (R81, R91). -/
def Mach.frameIn (m : Mach) (p : Nat) : Mach := m.updLink p (fun l => { l with resync := false })

/-- A port receives frames: it is trained or training, and its lanes are awake. -/
def Mach.receives (m : Mach) (p : Nat) : Bool := (m.trained p || m.linkState p = 1) && !(m.ei p).driversOff

/-- A control frame as it arrives, by its bytes up to the CRC: dropped where the port receives none or is in RESYNC; a bad CRC is
handled by R91 (R86). -/
def Mach.ctrlIn (m : Mach) (p : Nat) (body : List Byte) (rx : Rx) (act : Mach → Mach) : Mach :=
  if !m.receives p then m
  else match m.checkFrame p body false rx with
    | .discarded => m
    | .good => act ((m.frameIn p).pmcReceived p (body.length + 4) false)
    | _ => ((m.frameIn p).pmcReceived p (body.length + 4) false).frameBad p 1

/-! ### Scans -/

/-- A margin scan on a lane of the port stops and is deferred; it restarts from its first point later (R78,
Table 13-4). -/
def Mach.stopScans (m : Mach) (p : Nat) : Mach :=
  ((m.scans ++ m.scanWait).filter (fun l => portOfLane l == p)).foldl (fun a l =>
    let a := { a with
      scans := a.scans.filter (· != l), scanWait := a.scanWait.filter (· != l), scanRuns := Tbl.del a.scanRuns l }
    (((a.put Reg.LAN.SCAN_STATUS 2 p).refreeze l).defer 4 l (quadOfPort p)).record 0x3021 (quadOfPort p) [l]) m

/-! ### A link goes down (R111, R112) -/

/-- The packets of the replay buffer re-enter the crossbar in FSN order, as if they had arrived on the port; each entry
serves as the packet's input buffer until it leaves (R112). The rule says every unacknowledged frame, and so does the model: also one
that was sent with a stomp CRC comes back as a packet like the others (DEDUCED, log entry 59). A port whose link stays up keeps the
frames for its own replay as well (R94, R144; DEDUCED, log entry 30). -/
def Mach.reinject (m : Mach) (p : PortId) (up : Bool) : Mach :=
  let l := m.link p
  let n := l.replay.length
  let m := l.replay.foldl (fun a e =>
    let (id, a) := a.newId
    { a with rte := { a.rte with arrivals := a.rte.arrivals ++
      [{ id := id, pkt := e.pkt, from_ := .port p, vc := e.vc, shared := e.shared, atc := a.clk,
         len := pktLen e.pkt, replayOf := some p.val }] } }) m
  let m := m.updLink p (fun l => { l with
    reinject := l.reinject ++ l.replay.map (·.pkt), replay := if up then l.replay else [], reinjTotal := n })
  m.put Reg.LNK.REINJECTED n p

/-- A port went down: the next detour through its entry is again the first (Table 5-7, 0x4031). -/
def Mach.detourAgain (m : Mach) (p : Nat) : Mach :=
  match m.entryOf p with
  | some e => { m with rte := { m.rte with detoured := m.rte.detoured.filter (· != e) } }
  | none => m

/-- What the link of a port kept of its training ends: its replay buffer fails over, its lanes go to electrical idle, its scans wait
for the next training (R78, R112). -/
def Mach.linkClear (m : Mach) (p : PortId) (state : Nat) : Mach :=
  let m := ((m.stopScans p).reinject p false).detourAgain p
  let m := (((m.put Reg.LNK.LINK_STATE state p).put Reg.LNK.ACTIVE 0 p).put Reg.LNK.WIDTH 0 p).put Reg.LNK.RETRAIN_SCHED 0 p
  let m := ((m.put Reg.LAN.ACTIVE 0 p).put Reg.LAN.WIDTH 0 p).put Reg.LNK.UNA (m.get Reg.LNK.NEXT_FSN p) p
  let m := m.updLink p (fun l => { l with
    avail := [], rcvdRet := [], rp := none, pendingAck := none, pendingNak := none, timer := none, rounds := 0,
    limitRuns := 0, toReturn := [], cumRet := [], ackDue := none, freeDue := none, nakAt := none,
    resync := false, overrun := false, ctrl := [], train := none, schedAt := none, schedExit := false,
    downAt := m.clk })
  m.driversOff p

/-- The link of a port goes down (R111): FS21, event 0x3140, failover of its replay buffer. -/
def Mach.linkDown (m : Mach) (p : PortId) (reason : Nat) : Mach :=
  if m.linkState p = 0 || m.linkState p = 5 then m
  else ((m.raise 21 (.port p) reason (quadOfPort p)).record 0x3140 (quadOfPort p) [p, reason]).linkClear p 0

/-! ### Full training, retrain, width change (R104 to R110) -/

/-- The rate codes a port supports up to its RATE_MAX: bit k for code k (Table 4-7). RATE_MAX 3 acts as 2. -/
def Mach.rateMask (m : Mach) (p : Nat) : Nat :=
  ((List.range 3).filter (fun k => min 2 (m.get Reg.LAN.RATE_MAX p) ≤ k)).foldl (fun a k => a + 2 ^ k) 0

/-- The highest rate both masks hold that is no faster than code `lo`: the lowest such code (Table 3-1, R104). -/
def chooseRate (lo a b : Nat) : Nat := ((List.range 3).find? (fun k => lo ≤ k && bit a k && bit b k)).getD 2

/-- A TRAIN frame of this end; its credits and ACK_FSN are filled in as it is sent (R105). -/
def Mach.mkTrain (m : Mach) (p : Nat) (phase : TrainPhase) (action : TrainAction)
    (reason good proposed chosen : Nat) : TrainFrame :=
  { phase := phase, action := action, serial := Config.serial, port := p, goodLanes := good, proposed := proposed,
    rates := m.rateMask p, chosenRate := chosen, reason := reason, ackFsn := 0, ackValid := false, credits := [],
    shared := 0, eqTaps := [], poolSize := [], poolShared := 0 }

/-- A link action begins: a scan on the port's lanes is deferred, an audit in progress is abandoned, and time exchanges pause, so that
time frames that wait are never sent (R38, R78, R103). -/
def Mach.beginAction (m : Mach) (p : Nat) : Mach :=
  (m.stopScans p).updLink p (fun l => { l with ctrl := l.ctrl.filter (fun c => c != .audit && c.rank != 4) })

/-- This end starts a retrain or a width change: TRAIN REQ (R105, R108). -/
def Mach.startAction (m : Mach) (p : Nat) (action : TrainAction) (reason lanes : Nat) : Mach :=
  let m := m.beginAction p
  let m := m.put Reg.LNK.LINK_STATE (if action = .width then 4 else 3) p
  let m := if action = .retrain then m.record 0x3103 (quadOfPort p) [p, reason] else m
  let good := m.get Reg.LNK.ACTIVE p
  let m := m.updLink p (fun l => { l with
    train := some { action := action, requester := true, reason := reason, lanes := lanes, sends := 0, atc := m.clk,
                    acked := false, good := good }
    schedAt := none, schedExit := false })
  (m.put Reg.LNK.RETRAIN_SCHED 0 p).queueCtrl p (.train (m.mkTrain p .req action reason good lanes 0))

/-- A retrain is scheduled (R102): event 0x3132. -/
def Mach.scheduleRetrain (m : Mach) (p : Nat) : Mach :=
  if (m.link p).schedAt.isSome || !m.trained p then m
  else
    ((m.put Reg.LNK.RETRAIN_SCHED 1 p).updLink p (fun l => { l with schedAt := some m.clk })).record 0x3132
      (quadOfPort p) [p]

/-- EQ_MODE of a lane comes into force (Table 3-5a: 3 acts as 1). -/
def Mach.takeEqMode (m : Mach) (l : Nat) : Mach :=
  let v := m.get Reg.LAN.EQ_MODE l
  m.updLane l (fun x => { x with eqMode := if v = 3 then 1 else v })

/-- A training takes up EQ_MODE on every lane of its port (Table 3-8: ADAPT_FULL applies at the next training). -/
def Mach.takeEqModes (m : Mach) (p : Nat) : Mach :=
  (List.range 4).foldl (fun (a : Mach) k => a.takeEqMode (4 * p + k)) m

/-- A full training begins (R104): event 0x3100; FSNs restart at 0 with ACK_VALID 0; a looped port is no longer in LOOPBACK, so
FS28 ends (R110). -/
def Mach.startFull (m : Mach) (p : Nat) : Mach :=
  let m := ((m.beginAction p).put Reg.LNK.LINK_STATE 1 p).record 0x3100 (quadOfPort p) [p]
  let m := ((m.put Reg.LNK.UNA 0 p).put Reg.LNK.NEXT_FSN 0 p).put Reg.LNK.EXPECTED 0 p
  let m := (m.takeEqModes p).endCondition 28 (.port p)
  m.updLink p (fun l => { l with
    ackValid := false, replay := [], rp := none, train := none, looped := false
    errBefore := m.isSet Reg.RTE.CABLE_ERR p })

/-- A full training fails (R104): FS25, event 0x3102; the port is down until TRAIN_RETRY. -/
def Mach.trainFail (m : Mach) (p : Nat) (reason : Nat) : Mach :=
  let m := ((m.raise 25 (.port p) reason (quadOfPort p)).record 0x3102 (quadOfPort p) [p, reason]).put
    Reg.LNK.LINK_STATE 0 p
  (m.updLink p (fun l => { l with train := none, ctrl := [], trainFailed := true, downAt := m.clk })).driversOff p

/-- The far end's ACK or DONE (R106): replay entries up to its ACK_FSN are released, each pool's available credit is set
to the advertised value less the cells of the remaining frames drawn from it, its pool sizes are noted, and the
cumulative counters for the audit restart. -/
def Mach.creditReset (m : Mach) (p : Nat) (f : TrainFrame) : Mach :=
  let l := m.link p
  let una := m.get Reg.LNK.UNA p
  let una' := if f.ackValid && !behind16 f.ackFsn una && behind16 f.ackFsn (m.get Reg.LNK.NEXT_FSN p)
    then (f.ackFsn + 1) % 65536 else una
  let keep := l.replay.filter (fun e => !behind16 e.fsn una')
  let used := fun k => ((keep.filter (fun e => poolOf e.vc e.shared == k)).map (·.cells)).sum
  let adv := fun k => if k = 8 then f.shared else f.credits.getD k 0
  let m := m.put Reg.LNK.UNA una' p
  m.updLink p (fun l => { l with
    replay := keep
    avail := (List.range 9).map (fun k => (k, adv k - used k))
    farSize := (List.range 9).map (fun k => (k, if k = 8 then f.poolShared else f.poolSize.getD k 0))
    rcvdRet := []
    limitRuns := if una' = una then l.limitRuns else 0 })

/-- Lanes that a width change adds leave electrical idle and look for lock (R108). -/
def Mach.addLanes (m : Mach) (p mask : Nat) : Mach :=
  let act := m.get Reg.LNK.ACTIVE p
  (List.range 4).foldl (fun a k =>
    if bit mask k && !bit act k then
      let l := a.physOf p k
      ((a.setEi l false).put Reg.LAN.CW_LOCK 0 l).updLane l (fun x => { x with goodRun := 0, badRun := 0 })
    else a) m

/-- The logical lanes on which an action's ALIGN codewords go: the port's own and those that a width change adds (R105, R108). -/
def Mach.actionLanes (m : Mach) (p : Nat) : List Nat :=
  match (m.link p).train with
  | some t => if t.action = .width then (List.range 4).filter (fun k => bit (m.get Reg.LNK.ACTIVE p) k || bit t.lanes k) else m.txLanes p
  | none => m.txLanes p

/-- A lane is admitted to its port: its signal and its locks are there; one that was lost is regained, event 0x3002 (R79). -/
def Mach.regain (m : Mach) (l : Nat) : Mach :=
  let lost := (m.lane l).lost
  let m := ((m.put Reg.LAN.SIG_DET 1 l).put Reg.LAN.CDR_LOCK 1 l).put Reg.LAN.CW_LOCK 1 l
  let m := m.updLane l (fun x => { x with lost := false, goodRun := 0, badRun := 0, seekSince := none })
  if lost then m.record 0x3002 (quadOfLane l) [l] else m

/-- A trained port below WIDTH_MAX is narrow (R108, R114): FS26 and event 0x3106 as it becomes so, until it is no longer. -/
def Mach.judgeWidth (m : Mach) (p : Nat) : Mach :=
  let w := m.get Reg.LNK.WIDTH p
  if w < m.widthMax p then
    if m.flt.active.contains (26, .port p) then m
    else (m.raise 26 (.port p) w (quadOfPort p)).record 0x3106 (quadOfPort p) [p, w]
  else m.endCondition 26 (.port p)

/-- The active lanes and the width of a port: lanes that join are regained, lanes left out go to electrical idle (R108). -/
def Mach.setWidth (m : Mach) (p mask : Nat) : Mach :=
  let w := popCount mask
  let old := m.get Reg.LNK.ACTIVE p
  let m := ((m.put Reg.LNK.ACTIVE mask p).put Reg.LNK.WIDTH w p).put Reg.LAN.ACTIVE mask p
  let m := m.put Reg.LAN.WIDTH w p
  let m := (m.setEiMask p (15 - mask % 16) true).setEiMask p mask false
  let m := (List.range 4).foldl (fun a k => if bit mask k && !bit old k then a.regain (a.physOf p k) else a) m
  let m := (List.range 4).foldl (fun a k => (a.put Reg.LAN.LOGICAL (a.logicalOf (4 * p + k)) (4 * p + k))) m
  m.judgeWidth p

/-- A retrain or width change is satisfied by the action just completed (R107). -/
def satisfied (wanted : TrainAction) (lanes : Nat) (done_ : TrainAction) (active : Nat) : Bool :=
  match wanted with
  | .retrain => true
  | .width => lanes = active
  | .full => done_ = .full

/-- The logical lanes of a port that are good now: active, enabled and not lost. -/
def Mach.goodLanes (m : Mach) (p : Nat) : Nat :=
  (List.range 4).foldl (fun a k =>
    let l := m.physOf p k
    if bit (m.get Reg.LNK.ACTIVE p) k && m.isSet Reg.LAN.LANE_EN l && !(m.lane l).lost then a + 2 ^ k else a) 0

/-- WIDTH_MAX below the width of an UP port starts a width change at once (Table 4-12). -/
def Mach.narrow (m : Mach) (p : Nat) : Mach :=
  if m.linkState p = 2 && m.widthMax p < m.get Reg.LNK.WIDTH p then
    m.startAction p .width 5 (chooseLanes (m.widthMax p) (m.goodLanes p))
  else m

/-- A retrain or a width change completes on a port, with these active lanes: the port is UP, the remaining frames are
replayed first (R97, R106), a request put aside in a collision is made again unless it is satisfied (R107), and a WIDTH_MAX that was
lowered meanwhile acts. -/
def Mach.finishAction (m : Mach) (p : Nat) (lanes : Nat) : Mach :=
  match (m.link p).train with
  | none => m
  | some t =>
    let m := m.put Reg.LNK.LINK_STATE 2 p
    let m := if t.action = .width then
        ((m.bump Reg.LNK.WIDTH_CHANGES 1 p).record 0x3105 (quadOfPort p) [p, lanes]).setWidth p lanes
      else (m.bump Reg.LNK.RETRAINS 1 p).record 0x3104 (quadOfPort p) [p]
    let una := m.get Reg.LNK.UNA p
    let more := !(m.link p).replay.isEmpty
    let m := if more then m.bump Reg.LNK.REPLAYS 1 p else m
    let m := m.updLink p (fun l => { l with
      train := none, rounds := 0, overrun := false, pendingAck := none, pendingNak := none
      nakAt := none
      rp := if more then some una else none
      timer := if more then some (m.clk + 20 * max 20 (m.get Reg.LNK.REPLAY_TIMEOUT p)) else none
      schedAt := none, schedExit := false })
    let m := (m.put Reg.LNK.RETRAIN_SCHED 0 p).busyPort p
    match t.aside with
    | some (a, reason, want) =>
      if satisfied a want t.action (m.get Reg.LNK.ACTIVE p) then m.narrow p else m.startAction p a reason want
    | none => m.narrow p

/-- A full training completes: rate, width, FEC and neighbour are in force; event 0x3101 (R104). -/
def Mach.finishFull (m : Mach) (p : Nat) (rate lanes : Nat) : Mach :=
  let m := (m.put Reg.LNK.LINK_STATE 2 p).record 0x3101 (quadOfPort p) [p, rate, lanes]
  let far := (List.range 4).any (fun k => bit lanes k && (m.lane (m.physOf p k)).farFec)
  let m := m.put Reg.LAN.FEC (b2n (m.isSet Reg.LAN.FEC_EN p || far)) p
  let m := m.put Reg.LAN.RATE_AT_48 rate p
  let m := (List.range 4).foldl (fun a k => a.put Reg.LAN.RATE_AT_14 rate (4 * p + k)) m
  let m := m.setWidth p lanes
  let m := m.updLink p (fun l => { l with
    train := none, rounds := 0, limitRuns := 0, overrun := false, pendingAck := none
    pendingNak := none, nakAt := none, rp := none, timer := none, schedAt := none, schedExit := false, everTrained := true
    lastData := m.clk })
  let before := (m.link p).errBefore
  let m := m.updRp p (fun x => { x with trainedSinceErr := x.trainedSinceErr || (before && m.isSet Reg.RTE.CABLE_ERR p) })
  (m.put Reg.LNK.RETRAIN_SCHED 0 p).driversOn p

/-- A lane is lost on an active lane (R79, R108): FS16, event 0x3001; this end starts a width change to the widest set
among the lanes still good, and with none the link goes down. -/
def Mach.loseLane (m : Mach) (l : LaneId) : Mach :=
  let p : PortId := Fin.ofNat 128 (portOfLane l)
  if !m.laneActive l || (m.lane l).lost || !m.trained p then m
  else
    let m := m.updLane l (fun x => { x with lost := true, goodRun := 0, seekSince := none })
    let m := ((m.raise 16 (.port p) l (quadOfLane l)).record 0x3001 (quadOfLane l) [l]).put Reg.LAN.CW_LOCK 0 l
    let set := chooseLanes (m.widthMax p) (m.goodLanes p)
    if set = 0 then m.linkDown p 3
    else if m.linkState p = 2 then m.startAction p .width 3 set
    else m.updLink p (fun k => { k with train := k.train.map (fun t => { t with lanes := set, good := m.goodLanes p }) })

end Sys2Proof.Machine
end

