-- ==== Sys2Proof/Machine/Time.lean ====
section
/-!
DEFINITION. Global time (file 02): the exchange on each link (R36 to R38), the choice of root and parent (R39 to R41),
holdover (R42, R43), PPS and PTM (R44 to R47), TIME_QUERY (Table 2-2) and STEP (R35).
-/

namespace Sys2Proof.Machine

/-- LOSS_TIMEOUT as it acts, in CORECLK cycles: units of 64 µs, 4 to 250; a live write acts from the next selection
(Table 2-5). -/
def Mach.lossTimeout (m : Mach) : Nat := clamp 4 250 m.tim.lossUnits * 64 * Config.usCycles

/-- The time exchange of a port. -/
def Mach.timPort (m : Mach) (p : Nat) : TimPort := Tbl.get m.tim.ports p {}
/-- The machine with a port's time exchange changed. -/
def Mach.updTim (m : Mach) (p : Nat) (f : TimPort → TimPort) : Mach :=
  { m with tim := { m.tim with ports := Tbl.modify m.tim.ports p {} f } }

/-- The module is root (ROOT or ROOT_PPS). -/
def Mach.isRoot (m : Mach) : Bool := m.get Reg.TIM.STATE = 3 || m.get Reg.TIM.STATE = 4

/-- The module's time state is UNLOCKED. -/
def Mach.unlocked (m : Mach) : Bool := m.get Reg.TIM.STATE = 0

/-- The view this module advertises (R39): hops 15 with no root. -/
def Mach.ownView (m : Mach) : TimeView :=
  { rootPrio := m.get Reg.TIM.CUR_ROOT_PRIO
    rootSerial := m.get64 Reg.TIM.ROOT_SERIAL_LO Reg.TIM.ROOT_SERIAL_HI
    hops := if m.isRoot then 0 else if m.get Reg.TIM.PARENT = 255 then 15 else m.get Reg.TIM.HOPS
    rootSeq := m.get Reg.TIM.ROOT_SEQ
    state := m.get Reg.TIM.STATE }

/-- A ROOT_SEQ of a root arrives: kept if it is newer (R39); none is taken while the root is ignored (R40). -/
def Mach.seeRoot (m : Mach) (v : TimeView) : Mach :=
  if v.rootPrio = 0 then m
  else
    let same := fun (x : RootSeen) => x.prio == v.rootPrio && x.serial == v.rootSerial
    let m := match m.tim.roots.find? same with
      | none =>
        { m with tim := { m.tim with roots := m.tim.roots ++
          [{ prio := v.rootPrio, serial := v.rootSerial, seq := some v.rootSeq, changedAt := m.clk, lostUntil := none }] } }
      | some x =>
        let ignored := match x.lostUntil with | some t => decide (m.clk < t) | none => false
        let newer := match x.seq with | some q => ahead16 v.rootSeq q | none => true
        if ignored || !newer then m
        else { m with tim := { m.tim with roots := modifyFirst same (fun x =>
          { x with seq := some v.rootSeq, changedAt := m.clk, lostUntil := none }) m.tim.roots } }
    if m.get Reg.TIM.CUR_ROOT_PRIO = v.rootPrio && m.get64 Reg.TIM.ROOT_SERIAL_LO Reg.TIM.ROOT_SERIAL_HI = v.rootSerial
      && !m.isRoot then
      match m.tim.roots.find? same with
      | some x => match x.seq with | some q => m.put Reg.TIM.ROOT_SEQ q | none => m
      | none => m
    else m

/-- A neighbour's view is noted for a port (R39). -/
def Mach.seeNeighbour (m : Mach) (p : Nat) (f : TimeFrame) : Mach :=
  let m := m.updTim p (fun x => { x with nbr := some { serial := f.serial, port := f.port, view := f.view } })
  let m := (m.put Reg.TIM.NBR_HOPS f.view.hops p).put Reg.TIM.NBR_LOCKED
    (b2n (f.view.state = 1 || f.view.state = 3 || f.view.state = 4)) p
  m.seeRoot f.view

/-- TIME_EXCHANGE_START (R36): a TIME_REQ waits to be sent; it is stamped as it goes. -/
def execTimeExchangeStart (p : PortId) (s : State) : Result :=
  ok s (if s.m.exchanges p then s.m.queueCtrl p .timeReq else s.m)

/-- TIME_REQ (R36, R86): stamped t2, and answered while exchanges run on the port. -/
def execTimeReq (p : PortId) (f : TimeIn) (s : State) : Result :=
  ok s (s.m.ctrlIn p (TimeFrame.wire 0x20 f.frame) f.rx (fun m =>
    if m.exchanges p then (m.seeNeighbour p f.frame).queueCtrl p (.timeRsp f.frame (m.hgt (quadOfPort p))) else m))

/-- A number inserted into a rising list. -/
def insertInt (x : Int) : List Int → List Int
  | [] => [x]
  | y :: r => if x ≤ y then x :: y :: r else y :: insertInt x r

/-- The median of a list (R37); of an even count, the mean of the two in the middle. -/
def medianInt (l : List Int) : Int :=
  let t := l.foldr insertInt []
  let n := t.length
  if n % 2 = 1 then t.getD (n / 2) 0
  else (t.getD (n / 2 - 1) 0 + t.getD (n / 2) 0).fdiv 2

/-- The four counters and the AON copy step by a signed number of LSBs (R35): event 0x5020. -/
def Mach.stepBy (m : Mach) (d : Int) : Mach :=
  let go := fun (a : Nat) => (((a : Int) + d * 4294967296).emod (2 ^ 96 : Nat)).toNat
  let h := m.tim.hgt
  { m with tim := { m.tim with
      hgt := { q0 := go h.q0, q1 := go h.q1, q2 := go h.q2, q3 := go h.q3 }
      aon := go m.tim.aon } }.record 0x5020 4 [ofSigned 64 d]

/-- An offset drives the proportional-integral loop (R38), which sets the rate word within ±200 ppm (R35): 6,871,947 of
2^-32 LSB a cycle, of 8 LSB a cycle. -/
def Mach.drive (m : Mach) (offset : Int) : Mach :=
  let integral := m.tim.integral + offset
  let slew := max (-6871947) (min 6871947 (Config.loopSlew offset integral))
  let m := { m with tim := { m.tim with integral := integral, rateWord := (34359738368 + slew).toNat } }
  m.put Reg.TIM.RATE (ofSigned 32 ((slew * 1000000000).fdiv 34359738368))

/-- While |offset| to the parent exceeds 1 µs in RUN, FS106 is active, with event 0x5040 as it begins (R43). -/
def Mach.offsetAlarm (m : Mach) (offset : Int) : Mach :=
  if m.mode = .run && 16000 < offset.natAbs then
    if m.flt.active.contains (106, .none) then m
    else (m.raise 106 .none (ofSigned 32 offset) m.refQuad).record 0x5040 m.refQuad [ofSigned 32 offset]
  else m.endCondition 106 .none

/-- An accepted offset from the parent (R38): the step of a first lock, else the loop; LOCKED after eight good ones. The
first lock's step (R35) is made at its first accepted offset of 1 ns or more, the offset that the lock rule would not take
(DESIGN CHOICE, log entry 28: the spec names neither the exchange nor the size). -/
def Mach.followParent (m : Mach) (offset : Int) : Mach :=
  let sat := max (-2147483647) (min 2147483647 offset)
  let m := (m.put Reg.TIM.OFFSET (ofSigned 32 sat)).offsetAlarm offset
  let m := { m with tim := { m.tim with lastGood := m.clk } }
  if m.unlocked && !m.tim.everLocked && 16 ≤ offset.natAbs && (m.mode != .run || 0 < offset) then
    let m := m.stepBy offset
    { m with tim := { m.tim with everLocked := true, goodRun := 0 } }
  else
    let m := m.drive offset
    let run := if offset.natAbs < 16 then m.tim.goodRun + 1 else 0
    let m := { m with tim := { m.tim with goodRun := run } }
    if 8 ≤ run && m.unlocked then
      { m with tim := { m.tim with everLocked := true } }.put Reg.TIM.STATE 1
    else m

/-- A matching response (R37): delay and offset are computed; an exchange whose delay differs from the median by more
than 500 ps (8 LSB) is discarded, and after eight in a row the median restarts. In HOLDOVER no offset corrects HGT: it runs on
the last rate word until a parent is accepted (R42). -/
def Mach.timeRsp (m : Mach) (p : Nat) (f : TimeFrame) (t1 : Nat) : Mach :=
  let t4 := m.hgt (quadOfPort p)
  let d := fun (a b : Nat) => toSigned 64 (a + 2 ^ 64 - b % 2 ^ 64)
  let delay := (d t4 t1 - d f.t3 f.t2).fdiv 2
  let x := m.timPort p
  let offset := (d f.t2 t1 - d t4 f.t3).fdiv 2 - toSigned 16 x.asym
  let m := (m.seeNeighbour p f).updTim p (fun x => { x with t1 := none })
  if !x.delays.isEmpty && 8 < (delay - medianInt x.delays).natAbs then
    m.updTim p (fun x =>
      if 8 ≤ x.discards + 1 then { x with delays := [], discards := 0 } else { x with discards := x.discards + 1 })
  else
    let ds := (delay :: x.delays).take 8
    let m := m.updTim p (fun x => { x with delays := ds, discards := 0, accepted := some m.clk })
    let m := m.put Reg.TIM.DELAY (ofSigned 32 (medianInt ds)) p
    if m.get Reg.TIM.PARENT = p && !m.isRoot && m.get Reg.TIM.STATE != 2 then m.followParent offset else m

/-- TIME_RSP (R37, R86, and Table 4-6): used only if its EXCH_ID and t1 match the port's last request. -/
def execTimeRsp (p : PortId) (f : TimeIn) (s : State) : Result :=
  ok s (s.m.ctrlIn p (TimeFrame.wire 0x21 f.frame) f.rx (fun m =>
    match (m.timPort p).t1 with
    | some t1 => if m.exchanges p && (m.timPort p).exch = f.frame.exch && f.frame.t1 = t1 then m.timeRsp p f.frame t1 else m
    | none => m))

/-! ### Root and parent (R39 to R41) -/

/-- A candidate of R39, as the tuple it is compared by; port 255 stands for none. -/
structure Cand where
  prio   : Nat
  serial : Nat
  hops   : Nat
  nbr    : Nat
  port   : Nat
  deriving DecidableEq, Repr

/-- Tuple fields compared in order. -/
def Cand.less (a b : Cand) : Bool :=
  a.prio < b.prio || a.prio = b.prio && (a.serial < b.serial || a.serial = b.serial && (a.hops < b.hops ||
    a.hops = b.hops && (a.nbr < b.nbr || a.nbr = b.nbr && a.port < b.port)))

/-- A root is marked lost and still ignored (R40). -/
def Mach.rootIgnored (m : Mach) (prio serial : Nat) : Bool :=
  m.tim.roots.any (fun x => x.prio == prio && x.serial == serial &&
    (match x.lostUntil with | some t => decide (m.clk < t) | none => false))

/-- The candidates of R39. -/
def Mach.candidates (m : Mach) : List Cand :=
  let ports := m.tim.ports.filterMap (fun (p, x) =>
    match x.accepted, x.nbr with
    | some t, some n =>
      if m.clk ≤ t + m.lossTimeout && m.isSet Reg.TIM.PORT_EXCH_EN p && n.view.rootPrio != 0 && n.view.hops < 15 &&
          !m.rootIgnored n.view.rootPrio n.view.rootSerial then
        some { prio := n.view.rootPrio, serial := n.view.rootSerial, hops := n.view.hops + 1, nbr := n.serial, port := p }
      else none
    | _, _ => none)
  let own := m.get Reg.TIM.OWN_PRIO
  if own = 0 then ports
  else ports ++ [{ prio := own, serial := Config.serial, hops := 0, nbr := Config.serial, port := 255 }]

/-- The root in force is taken from a candidate; a change of root is event 0x5001, a change of parent 0x5002 (R41). The run
of good exchanges and the integral of the loop go on across it (DESIGN CHOICE, log entry 28: the spec says of neither whether
it restarts). -/
def Mach.takeRoot (m : Mach) (c : Cand) : Mach :=
  let oldP := m.get Reg.TIM.CUR_ROOT_PRIO
  let oldS := m.get64 Reg.TIM.ROOT_SERIAL_LO Reg.TIM.ROOT_SERIAL_HI
  let oldPort := m.get Reg.TIM.PARENT
  let m := ((m.put Reg.TIM.CUR_ROOT_PRIO c.prio).put64 Reg.TIM.ROOT_SERIAL_LO Reg.TIM.ROOT_SERIAL_HI c.serial).put
    Reg.TIM.HOPS c.hops
  let m := m.put Reg.TIM.PARENT c.port
  let m := if oldP = c.prio && oldS = c.serial % 2 ^ 64 then m else m.record 0x5001 m.refQuad [c.prio, c.serial]
  if oldPort = c.port then m else m.record 0x5002 m.refQuad [c.port]

/-- Holdover ends (R42): event 0x5011 if it was on; FS104 and FS105 end. -/
def Mach.endHoldover (m : Mach) : Mach :=
  let m := if m.get Reg.TIM.STATE = 2 then m.record 0x5011 m.refQuad [] else m
  { (m.endCondition 104 .none).endCondition 105 .none with tim := { m.tim with limitHit := false } }

/-- The exchange period's settings come into force (Table 2-5): LOSS_TIMEOUT and PPS_IN_EN. -/
def Mach.takeTimSettings (m : Mach) : Mach :=
  { m with tim := { m.tim with lossUnits := m.get Reg.TIM.LOSS_TIMEOUT, ppsEn := m.isSet Reg.TIM.PPS_IN_EN } }

/-- The module no longer disciplines to PPS_IN, being no root or with PPS_IN_EN cleared (R44): a ROOT_PPS reads ROOT, edges are
no longer judged, and FS108 ends. -/
def Mach.leavePps (m : Mach) : Mach :=
  let m := ((if m.get Reg.TIM.STATE = 4 then m.put Reg.TIM.STATE 3 else m).put Reg.TIM.PPS_IN_OK 0).endCondition 108 .none
  { m with tim := { m.tim with ppsLast := none } }

/-- The selection of R39. A module that becomes root counts as locked: a parent that it follows later is slewed to and not
stepped to (R35, R43), and until the lock rule holds again its STATE reads UNLOCKED (DESIGN CHOICE, log entry 28). -/
def Mach.select (m : Mach) : Mach :=
  let m := m.takeTimSettings
  match m.candidates with
  | [] =>
    let m := m.leavePps
    if m.get Reg.TIM.STATE = 2 then m
    else ((m.put Reg.TIM.STATE 2).raise 104 .none 0 m.refQuad).record 0x5010 m.refQuad []
  | c :: cs =>
    let best := cs.foldl (fun a b => if b.less a then b else a) c
    let was := m.get Reg.TIM.STATE
    let m := m.endHoldover.takeRoot best
    if best.port = 255 then
      let m := { m with tim := { m.tim with everLocked := true } }.put Reg.TIM.ROOT_SEQ m.tim.ownSeq
      let m := if m.tim.ppsEn then m else m.leavePps
      if was = 3 || was = 4 then m else m.put Reg.TIM.STATE 3
    else
      let m := m.leavePps
      let m := match m.tim.roots.find? (fun x => x.prio == best.prio && x.serial == best.serial) with
        | some x => (match x.seq with | some q => m.put Reg.TIM.ROOT_SEQ q | none => m)
        | none => m
      if was = 1 || was = 0 then m
      else { (m.put Reg.TIM.STATE 0) with tim := { m.tim with goodRun := 0 } }

/-- PARENT_SELECTION (R39). -/
def execParentSelection (s : State) : Result := ok s s.m.select

/-- ROOT_SEQ_INCREMENT (R39): the root adds 1 modulo 2^16. -/
def execRootSeqIncrement (s : State) : Result :=
  let m := s.m
  ok s (if m.isRoot then
    let n := (m.tim.ownSeq + 1) % 65536
    { m with tim := { m.tim with ownSeq := n } }.put Reg.TIM.ROOT_SEQ n
  else m)

/-- ROOT_LOST (R40): a root whose ROOT_SEQ has not changed for LOSS_TIMEOUT is marked lost and ignored for twice that;
the value kept for it is discarded. -/
def execRootLost (prio serial : Nat) (s : State) : Result :=
  let same := fun (x : RootSeen) => x.prio == prio && x.serial == serial && x.lostUntil.isNone
  ok s (match s.m.tim.roots.find? same with
    | none => s.m
    | some x =>
      let m := s.m.elapseTo (x.changedAt + s.m.lossTimeout)
      { m with tim := { m.tim with roots := modifyFirst same (fun x =>
        { x with seq := none, lostUntil := some (m.clk + 2 * m.lossTimeout) }) m.tim.roots } })

/-- PARENT_LOSS_TIMEOUT (R38): the parent port is treated as lost, and the module selects anew (R39). -/
def execParentLossTimeout (s : State) : Result :=
  let p := s.m.get Reg.TIM.PARENT
  ok s (match (s.m.timPort p).accepted with
    | some t =>
      if p < 128 then
        let m := s.m.elapseTo (t + s.m.lossTimeout)
        (m.updTim p (fun x => { x with accepted := none })).select
      else s.m
    | none => s.m)

/-- HOLDOVER_LIMIT_PASSED (R42): the elapsed time since the last accepted exchange times HOLD_DRIFT passes HOLD_LIMIT. -/
def execHoldoverLimitPassed (s : State) : Result :=
  let drift := s.m.get Reg.TIM.HOLD_DRIFT
  ok s (if s.m.get Reg.TIM.STATE = 2 && !s.m.tim.limitHit && 0 < drift then
    let m := s.m.elapseTo (s.m.tim.lastGood + 2 * s.m.get Reg.TIM.HOLD_LIMIT * 1000000000 / drift + 1)
    { (m.raise 105 .none 0 m.refQuad).record 0x5012 m.refQuad [] with tim := { m.tim with limitHit := true } }
  else s.m)

/-! ### PPS, CLK_OUT, PTM (R44 to R47) -/

/-- How far HGT stands from the nearest whole second, signed LSBs: positive where HGT is past it. -/
def Mach.secondError (m : Mach) : Int :=
  let off := m.hgtRef % Config.hgtSec
  if off ≤ Config.hgtSec / 2 then off else (off : Int) - Config.hgtSec

/-- PPS_IN is lost or misaligned (R44): FS108, event 0x5030, and the root continues as ROOT. -/
def Mach.ppsBad (m : Mach) : Mach :=
  ((((m.put Reg.TIM.STATE 3).put Reg.TIM.PPS_IN_OK 0).raise 108 .none 0 m.refQuad).record 0x5030 m.refQuad [])

/-- The module is locked to PPS_IN (R44): its STATE reads ROOT_PPS, and a loss of edges that went before is over, with event
0x5031. -/
def Mach.ppsLocked (m : Mach) : Mach :=
  let m := if m.flt.active.contains (108, .none) then (m.endCondition 108 .none).record 0x5031 m.refQuad [] else m
  (m.put Reg.TIM.STATE 4).put Reg.TIM.PPS_IN_OK 1

/-- A root disciplines to an edge (R44). The armed one-time alignment steps the fraction of the second where R35 lets it. An
edge more than 1 µs off while locked to PPS_IN is misaligned; an edge within 1 µs locks. While not locked, an edge that is
farther off is slewed to with nothing raised or recorded, and the module stays ROOT (DESIGN CHOICE, log entry 28). -/
def Mach.ppsRoot (m : Mach) : Mach :=
  let e := m.secondError
  let armed := m.tim.ppsArmed
  let m := { m with tim := { m.tim with ppsLast := some m.clk, ppsArmed := false } }
  if armed && e != 0 && (m.mode != .run || e < 0) then (m.stepBy (-e)).ppsLocked
  else if 16000 < e.natAbs then
    if m.get Reg.TIM.STATE = 4 then m.ppsBad else m.drive (-e)
  else m.ppsLocked.drive (-e)

/-- PPS_IN_EDGE (R44): the edge is stamped into PPS_IN; a root with PPS_IN_EN in force disciplines to it. -/
def execPpsInEdge (s : State) : Result :=
  let m := s.m.put64 Reg.TIM.PPS_IN_LO Reg.TIM.PPS_IN_HI s.m.hgtRef
  ok s (if m.isRoot && m.tim.ppsEn then m.ppsRoot else m)

/-- PPS_IN_MISSING (R44): two expected edges in a row are missing. -/
def execPpsInMissing (s : State) : Result :=
  ok s (match s.m.tim.ppsLast with
    | some t =>
      if s.m.get Reg.TIM.STATE = 4 then (s.m.elapseTo (t + 2 * Config.secCycles + Config.usCycles)).ppsBad else s.m
    | none => s.m)

/-- The cycle at which the reference counter reaches its next whole second. -/
def Mach.nextSecondAt (m : Mach) : Nat :=
  let acc := m.tim.hgt.acc m.refQuad
  let target := (m.hgtRef / Config.hgtSec + 1) * Config.hgtSec * 2 ^ 32
  let rate := max 1 m.tim.rateWord
  m.clk + (target - acc % 2 ^ 96 + rate - 1) / rate

/-- PPS_OUT is driven at a whole second (R45): enabled, not UNLOCKED, in HOLDOVER only under PPS_OUT_HOLD, and not forced
low by a SAFE-class reaction. -/
def Mach.ppsDrives (m : Mach) : Bool :=
  m.isSet Reg.TIM.PPS_OUT_EN && !m.unlocked && (m.get Reg.TIM.STATE != 2 || m.isSet Reg.TIM.PPS_OUT_HOLD) &&
  m.mode != .safe && m.mode != .lockout && !m.isSet Reg.FLT.PPS_FORCED

/-- The frequency that CLK_OUT takes up at a whole second (R46, Table 2-5): none while it is disabled or held low (R381). -/
def Mach.clkSetting (m : Mach) : Nat :=
  if m.isSet Reg.TIM.CLKOUT_EN && m.mode != .safe && m.mode != .lockout && !m.isSet Reg.FLT.PPS_FORCED then
    min 200000000 (m.get Reg.TIM.CLKOUT_FREQ) else 0

/-- The level of CLK_OUT (R46): a rising edge on every whole second, high for the first half of each cycle, low from where a
disabling holds it low. -/
def Mach.clkOut (m : Mach) : Bool :=
  m.tim.clkHz != 0 && m.tim.clkStop.all (fun t => decide (m.hgtRef < t)) &&
  2 * (m.hgtRef % Config.hgtSec * m.tim.clkHz % Config.hgtSec) < Config.hgtSec

/-- CLKOUT_EN is cleared: CLK_OUT is held low after its current cycle (Table 2-5). -/
def Mach.clkDisable (m : Mach) : Mach :=
  let hz := m.tim.clkHz
  let part := m.hgtRef % Config.hgtSec
  if hz = 0 then m
  else
    let stop := m.hgtRef - part + ((part * hz / Config.hgtSec + 1) * Config.hgtSec + hz - 1) / hz
    { m with tim := { m.tim with clkStop := some stop } }

/-- PPS_OUT_PULSE (R45, R46): at the next whole second PPS_OUT rises for WIDTH ms, and CLK_OUT takes up its setting. -/
def execPpsOutPulse (s : State) : Result :=
  let m := s.m.elapseTo s.m.nextSecondAt
  let m := { m with tim := { m.tim with clkHz := m.clkSetting, clkStop := none } }
  ok s (if m.ppsDrives then
    { m with tim := { m.tim with
        ppsHigh := true
        ppsOut := some (m.clk + clamp 1 500 (m.get Reg.TIM.WIDTH) * Config.msCycles) } }.emit (.ppsEdge m.hgtRef)
  else { m with tim := { m.tim with ppsHigh := false, ppsOut := none } })

/-- PTM_REQUEST (R47): a half that is present is a PTM Responder, and answers with ResponseD: Master Time floor(HGT / 16),
Propagation Delay half of the measured round trip, in ns. -/
def execPtmRequest (slot : Slot) (roundTrip : Nat) (s : State) : Result :=
  ok s (if s.m.slotPresent slot && Config.ptmResponder then
    s.m.emit (.ptm slot (s.m.hgt (quadOfSlot slot) / 16) (roundTrip / 2)) else s.m)

/-- The answer to TIME_QUERY (Table 2-2). -/
def Mach.timeAnswer (m : Mach) : MgmtRsp :=
  .timeQuery (m.get Reg.TIM.STATE) (m.get Reg.TIM.UTC_OFFSET) m.aonHgt (m.get64 Reg.TIM.EPOCH_LO Reg.TIM.EPOCH_HI)

/-- TIME_QUERY (R47, Table 2-2). -/
def execTimeQuery (p : Path) (s : State) : Result := ok s (s.m.emit (.mgmt p s.m.timeAnswer))

/-- STEP acts only in CONFIG, TRAIN and DRAIN (R35). -/
def Mode.steps (md : Mode) : Bool := md = .config || md = .train || md = .drain

/-- SET is loaded into every counter and the AON copy (R35): event 0x5020. -/
def Mach.loadSet (m : Mach) : Mach :=
  let v := m.get64 Reg.TIM.SET_LO Reg.TIM.SET_HI * 2 ^ 32
  { m with tim := { m.tim with hgt := { q0 := v, q1 := v, q2 := v, q3 := v }, aon := v } }.record 0x5020 4 [v / 2 ^ 32]

/-- STEP (R35, Table 2-5). -/
def execStep (r : Requester) (s : State) : Result :=
  ok s (s.m.actionIf r Reg.TIM.STEP 1 (fun m _ => m.mode.steps) (fun m _ => m.loadSet))

end Sys2Proof.Machine
end

