-- ==== Sys2Proof/Machine/Xops.lean ====
section
/-!
DEFINITION. Two-stage translation as shared operations (file 07): rights (R187, R188), the caches (R191), the walk as a
state machine (R185, R186, R190), and a host access that uses them.
-/

namespace Sys2Proof.Machine

/-! ### Table entries (R182 to R184) -/

/-- Bit `k` of a table entry. -/
def teBit (e : BitVec 64) (k : Nat) : Bool := e.getLsbD k
/-- V. -/
def teV (e : BitVec 64) : Bool := teBit e 0
/-- LEAF. -/
def teLeaf (e : BitVec 64) : Bool := teBit e 1
/-- ADDR: bits 51 to 12. -/
def teAddr (e : BitVec 64) : Nat := e.toNat / 4096 % 1099511627776 * 4096
/-- The bytes a page covers by the level of its leaf (R184). -/
def pageSize (lvl : Nat) : Nat := match lvl with | 1 => 1073741824 | 2 => 2097152 | _ => 4096
/-- The table index of an input address at a level (Table 7-1). -/
def teIndex (a lvl : Nat) : Nat := a / 2 ^ (39 - 9 * lvl) % 512
/-- An entry is not valid at a level (R184, R185). -/
def teBad (e : BitVec 64) (lvl : Nat) : Bool :=
  !teV e || (if teLeaf e then lvl == 0 || teAddr e % pageSize lvl != 0 else lvl == 3)

/-! ### Rights (R187, R188, Table 7-3) -/

/-- A kind of access reads. -/
def kindReads (k : Nat) : Bool := k = 0 || k = 2 || k = 6 || k = 7
/-- A kind of access writes. -/
def kindWrites (k : Nat) : Bool := k = 1 || k = 3 || k = 4 || k = 5 || k = 7 || k = 8
/-- A kind of access that a DEV page refuses. -/
def kindNoDev (k : Nat) : Bool := k = 0 || k = 1 || k = 4 || k = 7 || k = 8

/-- The rights of a stage-1 leaf, as the cache holds them: R, W, U, S, X; and the PD's PD_SUPER and W_X_EXCL. -/
def rights1 (r w u s x super_ wxExcl : Bool) (kind : Nat) : Bool :=
  (!kindReads kind || r) && (!kindWrites kind || w) && (if super_ then s else u) &&
  !(wxExcl && kindWrites kind && x)

/-- The rights of a stage-2 leaf: R and W only. -/
def rights2 (r w : Bool) (kind : Nat) : Bool := (!kindReads kind || r) && (!kindWrites kind || w)

/-- The check of a complete translation for an access: stage 1, then stage 2, then the device attribute. The PD's part in it is that of
the walk: a later LOAD acts on later walks only (R195). -/
def Trans.check (t : Trans) (kind va : Nat) : Option XFault :=
  if t.s1On && !rights1 t.r1 t.w1 t.u1 t.s1 t.x1 t.super_ t.wxExcl kind then some { stage := 1, level := t.lvl1, kind := 1, addr := va }
  else if !rights2 t.r2 t.w2 kind then
    some { stage := 2, level := t.lvl2, kind := 1, addr := t.ipa + va % t.size }
  else if t.dev1 && kindNoDev kind then some { stage := 1, level := t.lvl1, kind := 1, addr := va }
  else if t.dev2 && kindNoDev kind then
    some { stage := 2, level := t.lvl2, kind := 1, addr := t.ipa + va % t.size }
  else none

/-- DETAIL of a translation fault (Table 6-14). -/
def XFault.detail (f : XFault) : Nat := (if f.stage = 2 then 16 else 0) + 4 * (f.level % 4) + f.kind % 4

/-! ### Caches (R191) -/

/-- The engine whose micro-TLB serves an access: the ring's TXE for a work ring's, else by connection, group or lock
(Table 1-5). -/
def Mach.utlbOf (m : Mach) (op : HostOp) : Nat :=
  let q := quadOfSlot op.slot
  let txe := fun ring => 64 * q + ((Tbl.find m.hif.wrs ring).map (·.txe)).getD 0
  match op.purpose with
  | .ringHeader r _ _ => txe r
  | .ringBody r .. => txe r
  | .consWb r => txe r
  | .completion _ => 64 * q + 16
  | .range cx _ => 64 * q + 16 + m.rxeOf cx
  | .payload cx .. => 64 * q + 16 + m.rxeOf cx
  | .place cx .. => 64 * q + 16 + m.rxeOf cx
  | .flagWrite cx .. => 64 * q + 16 + m.rxeOf cx
  | .matPlace _ _ _ cx .. => 64 * q + 16 + m.rxeOf cx
  | .collSource g .. => 64 * q + 32 + g % 2
  | .collDest g .. => 64 * q + 32 + g % 2
  | .rankTable g => 64 * q + 32 + g % 2
  | .atomicOperand .. => 64 * q + 36
  | .atomicAddr .. => 64 * q + 36
  | .atomicResult .. => 64 * q + 36
  | .eventWord .. => 64 * q + 36
  | .exporting _ => 64 * q + 37
  | .stream _ => 64 * q + 37
  | .walk _ => 64 * q + 38

/-- A translation covers an address of a PD. -/
def Trans.covers (t : Trans) (pd va : Nat) : Bool := t.pd == pd && t.va ≤ va && va < t.va + t.size

/-- The engine that an access is for, where it is one of Table 1-4. -/
def Mach.opEngine (m : Mach) (op : HostOp) : Option Engine :=
  let k := m.utlbOf op
  let q : Quad := Fin.ofNat 4 (k / 64)
  let n := k % 64
  if n < 16 then some { cls := .txe, q := q, n := Fin.ofNat 16 n }
  else if n < 32 then some { cls := .rxe, q := q, n := Fin.ofNat 16 (n - 16) }
  else if n < 34 then some { cls := .cle, q := q, n := Fin.ofNat 16 (n - 32) }
  else if n = 36 then some { cls := .lku, q := q, n := 0 }
  else none

/-- The data path of an access's engine reports a condition (R21): XLT_HIT 4, XLT_MISS 5, XLT_FAULT 6. -/
def Mach.xltFlag (m : Mach) (op : HostOp) (k : Nat) : Mach :=
  match m.opEngine op with
  | some e => m.flag e [k] ([4, 5, 6].filter (· != k))
  | none => m

/-- Translations are removed from every cache (R191: a micro-TLB copy goes with its quadrant's entry). -/
def Mach.purge (m : Mach) (p : Trans → Bool) : Mach :=
  { m with xlt := { m.xlt with
      cache := m.xlt.cache.map (fun (q, t) => (q, t.filter (fun c => !p c.2)))
      utlb := m.xlt.utlb.map (fun (k, l) => (k, l.filter (fun t => !p t)))
      reported := m.xlt.reported.filter (fun c => !p c.2)
      badTrans := m.xlt.badTrans.filter (fun c => !p c.2) } }

/-- A parity error is found in an entry of a translation cache (R191): FS72 and event 0x6105. -/
def Mach.cacheParity (m : Mach) (slot : Nat) (pd : Nat) : Mach :=
  (m.raise 72 (.slot slot) pd (quadOfSlot slot)).record 0x6105 (quadOfSlot slot) [slot, pd]

/-- A cached translation whose parity is bad is discarded as it is read, with every copy of it, so that it is never used (R191): the
caches of the access's engine and quadrant without those that cover the address. -/
def Mach.dropBadTrans (m : Mach) (op : HostOp) (va : Nat) : Mach :=
  let here := fun (c : Nat × Trans) => (c.1 == m.utlbOf op || c.1 == 256 + quadOfSlot op.slot) && c.2.covers op.pd va
  match m.xlt.badTrans.filter here with
  | [] => m
  | bad =>
    let m := bad.foldl (fun (a : Mach) c => (a.purge (· == c.2)).cacheParity op.slot op.pd) m
    { m with xlt := { m.xlt with badTrans := m.xlt.badTrans.filter (fun c => !here c) } }

/-- Walk-cache entries of a PD and its VMID whose parity is bad are discarded before a walk of the PD uses them (R191). -/
def Mach.dropBadWalk (m : Mach) (q slot pd vmid : Nat) : Mach :=
  let here := fun (c : Nat × WalkEntry) => c.1 == q && (if c.2.stage2 then c.2.owner == vmid else c.2.owner == pd)
  match m.xlt.badWalk.filter here with
  | [] => m
  | bad =>
    let m := bad.foldl (fun (a : Mach) _ => a.cacheParity slot pd) m
    { m with xlt := { m.xlt with
        walkCache := Tbl.modify m.xlt.walkCache q [] (fun l => l.filter (fun e => !bad.any (fun c => c.2 == e)))
        badWalk := m.xlt.badWalk.filter (fun c => !here c) } }

/-- The cached translation of an address, with the counters and the flag of a hit (R21): a micro-TLB first, then the quadrant's
cache, which then fills the micro-TLB. -/
def Mach.lookup (m : Mach) (op : HostOp) (va : Nat) : Option Trans × Mach :=
  let m := m.dropBadTrans op va
  let k := m.utlbOf op
  match (Tbl.get m.xlt.utlb k []).find? (fun t => t.covers op.pd va) with
  | some t => (some t, (m.bump Reg.XLT.UTLB_HITS 1 op.slot).xltFlag op 4)
  | none =>
    match ((Tbl.get m.xlt.cache (quadOfSlot op.slot) []).find? (fun c => c.2.covers op.pd va)).map (·.2) with
    | some t =>
      let m := (m.bump Reg.XLT.QC_HITS 1 op.slot).xltFlag op 4
      (some t, { m with xlt := { m.xlt with utlb := Tbl.modify m.xlt.utlb k [] (fun l => (t :: l).take 64) } })
    | none => (none, m)

/-- The set of a quadrant's cache that a translation goes to: 16,384 sets of 8 ways (R191). Which set the tag selects, and which way
of it is replaced, is the model's choice (DESIGN CHOICE, log entry 60). -/
def Trans.set_ (t : Trans) : Nat := (t.va / max 1 t.size + t.pd) % 16384

/-- A translation enters a quadrant's cache, in the next way of its set in turn, and what stood there leaves. -/
def Mach.fill (m : Mach) (q : Nat) (t : Trans) : Mach :=
  let key := 16384 * q + t.set_
  let way := Tbl.get m.xlt.nextPos key 0
  let pos := 8 * t.set_ + way
  let m := m.purge (fun x => x.pd == t.pd && x.va == t.va && x.size == t.size)
  let m := match Tbl.find (Tbl.get m.xlt.cache q []) pos with
    | some old => m.purge (· == old)
    | none => m
  { m with xlt := { m.xlt with
      cache := Tbl.modify m.xlt.cache q [] (fun c => Tbl.set c pos t)
      nextPos := Tbl.set m.xlt.nextPos key ((way + 1) % 8) } }

/-- The walk-cache entry of a kind, owner and level for an address. -/
def Mach.wcFind (m : Mach) (w : Walk) (stage2 : Bool) (owner lvl a : Nat) : Option (BitVec 64) :=
  if w.audit.isSome then none
  else ((Tbl.get m.xlt.walkCache w.quad []).find? (fun e =>
    e.stage2 == stage2 && e.owner == owner && e.lvl == lvl && e.tag == a / 2 ^ (39 - 9 * lvl))).map (·.entry)

/-- A walk-cache entry is kept (16,384 a quadrant, R191), unless the walk's result may not be cached. -/
def Mach.wcAdd (m : Mach) (w : Walk) (stage2 : Bool) (owner lvl a : Nat) (e : BitVec 64) : Mach :=
  if w.audit.isSome || w.nocache then m
  else
    let x : WalkEntry := { stage2 := stage2, owner := owner, lvl := lvl, tag := a / 2 ^ (39 - 9 * lvl)
                           slot := w.pd.slot, entry := e }
    { m with xlt := { m.xlt with walkCache := Tbl.modify m.xlt.walkCache w.quad [] (fun l => (x :: l).take 16384) } }

/-! ### Faults (R190, R198, R199) -/

/-- A translation fault of a slot is counted, captured and reported (R199, Table 7-5). -/
def Mach.noteFault (m : Mach) (slot pd vmid kind va : Nat) (f : XFault) : Mach :=
  let q := quadOfSlot slot
  let m := m.bump Reg.XLT.XLT_FAULTS 1 slot
  let m := if m.isSet Reg.XLT.FC_VALID slot then m.bump Reg.XLT.FC_MISSED 1 slot
    else
      let m := ((m.put Reg.XLT.FC_VALID 1 slot).put Reg.XLT.FC_ACCESS kind slot).put Reg.XLT.FC_DETAIL f.detail slot
      let m := (m.put Reg.XLT.FC_VMID vmid slot).put Reg.XLT.FC_PD pd slot
      (m.put64 Reg.XLT.FC_IN_LO Reg.XLT.FC_IN_HI va slot).put64 Reg.XLT.FC_ADDR_LO Reg.XLT.FC_ADDR_HI f.addr slot
  match f.kind with
  | 2 => (m.raise 69 (.slot slot) f.detail q).record 0x6103 q [slot, pd, f.addr]
  | 3 => ((m.bump Reg.XLT.DEV_ABORTS 1 slot).raise 71 (.slot slot) f.detail q).record 0x6104 q [slot, pd, f.addr]
  | _ => m.record 0x6101 q [slot, pd, va, f.addr, f.detail]

/-! ### The walk (R185) -/

/-- A table address stands in a declared MMIO range of a slot (R190). -/
def Mach.inRange (m : Mach) (slot a : Nat) : Bool :=
  (List.range 64).any (fun k =>
    let i := 64 * slot + k
    m.isSet Reg.XLT.RNG_EN i &&
    m.get64 Reg.XLT.RNG_BASE_LO Reg.XLT.RNG_BASE_HI i / 4096 ≤ a / 4096 &&
    a / 4096 ≤ m.get64 Reg.XLT.RNG_LIMIT_LO Reg.XLT.RNG_LIMIT_HI i / 4096)

/-- What a walk does next: read 8 bytes at an address, end with a translation, or end with a fault. -/
inductive WalkNext where
  | read (a : Nat) (w : Walk)
  | done (t : Trans)
  | fault (f : XFault)
  deriving DecidableEq, Repr

/-- The translation a finished walk gives: the smaller of the two page sizes (R184). -/
def Walk.result_ (w : Walk) (ipa : Nat) (leaf2 : Option (BitVec 64 × Nat)) : Trans :=
  let s1 := match w.leaf1 with | some (_, l) => pageSize l | none => 1073741824
  let s2 := match leaf2 with | some (_, l) => pageSize l | none => 1073741824
  let size := if w.leaf1.isNone && leaf2.isNone then 4096 else min s1 s2
  let pa := match leaf2 with | some (e, l) => teAddr e + ipa % pageSize l | none => ipa
  let b := fun k => match w.leaf1 with | some (e, _) => teBit e k | none => k != 4 && k != 7
  let c := fun k => match leaf2 with | some (e, _) => teBit e k | none => k != 7
  { pd := w.pdNum, va := w.va - w.va % size, size := size, pa := pa - pa % size, ipa := ipa - ipa % size
    r1 := b 2, w1 := b 3, u1 := b 5, s1 := b 6, x1 := b 4, r2 := c 2, w2 := c 3, dev1 := b 7, dev2 := c 7
    lvl1 := match w.leaf1 with | some (_, l) => l | none => 0
    lvl2 := match leaf2 with | some (_, l) => l | none => 0
    s1On := w.pd.s1En, super_ := w.pd.super_, wxExcl := w.pd.wxExcl }

/-- The read of a stage-1 entry at a bus address, checked against the declared ranges. -/
def Mach.walkRead1 (m : Mach) (w : Walk) (lvl ta : Nat) : WalkNext :=
  if m.inRange w.pd.slot ta then .fault { stage := 1, level := lvl, kind := 3, addr := w.va }
  else .read ta { w with atc := .stage1 lvl }

/-- A stage-2 leaf is found at a level: for a table, it must allow reads and not be a device page; for the output, the
walk ends. -/
def Mach.walkLeaf2 (m : Mach) (w : Walk) (table1 : Option Nat) (ipa lvl : Nat) (e : BitVec 64) : WalkNext :=
  let pa := teAddr e + ipa % pageSize lvl
  match table1 with
  | none => .done (w.result_ ipa (some (e, lvl)))
  | some l1 =>
    if !teBit e 2 then .fault { stage := 2, level := lvl, kind := 1, addr := ipa }
    else if teBit e 7 then .fault { stage := 2, level := lvl, kind := 3, addr := ipa }
    else m.walkRead1 w l1 pa

/-- The read of a stage-2 entry in the table at bus address `t`, checked against the declared ranges. -/
def Mach.walkRead2 (m : Mach) (w : Walk) (table1 : Option Nat) (ipa lvl t : Nat) : WalkNext :=
  if m.inRange w.pd.slot t then .fault { stage := 2, level := lvl, kind := 3, addr := ipa }
  else .read (t + 8 * teIndex ipa lvl)
    { w with table := t, ipa := ipa, atc := match table1 with | some l1 => .stage2Table l1 lvl | none => .stage2Out lvl }

/-- s2 of R185, from its start: off, or through the walk cache's leaves, or by reads. -/
def Mach.walkS2 (m : Mach) (w : Walk) (table1 : Option Nat) (ipa : Nat) : WalkNext :=
  if !w.vm.s2En then
    if 2 ^ 52 ≤ ipa then .fault { stage := 2, level := 0, kind := 0, addr := ipa }
    else match table1 with
      | some l1 => m.walkRead1 w l1 ipa
      | none => .done (w.result_ ipa none)
  else if 2 ^ 48 ≤ ipa then .fault { stage := 2, level := 0, kind := 0, addr := ipa }
  else
    match [1, 2, 3].findSome? (fun l => (m.wcFind w true w.pd.vmid l ipa).map (fun e => (l, e))) with
    | some (l, e) => m.walkLeaf2 w table1 ipa l e
    | none => m.walkRead2 w table1 ipa 0 w.vm.s2Root

/-- The next stage-1 level, its table at IPA `t`: through the walk cache's non-leaf entries, or by a read. `fuel` is the
number of levels left. -/
def Mach.walkS1 (m : Mach) (w : Walk) : Nat → Nat → Nat → WalkNext
  | 0, lvl, t => m.walkS2 w (some lvl) (t + 8 * teIndex w.va lvl)
  | fuel + 1, lvl, t =>
    match m.wcFind w false w.pdNum lvl w.va with
    | some e => m.walkS1 w fuel (lvl + 1) (teAddr e)
    | none => m.walkS2 w (some lvl) (t + 8 * teIndex w.va lvl)

/-- The start of a walk (R185). -/
def Mach.walkStart (m : Mach) (w : Walk) : WalkNext :=
  if w.pd.s1En then
    let top := w.va / 2 ^ 47
    if top != 0 && top != 2 ^ 17 - 1 then .fault { stage := 1, level := 0, kind := 0, addr := w.va }
    else m.walkS1 w 3 0 w.pd.s1Root
  else m.walkS2 w none w.va

/-- A table entry has been read where a walk stands. -/
def Mach.walkEntry (m : Mach) (w : Walk) (e : BitVec 64) : Mach × WalkNext :=
  match w.atc with
  | .stage1 lvl =>
    if teBad e lvl then (m, .fault { stage := 1, level := lvl, kind := 0, addr := w.va })
    else if teLeaf e then
      let w' := { w with leaf1 := some (e, lvl) }
      if w.audit.isNone && !rights1 (teBit e 2) (teBit e 3) (teBit e 5) (teBit e 6) (teBit e 4) w.pd.super_ w.pd.wxExcl w.kind then
        (m, .fault { stage := 1, level := lvl, kind := 1, addr := w.va })
      else (m, m.walkS2 w' none (teAddr e + w.va % pageSize lvl))
    else
      let m := m.wcAdd w false w.pdNum lvl w.va e
      (m, m.walkS1 w (2 - lvl) (lvl + 1) (teAddr e))
  | .stage2Table l1 lvl =>
    if teBad e lvl then (m, .fault { stage := 2, level := lvl, kind := 0, addr := w.ipa })
    else if teLeaf e then
      let m := m.wcAdd w true w.pd.vmid lvl w.ipa e
      (m, m.walkLeaf2 w (some l1) w.ipa lvl e)
    else (m, m.walkRead2 w (some l1) w.ipa (lvl + 1) (teAddr e))
  | .stage2Out lvl =>
    if teBad e lvl then (m, .fault { stage := 2, level := lvl, kind := 0, addr := w.ipa })
    else if teLeaf e then
      let m := m.wcAdd w true w.pd.vmid lvl w.ipa e
      (m, m.walkLeaf2 w none w.ipa lvl e)
    else (m, m.walkRead2 w none w.ipa (lvl + 1) (teAddr e))

/-- The stage, level and address of a walk's failed read (R185, kind 2). -/
def Walk.readFault (w : Walk) : XFault :=
  match w.atc with
  | .stage1 l => { stage := 1, level := l, kind := 2, addr := w.va }
  | .stage2Table _ l => { stage := 2, level := l, kind := 2, addr := w.ipa }
  | .stage2Out l => { stage := 2, level := l, kind := 2, addr := w.ipa }

/-- Walks of a quadrant that have not ended. -/
def Mach.liveWalks (m : Mach) (q : Nat) : List Walk :=
  m.xlt.walks.filter (fun w => w.quad == q && w.result.isNone)

/-- Host reads outstanding on a host port. -/
def Mach.readsOut (m : Mach) (hp : Nat) : Nat := (m.hif.reads.filter (fun r => r.sent && r.op.slot / 2 == hp)).length

/-- A host read goes out on its port, at most 4,096 of which are outstanding (Table 6-1); one beyond them waits. -/
def Mach.sendRead (m : Mach) (rd : HostRead) : Mach :=
  if m.readsOut (rd.op.slot / 2) < 4096 then
    { m with hif := { m.hif with reads := m.hif.reads ++ [{ rd with sent := true, atc := m.clk }] } }.emit
      (.hostRead rd.op.slot rd.op.func rd.id rd.segs)
  else { m with hif := { m.hif with reads := m.hif.reads ++ [{ rd with sent := false }] } }

/-- The first read that waits on a port goes out, where the port has room for it. -/
def Mach.nextRead (m : Mach) (hp : Nat) : Mach :=
  match takeFirst (fun (r : HostRead) => !r.sent && r.op.slot / 2 == hp) m.hif.reads with
  | some (rd, rest) => if m.readsOut hp < 4096 then { m with hif := { m.hif with reads := rest } }.sendRead rd else m
  | none => m

/-- A host read leaves the outstanding reads, and one that waited on its port goes out. -/
def Mach.dropRead (m : Mach) (id : Nat) : Mach :=
  match m.hif.reads.find? (fun (r : HostRead) => r.id == id) with
  | some r =>
    { m with hif := { m.hif with reads := m.hif.reads.filter (fun (r : HostRead) => r.id != id) } }.nextRead (r.op.slot / 2)
  | none => m

/-- A read of a walk is issued: 8 bytes with the requester ID of the PD's function (R180, R466). -/
def Mach.issueWalkRead (m : Mach) (w : Walk) (a : Nat) : Mach :=
  let (id, m) := m.newId
  let op : HostOp := { slot := w.pd.slot, func := w.pd.func, pd := w.pdNum, va := w.va, len := 8, kind := w.kind
                       data := none, purpose := .walk w.id }
  let rd : HostRead := { id := id, op := op, segs := [(a, 8)], atc := m.clk, walk := some w.id }
  let ws := m.xlt.walks.filter (fun (x : Walk) => x.id != w.id) ++ [w]
  let m := { m with xlt := { m.xlt with walks := ws } }
  (m.bump Reg.XLT.WALK_READS 1 w.pd.slot).sendRead rd

/-! ### A host access -/

/-- What becomes of a host access: issued on PCIe, waiting for a walk, or ended by a fault. -/
inductive HostResult where
  | issued
  | waiting
  | fault (f : XFault)
  deriving DecidableEq, Repr

/-- The bus segments of an access, page by page (R189): those translated so far, and the address that misses or
faults. `fuel` bounds the pages. -/
def Mach.segments (op : HostOp) : Nat → Mach → Nat → List (Nat × Nat) → Mach × List (Nat × Nat) × Option (Nat ⊕ XFault)
  | 0, m, _, acc => (m, acc, none)
  | fuel + 1, m, pos, acc =>
    if op.va + op.len ≤ pos then (m, acc, none)
    else
      let hit := match op.got.find? (fun t => t.covers op.pd pos) with
        | some t => (some t, m)
        | none => m.lookup op pos
      match hit with
      | (none, m) => (m, acc, some (.inl pos))
      | (some t, m) =>
        match t.check op.kind pos with
        | some f => (m, acc, some (.inr f))
        | none =>
          let n := min (op.va + op.len - pos) (t.va + t.size - pos)
          Mach.segments op fuel m (pos + n) (acc ++ [(t.pa + (pos - t.va), n)])

/-- Cuts a byte string by segments. -/
def cutData : List (Nat × Nat) → List Byte → List (Nat × List Byte)
  | [], _ => []
  | (a, n) :: r, b => (a, b.take n) :: cutData r (b.drop n)

/-- An access whose pages are all translated goes out on PCIe: posted writes, or a read that is remembered until its data
returns. A stream's record goes out bytes 8 to 127 first (R446). A range check issues nothing; the translation of an atomic's address is kept with the atomic, which then waits for
its turn (R296). -/
def Mach.issue (m : Mach) (op : HostOp) (segs : List (Nat × Nat)) : Mach :=
  match op.purpose, op.data with
  | .range .., _ => m
  | .atomicAddr slot src tag, _ =>
    { m with lka := { m.lka with
        atoms := modifyFirst (fun (x : AtEntry) => x.slot == slot && x.src == src && x.tag == tag)
          (fun x => { x with segs := segs, st := .queued }) m.lka.atoms } }
  | .stream _, some b =>
    match segs with
    | (pa, _) :: _ => (m.emit (.hostWrite op.slot op.func (pa + 8) (b.drop 8))).emit (.hostWrite op.slot op.func pa (b.take 8))
    | [] => m
  | _, data =>
  match data with
  | some b => (cutData segs b).foldl (fun a (pa, d) => a.emit (.hostWrite op.slot op.func pa d)) m
  | none =>
    let (id, m) := m.newId
    m.sendRead { id := id, op := op, segs := segs, atc := m.clk }

/-- An access that misses joins the walk of its PD and page, or starts one, or waits where all 64 slots of the quadrant are busy
(R186). A walk that needs no read ends at once. -/
def Mach.startWalk (m : Mach) (op : HostOp) (pdv : Pd) (va : Nat) : Mach × HostResult :=
  let q := quadOfSlot op.slot
  let page := va / 4096 * 4096
  let vm := Tbl.get m.xlt.vmids pdv.vmid { slot := pdv.slot, s2En := false, s2Root := 0 }
  match (m.liveWalks q).find? (fun w => w.pdNum == op.pd && w.va / 4096 * 4096 == page && !w.nocache && w.audit.isNone) with
  | some w =>
    let same := fun (x : Walk) => x.id == w.id
    let ws := modifyFirst same (fun x => { x with waiters := x.waiters ++ [op] }) m.xlt.walks
    ({ m with xlt := { m.xlt with walks := ws } }.xltFlag op 5, .waiting)
  | none =>
    if 64 ≤ (m.liveWalks q).length then ({ m with xlt := { m.xlt with waiting := m.xlt.waiting ++ [op] } }, .waiting)
    else
      let (id, m) := m.newId
      let w : Walk := { id := id, quad := q, pdNum := op.pd, pd := pdv, vm := vm, va := va, kind := op.kind
                        atc := .stage1 0, table := 0, ipa := 0, leaf1 := none, waiters := [op] }
      let m := ((m.bump Reg.XLT.WALKS 1 op.slot).xltFlag op 5).dropBadWalk q op.slot op.pd pdv.vmid
      match m.walkStart w with
      | .read a w => (m.issueWalkRead w a, .waiting)
      | .fault f => (m, .fault f)
      | .done t =>
        let m := m.fill q t
        match t.check op.kind va with
        | some f => (m, .fault f)
        | none => (m, .issued)

/-- An access to host memory (R180, R181, R185 to R189), on the PD's slot with the requester ID of the PD's function: issued,
waiting, or faulted, each fault counted and captured.
`fuel` bounds the pages that a walk without reads translates on the way. -/
def Mach.access : Nat → Mach → HostOp → Mach × HostResult
  | 0, m, _ => (m, .waiting)
  | fuel + 1, m, op =>
    match Tbl.find m.xlt.pds op.pd with
    | none =>
      let f : XFault := { stage := 1, level := 0, kind := 0, addr := op.va }
      ((m.xltFlag op 6).noteFault op.slot op.pd 0 op.kind op.va f, .fault f)
    | some pdv =>
      let op := { op with slot := pdv.slot, func := pdv.func }
      match Mach.segments op (op.len / 4096 + 2) m op.va [] with
      | (m, segs, none) => (m.issue op segs, .issued)
      | (m, _, some (.inr f)) => ((m.xltFlag op 6).noteFault op.slot op.pd pdv.vmid op.kind op.va f, .fault f)
      | (m, _, some (.inl pos)) =>
        match m.startWalk op pdv pos with
        | (m, .waiting) => (m, .waiting)
        | (m, .fault f) => ((m.xltFlag op 6).noteFault op.slot op.pd pdv.vmid op.kind op.va f, .fault f)
        | (m, .issued) => Mach.access fuel m op

/-- A host access with room for the pages it spans. -/
def Mach.hostAccess (m : Mach) (op : HostOp) : Mach × HostResult := Mach.access (op.len / 4096 + 3) m op

end Sys2Proof.Machine
end

