-- ==== Sys2Proof/Machine/HostOps.lean ====
section
/-!
DEFINITION. The host side as shared operations (file 06): functions and interrupts (R167 to R170, R174), completion rings
(R160 to R166), work rings, their scan and their entries (R153 to R159), and the end of a work.
-/

namespace Sys2Proof.Machine

/-! ### Functions and slots -/

/-- Where a function is kept. -/
def fnKey (slot fn : Nat) : Nat := 256 * slot + fn
/-- A function as it stands. -/
def Mach.func (m : Mach) (slot fn : Nat) : Func := Tbl.get m.hif.funcs (fnKey slot fn) {}
/-- The machine with a function changed. -/
def Mach.updFunc (m : Mach) (slot fn : Nat) (f : Func → Func) : Mach :=
  { m with hif := { m.hif with funcs := Tbl.modify m.hif.funcs (fnKey slot fn) {} f } }

/-- Bus mastering is not stopped: the module is not in SAFE or LOCKOUT (Tables 15-1 and 16-6). -/
def Mach.busOn (m : Mach) : Bool := m.mode != .safe && m.mode != .lockout

/-- A function runs: D0 with Bus Master Enable set (Table 6-15), in a mode with host DMA, its slot not contained
(Table 16-3). -/
def Mach.awake (m : Mach) (slot fn : Nat) : Bool :=
  m.busOn && !(m.func slot fn).d3 && (m.func slot fn).bme && !bit (m.get Reg.FLT.SLOT_CONT) slot

/-- The engines of a class take no new work: a swap of the class has started and not switched (R321). -/
def Mach.swapping (m : Mach) (c : Nat) : Bool := (Tbl.find m.seqr.swaps c).any (·.started)

/-- A function is there: its slot is, and of a VF VF Enable is set (R149, R150). -/
def Mach.fnPresent (m : Mach) (slot fn : Nat) : Bool := m.slotPresent slot && (fn = 0 || Tbl.get m.hif.vfOn slot false)

/-- The size of a function's MSI-X table (Table 6-1). -/
def vectorsOf (fn : Nat) : Nat := if fn = 0 then 2048 else 64

/-- The link of a slot's host port leaves L1 before a message goes out on it (R169): its quadrant starts, and runs. -/
def Mach.leaveL1 (m : Mach) (slot : Nat) : Mach :=
  let q := quadOfSlot slot
  let m := m.wakeQuad q
  m.elapseTo (Tbl.get m.quads q {}).usableAt

/-- An event calls for PME (R169): PM_PME is sent only as PME_Status goes from 0 to 1 with PME_En set. -/
def Mach.pme (m : Mach) (slot fn : Nat) : Mach :=
  let f := m.func slot fn
  if f.pmeSts then m
  else
    let m := m.updFunc slot fn (fun f => { f with pmeSts := true })
    if f.pmeEn then ((m.leaveL1 slot).bump Reg.HIF.PME_SENT 1 slot).emit (.pme slot fn) else m

/-- An interrupt waits for its function. -/
def Mach.holdIrq (m : Mach) (slot fn vec : Nat) : Mach :=
  m.updFunc slot fn (fun f => { f with held := if f.held.contains vec then f.held else f.held ++ [vec] })

/-- The MSI-X message of a vector is posted, subject to the function's state (R169, Table 6-15), and not before its held completions
(R170). -/
def Mach.interrupt (m : Mach) (slot fn vec : Nat) : Mach :=
  let f := m.func slot fn
  if f.d3 then (m.holdIrq slot fn vec).pme slot fn
  else if !m.awake slot fn || f.late then m.holdIrq slot fn vec
  else if !f.unmasked.contains vec then
    m.updFunc slot fn (fun f => { f with pba := if f.pba.contains vec then f.pba else f.pba ++ [vec] })
  else ((m.leaveL1 slot).bump Reg.HIF.IRQS 1 slot).emit (.msix slot fn vec)

/-! ### Completion rings -/

/-- A completion ring. -/
def Mach.cr (m : Mach) (n : Nat) : Option ComplRing := Tbl.find m.hif.crs n
/-- The machine with a completion ring changed. -/
def Mach.updCr (m : Mach) (n : Nat) (f : ComplRing → ComplRing) : Mach :=
  match m.cr n with
  | some c => { m with hif := { m.hif with crs := Tbl.set m.hif.crs n (f c) } }
  | none => m
/-- A work ring. -/
def Mach.wr (m : Mach) (n : Nat) : Option WorkRing := Tbl.find m.hif.wrs n
/-- The machine with a work ring changed. -/
def Mach.updWr (m : Mach) (n : Nat) (f : WorkRing → WorkRing) : Mach :=
  match m.wr n with
  | some w => { m with hif := { m.hif with wrs := Tbl.set m.hif.wrs n (f w) } }
  | none => m

/-- A ring's interrupt is sent (R168): the timer stops, the ring is disarmed, nothing is unsignalled. -/
def Mach.crSend (m : Mach) (n : Nat) : Mach :=
  match m.cr n with
  | none => m
  | some c =>
    let m := m.updCr n (fun c => { c with timer := none, armed := false, unsig := 0 })
    if c.polled then m else m.interrupt c.slot c.func c.vector

/-- The moderation timer starts if it is idle; MOD_TIME 0 sends at once (Table 6-18). -/
def Mach.crTimer (m : Mach) (n : Nat) (c : ComplRing) : Mach :=
  if c.modTime = 0 then m.crSend n
  else m.updCr n (fun c => { c with timer := c.timer.or (some (m.clk + 200 * c.modTime)) })

/-- A completion is written: moderation (R168), which for one that was held waits until all that could be written is (R170). -/
def Mach.crWritten (m : Mach) (n : Nat) (solicit : Bool) : Mach :=
  match m.cr n with
  | none => m
  | some c =>
    let m := m.updCr n (fun c => { c with unsig := c.unsig + 1, urgent := c.urgent || (c.late && solicit) })
    if !c.armed || c.late then m
    else if solicit || max 1 c.modCount ≤ c.unsig + 1 then m.crSend n
    else m.crTimer n c

/-- The bytes of a completion entry as its write is issued (Table 6-12). -/
def Mach.complBytes (m : Mach) (cr : ComplRing) (c : Compl) : List Byte :=
  let cons := match m.wr c.ring with | some w => w.pos | none => 0
  let phase := cr.tail < 2 ^ cr.sizeLog2
  leBytes 4 c.workId ++ leBytes 1 c.opcode ++ leBytes 1 c.status ++ leBytes 2 c.ring ++ leBytes 8 c.data ++
  leBytes 4 c.length ++ leBytes 4 (c.peer % 1048576) ++ leBytes 4 (m.stamp (quadOfSlot cr.slot)) ++
  leBytes 2 cons ++ leBytes 1 c.detail ++ leBytes 1 (128 * b2n phase + b2n c.solicit)

/-- The host access that writes the entry at the tail. -/
def Mach.complOp (m : Mach) (n : Nat) (cr : ComplRing) (c : Compl) (got : List Trans) : HostOp :=
  { slot := cr.slot, func := cr.func, pd := c.pd, va := cr.base + 32 * (cr.tail % 2 ^ cr.sizeLog2), len := 32, kind := 1
    data := some (m.complBytes cr c), got := got, purpose := .completion n }

/-- The tail after one more entry. -/
def ComplRing.next (c : ComplRing) : Nat := (c.tail + 1) % (2 * 2 ^ c.sizeLog2)
/-- The ring is full (R164). -/
def ComplRing.full (c : ComplRing) : Bool :=
  (c.tail + 2 * 2 ^ c.sizeLog2 - c.head) % (2 * 2 ^ c.sizeLog2) == 2 ^ c.sizeLog2

/-- The completion that a ring writes next: those that wait for a translation stand before those in the overflow store. -/
def ComplRing.first (c : ComplRing) : Option Compl := c.xq.head?.or c.held.head?

/-- A ring without the completion that it writes next. -/
def ComplRing.behead (c : ComplRing) : ComplRing :=
  match c.xq with
  | _ :: r => { c with xq := r, xwait := false }
  | [] => { c with held := c.held.drop 1, xwait := false }

/-- The write of the completion at the head of a ring's queue has been issued: in TWO_WRITE its last byte is a second
posted write (R162). -/
def Mach.complIssued (m : Mach) (n : Nat) (c : Compl) : Mach :=
  match m.cr n with
  | none => m
  | some cr =>
    let m := m.updCr n (fun r => { r.behead with tail := cr.next })
    let m := if cr.twoWrite then
        match m.out with
        | .hostWrite s f pa d :: o =>
          if d.length = 32 then { m with out := .hostWrite s f (pa + 31) (d.drop 31) :: .hostWrite s f pa (d.take 31) :: o }
          else m
        | _ => m
      else m
    (m.bump Reg.HIF.COMPLETIONS 1 cr.slot).crWritten n c.solicit

/-- HOLD_MAX of a ring as it acts (Table 6-18). -/
def Mach.holdMax (m : Mach) (n : Nat) : Nat := min 1048576 (m.get Reg.HIF.HOLD_MAX n)

/-- Completions held in a quadrant's overflow store. -/
def Mach.heldIn (m : Mach) (q : Nat) : Nat :=
  ((m.hif.crs.vals.filter (fun c => quadOfSlot c.slot == q)).map (fun c => c.held.length)).sum

/-- A completion goes to the overflow store of the quadrant (R164), or is dropped where the ring holds HOLD_MAX or the store is full,
and the ring is in OVERFLOW (R165). -/
def Mach.holdCompl (m : Mach) (n : Nat) (c : Compl) : Mach :=
  match m.cr n with
  | none => m
  | some cr =>
    let q := quadOfSlot cr.slot
    if m.holdMax n ≤ cr.held.length || 1048576 ≤ m.heldIn q then
      let m := (m.bump Reg.HIF.OVF_DROP 1 cr.slot).updCr n (fun r => { r with overflow := true })
      (m.raise 68 (.ring cr.slot c.ring) c.workId q).record 0x6021 q [n, c.workId]
    else
      let m := if cr.held.isEmpty then m.record 0x6020 q [n, c.workId] else m
      m.updCr n (fun r => { r with held := r.held ++ [c] })

/-- A ring can take no entry now: it is full, or its function does not run (R164, R170). -/
def Mach.crStuck (m : Mach) (cr : ComplRing) : Bool := cr.full || !m.awake cr.slot cr.func

/-- What waits for a translation when its ring gets stuck goes to the overflow store. -/
def Mach.holdQueued (m : Mach) (n : Nat) : Mach :=
  match m.cr n with
  | none => m
  | some cr =>
    if m.crStuck cr && !cr.xq.isEmpty then
      let m := m.updCr n (fun r => { r with xq := [], held := [] })
      let m := cr.xq.foldl (fun (a : Mach) c => a.holdCompl n c) m
      m.updCr n (fun r => { r with held := r.held ++ cr.held })
    else m

/-- Completions that wait in a ring's queue are written in order while the ring has room, its function runs and no
translation is awaited (R164, R170). `got` holds what a walk has fetched for the first. -/
def Mach.drain (n : Nat) : Nat → List Trans → Mach → Mach
  | 0, _, m => m
  | fuel + 1, got, m =>
    match m.cr n with
    | none => m
    | some cr =>
      match cr.first with
      | none => m
      | some c =>
        if m.crStuck cr then m.holdQueued n
        else if cr.xwait then m
        else
          match m.hostAccess (m.complOp n cr c got) with
          | (m, .issued) => Mach.drain n fuel [] (m.complIssued n c)
          | (m, .waiting) => m.updCr n (fun r => { r with xwait := true })
          | (m, .fault _) => Mach.drain n fuel [] (m.updCr n ComplRing.behead)

/-- Everything a ring's queue holds is tried. -/
def Mach.drainCr (m : Mach) (n : Nat) (got : List Trans := []) : Mach :=
  match m.cr n with
  | some c => Mach.drain n (c.xq.length + c.held.length + 1) got m
  | none => m

/-- A completion becomes final for a ring (R162, R164, R165, R170): written, held, or dropped. -/
def Mach.crPut (m : Mach) (n : Nat) (c : Compl) : Mach :=
  match m.cr n with
  | none => m
  | some cr =>
    let m := if (m.func cr.slot cr.func).d3 then m.pme cr.slot cr.func else m
    let m := m.holdQueued n
    if m.crStuck cr || !cr.held.isEmpty then m.holdCompl n c
    else if !cr.xq.isEmpty then m.updCr n (fun r => { r with xq := r.xq ++ [c] })
    else (m.updCr n (fun r => { r with xq := [c] })).drainCr n

/-- The completion ring that takes a work's completion (R160): the ring named, or the default ring with PROTECTION and
DETAIL 4 where the named one is FREE or of another function; dropped and counted where the default is not active. -/
def Mach.postCompl (m : Mach) (w : WorkRing) (cr : Nat) (c : Compl) : Mach :=
  let mine := fun (n : Nat) => match m.cr n with
    | some x => x.slot == w.slot && x.func == w.func
    | none => false
  if mine cr then m.crPut cr c
  else if mine w.defCr then m.crPut w.defCr { c with status := 0x0B, detail := 4 }
  else m.bump Reg.HIF.OVF_DROP 1 w.slot

/-! ### Work -/

/-- A FLAGS bit of an entry (Table 6-5). -/
def Entry.flag (e : Entry) (k : Nat) : Bool := bit e.flags k
/-- TC of an entry's FLAGS. -/
def entryTc (e : Entry) : Nat := e.flags / 16 % 4
/-- DST_EID of an entry's body; 0 where it has none. -/
def entryDst (e : Entry) : Nat :=
  match e.body with
  | .rma d .. => d
  | .atomic d .. => d
  | .send d .. => d
  | .lock d .. => d
  | _ => 0
/-- FLOW of an entry (R469): as written, or derived from DST_EID and the ring number. -/
def entryFlow (ring : Nat) (e : Entry) : Nat :=
  if e.flow != 0 then e.flow
  else (crc32c (leBytes 4 (entryDst e % 1048576) ++ leBytes 2 ring ++ [0, 0])).toNat % 65536

/-- Entries of a ring fetched and not completed. -/
def Mach.inflight (m : Mach) (ring : Nat) : Nat := (m.hif.work.filter (fun w => w.ring == ring)).length

/-- The work of a ring by its place in ring order. -/
def Mach.workAt (m : Mach) (ring seq : Nat) : Option Work :=
  m.hif.work.find? (fun w => w.ring == ring && w.seq == seq)

/-- A work ends (R160, R166): it leaves the work in flight, and its completion is written if it failed or asked for
one. -/
def Mach.endWork (m : Mach) (ring seq status detail : Nat) (data : Nat := 0) (length : Nat := 0)
    (peer : Option Nat := none) : Mach :=
  match m.workAt ring seq, m.wr ring with
  | some w, some r =>
    let ws := m.hif.work.filter (fun x => !(x.ring == ring && x.seq == seq))
    let m := { m with hif := { m.hif with work := ws } }
    if status = 0 && !bit w.entry.flags 0 then m
    else m.postCompl r w.entry.cr
      { workId := w.entry.workId, opcode := w.entry.opcode, status := status, ring := ring, data := data
        length := length, peer := peer.getD (entryDst w.entry), detail := detail, solicit := bit w.entry.flags 1
        pd := r.pd }
  | some _, none =>
    let ws := m.hif.work.filter (fun x => !(x.ring == ring && x.seq == seq))
    { m with hif := { m.hif with work := ws } }
  | none, _ => m

/-! ### The scan (R157) -/

/-- Where a TXE's waiting list is kept. -/
def txeKey (slot txe : Nat) : Nat := 16 * quadOfSlot slot + txe

/-- Rings may be scanned in this mode (Table 15-1). -/
def Mach.scanMode (m : Mach) : Bool := m.mode = .run || m.mode = .drain

/-- The TXE a ring is bound to. -/
def WorkRing.engine (w : WorkRing) : Engine := { cls := .txe, q := Fin.ofNat 4 (quadOfSlot w.slot), n := Fin.ofNat 16 w.txe }

/-- The TXE of a ring has stopped, and no other runs (Table 16-4). -/
def Mach.txeStopped (m : Mach) (w : WorkRing) : Bool := (m.eng w.engine).stopped

/-- A ring may be scanned: ACTIVE, of a running function, not paused, not held at a FENCE, by the drain rule or behind a
RECV (R250), and not while the table of the TXEs is swapped (R321). -/
def Mach.mayScan (m : Mach) (w : WorkRing) : Bool :=
  m.scanMode && !m.swapping 1 && !m.txeStopped w && w.st = 1 && m.awake w.slot w.func && !w.paused && !w.recvHold && w.fenceAt.isNone && !w.drainStop

/-- The read of the granule at pos, carrying the doorbell count (R157). -/
def WorkRing.headerOp (w : WorkRing) (ring : Nat) : HostOp :=
  { slot := w.slot, func := w.func, pd := w.pd, va := w.base + 64 * w.pos, len := 64, kind := 0, data := none
    purpose := .ringHeader ring w.db w.pos }

/-- The read of the granules after a header. -/
def WorkRing.bodyOp (w : WorkRing) (ring len : Nat) (header : List Byte) : HostOp :=
  { slot := w.slot, func := w.func, pd := w.pd, va := w.base + 64 * (w.pos + 1), len := 64 * (len - 1), kind := 0
    data := none, purpose := .ringBody ring w.rdDb w.pos header }

/-- A ring leaves its TXE's waiting list. -/
def Mach.unlist (m : Mach) (ring : Nat) (w : WorkRing) : Mach :=
  { m with hif := { m.hif with
      waiting := Tbl.modify m.hif.waiting (txeKey w.slot w.txe) [] (fun l => l.filter (· != ring)) } }

/-- A ring's scan ends: stopped, paused, fenced or in error. -/
def Mach.stopScan (m : Mach) (ring : Nat) (w : WorkRing) : Mach :=
  (m.unlist ring w).updWr ring (fun w => { w with scanning := false, reading := false, turn := 0 })

/-- pos moves past an entry, and the phase inverts at the wrap (R155, R157). -/
def WorkRing.advance (w : WorkRing) (len : Nat) : WorkRing :=
  let p := w.pos + len
  if 2 ^ w.sizeLog2 ≤ p then { w with pos := 0, phase := !w.phase } else { w with pos := p }

/-- PEER_EID of an entry of which only granule 0 has been read: its DST_EID, where its opcode has one (Tables 6-7 to 6-12). -/
def headerPeer (header : List Byte) : Nat :=
  let op := field header 0 1
  if [0x10, 0x11, 0x12, 0x13, 0x20, 0x40, 0x41, 0x42].contains op then field header 16 4 % 1048576 else 0

/-- A ring error (R158): the entry completes with PROTECTION on the default ring, the ring goes to ERROR, FS67, event
0x6011. `workId`, `opcode`, `flags` are those of the header, zero where it could not be read. -/
def Mach.ringError (m : Mach) (ring : Nat) (w : WorkRing) (detail : Nat) (header : List Byte) : Mach :=
  let q := quadOfSlot w.slot
  let m := (m.stopScan ring w).updWr ring (fun w => { w with st := 3 })
  let c : Compl := { workId := field header 4 4, opcode := field header 0 1, status := 0x0B, ring := ring, data := 0
                     length := 0, peer := headerPeer header, detail := detail, solicit := bit (field header 1 1) 1, pd := w.pd }
  let m := match m.cr w.defCr with
    | some x => if x.slot == w.slot && x.func == w.func then m.crPut w.defCr c else m.bump Reg.HIF.OVF_DROP 1 w.slot
    | none => m.bump Reg.HIF.OVF_DROP 1 w.slot
  (m.raise 67 (.ring w.slot ring) detail q).record 0x6011 q [ring, detail]

/-- The TXE of a quadrant serves the ring at the head of its waiting list: a header read goes out. A ring that may not be
scanned leaves the list. `fuel` bounds the rings tried. -/
def Mach.pump (key : Nat) : Nat → Mach → Mach
  | 0, m => m
  | fuel + 1, m =>
    match Tbl.get m.hif.waiting key [] with
    | [] => m
    | ring :: _ =>
      match m.wr ring with
      | none => Mach.pump key fuel { m with hif := { m.hif with waiting := Tbl.modify m.hif.waiting key [] (·.drop 1) } }
      | some w =>
        if w.reading then m
        else if !m.mayScan w then Mach.pump key fuel (m.stopScan ring w)
        else
          let m := m.updWr ring (fun w => { w with scanning := true, reading := true, rdDb := w.db })
          match m.hostAccess (w.headerOp ring) with
          | (m, .fault _) => Mach.pump key fuel (m.ringError ring w 7 [])
          | (m, _) => m

/-- A TXE goes on with its waiting rings. -/
def Mach.pumpTxe (m : Mach) (slot txe : Nat) : Mach :=
  let key := txeKey slot txe
  Mach.pump key ((Tbl.get m.hif.waiting key []).length + 1) m

/-- A ring becomes ready to scan (R157): its TXE is woken, is usable 20 ns later (R468), and the ring joins the TXE's waiting rings at the tail. -/
def Mach.readyScan (m : Mach) (ring : Nat) : Mach :=
  match m.wr ring with
  | none => m
  | some w =>
    if !m.mayScan w then m
    else
      let m := m.callUp w.engine
      let key := txeKey w.slot w.txe
      if (Tbl.get m.hif.waiting key []).contains ring then m
      else
        let m := { m with hif := { m.hif with waiting := Tbl.modify m.hif.waiting key [] (· ++ [ring]) } }
        m.pumpTxe w.slot w.txe

/-- The head of a list goes to its tail. -/
def rotateList (l : List Nat) : List Nat := match l with | [] => [] | a :: r => r ++ [a]

/-- The ring has taken an entry: at 4,096 in flight it pauses; after 16 entries it yields to another waiting ring; else
the next header is read (R157). -/
def Mach.afterEntry (m : Mach) (ring : Nat) : Mach :=
  match m.wr ring with
  | none => m
  | some w =>
    let key := txeKey w.slot w.txe
    let m := m.updWr ring (fun w => { w with reading := false, turn := w.turn + 1 })
    if 4096 ≤ m.inflight ring then
      ((m.updWr ring (fun w => { w with paused := true })).stopScan ring w).pumpTxe w.slot w.txe
    else if 16 ≤ w.turn + 1 && 1 < (Tbl.get m.hif.waiting key []).length then
      let m := m.updWr ring (fun w => { w with turn := 0 })
      { m with hif := { m.hif with waiting := Tbl.modify m.hif.waiting key [] rotateList } }.pumpTxe w.slot w.txe
    else m.pumpTxe w.slot w.txe

/-! ### Parsing an entry (Tables 6-4 to 6-11) -/

/-- The bytes of a range are all zero. -/
def zeroAt (b : List Byte) (off n : Nat) : Bool := field b off n == 0

/-- The body of an entry by its opcode, and whether every reserved field is zero. -/
def parseBody (op : Nat) (arg : Nat) (b : List Byte) : EntryBody × Bool :=
  match op with
  | 0x10 => (.rma (field b 16 4 % 1048576) (field b 20 4 % 1048576) (field b 24 8) (field b 32 8) (field b 40 4) 0 0,
      arg = 0 && field b 16 4 < 1048576 && field b 20 4 < 1048576 && zeroAt b 44 20)
  | 0x11 => (.rma (field b 16 4 % 1048576) (field b 20 4 % 1048576) (field b 24 8) (field b 32 8) (field b 40 4)
        (field b 48 8) (field b 56 8),
      arg = 0 && field b 16 4 < 1048576 && field b 20 4 < 1048576 && zeroAt b 44 4)
  | 0x12 => (.rma (field b 16 4 % 1048576) (field b 20 4 % 1048576) (field b 24 8) (field b 32 8) (field b 40 4) 0 0,
      arg = 0 && field b 16 4 < 1048576 && field b 20 4 < 1048576 && zeroAt b 44 20)
  | 0x13 => (.atomic (field b 16 4 % 1048576) (field b 20 4 % 1048576) (field b 24 8) (field b 32 8) (field b 40 8)
        (field b 48 8),
      arg < 65536 && field b 16 4 < 1048576 && field b 20 4 < 1048576 && zeroAt b 56 8)
  | 0x20 => (.send (field b 16 4 % 1048576) (field b 20 4 % 8192) (field b 24 8) (field b 32 8) (field b 40 4),
      arg = 0 && field b 16 4 < 1048576 && field b 20 4 < 8192 && zeroAt b 44 20)
  | 0x21 => (.recv (field b 16 4 % 1048576) (field b 20 4 % 8192) (field b 24 8) (field b 32 8) (field b 48 8)
        (field b 56 4),
      arg < 2 && (arg = 1 || field b 16 4 < 1048576) && field b 20 4 < 8192 && zeroAt b 40 8 && zeroAt b 60 4)
  | 0x22 => (.cancel (field b 16 4) (field b 20 4 % 65536), arg = 0 && field b 20 4 < 65536 && zeroAt b 24 40)
  | 0x30 => (.coll (field b 16 1) (field b 17 1) (field b 18 1) (bit (field b 19 1) 0) (field b 20 4) (field b 24 8)
        (field b 32 8) (field b 40 4),
      arg < 4096 && field b 19 1 < 2 && zeroAt b 44 20)
  | 0x40 => (.lock (field b 16 4 % 1048576) (field b 20 4 % 65536) (field b 24 4),
      arg = 0 && field b 16 4 < 1048576 && field b 20 4 < 65536 && zeroAt b 28 36)
  | 0x41 => (.lock (field b 16 4 % 1048576) (field b 20 4 % 65536) 0,
      arg = 0 && field b 16 4 < 1048576 && field b 20 4 < 65536 && zeroAt b 24 40)
  | 0x42 => (.lock (field b 16 4 % 1048576) (field b 20 4 % 65536) 0,
      arg = 0 && field b 16 4 < 1048576 && field b 20 4 < 65536 && zeroAt b 24 40)
  | _ => (.none, arg = 0)

/-- An entry from its granules. -/
def parseEntry (b : List Byte) : Entry :=
  let op := field b 0 1
  let (body, clean) := parseBody op (field b 12 4) b
  { opcode := op, flags := field b 1 1, len := field b 2 1, own := bit (field b 3 1) 7, workId := field b 4 4
    cr := field b 8 2 % 16384, flow := field b 10 2, arg := field b 12 4, body := body, inline := b.drop 64
    clean := clean && field b 3 1 % 128 == 0 && field b 8 2 < 16384 && !bit (field b 1 1) 3 && !bit (field b 1 1) 7 }

/-- The bytes of granule 0 that a ring error's completion repeats: OPCODE, FLAGS, LEN, OWN, WORK_ID, and DST_EID (Tables 6-4, 6-12). -/
def entryHeader (e : Entry) : List Byte :=
  leBytes 1 e.opcode ++ leBytes 1 e.flags ++ leBytes 1 e.len ++ leBytes 1 (128 * b2n e.own) ++ leBytes 4 e.workId ++ zeros 8 ++
  leBytes 4 (entryDst e % 1048576)

/-- The opcodes of Table 6-6. -/
def opcodeKnown (op : Nat) : Bool :=
  op = 0 || op = 1 || op = 0x10 || op = 0x11 || op = 0x12 || op = 0x13 || op = 0x20 || op = 0x21 || op = 0x22 ||
  op = 0x30 || op = 0x40 || op = 0x41 || op = 0x42 || op = 0x50 || op = 0x51

/-- LENGTH of a PUT, PUT_FLAG or SEND. -/
def entryLength (e : Entry) : Nat :=
  match e.body with
  | .rma _ _ _ _ n _ _ => n
  | .send _ _ _ _ n => n
  | _ => 0

/-- The opcodes whose payload may be inline (Table 6-5). -/
def takesInline (op : Nat) : Bool := op = 0x10 || op = 0x11 || op = 0x20

/-- The DETAIL of a malformed entry that leaves the ring running (R158, Tables 6-5, 6-6 and 6-14); none for a good one. -/
def entryBad (e : Entry) : Option Nat :=
  if !opcodeKnown e.opcode then some 2
  else if !e.clean then some 3
  else if (takesInline e.opcode || e.opcode = 0x12) && (entryTc e = 1 || entryTc e = 2) then some 3
  else if e.opcode = 0x13 && !(e.arg / 256 = 2 || e.arg / 256 = 3) then some 3
  else if takesInline e.opcode && bit e.flags 2 && 64 * (e.len - 1) < entryLength e then some 3
  else none

/-- The opcodes that are fetched and run in DRAIN (R362). -/
def drainsOpcode (op : Nat) : Bool :=
  op = 0 || op = 1 || op = 0x50 || op = 0x51 || op = 0x41 || op = 0x22

/-- A whole entry is taken (R157, R158): handed on to its engine, or completed with PROTECTION; a FENCE stops the scan
(R159). -/
def Mach.takeEntry (m : Mach) (ring : Nat) (w : WorkRing) (b : List Byte) : Mach :=
  let e := parseEntry b
  let m := (m.updWr ring (fun w => { w.advance e.len with seq := w.seq + 1 })).bump Reg.HIF.ENTRIES 1 w.slot
  let work : Work := { ring := ring, seq := w.seq, entry := e }
  let m := { m with hif := { m.hif with work := m.hif.work ++ [work] } }
  match entryBad e with
  | some d => (m.endWork ring w.seq 0x0B d).afterEntry ring
  | none =>
    if e.opcode = 0x50 then
      ((m.updWr ring (fun x => { x with fenceAt := some w.seq })).stopScan ring w).pumpTxe w.slot w.txe
    else m.afterEntry ring

/-- The scan position moves past a PAD (R154). -/
def Mach.skipPad (m : Mach) (ring len : Nat) : Mach :=
  (m.updWr ring (fun w => w.advance len)).afterEntry ring

/-- A header has come (R157). One that an earlier scan of the ring asked for is not taken. -/
def Mach.ringHeader (m : Mach) (ring db pos : Nat) (b : List Byte) : Mach :=
  match m.wr ring with
  | none => m
  | some w =>
    if w.st != 1 || !w.reading || w.pos != pos || w.rdDb != db then m
    else if !m.mayScan w then (m.stopScan ring w).pumpTxe w.slot w.txe
    else
      let own := bit (field b 3 1) 7
      let len := field b 2 1
      let op := field b 0 1
      let m := m.flag w.engine (if own = w.phase then [16] else []) [16]
      if own != w.phase then
        if w.db != db then (m.updWr ring (fun w => { w with reading := false })).pumpTxe w.slot w.txe
        else
          let m := m.stopScan ring w
          let m := if w.wbEn then
              (m.hostAccess { slot := w.slot, func := w.func, pd := w.pd, va := w.wbAddr, len := 4, kind := 1
                              data := some (leBytes 4 w.pos), purpose := .consWb ring }).1
            else m
          m.pumpTxe w.slot w.txe
      else if len = 0 || 16 < len then (m.ringError ring w 1 b).pumpTxe w.slot w.txe
      else if 2 ^ w.sizeLog2 < w.pos + len then (m.ringError ring w 6 b).pumpTxe w.slot w.txe
      else if m.mode = .drain && !drainsOpcode op then
        ((m.updWr ring (fun w => { w with drainStop := true })).stopScan ring w).pumpTxe w.slot w.txe
      else if op = 1 then m.skipPad ring len
      else if len = 1 then m.takeEntry ring w b
      else match m.hostAccess (w.bodyOp ring len b) with
        | (m, .fault _) => (m.ringError ring w 7 b).pumpTxe w.slot w.txe
        | (m, _) => m

/-- A body has come. -/
def Mach.ringBody (m : Mach) (ring db pos : Nat) (header b : List Byte) : Mach :=
  match m.wr ring with
  | none => m
  | some w => if w.st != 1 || !w.reading || w.pos != pos || w.rdDb != db then m else m.takeEntry ring w (header ++ b)

/-- A ring read has failed, in translation or on PCIe (R158): DETAIL 7, also where the scan has paused meanwhile. -/
def Mach.ringReadFailed (m : Mach) (ring db : Nat) (header : List Byte) : Mach :=
  match m.wr ring with
  | none => m
  | some w => if w.st != 1 || w.rdDb != db then m else (m.ringError ring w 7 header).pumpTxe w.slot w.txe

/-! ### Starting and ending a work -/

/-- Every entry of a ring before a FENCE has completed: the FENCE completes and the scan goes on (R159). -/
def Mach.fenceDone (m : Mach) (ring : Nat) : Mach :=
  match m.wr ring with
  | none => m
  | some w =>
    match w.fenceAt with
    | none => m
    | some s =>
      if m.hif.work.any (fun x => x.ring == ring && x.seq < s) then m
      else ((m.updWr ring (fun w => { w with fenceAt := none })).endWork ring s 0 0).readyScan ring

/-- A work ends (R160, R166), and a FENCE that waited for it goes on (R159). -/
def Mach.finishWork (m : Mach) (ring seq status detail : Nat) (data : Nat := 0) (length : Nat := 0)
    (peer : Option Nat := none) : Mach :=
  (m.endWork ring seq status detail data length peer).fenceDone ring

/-- An entry that no scan has fetched may be handed over by a command, as fetched in that moment (R155, R157): its ring may be scanned
and waits for no read, the entry is owned, and the drain rule allows its opcode. -/
def Mach.takes (m : Mach) (w : WorkRing) (e : Entry) : Bool :=
  m.mayScan w && !w.reading && e.own == w.phase && (m.mode != .drain || drainsOpcode e.opcode)

/-- DETAIL of the ring error that an entry's LEN makes (R158); none where it makes none. -/
def lenError (w : WorkRing) (e : Entry) : Option Nat :=
  if e.len = 0 || 16 < e.len then some 1 else if 2 ^ w.sizeLog2 < w.pos + e.len then some 6 else none

/-- The work that a command runs: entries of a ring start in ring order (R159), so `e` is the first of the ring's fetched
entries that has not started; where none waits, `e` is taken as fetched now, and the scan position moves past it. It is marked as
started. -/
def Mach.takeWork (m : Mach) (ring : Nat) (e : Entry) : Option (Nat × WorkRing × Mach) :=
  match m.wr ring with
  | none => none
  | some r =>
    let next := fun (w : Work) => w.ring == ring && !w.started
    match m.hif.work.find? next with
    | some w =>
      if w.entry == e then
        let ws := modifyFirst next (fun w => { w with started := true }) m.hif.work
        some (w.seq, r, { m with hif := { m.hif with work := ws } })
      else none
    | none =>
      if m.takes r e && lenError r e = none then
        let m := (m.updWr ring (fun r => { r.advance e.len with
          seq := r.seq + 1, paused := r.paused || decide (4096 ≤ m.inflight ring + 1) })).bump Reg.HIF.ENTRIES 1 r.slot
        some (r.seq, r, { m with hif := { m.hif with
          work := m.hif.work ++ [{ ring := ring, seq := r.seq, entry := e, started := true }] } })
      else none

/-- A command hands over an entry whose LEN makes a ring error (R158). -/
def Mach.badLen (m : Mach) (ring : Nat) (e : Entry) : Mach :=
  match m.wr ring with
  | none => m
  | some w =>
    match lenError w e with
    | some d =>
      if m.takes w e && !m.hif.work.any (fun x => x.ring == ring && !x.started) then
        (m.ringError ring w d (entryHeader e)).pumpTxe w.slot w.txe
      else m
    | none => m

/-- The engines that an opcode's work goes to take no new work (R321). -/
def Mach.opHeld (m : Mach) (op : Nat) : Bool :=
  if op = 0x21 || op = 0x22 then m.swapping 3
  else if op = 0x30 then m.swapping 4
  else (op = 0x13 || op = 0x40 || op = 0x41 || op = 0x42) && m.swapping 5

/-- A RECV or RECV_CANCEL stays behind a RECV of its ring that is held at the posted-receive limit (R249, R250). -/
def Mach.behindRecv (m : Mach) (ring op : Nat) : Bool :=
  (op = 0x21 || op = 0x22) && m.mat.heldRecv.any (fun r => r.ring == ring)

/-- Engines work in this mode: not in ATTEST, DORMANT, SAFE or LOCKOUT (R364, Table 16-6). -/
def Mach.enginesRun (m : Mach) : Bool := m.mode = .config || m.mode = .train || m.mode = .run || m.mode = .drain

/-- A work entry of opcode `op` is handed to its engine (R157): a malformed one completes with PROTECTION and its DETAIL
(R158), another runs `act` with its place in ring order and its ring. -/
def Mach.runEntry (m : Mach) (ring : Nat) (e : Entry) (op : Nat) (act : Mach → Nat → WorkRing → Mach) : Mach :=
  if e.opcode != op || m.opHeld op || m.behindRecv ring op || !m.enginesRun then m
  else match m.takeWork ring e with
    | none => m.badLen ring e
    | some (seq, w, m) =>
      match entryBad e with
      | some d => m.finishWork ring seq 0x0B d
      | none => act m seq w

end Sys2Proof.Machine
end

