-- ==== Sys2Proof/Machine/Route.lean ====
section
/-!
DEFINITION. Routing (file 05): addresses and the port map (R116 to R126), the choice of an output (R127 to R131),
beacons (R133 to R135), lifetime and hop limits, local delivery (R140 to R143), ports that fail (R144, R145).
-/

namespace Sys2Proof.Machine

/-! ### Geometry (R116 to R118) -/

/-- D, the number of dimensions. -/
def Mach.dims (m : Mach) : Nat := m.get Reg.RTE.DIMS + 1
/-- W_d. -/
def Mach.cw (m : Mach) (d : Nat) : Nat :=
  m.get (match d with | 0 => Reg.RTE.W0 | 1 => Reg.RTE.W1 | 2 => Reg.RTE.W2 | _ => Reg.RTE.W3)
/-- S_d. -/
def Mach.cs (m : Mach) (d : Nat) : Nat :=
  m.get (match d with | 0 => Reg.RTE.S0_M1 | 1 => Reg.RTE.S1_M1 | 2 => Reg.RTE.S2_M1 | _ => Reg.RTE.S3_M1) + 1
/-- OFF_d. -/
def Mach.coff (m : Mach) (d : Nat) : Nat := ((List.range d).map m.cw).sum
/-- The coordinate of an address in dimension `d` (R116). -/
def Mach.coord (m : Mach) (da d : Nat) : Nat := da / 2 ^ m.coff d % 2 ^ m.cw d
/-- A valid DA (R117). -/
def Mach.daValid (m : Mach) (da : Nat) : Bool :=
  da / 2 ^ m.coff m.dims == 0 && (List.range m.dims).all (fun d => m.coord da d < m.cs d)
/-- A valid EID: its DA is valid, whatever its slot (R117). -/
def Mach.eidValid (m : Mach) (eid : Nat) : Bool := eid < 1048576 && m.daValid (eid / 16)
/-- The module's own DA. -/
def Mach.ownDa (m : Mach) : Nat := m.get Reg.RTE.OWN_DA
/-- An EID of this module. -/
def Mach.ownEid (m : Mach) (slot : Nat) : Nat := 16 * m.ownDa + slot

/-! ### The port map (R122 to R125) -/

/-- A port may carry routed packets: it is trained, ROUTE_EN is 1, CABLE_ERR is 0, and it is not looped (R110, R124). -/
def Mach.inUse (m : Mach) (p : Nat) : Bool :=
  m.trained p && m.isSet Reg.RTE.ROUTE_EN p && !m.isSet Reg.RTE.CABLE_ERR p && !(m.link p).looped

/-- A port is usable (R124): it may carry routed packets and is a valid member of an entry. -/
def Mach.usable (m : Mach) (p : Nat) : Bool := m.inUse p && (m.entryOf p).isSome

/-- q(p): cells of packets selected for a port and not yet sent (R129). -/
def Mach.queued (m : Mach) (p : Nat) : Nat := ((m.rp p).sel.map (fun x => cellsOf x.arr.len)).sum

/-- The usable members of entry [d][x], in ascending port order. -/
def Mach.members (m : Mach) (d x : Nat) : List Nat :=
  let e := d * 64 + x
  let named := m.namedMembers e
  (List.range 128).filter (fun p => named.contains p && m.entryOf p == some e && m.usable p)

/-- The port with the fewest queued cells, and of equal ones the lower port. -/
def Mach.leastQueued (m : Mach) (ps : List Nat) : Option Nat :=
  match ps with
  | [] => none
  | p :: r => some (r.foldl (fun a b => if m.queued b < m.queued a then b else a) p)

/-- A hop chosen for a packet: the port, the kind, the dimension, the VC, and the entry it serves: the port's own, or the one
whose partner detour it is the first hop of. -/
structure Hop where
  port  : Nat
  kind  : HopKind
  dim   : Nat
  vc    : Nat
  entry : Nat
  deriving DecidableEq, Repr

/-- The partner route of a whole entry (R125, 2): the first hop of the detour through its DETOUR_COORD, on the adaptive
VC (R136). -/
def Mach.partnerOfEntry (m : Mach) (d x tc : Nat) : Option Hop :=
  let e := d * 64 + x
  if m.isSet Reg.RTE.DETOUR_V e then
    (m.leastQueued (m.members d (m.get Reg.RTE.DETOUR_COORD e))).map (fun p =>
      { port := p, kind := .detourFirst, dim := d, vc := 2 * tc + 1, entry := e })
  else none

/-- The partner route of a port for a packet of its replay buffer that was on `vc` (R125, R112): another usable member of
its entry, else the detour, which a packet already on a detour does not take (R136). -/
def Mach.partnerOfPort (m : Mach) (p : Nat) (k : Packet) (vc : Nat) : Option Hop :=
  match m.entryOf p with
  | none => none
  | some e =>
    match m.leastQueued ((m.members (e / 64) (e % 64)).filter (· != p)) with
    | some o => some { port := o, kind := .again, dim := e / 64, vc := vc, entry := e }
    | none => if k.hdr.detour then none else m.partnerOfEntry (e / 64) (e % 64) k.hdr.tc

/-! ### Beacon levels (R134) -/

/-- FF_PERIOD as it acts, in ns. -/
def Mach.ffPeriod (m : Mach) : Nat := 100 * clamp 5 100 (m.get Reg.RTE.FF_PERIOD)
/-- FF_STALE as it acts. -/
def Mach.ffStale (m : Mach) : Nat := max 2 (m.get Reg.RTE.FF_STALE)
/-- FF_FRESH as it acts. -/
def Mach.ffFresh (m : Mach) : Nat := min (max 1 (m.get Reg.RTE.FF_FRESH)) (m.ffStale - 1)

/-- The age of a port's latest beacon, in ns (R134): from its STAMP, or from receipt while UNLOCKED. -/
def Mach.beaconAge (m : Mach) (p : Nat) : Option Nat :=
  (m.rp p).beacon.map (fun b =>
    if m.unlocked then (m.clk - (m.rp p).beaconAt) / Config.nsCycles else sub32 (m.stamp (quadOfPort p)) b.stamp)

/-- BEACON_AGE (Table 5-8): ns since the STAMP of the last beacon, sticking at its largest value. -/
def Mach.beaconAgeNow (m : Mach) (p : Nat) : Nat :=
  match (m.rp p).beacon with
  | some _ => min 4294967295 ((m.hgt (quadOfPort p) / 16 : Nat) - (m.rp p).sentAt).toNat
  | none => 4294967295

/-- The aged level that a port's neighbour reports for its entry [e][y]; none where the candidate is excluded (R134). -/
def Mach.remote (m : Mach) (p e y : Nat) : Option Nat :=
  match (m.rp p).beacon, m.beaconAge p with
  | some b, some age =>
    let k := age / m.ffPeriod
    let l := Tbl.get b.levels (e * 64 + y) 255
    if m.ffStale ≤ k then some 0
    else if l = 255 then none
    else if k ≤ m.ffFresh then some l
    else some (l / 2 ^ (k - m.ffFresh))
  | _, _ => some 0

/-- LEVEL[d][x] as this module reports it (R134). -/
def Mach.levelOf (m : Mach) (d x : Nat) : Nat :=
  if m.dims ≤ d || m.cs d ≤ x || x = m.coord m.ownDa d then 255
  else match m.members d x with
  | [] => 255
  | ps => min 254 ((ps.map m.queued).foldl min (m.queued (ps.headD 0)) / 64)

/-! ### The choice of an output (R127 to R131) -/

/-- The unaligned dimensions of a destination. -/
def Mach.unaligned (m : Mach) (dst : Nat) : List Nat :=
  (List.range m.dims).filter (fun d => m.coord m.ownDa d != m.coord (dst / 16) d)

/-- The escape hop (R127). -/
def Mach.escapeHop (m : Mach) (k : Packet) : Option Hop :=
  let h := k.hdr
  let d := if h.detour then h.detourDim else (m.unaligned h.dst).headD 0
  let t := m.coord (h.dst / 16) d
  match m.members d t with
  | [] => if h.detour then none else m.partnerOfEntry d t h.tc
  | ps => some { port := ps.getD (h.flow % ps.length) 0, kind := .escape, dim := d
                 vc := 2 * h.tc + b2n (h.detour && !h.esc), entry := d * 64 + t }

/-- A candidate with what it is compared by: cost, then another quadrant, then (p − FLOW) mod 128 (R129, R130). -/
structure Costed where
  cost : Nat
  far  : Nat
  turn : Nat
  hop  : Hop
  deriving DecidableEq, Repr

/-- The lower of two candidates. -/
def Costed.less (a b : Costed) : Bool :=
  a.cost < b.cost || a.cost = b.cost && (a.far < b.far || a.far = b.far && a.turn < b.turn)

/-- The least of a list of candidates. -/
def leastCost : List Costed → Option Costed
  | [] => none
  | c :: r => some (r.foldl (fun a b => if b.less a then b else a) c)

/-- A candidate of cost `cost` on port `p`, a member of entry [d][x]. -/
def costed (from_ flow cost p : Nat) (kind : HopKind) (d x vc : Nat) : Costed :=
  { cost := cost, far := b2n (quadOfPort p != from_), turn := (p + 128 - flow % 128) % 128
    hop := { port := p, kind := kind, dim := d, vc := vc, entry := d * 64 + x } }

/-- w(r) (R129). -/
def Mach.weigh (m : Mach) (r : Nat) : Nat := r * 8 * min 8 (m.get Reg.RTE.FF_WEIGHT)

/-- The minimal candidates with their costs (R128, R129). -/
def Mach.minimalHops (m : Mach) (from_ : Nat) (k : Packet) : List Costed :=
  let h := k.hdr
  let u := m.unaligned h.dst
  u.flatMap (fun d =>
    let rest := u.filter (· != d)
    let t := m.coord (h.dst / 16) d
    (m.members d t).filterMap (fun p =>
      let ls := rest.filterMap (fun e => m.remote p e (m.coord (h.dst / 16) e))
      if rest.isEmpty then some (costed from_ h.flow (m.queued p) p .minimal d t (2 * h.tc + 1))
      else match ls with
        | [] => none
        | l :: r => some (costed from_ h.flow (m.queued p + m.weigh (r.foldl min l)) p .minimal d t (2 * h.tc + 1))))

/-- `n` values of a list drawn without repeats, by free draws. -/
def drawFrom : Nat → Nat → List Nat → List Nat
  | 0, _, _ => []
  | n + 1, seed, l =>
    match l with
    | [] => []
    | a :: r =>
      let x := (a :: r).getD (Config.sampleCoord seed % (a :: r).length) a
      x :: drawFrom n (seed + 1) ((a :: r).filter (· != x))

/-- The non-minimal candidates with their costs (R128, R129). -/
def Mach.nonMinimalHops (m : Mach) (from_ : Nat) (k : Packet) : List Costed :=
  let h := k.hdr
  let n := max 1 (m.get Reg.RTE.NM_SAMPLES)
  if !m.isSet Reg.RTE.NM_EN || h.minOnly then []
  else (m.unaligned h.dst).flatMap (fun d =>
    let t := m.coord (h.dst / 16) d
    if bit h.derouted d || m.cs d < 3 then []
    else
      let xs := (List.range (m.cs d)).filter (fun x => x != t && x != m.coord m.ownDa d)
      let drawn := if xs.length ≤ n then xs else drawFrom n (m.free + 4 * d) xs
      drawn.flatMap (fun x => (m.members d x).filterMap (fun p =>
        (m.remote p d t).map (fun r =>
          costed from_ h.flow (2 * (m.queued p + m.weigh r) + m.get Reg.RTE.NM_BIAS) p .nonMinimal d x (2 * h.tc + 1)))))

/-- The hop of a packet for another module (R127 to R130); none where there is no route (R145). -/
def Mach.chooseHop (m : Mach) (from_ : Nat) (k : Packet) : Option Hop :=
  let h := k.hdr
  if h.detour then
    let t := m.coord (h.dst / 16) h.detourDim
    (leastCost ((m.members h.detourDim t).map (fun p =>
      costed from_ h.flow (m.queued p) p (if h.esc then .escape else .minimal) h.detourDim t
        (2 * h.tc + b2n (!h.esc))))).map (·.hop)
  else if h.esc then m.escapeHop k
  else
    match leastCost (m.minimalHops from_ k), leastCost (m.nonMinimalHops from_ k) with
    | some a, some b => some (if b.cost < a.cost then b.hop else a.hop)
    | none, some b => some b.hop
    | some a, none => some a.hop
    | none, none => m.escapeHop k

/-! ### Discards (R121, R140, R141, R145) -/

/-- The header of an arrival is valid (R121); VC div 2 equals TC is asked of a frame's header. -/
def Mach.headerValid (m : Mach) (a : Arrival) : Bool :=
  let h := a.pkt.hdr
  h.version = 1 && h.zero && 64 + h.payLen = a.len && 1 ≤ h.kind && h.kind ≤ 0x2F && m.eidValid h.dst &&
  h.tc < 4 && (match a.from_ with | .port _ => a.vc / 2 = h.tc | .engines _ => true)

/-- A packet's age in ns by a quadrant's clock (R31). -/
def Mach.ageOf (m : Mach) (q : Nat) (k : Packet) : Nat := sub32 (m.stamp q) k.hdr.injTs

/-- LIFETIME as it acts, in ns. -/
def Mach.lifetime (m : Mach) : Nat := clamp 1 500 (m.get Reg.RTE.LIFETIME) * 1000000

/-- A packet older than LIFETIME; an UNLOCKED module makes no check (R140). -/
def Mach.expired (m : Mach) (q : Nat) (k : Packet) : Bool := !m.unlocked && m.lifetime < m.ageOf q k

/-- The unit of a source that a header raises: the port it arrived on. -/
def ingUnit (i : Ingress) : FUnit :=
  match i with
  | .port p => .port p
  | .engines _ => .none

/-- A packet discarded on its arrival at a port counts for that port (Table 19-2). -/
def Mach.pmcDiscard (m : Mach) (i : Ingress) : Mach :=
  match i with
  | .port p => m.pmcPort p 0x2B 1
  | .engines _ => m

/-- The HGT second that now runs counts its lifetime discards (R140), from 0 and under DISCARD_LIMIT as it stood when it began (Table
5-8): `lim` is that value, where nothing has looked at this second yet. -/
def Mach.discardSecond (m : Mach) (lim : Nat) : Mach :=
  let sec := m.hgtRef / Config.hgtSec
  if m.rte.discSec = sec then m else { m with rte := { m.rte with discSec := sec, discNum := 0, discLim := lim } }

/-- A lifetime discard (R140): counted, event 0x4020, and FS51 at the discard that takes the second's count above
DISCARD_LIMIT. -/
def Mach.discardLifetime (m : Mach) (a : Arrival) : Mach :=
  let q := (ingQuad a.from_)
  let m := m.discardSecond (m.get Reg.RTE.DISCARD_LIMIT)
  let num := m.rte.discNum + 1
  let lim := m.rte.discLim
  let m := ((((m.bump Reg.RTE.DISC_LIFETIME).pmcDiscard a.from_).freeArrival a).record 0x4020 q [a.pkt.hdr.src, a.pkt.hdr.dst])
  let m := { m with rte := { m.rte with discNum := num } }
  if 0 < lim && num = lim + 1 then m.raise 51 .none num q else m

/-- No route (R145): counted, event 0x4030, FS50. -/
def Mach.noRoute (m : Mach) (q : Nat) (k : Packet) : Mach :=
  ((m.bump Reg.RTE.DISC_NOROUTE).record 0x4030 q [k.hdr.src, k.hdr.dst]).raise 50 .none k.hdr.dst q

/-- ESC_WAIT as it acts, in CORECLK cycles. -/
def Mach.escWait (m : Mach) : Nat := clamp 10 1000 (m.get Reg.RTE.ESC_WAIT) * 10 * Config.nsCycles

/-- The first detour through an entry since its port went down is event 0x4031. -/
def Mach.noteDetour (m : Mach) (h : Hop) : Mach :=
  if h.kind = .detourFirst && !m.rte.detoured.contains h.entry then
    { m with rte := { m.rte with detoured := h.entry :: m.rte.detoured } }.record 0x4031 (quadOfPort h.port) [h.entry]
  else m

/-- A packet is selected for a hop (R129): it crosses to the quadrant of its output (R14), and ESC_WAIT begins (R131). -/
def Mach.select_ (m : Mach) (a : Arrival) (h : Hop) : Mach :=
  let q := ingQuad a.from_
  let path := m.diePath q (quadOfPort h.port) h.vc
  let x : Selected := { arr := { a with path := path }, hop := h.kind, dim := h.dim, vc := h.vc, atc := m.clk, entry := h.entry
                        escAt := m.clk + m.escWait }
  ((m.updRp h.port (fun y => { y with sel := y.sel ++ [x] })).crossDies q path).noteDetour h

/-- The draws a selection may use are spent. -/
def Mach.spendDraws (m : Mach) : Mach := { m with free := m.free + 16 }

/-- An arrival is routed: re-injected packets by the partner route (R112), local ones to their quadrant's queue (R143),
the others by R129. -/
def Mach.route (m : Mach) (a : Arrival) : Mach :=
  let h := a.pkt.hdr
  let q := (ingQuad a.from_)
  if m.expired q a.pkt then m.discardLifetime a
  else match a.replayOf with
  | some p =>
    match m.partnerOfPort p a.pkt a.vc with
    | some hop => m.select_ a hop
    | none => ((m.pmcDiscard a.from_).freeArrival a).noRoute q a.pkt
  | none =>
    if (m.unaligned h.dst).isEmpty then
      let there := h.dst % 16 / 4
      let path := m.diePath q there a.vc
      let m := m.crossDies q path
      { m with rte := { m.rte with local_ := Tbl.modify m.rte.local_ (4 * there + h.tc) [] (· ++ [{ a with path := path }]) } }
    else
      match a.from_ with
      | .port _ =>
        if max 8 (m.get Reg.RTE.HOP_MAX) ≤ h.hops then
          ((((m.bump Reg.RTE.DISC_HOPS).pmcDiscard a.from_).freeArrival a).record 0x4021 q [h.src, h.dst]).raise 52 (ingUnit a.from_) h.dst q
        else match m.chooseHop q a.pkt with
          | some hop => (m.select_ a hop).spendDraws
          | none => ((m.pmcDiscard a.from_).freeArrival a).noRoute q a.pkt
      | .engines _ =>
        match m.chooseHop q a.pkt with
        | some hop => (m.select_ a hop).spendDraws
        | none => ((m.pmcDiscard a.from_).freeArrival a).noRoute q a.pkt

/-- ROUTE_SELECT (R121, R127 to R130, R140, R141, R145): the oldest header from there is checked, aged and routed. -/
def execRouteSelect (from_ : Ingress) (s : State) : Result :=
  let m := s.m
  ok s (match takeFirst (fun (a : Arrival) => a.from_ == from_) m.rte.arrivals with
    | none => m
    | some (a, rest) =>
      let m := { m with rte := { m.rte with arrivals := rest } }
      if a.replayOf.isNone && !m.headerValid a then
        ((((m.bump Reg.RTE.DISC_HDR).pmcDiscard a.from_).freeArrival a).record 0x4022 (ingQuad a.from_) [a.pkt.hdr.src, a.pkt.hdr.dst]).raise
          54 (ingUnit a.from_) a.pkt.hdr.dst (ingQuad a.from_)
      else m.route a)

/-- A header enters the crossbar from the engines of a quadrant: INJ_TS is stamped there (R48, R120), and ESC set where
ADAPT_EN is 0. -/
def Mach.inject (m : Mach) (q : Nat) (k : Packet) : Mach :=
  let h := { k.hdr with injTs := m.stamp q, hops := 0, derouted := 0, detour := false, detourDim := 0,
                        esc := !m.isSet Reg.RTE.ADAPT_EN, version := 1, rsv := 0, payLen := k.payload.length }
  let k := { k with hdr := h }
  let (id, m) := m.newId
  { m with rte := { m.rte with arrivals := m.rte.arrivals ++
    [{ id := id, pkt := k, from_ := .engines (Fin.ofNat 4 q), vc := 2 * h.tc, shared := false, atc := m.clk,
       len := pktLen k }] } }

/-- ESC_WAIT_EXPIRY (R131): a packet chosen onto an adaptive VC, not granted within the ESC_WAIT it was selected with, is eligible on
its escape hop too. -/
def execEscWaitExpiry (p : PortId) (id : Nat) (s : State) : Result :=
  let same := fun (x : Selected) => x.arr.id == id && x.alsoOn.isNone && x.vc % 2 == 1
  ok s (match (s.m.rp p).sel.find? same with
    | none => s.m
    | some x =>
      let m := s.m.elapseTo x.escAt
      match m.escapeHop x.arr.pkt with
      | none => m
      | some h => m.updRp p (fun y => { y with sel := modifyFirst same (fun x =>
          { x with alsoOn := some (h.port, h.kind, h.dim, h.vc) }) y.sel }))

/-- The engine that a packet is for sees whether its age exceeds LIFETIME: AGE_OVER (R21). -/
def Mach.ageFlag (m : Mach) (q : Nat) (k : Packet) : Mach :=
  let (c, eq, n) := m.packetEngine k
  m.flag { cls := c, q := Fin.ofNat 4 eq, n := Fin.ofNat 16 n } (if m.expired q k then [19] else []) [19]

/-- LOCAL_DELIVERY (R140, R143): the oldest packet of the TC is aged again and handed to the engines of the quadrant. -/
def execLocalDelivery (q : Quad) (tc : Fin 4) (s : State) : Result :=
  let m := s.m
  let key := 4 * q.val + tc.val
  ok s (match Tbl.get m.rte.local_ key [] with
    | [] => m
    | a :: r =>
      let m := m.elapseTo (m.pathReady (ingQuad a.from_) a.path)
      let m := { m with rte := { m.rte with
        local_ := if r.isEmpty then Tbl.del m.rte.local_ key else Tbl.set m.rte.local_ key r } }
      let m := m.ageFlag q a.pkt
      if m.expired q a.pkt then m.discardLifetime a
      else
        let m := m.freeArrival a
        ({ m with rte := { m.rte with inbox := m.rte.inbox ++ [a.pkt] } }).callEngine q a.pkt)

/-! ### Beacons (R133 to R135) -/

/-- BEACON_SEND (R133). -/
def execBeaconSend (p : PortId) (s : State) : Result :=
  ok s (if s.m.isSet Reg.RTE.FF_EN && s.m.trained p && !(s.m.ei p).driversOff then s.m.queueCtrl p .beacon else s.m)

/-- A beacon as a port builds it (Table 5-4). -/
def Mach.buildBeacon (m : Mach) (p : Nat) : Beacon :=
  { seq := (m.rp p).beaconSeq, dims := m.dims, da := m.ownDa, port := p, stamp := m.stamp (quadOfPort p)
    levels := (List.range 4).flatMap (fun d => (List.range 64).filterMap (fun x =>
      let l := m.levelOf d x
      if l = 255 then none else some (d * 64 + x, l))) }

/-- The DA a beacon on a port must carry (R126). -/
def Mach.expectedDa (m : Mach) (e : Nat) : Nat :=
  let d := e / 64
  m.ownDa - m.coord m.ownDa d * 2 ^ m.coff d + e % 64 * 2 ^ m.coff d

/-- The packets selected for a port are selected afresh (R144); those eligible there on their escape hop as well take the hop that R127
now gives. -/
def Mach.reselect (m : Mach) (p : Nat) : Mach :=
  let sel := (m.rp p).sel
  let m := m.updRp p (fun x => { x with sel := [] })
  let again := fun (y : Selected) => match y.alsoOn with
    | some (o, _) => if o = p then { y with alsoOn := (m.escapeHop y.arr.pkt).map (fun h => (h.port, h.kind, h.dim, h.vc)) } else y
    | none => y
  let m := { m with rte := { m.rte with ports := m.rte.ports.map (fun (k, x) => (k, { x with sel := x.sel.map again })) } }
  sel.foldl (fun a x => a.route x.arr) m

/-- A port whose link is up stops carrying routed packets (R144): those selected for it are selected afresh, and those of its replay buffer
are re-injected as R112 says. -/
def Mach.leaveUse (m : Mach) (p : PortId) : Mach := (if m.trained p then m.reinject p true else m).reselect p

/-- The check of a beacon's DA (R126): each with an unexpected one is FS48 and event 0x4001, and sets CABLE_ERR; the expected one,
after a full training begun since, clears it with event 0x4004. -/
def Mach.checkDa (m : Mach) (p : PortId) (da : Nat) : Mach :=
  match m.entryOf p with
  | none => m
  | some e =>
    if da != m.expectedDa e then
      let first := m.inUse p
      let m := m.updRp p (fun x => { x with trainedSinceErr := false })
      let m := ((m.put Reg.RTE.CABLE_ERR 1 p).raise 48 (.port p) da (quadOfPort p)).record 0x4001 (quadOfPort p) [p, da]
      if first then m.leaveUse p else m
    else if m.isSet Reg.RTE.CABLE_ERR p && (m.rp p).trainedSinceErr then
      let m := (m.put Reg.RTE.CABLE_ERR 0 p).updRp p (fun x => { x with trainedSinceErr := false, freshFrom := m.clk })
      (m.endCondition 48 (.port p)).record 0x4004 (quadOfPort p) [p]
    else m

/-- A beacon is kept with the time it was stamped at, by this module's clock (R134, Table 5-8). -/
def Mach.keepBeacon (m : Mach) (p : PortId) (b : Beacon) : Mach :=
  let q := quadOfPort p
  m.updRp p (fun x => { x with
    beacon := some b, beaconAt := m.clk, sentAt := (m.hgt q / 16 : Nat) - (sub32 (m.stamp q) b.stamp : Nat) })

/-- BEACON_RECEIVE (R86, R126, R134, R135). -/
def execBeaconReceive (p : PortId) (b : Beacon) (rx : Rx) (s : State) : Result :=
  ok s (s.m.ctrlIn p b.wire rx (fun m =>
    (((m.keepBeacon p b).put Reg.RTE.STALE 0 p).endCondition 53 (.port p)).checkDa p b.da))

/-- BEACON_STALE (R135): a usable, awake port whose age, counted from the later of the last STAMP and the moment it became
usable or awake, reaches FF_STALE periods. -/
def execBeaconStale (p : PortId) (s : State) : Result :=
  let m := s.m
  let fresh := (m.clk - (m.rp p).freshFrom) / Config.nsCycles
  let age := match m.beaconAge p with | some a => min a fresh | none => fresh
  ok s (if m.usable p && !(m.ei p).driversOff && !m.isSet Reg.RTE.STALE p then
    let m := m.elapse ((m.ffStale * m.ffPeriod - age) * Config.nsCycles)
    ((m.put Reg.RTE.STALE 1 p).raise 53 (.port p) 0 (quadOfPort p)).record 0x4010 (quadOfPort p) [p]
  else m)

/-! ### Ports that stop being usable (R144) -/

/-- PORT_UNUSABLE (R144). A port that is only no longer named in the port map keeps its packets: what was selected still leaves by it
(Table 5-8). -/
def execPortUnusable (p : PortId) (s : State) : Result :=
  ok s (if s.m.inUse p then s.m else s.m.reselect p)

/-- ROUTE_EN takes a value (R147, R144): clearing it moves the port's packets elsewhere, without taking the link down. -/
def Mach.routeEnable (m : Mach) (i : Nat) (on : Bool) : Mach :=
  if on then m.updRp i (fun x => { x with freshFrom := m.clk })
  else if m.isSet Reg.RTE.CABLE_ERR i then m.reselect i
  else m.leaveUse (Fin.ofNat 128 i)

/-- ROUTE_EN. -/
def execRouteEn (r : Requester) (on : Bool) (s : State) : Result :=
  ok s (s.m.setting r Reg.RTE.ROUTE_EN (b2n on) (fun m i => m.routeEnable i on))

/-- ROUTE_CNT_CLR (R147). -/
def execRouteCntClr (r : Requester) (s : State) : Result :=
  ok s (s.m.action r Reg.RTE.CNT_CLR 1 (fun m _ => m.clear
    [Reg.RTE.DISC_LIFETIME, Reg.RTE.DISC_HOPS, Reg.RTE.DISC_HDR, Reg.RTE.DISC_NOROUTE, Reg.RTE.HOPS_MIN,
     Reg.RTE.HOPS_NONMIN, Reg.RTE.HOPS_ESC, Reg.RTE.HOPS_DETOUR, Reg.RTE.ESC_FALLBACK]))

/-! ### The configuration check (R118, R123) -/

/-- The entries of the port map, by dimension and coordinate. -/
def pmEntries : List Nat := List.range 256

/-- CFG_ERR 4: a member or a detour outside the geometry (R123). -/
def Mach.entryBad (m : Mach) (e : Nat) : Bool :=
  let d := e / 64
  let x := e % 64
  let dc := m.get Reg.RTE.DETOUR_COORD e
  let own := m.coord m.ownDa d
  let outside := m.dims ≤ d || m.cs d ≤ x || x = own
  (!(m.namedMembers e).isEmpty && outside) ||
  (m.isSet Reg.RTE.DETOUR_V e && (outside || dc = x || dc = own || m.cs d ≤ dc))

/-- The first test of the configuration check that fails, in ascending order of CFG_ERR; 0 for none. -/
def Mach.cfgErr (m : Mach) : Nat :=
  let ds := List.range m.dims
  if ds.any (fun d => m.cw d = 0 || 6 < m.cw d) || 16 < m.coff m.dims then 1
  else if ds.any (fun d => m.cs d < 2 || 2 ^ m.cw d < m.cs d) then 2
  else if (List.range 128).any (fun p => 1 < (pmEntries.filter (fun e => (m.namedMembers e).contains p)).length) then 3
  else if pmEntries.any m.entryBad then 4
  else if !m.daValid m.ownDa then 5
  else if 128 < (ds.map (fun d => m.cs d - 1)).sum then 6
  else 0

/-- The configuration check runs (R118): CFG_OK and CFG_ERR, FS49 with event 0x4002 on a failure, and event 0x4003 for each
entry of the geometry without a valid member. -/
def Mach.runCfgCheck (m : Mach) : Mach :=
  let e := m.cfgErr
  let m := (m.put Reg.RTE.CFG_OK (b2n (e = 0))).put Reg.RTE.CFG_ERR e
  if e != 0 then (m.raise 49 .none e 0).record 0x4002 0 [e]
  else (pmEntries.filter (fun e => e / 64 < m.dims && e % 64 < m.cs (e / 64) &&
      e % 64 != m.coord m.ownDa (e / 64) && (m.namedMembers e).isEmpty)).foldl (fun a e => a.record 0x4003 0 [e]) m

/-- CFG_CHECK (R118). -/
def execCfgCheck (r : Requester) (s : State) : Result :=
  ok s (s.m.action r Reg.RTE.CFG_CHECK 1 (fun m _ => m.runCfgCheck))

end Sys2Proof.Machine
end

