-- ==== Sys2Proof/Machine/SchedOps.lean ====
section
/-!
DEFINITION. Injection scheduling as shared operations (file 12): offering a packet to its queue (R301, R304), deficit round
robin (R307), the calendar wheel (R308, R309), and the gates (R310 to R314).
-/

namespace Sys2Proof.Machine

/-! ### Members and FIFOs -/

/-- The number a queue of a quadrant has, and that of the quadrant's SYSQ (`none`). -/
def memberId (q : Nat) (queue : Option Nat) : Nat :=
  match queue with | some n => 16384 * q + n % 16384 | none => 65536 + q
/-- The number of a group among the members that a wheel may park. -/
def groupId (q g : Nat) : Nat := 70000 + 256 * q + g
/-- The number of a quadrant's TC3 limiter. -/
def tc3Id (q : Nat) : Nat := 80000 + q
/-- Where a FIFO is kept (R303). -/
def fifoKey (member tc : Nat) : Nat := 4 * member + tc
/-- The active list of a quadrant's TCs. -/
def tcList (q : Nat) : Nat := 4096 * q
/-- The active list of the groups and SYSQ of a TC; SYSQ is member 256. -/
def groupList (q tc : Nat) : Nat := 4096 * q + 1 + tc
/-- The active list of a group's queues in a TC. -/
def queueList (q tc g : Nat) : Nat := 4096 * q + 16 + 256 * tc + g

/-- A FIFO. -/
def Mach.fifo (m : Mach) (member tc : Nat) : List Offer := Tbl.get m.sch.fifo (fifoKey member tc) []
/-- A FIFO set; an empty one is not listed. -/
def Mach.setFifo (m : Mach) (member tc : Nat) (l : List Offer) : Mach :=
  { m with sch := { m.sch with
      fifo := if l.isEmpty then Tbl.del m.sch.fifo (fifoKey member tc) else Tbl.set m.sch.fifo (fifoKey member tc) l } }
/-- Packets a member holds, all TCs. -/
def Mach.backlog (m : Mach) (member : Nat) : Nat := ((List.range 4).map (fun t => (m.fifo member t).length)).sum

/-- An active list. -/
def Mach.drr (m : Mach) (key : Nat) : List DrrMember := Tbl.get m.sch.drr key []
/-- An active list set. -/
def Mach.setDrr (m : Mach) (key : Nat) (l : List DrrMember) : Mach :=
  { m with sch := { m.sch with drr := if l.isEmpty then Tbl.del m.sch.drr key else Tbl.set m.sch.drr key l } }
/-- A member that gains its first packet joins the tail of its list with no credit (R307). -/
def Mach.activate (m : Mach) (key x : Nat) : Mach :=
  if (m.drr key).any (·.m == x) then m else m.setDrr key (m.drr key ++ [{ m := x }])

/-- The group a queue is in: that of Q_GROUP as it stood when the queue last had no packet (Table 12-1). -/
def Mach.groupOf (m : Mach) (q n : Nat) : Nat := Tbl.get m.sch.groupOf (memberId q (some n)) 0

/-- A packet is offered to a queue of a quadrant, or to its SYSQ (R301). -/
def Mach.offer (m : Mach) (q : Nat) (queue : Option Nat) (o : Offer) : Mach :=
  let tc := o.pkt.hdr.tc % 4
  let id := memberId q queue
  let m := match queue with
    | some _ => if m.backlog id = 0 then
        { m with sch := { m.sch with groupOf := Tbl.set m.sch.groupOf id (m.get Reg.SCH.Q_GROUP id) } } else m
    | none => m
  let m := m.setFifo id tc (m.fifo id tc ++ [o])
  let m := match queue with
    | some n =>
      let g := m.groupOf q (n % 16384)
      (m.activate (queueList q tc g) (n % 16384)).activate (groupList q tc) g
    | none => m.activate (groupList q tc) 256
  if tc < 3 then m.activate (tcList q) tc else m

/-! ### Gates (R310 to R314) -/

/-- The stretches of one cycle of a gate list, in HGT LSBs with their masks: the entries in order, cut at the end of the
cycle or the last one stretched to it; an entry of DURATION 0 is skipped. -/
def gateSpans (entries : List GateEntry) (left : Nat) : List (Nat × Nat) :=
  match entries with
  | [] => []
  | [e] => if left = 0 then [] else [(left, e.open_)]
  | e :: r =>
    let n := min left (16 * e.ns)
    if left = 0 then [] else (n, e.open_) :: gateSpans r (left - n)

/-- The stretches of the list in force. A list whose every DURATION is 0 holds its last entry's mask. -/
def GateList.spans (g : GateList) : List (Nat × Nat) :=
  let live := g.entries.filter (fun e => e.ns != 0)
  gateSpans (if live.isEmpty then g.entries.drop (g.entries.length - 1) else live) (16 * g.cycle)

/-- Where an HGT stands in the cycle, in LSBs (R310: a cycle starts at GATE_BASE + k × GATE_CYCLE for every integer k). -/
def GateList.pos (g : GateList) (hgt : Nat) : Nat := (((hgt : Int) - (g.base : Int)) % ((16 * g.cycle : Nat) : Int)).toNat

/-- The stretch that covers a position: how many stretches precede it, where it ends, its mask. -/
def spanAt (pos at_ i : Nat) : List (Nat × Nat) → Nat × Nat × Nat
  | [] => (i, at_, 15)
  | (n, mask) :: r => if pos < at_ + n then (i, at_ + n, mask) else spanAt pos (at_ + n) (i + 1) r

/-- The runs for which a TC stays open over a list of stretches, each as start and length. -/
def openRuns (tc at_ : Nat) (cur : Option (Nat × Nat)) : List (Nat × Nat) → List (Nat × Nat)
  | [] => cur.toList
  | (n, mask) :: r =>
    if bit mask tc then
      openRuns tc (at_ + n) (some (match cur with | some (s, l) => (s, l + n) | none => (at_, n))) r
    else cur.toList ++ openRuns tc (at_ + n) none r

/-- A TC that no stretch closes. -/
def GateList.alwaysOpen (g : GateList) (tc : Nat) : Bool := g.spans.all (fun s => bit s.2 tc)

/-- The runs of a TC over three cycles. -/
def GateList.runs (g : GateList) (tc : Nat) : List (Nat × Nat) := openRuns tc 0 none (g.spans ++ g.spans ++ g.spans)

/-- The longest open span of a TC, in LSBs (R312): 0 where its gate never opens. -/
def GateList.longest (g : GateList) (tc : Nat) : Nat :=
  ((g.runs tc).filter (fun r => 16 * g.cycle ≤ r.1 && r.1 < 2 * (16 * g.cycle))).foldl (fun a r => max a r.2) 0

/-- The open run that covers a position: how long since it began, how long it lasts in all. -/
def GateList.runAt (g : GateList) (tc pos : Nat) : Option (Nat × Nat) :=
  let p := pos + 16 * g.cycle
  ((g.runs tc).find? (fun r => r.1 ≤ p && p < r.1 + r.2)).map (fun r => (p - r.1, r.2))

/-- The gates are in force: GATE_EN is set, and UNLOCKED_OPEN does not hold them open (R310, R314). -/
def Mach.gated (m : Mach) : Bool :=
  m.isSet Reg.SCH.GATE_EN && !(m.isSet Reg.SCH.UNLOCKED_OPEN && m.unlocked)

/-- The gates open now, and the entry in force (OPEN_NOW, CUR_ENTRY). -/
def Mach.gateNow (m : Mach) (q : Nat) : Nat × Nat :=
  let (i, _, mask) := spanAt (m.sch.gates.pos (m.hgt q)) 0 0 m.sch.gates.spans
  let live := (m.sch.gates.entries.zipIdx).filter (fun e => e.1.ns != 0)
  let idx := ((live.drop i).head?.map (·.2)).getD (m.sch.gates.entries.length - 1)
  if m.gated then (mask, idx) else (15, idx)

/-- Cost of a packet (R305). -/
def Mach.cost (m : Mach) (k : Packet) : Nat := 64 + k.payload.length + m.get Reg.SCH.OVERHEAD

/-- The open time a grant of a cost asks for, in units of 0.1 ps (R311). -/
def Mach.needs (m : Mach) (cost : Nat) : Nat := 10 * (5 * cost + 1000 * m.get Reg.SCH.GATE_GUARD)

/-- A packet can never fit: it needs more than the longest open span of its TC (R312). -/
def Mach.neverFits (m : Mach) (tc cost : Nat) : Bool :=
  m.gated && !m.sch.gates.alwaysOpen tc && 0 < m.sch.gates.longest tc && 625 * m.sch.gates.longest tc < m.needs cost

/-- A grant of a cost in a TC may be made now (R311), or is the overrun of R312 at the start of the TC's longest span. -/
def Mach.fits (m : Mach) (q tc cost : Nat) : Bool :=
  if !m.gated || m.sch.gates.alwaysOpen tc then true
  else match m.sch.gates.runAt tc (m.sch.gates.pos (m.hgt q)) with
    | none => false
    | some (since, len) =>
      if m.neverFits tc cost then len == m.sch.gates.longest tc && since * 2 ^ 32 < m.tim.rateWord
      else m.needs cost ≤ 625 * (len - since)

/-! ### The wheel (R308, R309) -/

/-- CORECLK time in fs. -/
def Mach.fs (m : Mach) : Nat := 500000 * m.clk
/-- A slot of the fine wheel, 20 ns, and of the coarse one, 81.92 µs, in fs. -/
def fineSlot : Nat := 20000000
/-- A slot of the coarse wheel. -/
def coarseSlot : Nat := 81920000000

/-- A member is parked. -/
def Mach.isParked (m : Mach) (q id : Nat) : Bool := (Tbl.get m.sch.parked q []).any (·.key == id)

/-- A rate-limited member has been granted a cost (R308): its eligible time moves on, and it is parked where that time is
still to come. `rate` is in Mb/s, `burst` in units of 64 B. -/
def Mach.charge (m : Mach) (q id rate burst cost : Nat) : Mach :=
  if rate = 0 then m
  else
    let rate := min 1600000 rate
    let w := 64 * burst * 8000000000 / rate + fineSlot
    let t := max (Tbl.get m.sch.elig id 0) (m.fs - w) + cost * 8000000000 / rate
    let m := { m with sch := { m.sch with elig := Tbl.set m.sch.elig id t } }
    if t ≤ m.fs then m
    else
      let coarse := decide (4096 * fineSlot ≤ t - m.fs)
      let due := if coarse then t / coarseSlot * coarseSlot else (t / fineSlot + 1) * fineSlot
      let p : Parked := { key := id, coarse := coarse, due := due, t := t }
      { m with sch := { m.sch with parked := Tbl.modify m.sch.parked q [] (· ++ [p]) } }.bump Reg.SCH.PARKS 1 q

/-! ### Deficit round robin (R306, R307) -/

/-- A choice at one level: the member, the cost of the packet it would send, and the list as the visits left it. -/
structure Choice where
  m    : Nat
  cost : Nat
  list : List DrrMember
  deriving DecidableEq, Repr

/-- One level's choice: `cost` is what a member's next packet costs, `none` for a member that is parked or has no packet
that fits, which keeps its place and deficit. -/
def drrChoose (quantum : Nat → Nat) (cost : Nat → Option Nat) : Nat → List DrrMember → Option Choice
  | 0, _ => none
  | fuel + 1, l =>
    match l.find? (fun x => (cost x.m).isSome) with
    | none => none
    | some x =>
      match cost x.m with
      | none => none
      | some c =>
        let d := if x.credited then x.deficit else x.deficit + quantum x.m
        if c ≤ d then
          some { m := x.m, cost := c
                 list := modifyFirst (fun (y : DrrMember) => y.m == x.m)
                   (fun y => { y with deficit := d - c, credited := true }) l }
        else
          drrChoose quantum cost fuel
            (l.filter (fun (y : DrrMember) => y.m != x.m) ++ [{ x with deficit := d, credited := false }])

/-- A quantum in bytes: units of 64 B, at least 70. -/
def quantumBytes (v : Nat) : Nat := 64 * max 70 v

/-- The cost of a member's head packet in a TC, where it fits. -/
def Mach.headCost (m : Mach) (q member tc : Nat) : Option Nat :=
  match m.fifo member tc with
  | [] => none
  | o :: _ => let c := m.cost o.pkt; if m.fits q tc c then some c else none

/-- The choice among a group's queues. -/
def Mach.pickQueue (m : Mach) (q tc g : Nat) : Option Choice :=
  let l := m.drr (queueList q tc g)
  drrChoose (fun n => quantumBytes (m.get Reg.SCH.Q_QUANTUM (memberId q (some n))))
    (fun n => if m.isParked q (memberId q (some n)) then none else m.headCost q (memberId q (some n)) tc)
    (2 * l.length + 1) l

/-- What a member of the group level would send. -/
def Mach.groupCost (m : Mach) (q tc g : Nat) : Option Nat :=
  if g = 256 then m.headCost q (memberId q none) tc
  else if m.isParked q (groupId q g) then none
  else (m.pickQueue q tc g).map (·.cost)

/-- The choice among the groups of a TC and its SYSQ. -/
def Mach.pickGroup (m : Mach) (q tc : Nat) : Option Choice :=
  let l := m.drr (groupList q tc)
  drrChoose (fun g => quantumBytes (if g = 256 then m.get Reg.SCH.SYS_QUANTUM q else m.get Reg.SCH.G_QUANTUM (256 * q + g)))
    (m.groupCost q tc) (2 * l.length + 1) l

/-- The quantum of TC0, TC1 or TC2. -/
def Mach.tcQuantum (m : Mach) (q tc : Nat) : Nat :=
  quantumBytes (match tc with
    | 0 => m.get Reg.SCH.TC0_QUANTUM q | 1 => m.get Reg.SCH.TC1_QUANTUM q | _ => m.get Reg.SCH.TC2_QUANTUM q)

/-- The choice among TC0, TC1 and TC2. -/
def Mach.pickTc (m : Mach) (q : Nat) : Option Choice :=
  let l := m.drr (tcList q)
  drrChoose (m.tcQuantum q) (fun tc => (m.pickGroup q tc).map (·.cost)) (2 * l.length + 1) l

/-- A member without a packet leaves its list. -/
def Mach.retire (m : Mach) (key x : Nat) (empty : Bool) : Mach :=
  if empty then m.setDrr key ((m.drr key).filter (fun (y : DrrMember) => y.m != x)) else m

/-- The queue or SYSQ of a TC that the group level chooses sends its head packet (R306, R308). -/
def Mach.grantIn (m : Mach) (q tc : Nat) : Option (Offer × Mach) :=
  match m.pickGroup q tc with
  | none => none
  | some cg =>
    let m := m.setDrr (groupList q tc) cg.list
    if cg.m = 256 then
      let id := memberId q none
      match m.fifo id tc with
      | [] => none
      | o :: r =>
        let m := (m.setFifo id tc r).retire (groupList q tc) 256 r.isEmpty
        some (o, m.bump Reg.SCH.SYS_GRANTS 1 q)
    else
      match m.pickQueue q tc cg.m with
      | none => none
      | some cq =>
        let id := memberId q (some cq.m)
        match m.fifo id tc with
        | [] => none
        | o :: r =>
          let m := (m.setDrr (queueList q tc cg.m) cq.list).setFifo id tc r
          let m := m.retire (queueList q tc cg.m) cq.m r.isEmpty
          let m := m.retire (groupList q tc) cg.m (m.drr (queueList q tc cg.m)).isEmpty
          let m := m.charge q id (m.get Reg.SCH.Q_RATE id) (m.get Reg.SCH.Q_BURST id) cq.cost
          let gi := 256 * q + cg.m
          some (o, m.charge q (groupId q cg.m) (m.get Reg.SCH.G_RATE gi) (m.get Reg.SCH.G_BURST gi) cq.cost)

/-- The packet one grant sends: TC3 first, unless its limiter is parked; else the choice among the other TCs (R306). -/
def Mach.pickGrant (m : Mach) (q : Nat) : Mach × Option Offer :=
  let three := (m.pickGroup q 3).isSome
  let held := three && m.isParked q (tc3Id q)
  let m := if held then m.bump Reg.SCH.TC3_HELD 1 q else m
  if three && !held then
    match m.grantIn q 3 with
    | none => (m, none)
    | some (o, m) => (m.charge q (tc3Id q) (m.get Reg.SCH.TC3_RATE q) (m.get Reg.SCH.TC3_BURST q) (m.cost o.pkt), some o)
  else match m.pickTc q with
    | none => (m, none)
    | some c =>
      match (m.setDrr (tcList q) c.list).grantIn q c.m with
      | none => (m, none)
      | some (o, m) => (m.retire (tcList q) c.m (m.drr (groupList q c.m)).isEmpty, some o)

/-- Head packets that a shut gate or the guard holds are counted once each (R311). -/
def Mach.countWaits (m : Mach) (q : Nat) : Mach :=
  if !m.gated then m
  else m.sch.fifo.foldl (fun a (key, l) =>
    let id := key / 4
    let mine := id / 16384 = q ∧ id < 65536 ∨ id = 65536 + q
    match l with
    | [] => a
    | o :: r =>
      if decide mine && !o.waited && !a.fits q (key % 4) (a.cost o.pkt) && !a.isParked q id then
        (a.setFifo id (key % 4) ({ o with waited := true } :: r)).bump Reg.SCH.GATE_WAITS 1 q
      else a) m

end Sys2Proof.Machine
end

