-- ==== Sys2Proof/Machine/ConnOps.lean ====
section
/-!
DEFINITION. Connections as shared operations (file 08): contexts (R201 to R206), the sending half with its messages,
window, rounds and failures (R210 to R212, R224 to R226), and the end of a receive that a connection carries.
-/

namespace Sys2Proof.Machine

/-! ### Contexts -/

/-- Where a connection's context is kept. -/
def cxKey (slot peer : Nat) : Nat := slot * 1048576 + peer % 1048576
/-- The local slot of a context. -/
def cxSlot (cx : Nat) : Nat := cx / 1048576
/-- The peer of a context. -/
def cxPeer (cx : Nat) : Nat := cx % 1048576
/-- The home quadrant of a context (R201). -/
def cxQuad (cx : Nat) : Nat := quadOfSlot (cxSlot cx)

/-- A context. -/
def Mach.ctx (m : Mach) (cx : Nat) : Option Ctx := Tbl.find m.cxn.ctxs cx
/-- A context set. -/
def Mach.setCtx (m : Mach) (cx : Nat) (c : Ctx) : Mach := { m with cxn := { m.cxn with ctxs := Tbl.set m.cxn.ctxs cx c } }
/-- A context removed. -/
def Mach.delCtx (m : Mach) (cx : Nat) : Mach :=
  let l := (Tbl.get m.cxn.cache (cxQuad cx) []).filter (· != cx)
  { m with cxn := { m.cxn with ctxs := Tbl.del m.cxn.ctxs cx, cache := Tbl.set m.cxn.cache (cxQuad cx) l } }
/-- A context changed, where there is one. -/
def Mach.updCtx (m : Mach) (cx : Nat) (f : Ctx → Ctx) : Mach :=
  match m.ctx cx with | some c => m.setCtx cx (f c) | none => m
/-- The TX half of a context. -/
def Mach.txOf (m : Mach) (cx : Nat) : Option TxHalf := (m.ctx cx).bind (·.tx)
/-- The RX half of a context. -/
def Mach.rxOf (m : Mach) (cx : Nat) : Option RxHalf := (m.ctx cx).bind (·.rx)
/-- The TX half changed. -/
def Mach.updTx (m : Mach) (cx : Nat) (f : TxHalf → TxHalf) : Mach := m.updCtx cx (fun c => { c with tx := c.tx.map f })
/-- The RX half changed. -/
def Mach.updRx (m : Mach) (cx : Nat) (f : RxHalf → RxHalf) : Mach := m.updCtx cx (fun c => { c with rx := c.rx.map f })
/-- A message of a TX half changed. -/
def Mach.updMsg (m : Mach) (cx uid : Nat) (f : TxMsg → TxMsg) : Mach :=
  m.updTx cx (fun t => { t with msgs := modifyFirst (fun (x : TxMsg) => x.uid == uid) f t.msgs })
/-- A message of a TX half. -/
def Mach.msg (m : Mach) (cx uid : Nat) : Option TxMsg := (m.txOf cx).bind (fun t => t.msgs.find? (fun x => x.uid == uid))

/-- Time passes until a quadrant's global time has gained `ns` nanoseconds. -/
def Mach.elapseNs (m : Mach) (ns : Nat) : Mach :=
  if m.tim.rateWord = 0 then m else m.elapse ((ns * 16 * 2 ^ 32 + m.tim.rateWord - 1) / m.tim.rateWord)

/-- Global time in whole ns. -/
def Mach.nowNs (m : Mach) (q : Nat) : Nat := m.hgt q / 16
/-- A two-sided message waits in matching, held or unexpected: it is not bound. -/
def MatMsg.stored (x : MatMsg) : Bool := match x.st with | .bound _ => false | _ => true

/-- A context is quiescent (R204, R243): a held flag stands in a message slot; a GET is outstanding at its initiator until it
ends, at its responder while the READ_RSP is on the TX half. -/
def Mach.quiescent (m : Mach) (cx : Nat) (c : Ctx) : Bool :=
  (match c.tx with | some t => t.una == t.nextPsn && !t.msgs.any (fun x => x.kind == 4) | none => true) &&
  (match c.rx with
    | some r => r.done == sub32 r.epsn 1 && r.msgs.isEmpty
    | none => true) &&
  !m.cxn.gets.any (fun g => g.cx == cx) && !m.mat.sends.any (fun p => p.cx == cx) &&
  !m.mat.msgs.any (fun x => x.cx == cx && x.rts && MatMsg.stored x)

/-- EVICT_IDLE as it acts, in ns (R206). -/
def Mach.evictIdle (m : Mach) : Nat := clamp (2 * m.lifetime) 1600000000 (1000000 * m.get Reg.CXN.EVICT_IDLE)

/-- A quiescent context whose LAST_ACT is EVICT_IDLE ago is expired (R204). -/
def Mach.ctxExpired (m : Mach) (cx : Nat) (c : Ctx) : Bool :=
  m.quiescent cx c && m.evictIdle ≤ m.nowNs (cxQuad cx) - c.lastAct

/-- A packet of a connection has been sent or accepted: LAST_ACT is now (Table 8-1). An expired context is as absent (R204). -/
def Mach.touch (m : Mach) (cx : Nat) : Mach :=
  let t := m.nowNs (cxQuad cx)
  m.updCtx cx (fun c => if m.ctxExpired cx c then c else { c with lastAct := t })

/-! ### The on-die cache (R202) -/

/-- Contexts of a quadrant that are cached on die. -/
def ctxCached : Nat := 16384

/-- A context is brought to the on-die cache of its quadrant; a full cache loses the one that was used least recently. -/
def Mach.cacheCtx (m : Mach) (cx : Nat) : Mach :=
  let l := (Tbl.get m.cxn.cache (cxQuad cx) []).filter (· != cx)
  { m with cxn := { m.cxn with cache := Tbl.set m.cxn.cache (cxQuad cx) ((cx :: l).take ctxCached) } }

/-- An engine uses a context: CTX_HIT where it is cached, CTX_MISS where it must be fetched from HBM (R21, R202). -/
def Mach.useCtx (m : Mach) (e : Engine) (cx : Nat) : Mach :=
  if (m.ctx cx).isNone then m
  else
    let hit := (Tbl.get m.cxn.cache (cxQuad cx) []).contains cx
    (m.flag e [if hit then 14 else 15] [if hit then 15 else 14]).cacheCtx cx

/-- The RXE that serves a connection (Table 1-5). -/
def Mach.rxeFor (m : Mach) (cx : Nat) : Engine := { cls := .rxe, q := Fin.ofNat 4 (cxQuad cx), n := Fin.ofNat 16 (m.rxeOf cx) }

/-- The least recently used context among some. -/
def oldestCtx (l : List (Nat × Ctx)) : Option Nat :=
  (l.foldl (fun (a : Option (Nat × Nat)) c =>
    match a with
    | some (_, t) => if c.2.lastAct < t then some (c.1, c.2.lastAct) else a
    | none => some (c.1, c.2.lastAct)) none).map (·.1)

/-- A message as it was before its first packet, to be sent on another instance (R209, R225). -/
def TxMsg.again (x : TxMsg) : TxMsg := { x with msn := none, psn0 := none, sent := 0, result := none, acked := false }

/-- A context whose halves have expired: as absent, but for its EPOCH (R203, R204). Messages that the TX half still holds, waiting for a
first packet or a RESULT, go to its next instance. -/
def Ctx.expire (c : Ctx) (now : Nat) : Ctx :=
  { c with tx := none, rx := none, lastAct := now
           left := c.left ++ (match c.tx with | some t => t.msgs.map TxMsg.again | none => []) }

/-- A context entry for a connection (R203 to R205): the one there is, halves dropped if it has expired; a new one; in a
full store, one that the least recently used expired or quiescent context makes room for; or none, with FS81 and event
0x7003. -/
def Mach.getCtx (m : Mach) (slot peer : Nat) : Mach × Bool :=
  let cx := cxKey slot peer
  let q := quadOfSlot slot
  let fresh : Ctx := { slot := slot, peer := peer % 1048576, lastAct := m.nowNs q }
  match m.ctx cx with
  | some c => (if m.ctxExpired cx c then m.setCtx cx (c.expire (m.nowNs q)) else m, true)
  | none =>
    let mine := m.cxn.ctxs.filter (fun c => cxQuad c.1 == q)
    if mine.length < 1048576 then ((m.setCtx cx fresh).cacheCtx cx, true)
    else
      match (oldestCtx (mine.filter (fun c => m.ctxExpired c.1 c.2))).or
            (oldestCtx (mine.filter (fun c => m.quiescent c.1 c.2))) with
      | some old => ((((m.delCtx old).bump Reg.CXN.DELETIONS 1 (cxSlot old)).setCtx cx fresh).cacheCtx cx, true)
      | none => ((m.raise 81 .none 1 q).record 0x7003 q [slot, peer], false)

/-! ### The window's numbers (R226) -/

/-- CWND_MAX as it acts. -/
def Mach.cwndMax (m : Mach) : Nat := clamp 4160 8519680 (m.get Reg.CXN.CWND_MAX)
/-- The smallest CWND. -/
def cwndMin : Nat := 4160
/-- CWND of a new instance. -/
def Mach.cwndInit (m : Mach) : Nat :=
  if m.isSet Reg.CXN.CC_EN then clamp 4160 m.cwndMax (m.get Reg.CXN.CWND_INIT) else m.cwndMax
/-- RTO in cycles. -/
def Mach.rto (m : Mach) : Nat := max 10 (m.get Reg.CXN.RTO) * Config.usCycles
/-- BASE_WIN as it acts, in ms. -/
def Mach.baseWin (m : Mach) : Nat := clamp 1 1000 (m.get Reg.CXN.BASE_WIN)
/-- RETRY_MAX as it acts. -/
def Mach.retryMax (m : Mach) : Nat := max 1 (m.get Reg.CXN.RETRY_MAX)

/-- Payload bytes of packet `k` of a message (R212); READ_REQ, RESULT and PULL_REQ have none. -/
def payOf (kind total k : Nat) : Nat :=
  if kind = 3 || kind = 8 || kind = 0x0B then 0 else min 4096 (total - 4096 * k)

/-- Packets of a message (R212). -/
def pktCount (kind total : Nat) : Nat := if kind = 3 then 1 else max 1 ((total + 4095) / 4096)

/-- The message and the packet index that a PSN of a TX half names. -/
def TxHalf.byPsn (t : TxHalf) (psn : Nat) : Option (TxMsg × Nat) :=
  (t.msgs.findSome? (fun x => x.psn0.bind (fun p => if sub32 psn p < x.count then some (x, sub32 psn p) else none)))

/-- The window cost of a PSN. -/
def TxHalf.costOf (t : TxHalf) (psn : Nat) : Nat :=
  match t.byPsn psn with
  | some (x, k) => 64 + payOf x.kind x.total k
  | none => 64

/-- The window cost of `n` PSNs from `a` up. -/
def TxHalf.costSum (t : TxHalf) (a n : Nat) : Nat :=
  ((List.range n).map (fun k => t.costOf ((a + k) % 4294967296))).sum

/-- INFLIGHT up to a PSN. -/
def TxHalf.inflight (t : TxHalf) (upTo : Nat) : Nat := t.costSum t.una (sub32 upTo t.una)

/-- The window admits a packet of a cost beyond what is in flight (R226). -/
def TxHalf.admits (t : TxHalf) (flight cost : Nat) : Bool := flight + cost ≤ t.cwnd || flight = 0

/-! ### Opening (R203) -/

/-- EPOCH_SEED of a quadrant: as drawn at the reset, then counted up. -/
def Mach.seed (m : Mach) (q : Nat) : Nat := Tbl.get m.cxn.seeds q ((Config.epochSeed 0 q).toNat)

/-- A TX instance opens in a context that has none. -/
def Mach.openTx (m : Mach) (cx : Nat) : Mach :=
  match m.ctx cx with
  | none => m
  | some c =>
    match c.tx with
    | some _ => m
    | none =>
      let q := cxQuad cx
      let (ep, m) := match c.txEp with
        | some e => ((e + 1) % 256, m)
        | none => (m.seed q, { m with cxn := { m.cxn with seeds := Tbl.set m.cxn.seeds q ((m.seed q + 1) % 256) } })
      let t : TxHalf := { epoch := ep, openTs := m.stamp q, cwnd := m.cwndInit, owdAt := m.clk
                          owdWin := m.baseWin, msgs := c.left }
      (m.setCtx cx { c with tx := some t, txEp := some ep, left := [] }).bump Reg.CXN.OPENS 1 c.slot

/-- A connection with a TX half for work from a slot to a peer; `false` where no context entry is free (R205). -/
def Mach.needTx (m : Mach) (slot peer : Nat) : Mach × Bool :=
  match m.getCtx slot peer with
  | (m, true) => (m.openTx (cxKey slot peer), true)
  | (m, false) => (m, false)

/-! ### Packets -/

/-- The header of a packet from a slot to a peer; INJ_TS and the routing bits are set at injection (R120). -/
def Mach.rspHdr (m : Mach) (slot dst kind tc flow pay : Nat) (minOnly : Bool) : RspHdr :=
  { version := 1, tc := tc, esc := false, minOnly := minOnly, detour := false, detourDim := 0, derouted := 0, hops := 0
    dst := dst, src := m.ownEid slot, injTs := 0, payLen := pay, kind := kind, flow := flow }

/-- FLOW of a packet without a work entry: open (Table 5-2). -/
def Mach.respFlow (m : Mach) (slot dst : Nat) : Nat := (Config.respFlow (m.ownEid slot) dst).toNat

/-- A packet's destination is this module, or it has a route (R145) with the ESC that its injection gives it. -/
def Mach.routable (m : Mach) (q : Nat) (k : Packet) : Bool :=
  (m.unaligned k.hdr.dst).isEmpty ||
  (m.chooseHop q { k with hdr := { k.hdr with esc := !m.isSet Reg.RTE.ADAPT_EN } }).isSome

/-- The engine that builds a packet, where a TX half sends it: the TXE of the work's ring, or the connection's RXE (R201, R301). -/
def Mach.builder (m : Mach) (o : Offer) : Option Engine :=
  o.tx.map (fun (cx, uid) =>
    let ring := match (m.msg cx uid).map (·.owner) with
      | some (.work n _) => some n
      | some (.get g) => (m.cxn.gets.find? (fun (x : GetOut) => x.uid == g)).map (fun (x : GetOut) => x.ring)
      | _ => none
    match ring.bind m.wr with
    | some w => w.engine
    | none => m.rxeFor cx)

/-- A packet is built and offered, or not built for want of a route (R145, R304). The answer says whether it was. The engine that builds it
sees PEER_DOWN, and GATE_SHUT where the gate of the packet's TC is closed (R21, R311). -/
def Mach.build (m : Mach) (q : Nat) (queue : Option Nat) (o : Offer) : Mach × Bool :=
  let good := m.routable q o.pkt
  let shut := !bit (m.gateNow q).1 (o.pkt.hdr.tc % 4)
  let m := match m.builder o with
    | some e => m.flag e ((if good then [] else [22]) ++ (if shut then [20] else [])) [20, 22]
    | none => m
  if good then (m.offer q queue o, true) else (m.noRoute q o.pkt, false)

/-- An ACK, NAK or EPOCH_NAK: unsequenced, TC1, from SYSQ, naming the instance it answers (R211). -/
def Mach.sendCtl (m : Mach) (slot peer kind epoch openTs : Nat) (op : RsxOp) : Mach :=
  let h : RsxHdr := { opn := false, ackReq := false, retx := false, poison := false, epoch := epoch, psn := 0, msn := 0
                      totalLen := 0, offset := 0, pktCount := 1, openTs := openTs, op := op }
  let k : Packet := { hdr := m.rspHdr slot peer kind 1 (m.respFlow slot peer) 0 false, body := .rsx h, payload := [] }
  (m.build (quadOfSlot slot) none { pkt := k }).1

/-- A NAK (R216, R223), with its event and count. -/
def Mach.sendNak (m : Mach) (slot peer epoch openTs psn reason : Nat) : Mach :=
  let q := quadOfSlot slot
  let m := if reason = 1 then (m.bump Reg.CXN.LOSS_NAKS 1 slot).record 0x7010 q [slot, peer, psn]
    else (if reason = 4 then m else m.bump Reg.CXN.RNR_NAKS 1 slot).record 0x7012 q [slot, peer, psn, reason]
  (m.sendCtl slot peer 0x06 epoch openTs (.nak psn reason)).touch (cxKey slot peer)

/-! ### The end of a receive and of a message's owner -/

/-- A message of matching changed. -/
def Mach.updMat (m : Mach) (mid : Nat) (f : MatMsg → MatMsg) : Mach :=
  { m with mat := { m.mat with msgs := modifyFirst (fun (x : MatMsg) => x.id == mid) f m.mat.msgs } }
/-- A message of matching. -/
def Mach.matMsg (m : Mach) (mid : Nat) : Option MatMsg := m.mat.msgs.find? (fun x => x.id == mid)

/-- A disabled domain with no bound message left is FREE (R252). -/
def Mach.settleDomain (m : Mach) (d : Nat) : Mach :=
  match Tbl.find m.mat.domains d with
  | some x =>
    if !x.active && !m.mat.msgs.any (fun (y : MatMsg) => y.domain == d && (match y.st with | .bound _ => true | _ => false)) then
      { m with mat := { m.mat with domains := Tbl.del m.mat.domains d } }
    else m
  | none => m

/-- The receive that a message is bound to completes, once (R245, R246, R247, Table 9-2). The message stays until its
packets have come. -/
def Mach.closeRecv (m : Mach) (mid status detail length : Nat) : Mach :=
  match m.matMsg mid with
  | none => m
  | some x =>
    match x.st, x.closed with
    | .bound r, false =>
      let m := m.updMat mid (fun x => { x with closed := true })
      let slot := cxSlot x.cx
      let m := if status = 4 then m.bump Reg.MAT.TRUNCATIONS 1 slot
        else if status = 8 then m.bump Reg.MAT.CANCELS 1 slot else m
      m.finishWork r.ring r.seq status detail x.bits length (some x.src)
    | _, _ => m

/-- A message of matching leaves, and its domain may become FREE. -/
def Mach.dropMat (m : Mach) (mid : Nat) : Mach :=
  match m.matMsg mid with
  | none => m
  | some x =>
    { m with mat := { m.mat with msgs := m.mat.msgs.filter (fun (y : MatMsg) => y.id != mid) } }.settleDomain x.domain

/-- A GET ends (R218). -/
def Mach.endGet (m : Mach) (uid status detail : Nat) : Mach :=
  match m.cxn.gets.find? (fun g => g.uid == uid) with
  | none => m
  | some g =>
    let gs := m.cxn.gets.filter (fun (x : GetOut) => x.uid != uid)
    { m with cxn := { m.cxn with gets := gs } }.finishWork g.ring g.seq status detail 0 (if status = 0 then g.total else 0)

/-- A pending rendezvous SEND is no longer pending. -/
def Mach.dropSend (m : Mach) (uid : Nat) : Mach :=
  { m with mat := { m.mat with sends := m.mat.sends.filter (fun (p : PendSend) => p.uid != uid) } }

/-- What a message's end with a status means to its owner (R218, R222, R244, R246). A READ_REQ, RTS or PULL_REQ that ends
with OK has only been delivered. -/
def Mach.endOwner (m : Mach) (x : TxMsg) (status detail : Nat) : Mach :=
  let carried := x.kind = 3 || x.kind = 0x0A || x.kind = 0x0B
  match x.owner with
  | .none => m
  | .work ring seq =>
    if carried && status = 0 then m
    else
      let n := match m.workAt ring seq with
        | some w => if x.kind = 2 then entryLength w.entry else x.total
        | none => 0
      (m.dropSend x.uid).finishWork ring seq status detail 0 (if status = 0 then n else 0)
  | .get uid => if status = 0 then m else m.endGet uid status detail
  | .recv mid => if status = 0 then m else (m.closeRecv mid status detail 0).dropMat mid

/-- A message of a TX half is complete (R222): it leaves. A PUT_FLAG's work ends with the second of its messages, with the
first status that is not OK. -/
def Mach.endMsg (m : Mach) (cx uid status detail : Nat) : Mach :=
  match m.msg cx uid with
  | none => m
  | some x =>
    let m := m.updTx cx (fun t => { t with msgs := t.msgs.filter (fun (y : TxMsg) => y.uid != uid) })
    let (st, dt) := match x.carry with
      | some c => if c.1 != 0 then c else (status, detail)
      | none => (status, detail)
    let twin := (m.txOf cx).bind (fun t => t.msgs.find? (fun y =>
      x.owner != .none && y.owner == x.owner && (y.kind = 1 || y.kind = 2) && (x.kind = 1 || x.kind = 2)))
    match twin with
    | some y => m.updMsg cx y.uid (fun y => { y with carry := some (st, dt) })
    | none => m.endOwner x st dt

/-- A work ends at once with a local fault while packets of its messages remain to be sent: they lose their owner. -/
def Mach.endWorkOf (m : Mach) (cx : Nat) (x : TxMsg) (status detail : Nat) : Mach :=
  let free := fun (y : TxMsg) => if y.owner == x.owner && x.owner != Owner.none then { y with owner := Owner.none } else y
  let m := m.updTx cx (fun t => { t with msgs := t.msgs.map free })
  m.endOwner x status detail

/-! ### MSNs and host data -/

/-- The MSN that a message last had is known to what waits for its answer. -/
def Mach.named (m : Mach) (uid msn : Nat) : Mach :=
  let gets := m.cxn.gets.map (fun (g : GetOut) => if g.uid == uid then { g with msn := some msn } else g)
  let sends := m.mat.sends.map (fun (p : PendSend) => if p.uid == uid then { p with msn := some msn } else p)
  let msgs := m.mat.msgs.map (fun (x : MatMsg) => if x.pull == some uid then { x with pullMsn := some msn } else x)
  { m with cxn := { m.cxn with gets := gets }, mat := { m.mat with sends := sends, msgs := msgs } }

/-- MSNs are assigned in the order in which the messages reached the TXE (R202), as far as the first message that may
still turn out to send nothing. MSG_TS is taken with the MSN (R239). -/
def Mach.assignMsns (m : Mach) (cx : Nat) : List TxMsg → Mach
  | [] => m
  | x :: r =>
    match x.msn with
    | some _ => Mach.assignMsns m cx r
    | none =>
      if !x.ready then m
      else match m.txOf cx with
        | none => m
        | some t =>
          let now := m.stamp (cxQuad cx)
          let ts := match x.msgTs with | some a => if sub32 now a ≤ 32767 * 32768 then a else now | none => now
          let m := m.updMsg cx x.uid (fun x => { x with msn := some t.nextMsn, msgTs := some ts })
          let m := m.updTx cx (fun t => { t with nextMsn := (t.nextMsn + 1) % 4294967296 })
          Mach.assignMsns (m.named x.uid t.nextMsn) cx r

/-- MSNs are assigned where they can be. -/
def Mach.assign (m : Mach) (cx : Nat) : Mach :=
  match m.txOf cx with
  | some t => m.assignMsns cx t.msgs
  | none => m

/-- A RESULT: a sequenced one-packet message on this end's own TX half, TC1 (R222). FAULT_CNT counts it. -/
def Mach.resultMsg (m : Mach) (cx forMsn status detail : Nat) : Mach :=
  match m.needTx (cxSlot cx) (cxPeer cx) with
  | (m, false) => m
  | (m, true) =>
    let (uid, m) := m.newId
    let seq := match m.rxOf cx with | some r => (r.faultCnt + 1) % 65536 | none => 0
    let m := m.updRx cx (fun r => { r with faultCnt := seq })
    let x : TxMsg := { uid := uid, kind := 8, total := 0, count := 1, tc := 1, flow := m.respFlow (cxSlot cx) (cxPeer cx)
                       minOnly := false, op := .result forMsn status detail seq, queue := none, owner := .none
                       src := .held, ready := true }
    let m := m.updTx cx (fun t => { t with msgs := t.msgs ++ [x] })
    (m.bump Reg.CXN.RESULTS 1 (cxSlot cx)).assign cx

/-- A fault found in translating a message's source (R189, R218, R244, R247). A message with no MSN sends nothing; one
already begun sends the rest with POISON. A READ_RSP's fault is reported for its READ_REQ, a PULL_RSP's for its
PULL_REQ. -/
def Mach.sourceFault (m : Mach) (cx uid off : Nat) (f : XFault) : Mach :=
  match m.msg cx uid with
  | none => m
  | some x =>
    let unsent := match m.txOf cx with
      | some t => (t.msgs.filter (fun (y : TxMsg) =>
          y.msn.isNone && (y.uid == uid || (x.owner != Owner.none && y.owner == x.owner)))).map (fun (y : TxMsg) => y.uid)
      | none => []
    let m := m.endWorkOf cx x 0x02 f.detail
    let m := match x.op with
      | .readRsp r => m.resultMsg cx r 0x01 f.detail
      | .pullRsp r => m.resultMsg cx r 0x01 f.detail
      | _ => m
    let m := if x.msn.isNone then
        m.updTx cx (fun t => { t with msgs := t.msgs.filter (fun (y : TxMsg) => !unsent.contains y.uid) })
      else m.updMsg cx uid (fun x => { x with poison := some (min off (x.poison.getD off)), reading := x.reading.filter (· != off) })
    m.assign cx

/-- The host access that reads a message's payload at an offset; with `whole`, the one that translates all of it. -/
def readOp (cx : Nat) (x : TxMsg) (off : Nat) (range : Bool) : Option HostOp :=
  match x.src with
  | .held => none
  | .host pd func addr kind _ =>
    some { slot := cxSlot cx, func := func, pd := pd, va := addr + off
           len := if range then x.total else min 4096 (x.total - off), kind := kind, data := none
           purpose := if range then .range cx x.uid else .payload cx x.uid off }

/-- A payload read is asked for. -/
def Mach.fetchAt (m : Mach) (cx uid off : Nat) : Mach :=
  match m.msg cx uid with
  | none => m
  | some x =>
    match readOp cx x off false with
    | none => m
    | some op =>
      match m.hostAccess op with
      | (m, .fault f) => m.sourceFault cx uid off f
      | (m, r) =>
        m.updMsg cx uid (fun x => { x with reading := x.reading ++ [off], ready := x.ready || (r == .issued && off = 0) })

/-- A new message's source is first touched: the whole range translates, or the first page is read; a READ_RSP's reads are
all issued (R218). -/
def Mach.prime (m : Mach) (cx uid : Nat) : Mach :=
  match m.msg cx uid with
  | none => m
  | some x =>
    match x.src with
    | .held => m
    | .host _ _ _ _ whole =>
      if x.total = 0 then m.updMsg cx uid (fun x => { x with ready := true })
      else if whole then
        match readOp cx x 0 true with
        | none => m
        | some op =>
          match m.hostAccess op with
          | (m, .issued) => m.updMsg cx uid (fun x => { x with ready := true })
          | (m, .waiting) => m
          | (m, .fault f) => m.sourceFault cx uid 0 f
      else if x.kind = 4 then (List.range x.count).foldl (fun a k => a.fetchAt cx uid (4096 * k)) m
      else m.fetchAt cx uid 0

/-! ### Sending (R224, R226, R304) -/

/-- A packet of a message, first copy or another. -/
def Mach.rsxPacket (m : Mach) (cx : Nat) (t : TxHalf) (x : TxMsg) (k psn : Nat) (retx last : Bool) : Packet :=
  let off := 4096 * k
  let n := payOf x.kind x.total k
  let bad := match x.poison with | some p => decide (p ≤ off) | none => false
  let h : RsxHdr := { opn := t.opening, ackReq := k + 1 = x.count || last, retx := retx, poison := bad, epoch := t.epoch
                      psn := psn, msn := x.msn.getD 0, totalLen := x.total, offset := off, pktCount := x.count
                      openTs := t.openTs, op := x.op }
  { hdr := m.rspHdr (cxSlot cx) (cxPeer cx) x.kind x.tc x.flow n x.minOnly, body := .rsx h
    payload := if bad then zeros n else slice (Tbl.get x.data off []) 0 n }

/-- A packet goes out on a TX half: offered to the message's queue; where it has no route it is not built (R145, R225). The
timer runs from it if it does not run. The answer says whether it was offered. -/
def Mach.sendPsn (m : Mach) (cx : Nat) (t : TxHalf) (x : TxMsg) (k psn : Nat) (retx last : Bool) : Mach × Bool :=
  let pkt := m.rsxPacket cx t x k psn retx last
  let ts := match x.op with | .match_ .. => x.msgTs | _ => none
  let (m, sent) := m.build (cxQuad cx) x.queue { pkt := pkt, tx := some (cx, x.uid), msgTs := ts }
  let due := m.clk + m.rto
  let m := m.updTx cx (fun t => { t with timer := t.timer.or (some due), met := t.met || !sent })
  ((if retx then m.bump Reg.CXN.RETX_PKTS 1 (cxSlot cx) else m).touch cx, sent)

/-- The data of a packet is there: it has none, the message holds it, or it carries POISON. -/
def TxMsg.hasData (x : TxMsg) (k : Nat) : Bool :=
  payOf x.kind x.total k = 0 || (Tbl.find x.data (4096 * k)).isSome ||
  (match x.poison with | some p => decide (p ≤ 4096 * k) | none => false)

/-- The injection FIFO that a message's packets go to (R301, R303). -/
def TxMsg.fifo (x : TxMsg) (cx : Nat) : Nat := fifoKey (memberId (cxQuad cx) x.queue) (x.tc % 4)

/-- A TX half's first copies stand in one FIFO at a time, so that PSNs, given as packets are offered (R304), are in the order of
injection (R202). -/
def TxHalf.inOrder (t : TxHalf) (f : Nat) : Bool := t.offered = 0 || t.via = f

/-- A first copy has been injected. -/
def Mach.injected (m : Mach) (o : Offer) : Mach :=
  match o.tx, o.pkt.body with
  | some (cx, _), .rsx h =>
    m.updTx cx (fun t => if h.retx || t.epoch != h.epoch || t.openTs != h.openTs then t else { t with offered := t.offered - 1 })
  | _, _ => m

/-- One move of a sender: a copy of a round (R224), or the next packet of the first message not wholly sent; `none` where
nothing may be sent now. -/
def Mach.sendOne (m : Mach) (cx : Nat) : Option Mach :=
  match m.txOf cx with
  | none => none
  | some t =>
    if !t.rnrUntil.isEmpty then none
    else match t.rp with
    | some p =>
      let p := if behind32 p t.una then t.una else p
      if p = t.nextPsn then some (m.updTx cx (fun t => { t with rp := none }))
      else match t.byPsn p with
        | none => some (m.updTx cx (fun t => { t with rp := some ((p + 1) % 4294967296) }))
        | some (x, k) =>
          if !t.admits (t.inflight p) (t.costOf p) then none
          else
            let next := (p + 1) % 4294967296
            some ((m.sendPsn cx t x k p true (next = t.nextPsn)).1.updTx cx (fun t => { t with rp := some next }))
    | none =>
      match t.msgs.find? (fun x => decide (x.sent < x.count)) with
      | none => none
      | some x =>
        let cost := 64 + payOf x.kind x.total x.sent
        if x.msn.isNone || 2048 ≤ sub32 t.nextPsn t.una || !t.admits (t.inflight t.nextPsn) cost || !t.inOrder (TxMsg.fifo x cx) then none
        else if !TxMsg.hasData x x.sent then
          if x.reading.contains (4096 * x.sent) then none else some (m.fetchAt cx x.uid (4096 * x.sent))
        else
          let psn := t.nextPsn
          let (m, sent) := m.sendPsn cx t x x.sent psn false false
          let m := m.updMsg cx x.uid (fun x => { x with sent := x.sent + 1, psn0 := x.psn0.or (some psn) })
          some (m.updTx cx (fun t => { t with
            nextPsn := (psn + 1) % 4294967296, via := TxMsg.fifo x cx, offered := t.offered + (if sent then 1 else 0) }))

/-- A sender goes on as far as it may. -/
def Mach.pumpTx (cx : Nat) : Nat → Mach → Mach
  | 0, m => m
  | fuel + 1, m => match m.sendOne cx with | some m => Mach.pumpTx cx fuel m | none => m

/-- A sender goes on: at most a window of 2,048 packets and a round's copies, with a read for each. -/
def Mach.pumpSend (m : Mach) (cx : Nat) : Mach := Mach.pumpTx cx 8192 m

/-- A new message joins a TX half (R202). -/
def Mach.addMsg (m : Mach) (cx : Nat) (x : TxMsg) : Mach :=
  let x := { x with ready := x.src == .held }
  let m := m.updTx cx (fun t => { t with msgs := t.msgs ++ [x] })
  ((m.prime cx x.uid).assign cx).pumpSend cx

/-- A payload read has come back. -/
def Mach.payloadRead (m : Mach) (cx uid off : Nat) (data : List Byte) : Mach :=
  (m.updMsg cx uid (fun x => { x with data := Tbl.set x.data off data, reading := x.reading.filter (· != off) })).pumpSend cx

/-- A payload read has failed on PCIe (R467): the work ends with HOST_DATA_ERROR, and this packet and every later one
carries POISON. -/
def Mach.payloadFailed (m : Mach) (cx uid off : Nat) : Mach :=
  match m.msg cx uid with
  | none => m
  | some x =>
    let m := m.updMsg cx uid (fun x => { x with poison := some (min off (x.poison.getD off)), reading := x.reading.filter (· != off) })
    (m.endWorkOf cx x 0x0E 0).pumpSend cx

/-- A payload read that waited for its translation has been issued. -/
def Mach.payloadIssued (m : Mach) (cx uid off : Nat) : Mach :=
  if off = 0 then ((m.updMsg cx uid (fun x => { x with ready := true })).assign cx).pumpSend cx else m

/-- The whole source range of a message has translated (R244, R246). -/
def Mach.rangeGood (m : Mach) (cx uid : Nat) : Mach :=
  ((m.updMsg cx uid (fun x => { x with ready := true })).assign cx).pumpSend cx

/-! ### Rounds, failure, reopening (R209, R224, R225) -/

/-- The TX half closes; the context keeps its EPOCH. -/
def Mach.closeTx (m : Mach) (cx : Nat) : Mach := m.updCtx cx (fun c => { c with tx := none })

/-- Work of this end that awaits the peer's answer on a connection, its own message acknowledged, ends with a status: a GET, a
rendezvous SEND, a receive that pulls (R224, R225). -/
def Mach.endAwaited (m : Mach) (cx status : Nat) : Mach :=
  let m := (m.cxn.gets.filter (fun (g : GetOut) => g.cx == cx)).foldl (fun a g => a.endGet g.uid status 0) m
  let m := (m.mat.sends.filter (fun (p : PendSend) => p.cx == cx)).foldl
    (fun a p => (a.dropSend p.uid).finishWork p.ring p.seq status 0) m
  (m.mat.msgs.filter (fun (x : MatMsg) => x.cx == cx && x.pull.isSome && !x.closed)).foldl
    (fun a x => (a.closeRecv x.id status 0 0).dropMat x.id) m

/-- Every outstanding work of an instance ends with a status. -/
def Mach.endAll (m : Mach) (cx status : Nat) : Mach :=
  match m.txOf cx with
  | none => m
  | some t => (t.msgs.foldl (fun a x => a.endMsg cx x.uid status 0) m).endAwaited cx status

/-- An instance fails: its work ends and it closes (R225). -/
def Mach.failTx (m : Mach) (cx status : Nat) : Mach :=
  ((m.endAll cx status).closeTx cx).bump Reg.CXN.FAILED 1 (cxSlot cx)

/-- The outstanding messages start again from their first bytes on a new instance, in MSN order (R209, R225), `rounds`
rounds without progress behind them. -/
def Mach.reopen (m : Mach) (cx rounds : Nat) : Mach :=
  match m.txOf cx with
  | none => m
  | some t =>
    let old := t.msgs.map TxMsg.again
    let m := (m.closeTx cx).openTx cx
    let m := m.updTx cx (fun n => { n with msgs := old, rounds := rounds, downOnly := t.downOnly, met := t.met })
    (m.assign cx).pumpSend cx

/-- Messages whose first packet was injected more than LIFETIME ago (R225). -/
def Mach.outlived (m : Mach) (t : TxHalf) : List Nat :=
  (t.msgs.filter (fun x => match x.firstAt with | some a => decide (a + 2 * m.lifetime < m.clk) | none => false)).map (·.uid)

/-- Those messages end with LIFETIME_EXPIRED, and the instance has failed (R225). -/
def Mach.endOutlived (m : Mach) (cx : Nat) (old : List Nat) : Mach :=
  (old.foldl (fun a uid => (a.endMsg cx uid 0x0A 0).record 0x7021 (cxQuad cx) [cxSlot cx, cxPeer cx, uid]) m).bump
    Reg.CXN.FAILED 1 (cxSlot cx)

/-- Where a round begins: at its PSN; at the lower one of a round that a NAK's hold still keeps back (DESIGN CHOICE, log entry 40). -/
def TxHalf.roundFrom (t : TxHalf) (p : Nat) : Nat :=
  match t.rp with
  | some r => if !t.rnrUntil.isEmpty && behind32 r p then r else p
  | none => p

/-- The start of a round (R224, R225): from PSN `p`, counted unless an RNR delay has passed. -/
def Mach.goBack (m : Mach) (cx p : Nat) (counted : Bool) : Mach :=
  match m.txOf cx with
  | none => m
  | some t =>
    let rounds := if counted then t.rounds + 1 else t.rounds
    let down := if t.rounds = 0 then t.downOnly else t.downOnly && t.met
    if m.retryMax < rounds then
      let status := if down && t.met then 0x03 else 0x09
      ((m.failTx cx status).raise 80 .none (cxPeer cx) (cxQuad cx)).record 0x7020 (cxQuad cx) [cxSlot cx, cxPeer cx]
    else
      match m.outlived t with
      | [] =>
        let due := m.clk + m.rto
        (m.updTx cx (fun t => { t with
          rounds := rounds, downOnly := down, met := false, rp := some (t.roundFrom p), timer := some due })).pumpSend cx
      | old => (m.endOutlived cx old).reopen cx 0

/-- Messages that an ACK covers complete (R222): with the status of their RESULT, or with OK once every RESULT that the ACK
counts has come. -/
def Mach.settleAcks (m : Mach) (cx : Nat) : Mach :=
  match m.txOf cx with
  | none => m
  | some t =>
    t.msgs.foldl (fun a x =>
      match x.psn0 with
      | none => a
      | some p =>
        if x.sent = x.count && !behind32 t.una ((p + x.count) % 4294967296) then
          match x.result with
          | some (st, dt) => a.endMsg cx x.uid st dt
          | none =>
            if t.lastCnt = t.faults then a.endMsg cx x.uid 0 0
            else a.updMsg cx x.uid (fun x => { x with acked := true })
        else a) m

/-! ### The window (R226) -/

/-- OWD minima: the current BASE_WIN period and the one before. A BASE_WIN written applies from the next period (Table 8-8). -/
def Mach.owdRoll (m : Mach) (t : TxHalf) (d : Nat) : TxHalf :=
  let stop := t.owdAt + t.owdWin * Config.msCycles
  let w := m.baseWin * Config.msCycles
  let n := (m.clk - stop) / w
  let t := if m.clk < stop then t
    else { t with owdAt := stop + n * w, owdPrev := if n = 0 then t.owdCur else none, owdCur := none, owdWin := m.baseWin }
  { t with owdCur := some (match t.owdCur with | some x => min x d | none => d) }

/-- The window after an ACK that advanced UNA by `b` bytes of cost with one-way delay `d`. -/
def Mach.window (m : Mach) (t : TxHalf) (b d : Nat) : TxHalf :=
  if !m.isSet Reg.CXN.CC_EN then { t with cwnd := m.cwndMax }
  else if m.unlocked then { t with cwnd := clamp cwndMin m.cwndMax t.cwnd }
  else
    let t := m.owdRoll t d
    let cur := t.owdCur.getD d
    let base := match t.owdPrev with | some p => min p cur | none => cur
    let q := d - base
    let target := m.get Reg.CXN.TARGET_Q
    let pending := match t.decUntil with | some u => behind32 t.una u | none => false
    let t := if pending then t else { t with decUntil := none }
    let t := if q ≤ target then { t with cwnd := t.cwnd + m.get Reg.CXN.AI * b / max 1 t.cwnd }
      else if pending then t
      else
        let den := 256 * q
        let num := den - min den (m.get Reg.CXN.BETA * (q - target))
        { t with cwnd := if 2 * num < den then t.cwnd / 2 else t.cwnd * num / den, decUntil := some t.nextPsn }
    { t with cwnd := clamp cwndMin m.cwndMax t.cwnd }

end Sys2Proof.Machine
end

