-- ==== Sys2Proof/Machine/Fp.lean ====
section
/-!
DEFINITION. Binary floating point as the collectives and the atomics use it (R266, R268 to R270, R295): formats, the
correctly rounded sum, minimum and maximum, conversion, and the flags of R269.
-/

namespace Sys2Proof.Machine

/-- A format: exponent bits and fraction bits. -/
structure FpFmt where
  eb : Nat
  fb : Nat
  deriving DecidableEq, Repr

/-- BF16 (R266). -/
def bf16 : FpFmt := ⟨8, 7⟩
/-- IEEE 754 binary16. -/
def binary16 : FpFmt := ⟨5, 10⟩
/-- IEEE 754 binary32. -/
def binary32 : FpFmt := ⟨8, 23⟩
/-- IEEE 754 binary64. -/
def binary64 : FpFmt := ⟨11, 52⟩

/-- Invalid, overflow, underflow and inexact, as bits 0 to 3 (R269). -/
def fpInvalid : Nat := 1
/-- Overflow. -/
def fpOverflow : Nat := 2
/-- Underflow. -/
def fpUnderflow : Nat := 4
/-- Inexact. -/
def fpInexact : Nat := 8

/-- The sign of a value. -/
def FpFmt.sign (f : FpFmt) (x : Nat) : Bool := bit x (f.eb + f.fb)
/-- The exponent field. -/
def FpFmt.exp (f : FpFmt) (x : Nat) : Nat := x / 2 ^ f.fb % 2 ^ f.eb
/-- The fraction field. -/
def FpFmt.frac (f : FpFmt) (x : Nat) : Nat := x % 2 ^ f.fb
/-- The exponent field of infinities and NaNs. -/
def FpFmt.top (f : FpFmt) : Nat := 2 ^ f.eb - 1
/-- A NaN. -/
def FpFmt.isNan (f : FpFmt) (x : Nat) : Bool := f.exp x = f.top && f.frac x != 0
/-- A signalling NaN: the top bit of the fraction is 0. -/
def FpFmt.isSnan (f : FpFmt) (x : Nat) : Bool := f.isNan x && f.frac x < 2 ^ (f.fb - 1)
/-- An infinity. -/
def FpFmt.isInf (f : FpFmt) (x : Nat) : Bool := f.exp x = f.top && f.frac x = 0
/-- The canonical quiet NaN (R268). -/
def FpFmt.nan (f : FpFmt) : Nat := f.top * 2 ^ f.fb + 2 ^ (f.fb - 1)
/-- The bit of the sign. -/
def FpFmt.signBit (f : FpFmt) (s : Bool) : Nat := if s then 2 ^ (f.eb + f.fb) else 0
/-- An infinity of a sign. -/
def FpFmt.inf (f : FpFmt) (s : Bool) : Nat := f.signBit s + f.top * 2 ^ f.fb

/-- The magnitude of a finite value, in units of the least subnormal. -/
def FpFmt.mag (f : FpFmt) (x : Nat) : Nat :=
  if f.exp x = 0 then f.frac x else (2 ^ f.fb + f.frac x) * 2 ^ (f.exp x - 1)

/-- A finite value as an integer in units of the least subnormal. -/
def FpFmt.toInt (f : FpFmt) (x : Nat) : Int := if f.sign x then -(f.mag x : Int) else (f.mag x : Int)

/-- `n / 2^k` to the nearest integer, ties to even. -/
def roundEven (n k : Nat) : Nat :=
  let q := n / 2 ^ k
  let r := n % 2 ^ k
  if 2 ^ k < 2 * r || (2 ^ k = 2 * r && q % 2 = 1) then q + 1 else q

/-- Bits of a number. -/
def bitLen (n : Nat) : Nat := if n = 0 then 0 else Nat.log2 n + 1

/-- A result is tiny: below the least normal value before rounding or after it, as the implementation detects it (IEEE 754
leaves the choice). `n` is in units of 2^-k of the least subnormal. -/
def FpFmt.tiny (f : FpFmt) (n k : Nat) : Bool :=
  if Config.tinyBefore then n < 2 ^ (f.fb + k)
  else
    let s := bitLen n - (f.fb + 1)
    roundEven n s * 2 ^ s < 2 ^ (f.fb + k)

/-- The correctly rounded value of `n / 2^k` least subnormals, with its flags. -/
def FpFmt.round (f : FpFmt) (s : Bool) (n k : Nat) : Nat × Nat :=
  if n = 0 then (f.signBit s, 0)
  else
    let sh := max k (bitLen n - (f.fb + 1))
    let q := roundEven n sh
    let e := sh - k
    let bits := if q < 2 ^ f.fb then q else (e + 1) * 2 ^ f.fb + (q - 2 ^ f.fb)
    if f.top * 2 ^ f.fb ≤ bits then (f.inf s, fpOverflow + fpInexact)
    else
      let inexact := n % 2 ^ sh != 0
      (f.signBit s + bits, if inexact then (if f.tiny n k then fpUnderflow + fpInexact else fpInexact) else 0)

/-- The sum of two values (R268). -/
def FpFmt.add (f : FpFmt) (a b : Nat) : Nat × Nat :=
  if f.isNan a || f.isNan b then (f.nan, if f.isSnan a || f.isSnan b then fpInvalid else 0)
  else if f.isInf a then (if f.isInf b && f.sign a != f.sign b then (f.nan, fpInvalid) else (a, 0))
  else if f.isInf b then (b, 0)
  else
    let t := f.toInt a + f.toInt b
    if t = 0 then (f.signBit (f.sign a && f.sign b), 0)
    else f.round (decide (t < 0)) t.natAbs 0

/-- The order of two values that are not NaN, with -0 below +0 (R268). -/
def FpFmt.less (f : FpFmt) (a b : Nat) : Bool :=
  let key := fun (x : Nat) =>
    let m : Int := (x % 2 ^ (f.eb + f.fb) : Nat)
    if f.sign x then -m - 1 else m
  decide (key a < key b)

/-- The minimum of two values (R268). -/
def FpFmt.min (f : FpFmt) (a b : Nat) : Nat × Nat :=
  if f.isNan a || f.isNan b then (f.nan, if f.isSnan a || f.isSnan b then fpInvalid else 0)
  else (if f.less b a then b else a, 0)

/-- The maximum of two values (R268). -/
def FpFmt.max (f : FpFmt) (a b : Nat) : Nat × Nat :=
  if f.isNan a || f.isNan b then (f.nan, if f.isSnan a || f.isSnan b then fpInvalid else 0)
  else (if f.less a b then b else a, 0)

/-- The exponent bias. -/
def FpFmt.bias (f : FpFmt) : Nat := 2 ^ (f.eb - 1) - 1

/-- A value of a narrower format as binary32, exactly; a NaN keeps its fraction (R270). -/
def FpFmt.widen (f : FpFmt) (x : Nat) : Nat :=
  let g := binary32
  if f.exp x = f.top then g.inf (f.sign x) + f.frac x * 2 ^ (g.fb - f.fb)
  else (g.round (f.sign x) (f.mag x * 2 ^ (g.bias + g.fb - (f.bias + f.fb))) 0).1

/-- A binary32 value rounded once to a narrower format (R270). -/
def FpFmt.narrow (f : FpFmt) (x : Nat) : Nat × Nat :=
  let g := binary32
  if g.isNan x then (f.nan, if g.isSnan x then fpInvalid else 0)
  else if g.isInf x then (f.inf (g.sign x), 0)
  else f.round (g.sign x) (g.mag x) (g.bias + g.fb - (f.bias + f.fb))

end Sys2Proof.Machine
end

