-- ==== Sys2Proof/Machine/CollOps.lean ====
section
/-!
DEFINITION. Collectives as shared operations (file 10): combining (R265 to R271), chunks and edges (R272 to R276), what a
rank does next, and the abort of a group (R277).
-/

namespace Sys2Proof.Machine

/-! ### Combining (R265 to R271) -/

/-- The element size of a DTYPE (Table 10-3). -/
def elemSize (d : Nat) : Nat :=
  match d with
  | 0 => 4 | 1 => 4 | 2 => 8 | 3 => 8 | 4 => 2 | 5 => 2 | 6 => 4 | _ => 8
/-- The size of an element in an up packet (Table 10-3). -/
def wireSize (d : Nat) (promoted : Bool) : Nat := if promoted then 4 else elemSize d
/-- The floating-point format of a DTYPE. -/
def fmtOf (d : Nat) : FpFmt := match d with | 4 => bf16 | 5 => binary16 | 6 => binary32 | _ => binary64
/-- The format in which operands are folded. -/
def foldFmt (d : Nat) (promoted : Bool) : FpFmt := if promoted then binary32 else fmtOf d

/-- The fold of two integers of `n` bits (R267). -/
def combineInt (n : Nat) (signed : Bool) (redop x y : Nat) : Nat :=
  let lt := fun a b => if signed then decide (toSigned n a < toSigned n b) else decide (a < b)
  match redop with
  | 0 => (x + y) % 2 ^ n
  | 1 => if lt y x then y else x
  | 2 => if lt x y then y else x
  | 3 => x &&& y
  | 4 => x ||| y
  | _ => x ^^^ y

/-- The fold of two elements, with its flags (R267, R268). -/
def combine (d redop : Nat) (promoted : Bool) (x y : Nat) : Nat × Nat :=
  if d < 4 then (combineInt (8 * elemSize d) (d % 2 = 0) redop x y, 0)
  else
    let f := foldFmt d promoted
    match redop with
    | 0 => f.add x y
    | 1 => f.min x y
    | _ => f.max x y

/-- The fold of `n` elements of two chunks, with the OR of the flags. -/
def foldChunk (d redop : Nat) (promoted : Bool) : Nat → List Byte → List Byte → List Byte × Nat
  | 0, _, _ => ([], 0)
  | n + 1, a, b =>
    let w := wireSize d promoted
    let (v, fl) := combine d redop promoted (leNat (a.take w)) (leNat (b.take w))
    let (r, fr) := foldChunk d redop promoted n (a.drop w) (b.drop w)
    (leBytes w v ++ r, fl ||| fr)

/-- `n` elements converted exactly to binary32 (R270). -/
def promoteChunk (f : FpFmt) : Nat → List Byte → List Byte
  | 0, _ => []
  | n + 1, b => leBytes 4 (f.widen (leNat (b.take 2))) ++ promoteChunk f n (b.drop 2)

/-- `n` binary32 elements rounded once to a format, with the flags (R270). -/
def roundChunk (f : FpFmt) : Nat → List Byte → List Byte × Nat
  | 0, _ => ([], 0)
  | n + 1, b =>
    let (v, fl) := f.narrow (leNat (b.take 4))
    let (r, fr) := roundChunk f n (b.drop 4)
    (leBytes 2 v ++ r, fl ||| fr)

/-! ### Groups, ranks, edges -/

/-- A group that exists: one whose DESTROY still awaits completions no longer does (R278). -/
def Mach.grp (m : Mach) (n : Nat) : Option CollGroup := (Tbl.find m.groups n).bind (fun g => if g.dying.isSome then none else some g)
/-- A group changed. -/
def Mach.updGrp (m : Mach) (n : Nat) (f : CollGroup → CollGroup) : Mach :=
  match m.grp n with | some g => { m with groups := Tbl.set m.groups n (f g) } | none => m
/-- Where an edge of a local rank is kept. -/
def edgeKey (rank peer : Nat) (x : Bool) : Nat := (rank * 1048576 + peer) * 2 + b2n x
/-- The local rank of an edge. -/
def edgeRank (ek : Nat) : Nat := ek / 2097152
/-- The rank at the other end of an edge. -/
def edgePeer (ek : Nat) : Nat := ek / 2 % 1048576
/-- An X edge (R262). -/
def edgeX (ek : Nat) : Bool := ek % 2 == 1
/-- The same edge as its other end keeps it. -/
def edgeBack (ek : Nat) : Nat := edgeKey (edgePeer ek) (edgeRank ek) (edgeX ek)

/-- An edge as it stands. -/
def CollGroup.edge (g : CollGroup) (ek : Nat) : CollEdge := Tbl.get g.edges ek { eid := g.eids.getD (edgePeer ek) 0 }
/-- A local rank. -/
def CollGroup.rank (g : CollGroup) (r : Nat) : Option CollRank := g.ranks.find? (fun k => k.rank == r)
/-- A rank is local. -/
def CollGroup.isLocal (g : CollGroup) (r : Nat) : Bool := (g.rank r).isSome
/-- An edge changed. -/
def Mach.updEdge (m : Mach) (n ek : Nat) (f : CollEdge → CollEdge) : Mach :=
  m.updGrp n (fun g => { g with edges := Tbl.set g.edges ek (f (g.edge ek)) })
/-- A local rank changed. -/
def Mach.updRank (m : Mach) (n r : Nat) (f : CollRank → CollRank) : Mach :=
  m.updGrp n (fun g => { g with ranks := modifyFirst (fun (k : CollRank) => k.rank == r) f g.ranks })
/-- An operation of a local rank changed. -/
def Mach.updColl (m : Mach) (n r seq : Nat) (f : CollOp → CollOp) : Mach :=
  m.updRank n r (fun k => { k with ops := modifyFirst (fun (o : CollOp) => o.seq == seq) f k.ops })
/-- An operation of a local rank. -/
def Mach.collOp (m : Mach) (n r seq : Nat) : Option CollOp :=
  (((m.grp n).bind (fun g => g.rank r)).bind (fun k => k.ops.find? (fun o => o.seq == seq)))

/-- Every tree neighbour of a local rank. -/
def CollRank.neighbours (k : CollRank) : List Nat := k.parent.toList ++ k.children

/-! ### Chunks (R272) -/

/-- Up chunks of an operation. -/
def CollOp.upN (o : CollOp) : Nat := max 1 ((o.count * wireSize o.dtype o.promote + 4095) / 4096)
/-- Down chunks of an operation. -/
def CollOp.downN (o : CollOp) : Nat := max 1 ((o.count * elemSize o.dtype + 4095) / 4096)
/-- Bytes of chunk `k` of a direction. -/
def CollOp.chunkLen (o : CollOp) (up : Bool) (k : Nat) : Nat :=
  min 4096 (o.count * (if up then wireSize o.dtype o.promote else elemSize o.dtype) - 4096 * k)

/-- The parameters of a chunk agree with those of its rank's operation (R263): those the operation uses, PROMOTE in up
chunks only; CHUNK, LAST and the payload's length follow from them. -/
def CollOp.agrees (o : CollOp) (c : CollChunk) : Bool :=
  c.op == o.op &&
  (o.op == 0 || (c.dtype == o.dtype && c.count == o.count)) &&
  (!(o.op == 1 || o.op == 2) || c.root == o.root) &&
  (!(o.op == 2 || o.op == 3) || (c.redop == o.redop && (!c.up || c.promoted == o.promote))) &&
  (let n := if c.up then o.upN else o.downN
   c.chunk < n && c.last == (c.chunk + 1 == n) && c.data.length == o.chunkLen c.up c.chunk)

/-- Up chunks that a rank has to gather: from its own data and its children's, at rank 0 of a BROADCAST from the X edge. -/
def CollOp.gathers (o : CollOp) (r : Nat) : Nat :=
  if o.op = 1 then (if r = o.root || r = 0 then o.upN else 0) else o.upN

/-- The rank's own buffer takes the result (Table 10-2); a BARRIER's release counts as such. -/
def CollOp.receives (o : CollOp) (r : Nat) : Bool := o.op != 2 || r == o.root

/-- Where a down chunk goes from a rank, beside its own buffer (R262, R276). -/
def downTargets (k : CollRank) (op root : Nat) : List Nat :=
  if op = 2 then (if k.rank = 0 && root != 0 then [edgeKey 0 root true] else [])
  else k.children.map (fun c => edgeKey k.rank c false)

/-- Where a rank sends its up chunks. -/
def upTarget (k : CollRank) (o : CollOp) : Nat :=
  if o.op = 1 then edgeKey k.rank 0 true else edgeKey k.rank (k.parent.getD 0) false

/-! ### Packets (R273) -/

/-- The transport area of a packet on an edge, before what its kind sets. -/
def CollGroup.hdr (g : CollGroup) (n ek : Nat) : CollHdr :=
  { group := n, gen := g.gen, op := 0, promoted := false, last := false, x := edgeX ek, esn := 0, opSeq := 0, dtype := 0
    redop := 0, count := 0, chunk := 0, srcRank := edgeRank ek, fpFlags := 0, reason := 0, echo := false, root := 0 }

/-- A collective packet is built on an edge and offered to SYSQ on TC2; `false` where it meets PEER_DOWN. -/
def Mach.collPacket (m : Mach) (g : CollGroup) (ek kind : Nat) (h : CollHdr) (data : List Byte) : Mach × Bool :=
  let dst := (g.edge ek).eid
  let slot := g.eids.getD (edgeRank ek) 0 % 16
  let k : Packet := { hdr := m.rspHdr slot dst kind 2 (m.respFlow slot dst) data.length false, body := .coll h, payload := data }
  m.build g.homeQ none { pkt := k }

/-- The transport area of a chunk. -/
def chunkHdr (g : CollGroup) (n ek : Nat) (c : CollChunk) : CollHdr :=
  { g.hdr n ek with
    op := c.op, promoted := c.promoted, last := c.last, esn := c.esn, opSeq := c.opSeq, dtype := c.dtype, redop := c.redop
    count := c.count, chunk := c.chunk, fpFlags := c.flags, root := c.root }

/-! ### Completion and abort (R264, R277) -/

/-- A COLL ends at its rank, and leaves. -/
def Mach.endColl (m : Mach) (n r : Nat) (o : CollOp) (status detail data length : Nat) : Mach :=
  match m.grp n with
  | none => m
  | some g =>
    let m := m.updRank n r (fun k => { k with ops := k.ops.filter (fun x => x.seq != o.seq), doneSeq := o.seq })
    (m.bump Reg.COL.OPS_DONE 1 g.homeQ).finishWork o.ring o.work status detail data length

/-- The first OP_SEQ that an abort ends at a rank. -/
def CollRank.firstSeq (k : CollRank) : Nat := match k.ops with | o :: _ => o.seq | [] => k.nextSeq

/-- An ABORT on an edge. -/
def Mach.sendAbort (m : Mach) (n ek reason first : Nat) (echo : Bool) : Mach :=
  match m.grp n with
  | none => m
  | some g => (m.collPacket g ek 0x14 { g.hdr n ek with reason := reason, opSeq := first, echo := echo } []).1

/-- Everything a group has in hand ends as the abort begins. -/
def CollGroup.stop (g : CollGroup) (reason : Nat) : CollGroup :=
  let quiet := fun (e : CollEdge) =>
    { e with kept := [], timer := none, slots := [], freed := 0, credit := none, nakFor := none }
  { g with aborted := some reason, edges := g.edges.map (fun (k, e) => (k, quiet e))
           ranks := g.ranks.map (fun k => { k with down := none }) }

/-- The X edge of a local rank's operation (R262): between its ROOT and rank 0, where they differ. -/
def CollRank.xEdge (k : CollRank) (o : CollOp) : Option Nat :=
  if !(o.op = 1 || o.op = 2) || o.root = 0 then none
  else if k.rank = 0 then some (edgeKey 0 o.root true)
  else if k.rank = o.root then some (edgeKey k.rank 0 true) else none

/-- The edges over which an abort goes out (R277): to every tree neighbour of each local rank that is of another module, and to the X
partners, those of operations outstanding and those met before. -/
def CollGroup.abortEdges (g : CollGroup) : List Nat :=
  ((g.edges.keys ++ g.ranks.flatMap (fun k => k.ops.filterMap k.xEdge)).filter (fun ek => !g.isLocal (edgePeer ek))).eraseDups

/-- The ABORTs that leave a module, and the timers that resend them: over every edge that leaves the module, but for that of the
sender of an ABORT that this answers. -/
def Mach.spreadAbort (m : Mach) (n reason : Nat) (skip : Option Nat) : Mach :=
  match m.grp n with
  | none => m
  | some g =>
    (g.abortEdges.filter (fun ek => some ek != skip)).foldl (fun a ek =>
      let first := ((g.rank (edgeRank ek)).map (fun k => k.firstSeq)).getD 0
      let due := a.clk + a.rto
      (a.sendAbort n ek reason first false).updEdge n ek (fun e => { e with abortAt := some due })) m

/-- A group aborts (R277): its COLLs end with `status`, but for an entry `own` (rank, OP_SEQ, STATUS, DETAIL) whose own fault
it was; the ABORTs go out; FS85 and event 0x7050. A group already aborted keeps its reason. -/
def Mach.collAbort (m : Mach) (n reason : Nat) (own : Option (Nat × Nat × Nat × Nat) := none) (skip : Option Nat := none)
    (status : Nat := 5) : Mach :=
  match m.grp n with
  | none => m
  | some g =>
    if g.aborted.isSome then m
    else
      let m := m.updGrp n (fun g => g.stop reason)
      let m := m.spreadAbort n reason skip
      let m := g.ranks.foldl (fun a k => k.ops.foldl (fun a o =>
        match own with
        | some (r, seq, st, dt) =>
          if r = k.rank && seq = o.seq then a.endColl n k.rank o st dt 0 0 else a.endColl n k.rank o status 0 0 0
        | none => a.endColl n k.rank o status 0 0 0) a) m
      let m := m.bump Reg.COL.ABORTS 1 g.homeQ
      (m.raise 85 .none (65536 * reason + n) g.homeQ).record 0x7050 g.homeQ [n, reason]

/-! ### Edges: credits and loss (R274, R275) -/

/-- A CREDIT reaches the sender of an edge direction: CUM moves up, and what it covers is let go. -/
def Mach.applyCredit (m : Mach) (n ek cum : Nat) : Mach :=
  match m.grp n with
  | none => m
  | some g =>
    let e := g.edge ek
    let step := sub32 cum e.sCum
    if step = 0 || sub32 e.sNext e.sCum < step then m
    else
      let due := m.clk + m.rto
      m.updEdge n ek (fun e =>
        let kept := e.kept.filter (fun c => step ≤ sub32 c.esn e.sCum)
        { e with kept := kept, sCum := cum, rounds := 0
                 timer := if kept.isEmpty || g.isLocal (edgePeer ek) then none else some due })

/-- The receiver of an edge direction reports what it has freed. -/
def Mach.sendCredit (m : Mach) (n ek : Nat) : Mach :=
  match m.grp n with
  | none => m
  | some g =>
    let cum := (g.edge ek).rCum
    let m := m.updEdge n ek (fun e => { e with freed := 0, credit := none })
    if g.isLocal (edgePeer ek) then m.applyCredit n (edgeBack ek) cum
    else (m.collPacket g ek 0x12 { g.hdr n ek with esn := cum } []).1

/-- The chunk at the head of an edge direction has been handled: its slot is free. -/
def Mach.freeSlot (m : Mach) (n ek : Nat) : Mach :=
  match m.grp n with
  | none => m
  | some g =>
    let due := m.clk + Config.usCycles
    let m := m.updEdge n ek (fun e =>
      { e with slots := e.slots.filter (fun c => c.esn != e.rCum), rCum := (e.rCum + 1) % 4294967296, freed := e.freed + 1
               credit := e.credit.or (some due) })
    if g.window ≤ 2 * ((g.edge ek).freed + 1) then m.sendCredit n ek else m

/-- The next chunk that an edge direction may use. -/
def CollEdge.head (e : CollEdge) : Option CollChunk := e.slots.find? (fun c => c.esn == e.rCum)

/-- The first two parties whose parameters differ at one OP_SEQ of a local rank: the rank whose chunk it is. -/
def CollGroup.mismatch (g : CollGroup) (k : CollRank) : Option Nat :=
  g.edges.findSome? (fun (ek, e) =>
    if edgeRank ek != k.rank then none
    else e.slots.findSome? (fun c =>
      (k.ops.find? (fun o => o.seq == c.opSeq)).bind (fun o => if o.agrees c then none else some (edgePeer ek))))

/-- The comparison of R263 at a local rank. -/
def Mach.collCompare (m : Mach) (n r : Nat) : Mach :=
  match m.grp n with
  | none => m
  | some g =>
    match (g.rank r).bind (fun k => g.mismatch k) with
    | some peer => (m.record 0x7053 g.homeQ [n, r, peer]).collAbort n 3
    | none => m

/-- A chunk arrives on an edge direction: beyond the window, a duplicate, or stored in its slot and compared. -/
def Mach.edgeRecv (m : Mach) (n ek : Nat) (c : CollChunk) : Mach :=
  match m.grp n with
  | none => m
  | some g =>
    let e := g.edge ek
    if behind32 c.esn e.rCum || e.slots.any (fun x => x.esn == c.esn) then
      (m.bump Reg.COL.DUP_DROP 1 g.homeQ).sendCredit n ek
    else if g.window ≤ sub32 c.esn e.rCum then m.bump Reg.COL.PROTO_DROP 1 g.homeQ
    else
      (m.updEdge n ek (fun e => { e with slots := e.slots ++ [c] })).collCompare n (edgeRank ek)

/-- The lowest missing ESN with a held one above it: that ESN, and the INJ_TS of the lowest held above. -/
def CollEdge.hole (e : CollEdge) (window : Nat) : Option (Nat × Nat) :=
  let has := fun i => e.slots.find? (fun c => c.esn == (e.rCum + i) % 4294967296)
  match (List.range window).find? (fun i => (has i).isNone) with
  | none => none
  | some i => ((List.range window).findSome? (fun j => if i < j then has j else none)).map
      (fun c => ((e.rCum + i) % 4294967296, c.injTs))

/-- LAT_MAX of the CXN block in ns. -/
def Mach.edgeLat (m : Mach) : Nat := 1000 * clamp 5 5000 (m.get Reg.CXN.LAT_MAX)

/-- The loss check of an edge direction (R275). -/
def Mach.edgeCheck (m : Mach) (n ek : Nat) : Mach :=
  match m.grp n with
  | none => m
  | some g =>
    let e := g.edge ek
    match if g.aborted.isSome || g.isLocal (edgePeer ek) then none else e.hole g.window with
    | none => m
    | some (esn, ts) =>
      let again := e.nakFor != some esn || e.nakAt + Config.nsCycles * m.edgeLat ≤ m.clk
      if m.edgeLat < sub32 (m.stamp g.homeQ) ts && again then
        let now := m.clk
        let m := m.updEdge n ek (fun e => { e with nakFor := some esn, nakAt := now })
        (m.collPacket g ek 0x13 { g.hdr n ek with esn := esn } []).1.bump Reg.COL.NAKS_SENT 1 g.homeQ
      else m

/-- A round without progress: beyond RETRY_MAX the group aborts with reason 2. -/
def Mach.edgeRound (m : Mach) (n ek : Nat) : Mach :=
  match m.grp n with
  | none => m
  | some g =>
    let rounds := (g.edge ek).rounds + 1
    let m := m.updEdge n ek (fun e => { e with rounds := rounds })
    if m.retryMax < rounds then m.collAbort n 2 else m

/-- PKT_KIND of a chunk. -/
def chunkKind (c : CollChunk) : Nat := if c.up then 0x10 else 0x11

/-- The sender goes back to an ESN and resends from there (R275): event 0x7054. -/
def Mach.edgeResend (m : Mach) (n ek esn : Nat) : Mach :=
  let m := m.edgeRound n ek
  match m.grp n with
  | none => m
  | some g =>
    if g.aborted.isSome then m
    else
      let copies := (g.edge ek).kept.filter (fun c => !behind32 c.esn esn)
      let due := m.clk + m.rto
      let m := (m.updEdge n ek (fun e => { e with timer := some due })).record 0x7054 g.homeQ
        [n, edgeRank ek, edgePeer ek, esn]
      copies.foldl (fun a c =>
        (a.collPacket g ek (chunkKind c) (chunkHdr g n ek c) c.data).1.bump Reg.COL.RESENDS 1 g.homeQ) m

/-- The window of an edge direction admits another chunk (R274). -/
def CollGroup.open_ (g : CollGroup) (ek : Nat) : Bool := let e := g.edge ek; sub32 e.sNext e.sCum < g.window

/-- A new chunk goes out on an edge: it is kept until credited, and delivered at once where the other end is local. -/
def Mach.sendChunk (m : Mach) (n ek : Nat) (c : CollChunk) : Mach :=
  match m.grp n with
  | none => m
  | some g =>
    let esn := (g.edge ek).sNext
    let c := { c with esn := esn }
    let here := g.isLocal (edgePeer ek)
    let due := m.clk + m.rto
    let m := m.updEdge n ek (fun e =>
      { e with sNext := (esn + 1) % 4294967296, kept := e.kept ++ [c], timer := if here then none else e.timer.or (some due) })
    let m := (m.bump (if c.up then Reg.COL.CHUNKS_UP else Reg.COL.CHUNKS_DOWN) 1 g.homeQ).pmcEngine g.homeQ .cle 0x0B 1
    if here then m.edgeRecv n (edgeBack ek) { c with injTs := m.stamp g.homeQ }
    else
      match m.collPacket g ek (chunkKind c) (chunkHdr g n ek c) c.data with
      | (m, true) => m
      | (m, false) => m.edgeRound n ek

/-! ### What a rank does next (R264, R271, R274, R276) -/

/-- A chunk of an operation. -/
def CollOp.chunk (o : CollOp) (up : Bool) (i flags : Nat) (data : List Byte) : CollChunk :=
  { esn := 0, up := up, opSeq := o.seq, op := o.op, promoted := up && o.promote, last := i + 1 == (if up then o.upN else o.downN)
    dtype := o.dtype, redop := o.redop, count := o.count, root := o.root, chunk := i, flags := flags, data := data }

/-- The flags of a fold are counted, and set FP_EXC of the CLE (R21, R269). -/
def Mach.foldFlags (m : Mach) (n q flags : Nat) : Mach :=
  let m := (m.bump Reg.COL.FOLDS 1 q).pmcEngine q .cle 0x0B 1
  if flags = 0 then m
  else
    let key := 4 * 256 + q * 16 + n % 2
    let m := { m with engines := Tbl.modify m.engines key {} (fun x => { x with flags := x.flags ||| 0x00200000#32 }) }
    m.bump Reg.COL.FP_EXC_FOLDS 1 q

/-- Rank 0 has enough of a result for the next down chunk. -/
def CollOp.downReady (o : CollOp) : Bool :=
  o.made < o.downN && (4096 ≤ o.result.length || o.up = o.gathers 0)

/-- The next down chunk comes into a rank's hand: at rank 0 from the result, elsewhere from the parent's edge, at the ROOT
of a REDUCE from the X edge. -/
def Mach.takeDown (m : Mach) (n : Nat) (g : CollGroup) (k : CollRank) : Option Mach :=
  let fromEdge := fun ek =>
    match (g.edge ek).head with
    | none => none
    | some c =>
      if c.up then none
      else (k.ops.find? (fun (o : CollOp) => o.seq == c.opSeq)).bind (fun o =>
        if o.down ≤ c.chunk then
          let d : CollDown := { c := c, from_ := some ek, localDue := o.receives k.rank }
          some (m.updRank n k.rank (fun k => { k with down := some d }))
        else none)
  if k.rank = 0 then
    (k.ops.find? (fun o => o.made < o.downN)).bind (fun o =>
      if !o.downReady then none
      else
        let c := o.chunk false o.made o.resFlags (o.result.take (o.chunkLen false o.made))
        let d : CollDown := { c := c, from_ := none, localDue := o.receives 0 }
        let m := m.updColl n 0 o.seq (fun o =>
          { o with made := o.made + 1, result := o.result.drop 4096, resFlags := 0 })
        some (m.updRank n 0 (fun k => { k with down := some d })))
  else
    (fromEdge (edgeKey k.rank (k.parent.getD 0) false)).or (fromEdge (edgeKey k.rank 0 true))

/-- A down chunk has been issued to the rank's own buffer. -/
def Mach.localIssued (m : Mach) (n r : Nat) : Mach :=
  match ((m.grp n).bind (fun g => g.rank r)).bind (fun k => k.down) with
  | none => m
  | some d =>
    let m := m.updRank n r (fun k => { k with down := some { d with localDue := false, waiting := false } })
    m.updColl n r d.c.opSeq (fun o => { o with down := o.down + 1, flags := o.flags ||| d.c.flags })

/-- A down chunk goes to the rank's own buffer (access kind 3, R276); a fault ends that entry with LOCAL_XLT_FAULT and aborts
the group with reason 8. -/
def Mach.issueLocal (m : Mach) (n : Nat) (k : CollRank) (d : CollDown) : Mach :=
  match k.ops.find? (fun o => o.seq == d.c.opSeq) with
  | none => m
  | some o =>
    if d.c.data.isEmpty then m.localIssued n k.rank
    else
      let op : HostOp :=
        { slot := k.slot, func := o.func, pd := o.pd, va := o.dst + 4096 * d.c.chunk, len := d.c.data.length, kind := 3
          data := some d.c.data, purpose := .collDest n k.rank o.seq d.c.chunk }
      match m.hostAccess op with
      | (m, .issued) => m.localIssued n k.rank
      | (m, .waiting) => m.updRank n k.rank (fun k => { k with down := some { d with waiting := true } })
      | (m, .fault f) => m.collAbort n 8 (some (k.rank, o.seq, 0x02, f.detail))

/-- A move with the down chunk in hand: the rank's own buffer first, then each target in turn, then its slot is free. -/
def Mach.moveDown (m : Mach) (n : Nat) (g : CollGroup) (k : CollRank) : Option Mach :=
  match k.down with
  | none => m.takeDown n g k
  | some d =>
    if d.localDue then (if d.waiting then none else some (m.issueLocal n k d))
    else
      match (downTargets k d.c.op d.c.root).drop d.kids with
      | ek :: _ =>
        if !g.open_ ek then none
        else
          let m := m.updRank n k.rank (fun k => { k with down := some { d with kids := d.kids + 1 } })
          let esn := (g.edge ek).sNext
          let m := if d.c.op = 2 && d.c.last then m.updColl n k.rank d.c.opSeq (fun o => { o with sent := some (ek, esn) }) else m
          some (m.sendChunk n ek d.c)
      | [] =>
        let m := m.updRank n k.rank (fun k => { k with down := none })
        some (match d.from_ with | some ek => m.freeSlot n ek | none => m)

/-- The rank's own part of an up chunk is there. -/
def Mach.ownPart (m : Mach) (n r : Nat) (o : CollOp) (data : List Byte) : Mach :=
  let b := if o.promote then promoteChunk (fmtOf o.dtype) (o.chunkLen true o.up / 4) data else data
  m.updColl n r o.seq (fun o => { o with acc := some (b, 0, 0), reading := false })

/-- The rank's own part of an up chunk is read (access kind 2). -/
def Mach.readOwn (m : Mach) (n : Nat) (k : CollRank) (o : CollOp) : Mach :=
  let len := o.chunkLen true o.up / wireSize o.dtype o.promote * elemSize o.dtype
  if len = 0 then m.ownPart n k.rank o []
  else
    let op : HostOp :=
      { slot := k.slot, func := o.func, pd := o.pd, va := o.src + o.up * (4096 / wireSize o.dtype o.promote) * elemSize o.dtype
        len := len, kind := 2, data := none, purpose := .collSource n k.rank o.seq o.up }
    match m.hostAccess op with
    | (m, .fault f) => m.collAbort n 8 (some (k.rank, o.seq, 0x02, f.detail))
    | (m, _) => m.updColl n k.rank o.seq (fun o => { o with reading := true })

/-- An up chunk is complete at rank 0: it is rounded where it was promoted, and joins the result. -/
def Mach.toResult (m : Mach) (n : Nat) (o : CollOp) (data : List Byte) (flags : Nat) : Mach :=
  let (b, fl) := if o.promote then roundChunk (fmtOf o.dtype) (data.length / 4) data else (data, 0)
  m.updColl n 0 o.seq (fun o =>
    { o with result := o.result ++ b, resFlags := o.resFlags ||| flags ||| fl, up := o.up + 1, acc := none })

/-- A move with the first operation whose up chunks are not all handled: the rank's own part, then each child's chunk in
ascending rank, then up the tree, over the X edge, or into the result (R271). -/
def Mach.moveUp (m : Mach) (n : Nat) (g : CollGroup) (k : CollRank) : Option Mach :=
  match k.ops.find? (fun o => o.up < o.gathers k.rank) with
  | none => none
  | some o =>
    if k.rank = 0 && o.downReady then none
    else match o.acc with
    | none =>
      if o.op = 1 && k.rank = 0 && o.root != 0 then
        let ek := edgeKey 0 o.root true
        match (g.edge ek).head with
        | some c => if c.up && c.opSeq = o.seq then some ((m.toResult n o c.data c.flags).freeSlot n ek) else none
        | none => none
      else if o.reading then none
      else some (m.readOwn n k o)
    | some (b, fl, kids) =>
      match (if o.op = 1 then [] else k.children).drop kids with
      | c :: _ =>
        let ek := edgeKey k.rank c false
        match (g.edge ek).head with
        | some x =>
          if x.up && x.opSeq = o.seq then
            let (v, f) := foldChunk o.dtype o.redop o.promote (b.length / wireSize o.dtype o.promote) b x.data
            let m := m.updColl n k.rank o.seq (fun o => { o with acc := some (v, fl ||| x.flags ||| f, kids + 1) })
            some ((m.foldFlags n g.homeQ f).freeSlot n ek)
          else none
        | none => none
      | [] =>
        if k.rank = 0 then some (m.toResult n o b fl)
        else
          let ek := upTarget k o
          if !g.open_ ek then none
          else
            let c := o.chunk true o.up fl b
            let esn := (g.edge ek).sNext
            let m := m.updColl n k.rank o.seq (fun o =>
              { o with up := o.up + 1, acc := none, sent := if c.last then some (ek, esn) else o.sent })
            some (m.sendChunk n ek c)

/-- The first operation of a rank has met its rule of R264. -/
def CollGroup.finished (g : CollGroup) (r : Nat) (o : CollOp) : Bool :=
  if o.receives r then o.downN ≤ o.down
  else match o.sent with
    | some (ek, esn) => behind32 esn (g.edge ek).sCum
    | none => false

/-- The first operation of a rank completes (R264). -/
def Mach.moveEnd (m : Mach) (n : Nat) (g : CollGroup) (k : CollRank) : Option Mach :=
  match k.ops with
  | [] => none
  | o :: _ =>
    if !g.finished k.rank o then none
    else if o.op = 0 || !o.receives k.rank then some (m.endColl n k.rank o 0 0 0 0)
    else some (m.endColl n k.rank o 0 0 o.flags (o.count * elemSize o.dtype))

/-- The group's CLE is running (R277, reason 6). -/
def Mach.cleRuns (m : Mach) (n : Nat) (g : CollGroup) : Bool :=
  !(Tbl.get m.engines (4 * 256 + g.homeQ * 16 + n % 2) {}).stopped

/-- One move of a group, at the first of its local ranks that has one. -/
def Mach.collMove (m : Mach) (n : Nat) : Option Mach :=
  match m.grp n with
  | none => none
  | some g =>
    if g.aborted.isSome || g.reading || !m.cleRuns n g then none
    else g.ranks.findSome? (fun k => (m.moveEnd n g k).or ((m.moveDown n g k).or (m.moveUp n g k)))

/-- A group goes on as far as it can. -/
def Mach.collGo (n : Nat) : Nat → Mach → Mach
  | 0, m => m
  | fuel + 1, m => match m.collMove n with | some m => Mach.collGo n fuel m | none => m

/-- A group goes on: each move handles one chunk of one edge or buffer. -/
def Mach.collRun (m : Mach) (n : Nat) : Mach := Mach.collGo n 65536 m

/-! ### What host accesses come back to -/

/-- The read of a rank's own part has returned. -/
def Mach.collSourceRead (m : Mach) (n r seq i : Nat) (data : List Byte) : Mach :=
  match m.collOp n r seq with
  | some o => if o.reading && o.up = i then (m.ownPart n r o data).collRun n else m
  | none => m

/-- The read of a rank's own part has failed on PCIe (R467), or its translation has: reason 8, and the entry's own
status. -/
def Mach.collSourceFailed (m : Mach) (n r seq status detail : Nat) : Mach :=
  match m.collOp n r seq with
  | some _ => m.collAbort n 8 (some (r, seq, status, detail))
  | none => m

/-- The write of a down chunk that waited for its translation has been issued. -/
def Mach.collDestIssued (m : Mach) (n r seq : Nat) : Mach :=
  match ((m.grp n).bind (fun g => g.rank r)).bind (fun k => k.down) with
  | some d => if d.waiting && d.c.opSeq = seq then (m.localIssued n r).collRun n else m
  | none => m

/-! ### What destroys a COLL (R277) -/

/-- A work ring is destroyed: the groups that hold an uncompleted COLL of it abort with reason 1. -/
def Mach.collRingGone (m : Mach) (ring : Nat) : Mach :=
  (m.groups.filter (fun g => g.2.ranks.any (fun k => k.ops.any (fun o => o.ring == ring)))).foldl
    (fun a g => a.collAbort g.1 1) m

/-- The slot of a local rank is reset: its groups abort with reason 1. -/
def Mach.collSlotGone (m : Mach) (slot : Nat) : Mach :=
  (m.groups.filter (fun g => g.2.ranks.any (fun k => k.slot == slot))).foldl (fun a g => a.collAbort g.1 1) m

/-- A CLE is stopped by a fault reaction: its groups abort with reason 6, their entries end with DEVICE_SAFE. -/
def Mach.collEngineGone (m : Mach) (q c : Nat) : Mach :=
  (m.groups.filter (fun g => g.2.homeQ == q && g.1 % 2 == c)).foldl (fun a g => a.collAbort g.1 6 none none 0x0C) m

end Sys2Proof.Machine
end

