-- ==== Sys2Proof/Machine/RxOps.lean ====
section
/-!
DEFINITION. The receiving half of a connection as shared operations (file 08): acknowledgements (R221), the finish of a
packet and of a message (R216, R220), faults of a message (R222), and loss by time (R223).
-/

namespace Sys2Proof.Machine

/-- RSX_ACK_DELAY in cycles. -/
def Mach.ackDelay (m : Mach) : Nat := max 100 (m.get Reg.CXN.RSX_ACK_DELAY) * Config.nsCycles

/-- An ACK carrying DONE_PSN, the OWD and FAULT_CNT (R221). It stops the ACK timers. -/
def Mach.sendAck (m : Mach) (cx : Nat) : Mach :=
  match m.rxOf cx with
  | none => m
  | some r =>
    let m := m.updRx cx (fun r => { r with sinceAck := 0, ackOld := none, ackDone := none })
    (m.sendCtl (cxSlot cx) (cxPeer cx) 0x05 r.epoch r.openTs (.ack r.done r.owd r.faultCnt)).touch cx

/-- The GET of a connection whose READ_REQ had an MSN. -/
def Mach.getOf (m : Mach) (cx msn : Nat) : Option GetOut := m.cxn.gets.find? (fun g => g.cx == cx && g.msn == some msn)
/-- The message of matching whose PULL_REQ had an MSN. -/
def Mach.pullOf (m : Mach) (cx msn : Nat) : Option MatMsg :=
  m.mat.msgs.find? (fun x => x.cx == cx && x.pullMsn == some msn)

/-- A message slot of an RX half changed. -/
def Mach.updRxMsg (m : Mach) (cx msn : Nat) (f : RxMsg → RxMsg) : Mach :=
  m.updRx cx (fun r => { r with msgs := modifyFirst (fun (x : RxMsg) => x.msn == msn) f r.msgs })

/-- The message slot whose packets include a PSN. -/
def RxHalf.byPsn (r : RxHalf) (psn : Nat) : Option RxMsg := r.msgs.find? (fun x => decide (sub32 psn x.psn0 < x.count))

/-- A window disabled with no validated message left to finish is FREE (R215); a faulted one has finished (R216). -/
def Mach.settleWindow (m : Mach) (w : Nat) : Mach :=
  match Tbl.find m.cxn.windows w with
  | some x =>
    if !x.valid && !m.cxn.ctxs.vals.any (fun (c : Ctx) =>
        match c.rx with | some r => r.msgs.any (fun (y : RxMsg) => y.win == some w && y.fault.isNone) | none => false) then
      { m with cxn := { m.cxn with windows := Tbl.del m.cxn.windows w } }
    else m
  | none => m

/-- Messages whose every lower MSN has finished (R217): the lowest unfinished MSN moves up. -/
def passFinished : Nat → Nat → List Nat → Nat × List Nat
  | 0, n, l => (n, l)
  | fuel + 1, n, l => if l.contains n then passFinished fuel ((n + 1) % 4294967296) (l.filter (· != n)) else (n, l)

/-- A message counts as finished in MSN order (R216, R217). A fault is kept while the flag behind it may need it. -/
def RxHalf.finMark (r : RxHalf) (msn : Nat) (fault : Option (Nat × Nat)) : RxHalf :=
  if behind32 msn r.finMsn || r.finished.contains msn then r
  else
    let (n, l) := passFinished (r.finished.length + 1) r.finMsn (msn :: r.finished)
    let next := (msn + 1) % 4294967296
    let f := Tbl.del r.faulted (sub32 msn 1)
    let kept := !(behind32 next r.finMsn || r.finished.contains next)
    { r with finMsn := n, finished := l
             faulted := match fault with | some x => if kept then Tbl.set f msn x else f | none => f }

/-- What waited for a message of an RX half ends with it (R218, R246, R247): a GET, or a receive that pulled. -/
def Mach.endWaiter (m : Mach) (cx : Nat) (x : RxMsg) : Mach :=
  match x.op with
  | .readRsp req =>
    match m.getOf cx req with
    | some g => (match x.fault with | some (st, dt) => m.endGet g.uid st dt | none => m.endGet g.uid 0 0)
    | none => m
  | .pullRsp req =>
    match m.pullOf cx req with
    | some y =>
      let m := match y.fault.or x.fault, y.st with
        | some (st, dt), _ => m.closeRecv y.id st dt (if st = 0x0E then 0 else y.placed)
        | none, .bound r => m.closeRecv y.id (if r.cap < y.sendLen then 4 else 0) 0 (min y.sendLen r.cap)
        | none, _ => m
      m.dropMat y.id
    | none => m
  | _ =>
    match x.mat.bind m.matMsg with
    | some y => if y.closed then m.dropMat y.id else m
    | none => m

/-- Every packet of a message has come and its work is finished: its slot is free (R216, R220), and where no fault ended
it before, it finishes. -/
def Mach.finishRx (m : Mach) (cx : Nat) (x : RxMsg) : Mach :=
  let m := m.updRx cx (fun r =>
    { r.finMark x.msn x.fault with msgs := r.msgs.filter (fun (y : RxMsg) => y.msn != x.msn) })
  let m := match x.win with | some w => m.settleWindow w | none => m
  m.endWaiter cx x

/-- DONE_PSN moves up over finished PSNs (R220). -/
def passDone : Nat → Nat → List Nat → Nat × List Nat
  | 0, d, l => (d, l)
  | fuel + 1, d, l =>
    let n := (d + 1) % 4294967296
    if l.contains n then passDone fuel n (l.filter (· != n)) else (d, l)

/-- The work of a message for one accepted packet is finished (R220). -/
def Mach.finPsn (m : Mach) (cx inst psn : Nat) : Mach :=
  match m.rxOf cx with
  | none => m
  | some r =>
    if r.inst != inst || r.fin.contains psn || !ahead32 psn r.done then m
    else
      let now := m.clk + m.ackDelay
      let m := m.updRx cx (fun r =>
        let (d, l) := passDone (r.fin.length + 1) r.done (psn :: r.fin)
        { r with fin := l, done := d, ackDone := if d = r.done then r.ackDone else r.ackDone.or (some now) })
      match r.byPsn psn with
      | none => m
      | some x =>
        let k := sub32 psn x.psn0
        let x' := { x with fin := k :: x.fin }
        let m := m.updRxMsg cx x.msn (fun x => { x with fin := k :: x.fin })
        if x'.fin.length = x.count then m.finishRx cx x' else m

/-- A fault ends a message at the receiver (R216): it counts as finished, what waited for it ends, and it is reported to its initiator by a RESULT where
the spec says so (R222). -/
def Mach.faultRx (m : Mach) (cx msn st dt : Nat) (report : Bool) : Mach :=
  match (m.rxOf cx).bind (fun r => r.msgs.find? (fun x => x.msn == msn)) with
  | none => m
  | some x =>
    if x.fault.isSome then m
    else
      let m := m.updRxMsg cx msn (fun x => { x with fault := some (st, dt) })
      let m := m.updRx cx (fun r => r.finMark msn (some (st, dt)))
      let m := match x.win with | some w => m.settleWindow w | none => m
      let m := match x.op with
        | .readRsp _ => m.endWaiter cx { x with fault := some (st, dt) }
        | .pullRsp _ => m.endWaiter cx { x with fault := some (st, dt) }
        | _ => m
      if report then (m.resultMsg cx msn st dt).pumpSend cx else m

/-! ### Loss by time (R223) -/

/-- LAT_MAX in ns. -/
def Mach.latMax (m : Mach) : Nat := 1000 * clamp 5 5000 (m.get Reg.CXN.LAT_MAX)

/-- The INJ_TS of the lowest PSN received above EPSN. -/
def RxHalf.aboveHole (r : RxHalf) : Option Nat :=
  (r.bits.foldl (fun (a : Option (Nat × Nat)) b =>
    let d := sub32 b.1 r.epsn
    match a with
    | some (e, _) => if d < e then some (d, b.2) else a
    | none => some (d, b.2)) none).map (·.2)

/-- The loss check: the packet above the hole has aged past LAT_MAX, and no NAK for EPSN is younger than LAT_MAX. -/
def Mach.lossCheck (m : Mach) (cx : Nat) : Mach :=
  match m.rxOf cx with
  | none => m
  | some r =>
    match r.aboveHole with
    | none => m
    | some ts =>
      let due := m.latMax < sub32 (m.stamp (cxQuad cx)) ts
      let again := r.nakFor != some r.epsn || r.nakAt + 2 * m.latMax ≤ m.clk
      if due && again then
        let now := m.clk
        (m.updRx cx (fun r => { r with nakFor := some r.epsn, nakAt := now })).sendNak (cxSlot cx) (cxPeer cx) r.epoch
          r.openTs r.epsn 1
      else m

end Sys2Proof.Machine
end

