-- ==== Sys2Proof/Machine/MatchOps.lean ====
section
/-!
DEFINITION. Tag matching as shared operations (file 09): the match rule (R231, R232), binding and placement (R235, R245,
R246), the unexpected store (R251), posting and cancelling receives (R248, R250, R254), abandonment (R253) and the
disabling of a domain (R252).
-/

namespace Sys2Proof.Machine

/-- A match domain. -/
def Mach.domain (m : Mach) (d : Nat) : Option Domain := Tbl.find m.mat.domains d

/-- IGNORE_MASK with the communicator bits at 0 (R231). -/
def ignoreMask (commBits ignore : Nat) : Nat := ignore % 2 ^ (64 - min 32 commBits)

/-- A receive matches a message of its domain (R232). -/
def Recv.matches (r : Recv) (x : MatMsg) : Bool :=
  r.domain == x.domain && (match r.src with | some s => s == x.src | none => true) &&
  (r.bits ^^^ x.bits) &&& (2 ^ 64 - 1 - r.ignore) == 0

/-- A receive is exact (R232). -/
def Recv.exact (r : Recv) : Bool := r.src.isSome && r.ignore == 0

/-- Wildcard list entries of a domain that a search examines: up to the first that matches (R237). -/
def wildExamined (x : MatMsg) : List Recv → Nat
  | [] => 0
  | r :: l => if Recv.matches r x then 1 else 1 + wildExamined x l

/-- The quadrant of a message's domain. -/
def MatMsg.slot (x : MatMsg) : Nat := cxSlot x.cx

/-! ### Placement -/

/-- The end of an eager message's receive, once every byte is placed or discarded (R245). -/
def Mach.settleMat (m : Mach) (mid : Nat) : Mach :=
  match m.matMsg mid with
  | none => m
  | some x =>
    match x.st with
    | .bound r =>
      if x.rts || x.took < x.total then m
      else
        let n := min x.total r.cap
        let m := match x.fault with
          | some (st, dt) => m.closeRecv mid st dt 0
          | none => m.closeRecv mid (if x.poison then 0x0E else if r.cap < x.total then 4 else 0) 0 n
        let live := match m.rxOf x.cx with
          | some h => h.inst == x.inst && h.msgs.any (fun (y : RxMsg) => y.mat == some mid)
          | none => false
        if live then m else m.dropMat mid
    | _ => m

/-- Bytes of a message have been placed or discarded; the packet they came in is finished where `fin` says so. -/
def Mach.matTook (m : Mach) (mid n placed : Nat) (fin : Bool) (cx inst psn : Nat) : Mach :=
  let m := m.updMat mid (fun x => { x with took := x.took + n, placed := x.placed + placed })
  let m := m.settleMat mid
  if fin then m.finPsn cx inst psn else m

/-- A fault on the receive buffer: placement ends there, and the receive completes with LOCAL_XLT_FAULT (R245), LENGTH 0 (R187). -/
def Mach.matFault (m : Mach) (mid n : Nat) (fin : Bool) (cx inst psn : Nat) (f : XFault) : Mach :=
  let m := m.updMat mid (fun x => { x with fault := x.fault.or (some (0x02, f.detail)) })
  let m := m.closeRecv mid 0x02 f.detail 0
  m.matTook mid n 0 fin cx inst psn

/-- The part of an access before its first page boundary, where it translates. -/
def Mach.firstPage (m : Mach) (op : HostOp) : Option HostOp :=
  let n := 4096 - op.va % 4096
  if op.len ≤ n then none
  else
    let part := { op with len := n, data := op.data.map (·.take n) }
    match Tbl.find m.xlt.pds op.pd with
    | none => none
    | some pd =>
      match Mach.segments { part with slot := pd.slot } 2 m op.va [] with
      | (_, segs, none) => if segs.isEmpty then none else some part
      | _ => none

/-- Payload at an offset of a bound message goes to its receive's buffer: bytes below the capacity are written, the rest
discarded; after a fault, all are discarded (R245). -/
def Mach.matPlace (m : Mach) (mid : Nat) (r : Recv) (off : Nat) (data : List Byte) (fin : Bool) (cx inst psn : Nat) : Mach :=
  let bytes := data.take (r.cap - off)
  let stopped := match m.matMsg mid with | some x => x.fault.isSome || x.closed | none => true
  if bytes.isEmpty || stopped then m.matTook mid data.length 0 fin cx inst psn
  else
    let op : HostOp := { slot := cxSlot cx, func := r.func, pd := r.pd, va := r.addr + off, len := bytes.length, kind := 3
                         data := some bytes, purpose := .matPlace mid data.length fin cx inst psn }
    match m.hostAccess op with
    | (m, .issued) => m.matTook mid data.length bytes.length fin cx inst psn
    | (m, .waiting) => m
    | (m, .fault f) =>
      match m.firstPage op with
      | some part =>
        ((m.hostAccess part).1.updMat mid (fun x => { x with placed := x.placed + part.len })).matFault mid data.length fin
          cx inst psn f
      | none => m.matFault mid data.length fin cx inst psn f

/-! ### Binding -/

/-- A PULL_REQ for a matched or discarded RTS (R246, R252): TC1, from SYSQ. -/
def Mach.sendPull (m : Mach) (mid : Nat) (x : MatMsg) (len : Nat) (abort : Bool) : Mach :=
  match m.needTx (cxSlot x.cx) (cxPeer x.cx) with
  | (m, false) => m
  | (m, true) =>
    let (uid, m) := m.newId
    let m := if abort then m.bump Reg.MAT.PULL_ABORTS 1 (MatMsg.slot x) else m.updMat mid (fun x => { x with pull := some uid })
    let msg : TxMsg := { uid := uid, kind := 0x0B, total := 0, count := 1, tc := 1
                         flow := m.respFlow (cxSlot x.cx) (cxPeer x.cx), minOnly := false, op := .pullReq x.msn len abort
                         queue := none, owner := if abort then .none else .recv mid, src := .held }
    (m.bump Reg.MAT.PULLS 1 (MatMsg.slot x)).addMsg x.cx msg

/-- A message and a receive are bound (R233): an RTS is pulled, an eager message's stored bytes are copied and its store
freed. -/
def Mach.bind (m : Mach) (mid : Nat) (r : Recv) : Mach :=
  match m.matMsg mid with
  | none => m
  | some x =>
    let m := m.updMat mid (fun x => { x with st := .bound r, store := [] })
    if x.rts then m.sendPull mid x (min x.sendLen r.cap) false
    else (x.store.foldl (fun a (off, b) => a.matPlace mid r off b false x.cx x.inst 0) m).settleMat mid

/-- The hash bucket of a key (R237): the low 20 bits of the CRC-32C of DOMAIN, two zero bytes, SRC_EID and MATCH_BITS. -/
def matBucket (domain src bits : Nat) : Nat :=
  (crc32c (leBytes 2 domain ++ zeros 2 ++ leBytes 4 src ++ leBytes 8 bits)).toNat % 1048576

/-- The bucket of an exact receive. -/
def Recv.bucket (r : Recv) : Nat := matBucket r.domain (r.src.getD 0) r.bits
/-- The bucket of a message. -/
def MatMsg.bucket (x : MatMsg) : Nat := matBucket x.domain x.src x.bits

/-- The first match in a message's chain of the posted hash table, and the first in the domain's wildcard list (R235). -/
def Mach.postedMatches (m : Mach) (x : MatMsg) : Option Recv × Option Recv :=
  (m.mat.posted.find? (fun r => Recv.exact r && r.domain == x.domain && Recv.bucket r == MatMsg.bucket x && Recv.matches r x),
   m.mat.posted.find? (fun r => !Recv.exact r && Recv.matches r x))

/-- The posted receive that an arriving message takes: of those two the one with the lower POST_SEQ (R235). -/
def Mach.findPosted (m : Mach) (x : MatMsg) : Option Recv :=
  match m.postedMatches x with
  | (some a, some b) => some (if a.order < b.order then a else b)
  | (some a, none) => some a
  | (none, b) => b

/-- The MTE of a domain (Table 1-5). -/
def mteOf (slot domain : Nat) : Engine := { cls := .mte, q := Fin.ofNat 4 (quadOfSlot slot), n := Fin.ofNat 16 (domain % 4) }
/-- A search of an MTE has ended (R21): MATCH_HIT or MATCH_MISS. -/
def Mach.matchFlag (m : Mach) (slot domain : Nat) (hit : Bool) : Mach :=
  m.flag (mteOf slot domain) [if hit then 12 else 13] [if hit then 13 else 12]

/-- A receive leaves the posted lists. -/
def Mach.unpost (m : Mach) (r : Recv) : Mach :=
  { m with mat := { m.mat with posted := m.mat.posted.filter (· != r) } }

/-- A message is ready for matching (R241): it takes a posted receive, or becomes unexpected (R235, R236). -/
def Mach.matReady (m : Mach) (mid : Nat) : Mach :=
  match m.matMsg mid with
  | none => m
  | some x =>
    let wild := m.mat.posted.filter (fun r => r.domain == x.domain && !Recv.exact r)
    let m := (m.bump Reg.MAT.WILD_SCAN (wildExamined x wild) (MatMsg.slot x)).matchFlag (MatMsg.slot x) x.domain (m.findPosted x).isSome
    match m.findPosted x with
    | some r => (((m.unpost r).bump Reg.MAT.MATCH_ARRIVAL 1 (MatMsg.slot x)).pmcEngine (quadOfSlot (MatMsg.slot x)) .mte 0x0B 1).bind mid r
    | none => m.updMat mid (fun x => { x with st := .unexpected })

/-! ### The unexpected store (R251) -/

/-- What a message reserves. -/
def reserveOf (rts : Bool) (total : Nat) : Nat := if rts then 128 else 64 + (total + 63) / 64 * 64

/-- Store in use by the messages that satisfy `p`. -/
def Mach.storeUsed (m : Mach) (p : MatMsg → Bool) : Nat :=
  ((m.mat.msgs.filter (fun x => MatMsg.stored x && p x)).map (fun x => reserveOf x.rts x.total)).sum

/-- UNX_QUAD_MAX as it acts, in bytes. -/
def Mach.unxQuad (m : Mach) : Nat :=
  let v := clamp 64 8192 (m.get Reg.MAT.UNX_QUAD_MAX)
  1048576 * (match m.mat.unxMax with | some x => min v x | none => v)

/-- A reservation succeeds against the quadrant's store and the domain's limit. -/
def Mach.canStore (m : Mach) (q d bytes : Nat) : Bool :=
  let lim := m.get Reg.MAT.DOM_UNX_MAX d
  m.storeUsed (fun x => quadOfSlot (MatMsg.slot x) == q) + bytes ≤ m.unxQuad &&
  (lim = 0 || m.storeUsed (fun x => x.domain == d) + bytes ≤ 1048576 * lim)

/-- A refused reservation is counted; the first in each second raises FS83 and records event 0x7040. -/
def Mach.refuseStore (m : Mach) (slot d : Nat) : Mach :=
  let q := quadOfSlot slot
  let m := m.bump Reg.MAT.UNX_NAKS 1 slot
  let sec := m.hgt q / Config.hgtSec + 1
  if Tbl.get m.mat.unxSec q 0 = sec then m
  else
    let m := { m with mat := { m.mat with unxSec := Tbl.set m.mat.unxSec q sec } }
    (m.raise 83 .none d q).record 0x7040 q [slot, d]

/-! ### Posting (R234, R236, R248, R250) -/

/-- Message `a` comes before `b` among one source's: the lower MSN of the older instance. -/
def earlier (a b : MatMsg) : Bool := a.inst < b.inst || (a.inst == b.inst && behind32 a.msn b.msn)

/-- The unexpected messages a receive may take: an exact one looks in its bucket, another in the domain's list (R236). -/
def Mach.unexpectedFor (m : Mach) (r : Recv) : List MatMsg :=
  m.mat.msgs.filter (fun x => (match x.st with | .unexpected => true | _ => false) && r.domain == x.domain &&
    (!Recv.exact r || Recv.bucket r == MatMsg.bucket x) && Recv.matches r x)

/-- The unexpected message a newly posted receive takes (R248): of each source its earliest match; of those the least
ORDER_TS, then the lower SRC_EID. -/
def chooseUnexpected (l : List MatMsg) : Option MatMsg :=
  let firsts := l.filter (fun x => !l.any (fun y => y.src == x.src && earlier y x))
  firsts.foldl (fun (a : Option MatMsg) x =>
    match a with
    | none => some x
    | some y => if x.orderTs < y.orderTs || (x.orderTs == y.orderTs && x.src < y.src) then some x else a) none

/-- Posted receives of a quadrant. -/
def Mach.postedIn (m : Mach) (q : Nat) : Nat :=
  (m.mat.posted.filter (fun r => match m.wr r.ring with | some w => quadOfSlot w.slot == q | none => false)).length

/-- A receive reaches its MTE (R234): it takes an unexpected message, or is posted in POST_SEQ order. -/
def Mach.post (m : Mach) (r : Recv) : Mach :=
  match m.domain r.domain with
  | none => m.finishWork r.ring r.seq 0x0B 3
  | some d =>
    let r := { r with order := d.nextPost, ignore := ignoreMask d.commBits r.ignore }
    let m := { m with mat := { m.mat with domains := Tbl.set m.mat.domains r.domain { d with nextPost := d.nextPost + 1 } } }
    let m := m.matchFlag d.slot r.domain !(m.unexpectedFor r).isEmpty
    match chooseUnexpected (m.unexpectedFor r) with
    | some x => ((m.bump Reg.MAT.MATCH_POST 1 d.slot).pmcEngine (quadOfSlot d.slot) .mte 0x0B 1).bind x.id r
    | none => { m with mat := { m.mat with posted := m.mat.posted ++ [r] } }

/-- A receive goes back to its posted list at its original place (R253). -/
def insertRecv (r : Recv) : List Recv → List Recv
  | [] => [r]
  | x :: l => if x.domain == r.domain && r.order < x.order then r :: x :: l else x :: insertRecv r l

/-! ### Abandonment (R208, R253) -/

/-- A message of an abandoned RX half is unbound or discarded, with event 0x7043. -/
def Mach.abandonMsg (m : Mach) (x : MatMsg) (allDone : Bool) : Mach :=
  let slot := MatMsg.slot x
  let note := fun (m : Mach) => (m.bump Reg.MAT.ABANDONED 1 slot).record 0x7043 (quadOfSlot slot) [x.src, x.msn, x.domain]
  match x.st with
  | .bound r =>
    if x.closed then m
    else if !x.rts && x.total ≤ x.took then m
    else
      let m := match x.pull with
        | some uid => m.updMsg x.cx uid (fun t => { t with owner := .none })
        | none => m
      let msgs := m.mat.msgs.filter (fun (y : MatMsg) => y.id != x.id)
      note { m with mat := { m.mat with posted := insertRecv r m.mat.posted, msgs := msgs } }
  | .unexpected =>
    if allDone then m
    else
      let msgs := m.mat.msgs.filter (fun (y : MatMsg) => y.id != x.id)
      note { m with mat := { m.mat with msgs := msgs } }
  | .held =>
    let msgs := m.mat.msgs.filter (fun (y : MatMsg) => y.id != x.id)
    note { m with mat := { m.mat with msgs := msgs } }

/-- An RX half is abandoned (R208): its bitmap, message slots and held flags go, and its two-sided messages are treated as
R253 says. -/
def Mach.abandonRx (m : Mach) (cx : Nat) : Mach :=
  match m.rxOf cx with
  | none => m
  | some r =>
    let mine := m.mat.msgs.filter (fun x => x.cx == cx && x.inst == r.inst)
    let m := m.updCtx cx (fun c => { c with rx := none })
    let m := mine.foldl (fun a x =>
      a.abandonMsg x ((List.range x.count).all (fun k => !ahead32 ((x.psn0 + k) % 4294967296) r.done))) m
    let wins := r.msgs.filterMap (fun (y : RxMsg) => y.win)
    wins.foldl Mach.settleWindow m

/-! ### Domains (R252) -/

/-- A domain is disabled: posted receives complete (with CANCELLED, or the status that a stopped engine gives them), eager
messages that are not bound are discarded, and every such RTS is answered with an ABORT. -/
def Mach.disableDomain (m : Mach) (d status : Nat) : Mach :=
  match m.domain d with
  | none => m
  | some x =>
    let posted := m.mat.posted.filter (fun r => r.domain == d)
    let m := { m with mat := { m.mat with posted := m.mat.posted.filter (fun r => r.domain != d) } }
    let m := posted.foldl (fun a r =>
      (if status = 8 then a.bump Reg.MAT.CANCELS 1 x.slot else a).finishWork r.ring r.seq status 0) m
    let loose := m.mat.msgs.filter (fun y => y.domain == d && MatMsg.stored y)
    let m := loose.foldl (fun a y => if y.rts then a.sendPull y.id y 0 true else a) m
    let m := { m with mat := { m.mat with
      msgs := m.mat.msgs.filter (fun y => !(y.domain == d && MatMsg.stored y))
      domains := Tbl.set m.mat.domains d { x with active := false } } }
    (m.settleDomain d).record 0x7042 (quadOfSlot x.slot) [d]

end Sys2Proof.Machine
end

