-- ==== Sys2Proof/Machine/RmaOps.lean ====
section
/-!
DEFINITION. The start of a work on a connection (R202, R205, R212, R244, R246): the messages that a PUT, PUT_FLAG, GET or
SEND entry becomes.
-/

namespace Sys2Proof.Machine

/-- A message that carries an entry's payload (Table 8-4): inline granules are held already, other data is read from the
local address (access kind 2). -/
def entryMsg (ring seq uid : Nat) (w : WorkRing) (e : Entry) (kind : Nat) (op : RsxOp) (total addr : Nat)
    (whole : Bool) : TxMsg :=
  let inl := bit e.flags 2
  { uid := uid, kind := kind, total := total, count := pktCount kind total, tc := entryTc e, flow := entryFlow ring e
    minOnly := bit e.flags 6, op := op, queue := some (w.schq % 16384), owner := .work ring seq
    src := if inl then .held else .host w.pd w.func addr 2 whole
    data := if inl then [(0, slice e.inline 0 total)] else [] }

/-- A message with a payload of the block's own. -/
def heldMsg (ring uid : Nat) (w : WorkRing) (e : Entry) (kind : Nat) (op : RsxOp) (total : Nat) (owner : Owner)
    (data : List Byte) : TxMsg :=
  { uid := uid, kind := kind, total := total, count := 1, tc := entryTc e, flow := entryFlow ring e
    minOnly := bit e.flags 6, op := op, queue := some (w.schq % 16384), owner := owner, src := .held
    data := if data.isEmpty then [] else [(0, data)] }

/-- EAGER_MAX as it acts (Table 9-6). -/
def Mach.eagerMax (m : Mach) : Nat := min 262144 (m.get Reg.MAT.EAGER_MAX)

/-- The two messages of a PUT_FLAG take consecutive MSNs: the flag joins the TX half behind the data, or nothing is sent
where the data's source faults at once. -/
def Mach.addPutFlag (m : Mach) (cx ring seq uid : Nat) (w : WorkRing) (e : Entry) (win off addr len foff fval : Nat) : Mach :=
  let data := entryMsg ring seq uid w e 1 (.window win off) len addr false
  let (fid, m) := m.newId
  let flag := heldMsg ring fid w e 2 (.window win foff) 8 (.work ring seq) (leBytes 8 fval)
  let m := m.updTx cx (fun t =>
    { t with msgs := t.msgs ++ [{ data with ready := data.src == .held }, { flag with ready := true }] })
  ((m.prime cx uid).assign cx).pumpSend cx

/-- A GET's READ_REQ, and what awaits its data (R218). -/
def Mach.addGet (m : Mach) (cx ring seq uid : Nat) (w : WorkRing) (e : Entry) (win off addr len : Nat) : Mach :=
  let g : GetOut := { uid := uid, cx := cx, msn := none, ring := ring, seq := seq, pd := w.pd, func := w.func
                      addr := addr, total := len }
  { m with cxn := { m.cxn with gets := m.cxn.gets ++ [g] } }.addMsg cx
    (heldMsg ring uid w e 3 (.window win off) len (.get uid) [])

/-- A SEND's message (R244, R246): one EAGER message, or an RTS with the SEND pending. -/
def Mach.addSend (m : Mach) (cx ring seq uid : Nat) (w : WorkRing) (e : Entry) (dom bits addr len : Nat) : Mach :=
  if len ≤ m.eagerMax || bit e.flags 2 then
    m.addMsg cx (entryMsg ring seq uid w e 9 (.match_ dom bits 0 0 0) len addr true)
  else
    let p : PendSend := { uid := uid, cx := cx, msn := none, ring := ring, seq := seq, pd := w.pd, func := w.func
                          addr := addr, len := len }
    { m with mat := { m.mat with sends := m.mat.sends ++ [p] } }.addMsg cx
      (heldMsg ring uid w e 0x0A (.match_ dom bits 0 0 len) 8 (.work ring seq) (leBytes 4 len ++ zeros 4))

/-- A work that sends on a connection starts: an invalid destination ends it, a full context store holds it (R205), and
otherwise its messages join the TX half. -/
def Mach.startRsx (m : Mach) (ring seq : Nat) (w : WorkRing) (e : Entry) : Mach :=
  let dst := entryDst e
  if !m.eidValid dst then m.finishWork ring seq 0x03 0
  else
    match m.needTx w.slot dst with
    | (m, false) => { m with cxn := { m.cxn with waiting := m.cxn.waiting ++ [(ring, seq)] } }
    | (m, true) =>
      let cx := cxKey w.slot dst
      let (uid, m) := (m.useCtx w.engine cx).newId
      match e.opcode, e.body with
      | 0x10, .rma _ win off addr len _ _ => m.addMsg cx (entryMsg ring seq uid w e 1 (.window win off) len addr false)
      | 0x11, .rma _ win off addr len foff fval => m.addPutFlag cx ring seq uid w e win off addr len foff fval
      | 0x12, .rma _ win off addr len _ _ => m.addGet cx ring seq uid w e win off addr len
      | 0x20, .send _ dom bits addr len => m.addSend cx ring seq uid w e dom bits addr len
      | _, _ => m.finishWork ring seq 0x0B 3

/-- A context entry may be had in a quadrant (R205). -/
def Mach.ctxRoom (m : Mach) (q : Nat) : Bool :=
  let mine := m.cxn.ctxs.filter (fun c => cxQuad c.1 == q)
  mine.length < 1048576 || mine.any (fun c => m.quiescent c.1 c.2)

/-- Work held for a context entry goes on where one can be had (R205). -/
def Mach.retryHeld (m : Mach) : Mach :=
  let l := m.cxn.waiting
  let m := { m with cxn := { m.cxn with waiting := [] } }
  l.foldl (fun a (ring, seq) =>
    match a.workAt ring seq, a.wr ring with
    | some x, some w =>
      if a.ctxRoom (quadOfSlot w.slot) then a.startRsx ring seq w x.entry
      else { a with cxn := { a.cxn with waiting := a.cxn.waiting ++ [(ring, seq)] } }
    | _, _ => a) m

end Sys2Proof.Machine
end

