-- ==== Sys2Proof/Machine/Inbound.lean ====
section
/-!
DEFINITION. The arrival of a sequenced packet at its RXE as shared operations (files 08 and 09): the instance check (R207),
acceptance (R216), message slots with their checks (R212, R214), and the order of two-sided messages (R241, R242).
-/

namespace Sys2Proof.Machine

/-! ### Delivery -/

/-- The engines that a packet kind needs take no new work (Table 5-3, R321): an EAGER or an RTS needs an MTE beside its
RXE. -/
def Mach.kindHeld (m : Mach) (kind : Nat) : Bool :=
  if kind ≤ 0x0F then m.swapping 2 || ((kind = 0x09 || kind = 0x0A) && m.swapping 3)
  else if kind ≤ 0x1F then m.swapping 4 else m.swapping 5

/-- A packet reaches the engine that handles its kind: links run, the packet is for this module, and the table of the
engine's class is not being swapped (R321). It leaves the local delivery queue where it stands there. -/
def Mach.delivered (m : Mach) (k : Packet) : Option Mach :=
  if !m.netModes || k.hdr.dst / 16 != m.ownDa || m.kindHeld k.hdr.kind then none
  else some { m with rte := { m.rte with inbox := m.rte.inbox.erase k } }

/-- A packet whose engines take no new work waits at local delivery (R321). -/
def Mach.keepBack (m : Mach) (k : Packet) : Mach :=
  if m.netModes && k.hdr.dst / 16 == m.ownDa && m.kindHeld k.hdr.kind && !m.rte.inbox.contains k then
    { m with rte := { m.rte with inbox := m.rte.inbox ++ [k] } }
  else m

/-- The local slot a packet is for. -/
def pktSlot (k : Packet) : Nat := k.hdr.dst % 16
/-- The connection a packet belongs to (R201). -/
def pktCx (k : Packet) : Nat := cxKey (pktSlot k) k.hdr.src

/-! ### The instance check (R207) -/

/-- An RX half is created from a packet (Table 8-2, row 1). -/
def Mach.createRx (m : Mach) (k : Packet) (h : RsxHdr) : Mach :=
  let (id, m) := m.newId
  let r : RxHalf := { inst := id, epoch := h.epoch, openTs := h.openTs, lastTs := k.hdr.injTs }
  (m.updCtx (pktCx k) (fun c => { c with rx := some r })).bump Reg.CXN.RX_CREATES 1 (pktSlot k)

/-- An EPOCH_NAK answers a packet (Table 8-2). -/
def Mach.epochNak (m : Mach) (k : Packet) (h : RsxHdr) : Mach :=
  let s := pktSlot k
  ((m.bump Reg.CXN.EPOCH_NAKS 1 s).record 0x7002 (quadOfSlot s) [s, k.hdr.src, h.psn]).sendCtl s k.hdr.src 0x07 h.epoch
    h.openTs (.epochNak h.psn)

/-- The RX half a packet meets: none where it is absent or the context has expired. -/
def Mach.liveRx (m : Mach) (cx : Nat) : Option RxHalf :=
  match m.ctx cx with
  | some c => if m.ctxExpired cx c then none else c.rx
  | none => none

/-- The instance check of Table 8-2; the answer says whether the packet goes on to R216. -/
def Mach.instanceCheck (m : Mach) (k : Packet) (h : RsxHdr) : Mach × Bool :=
  let s := pktSlot k
  let cx := pktCx k
  match m.liveRx cx with
  | none =>
    if !h.opn then ((m.epochNak k h).touch cx, false)
    else
      match m.getCtx s k.hdr.src with
      | (m, false) => (m.sendNak s k.hdr.src h.epoch h.openTs h.psn 3, false)
      | (m, true) => (m.createRx k h, true)
  | some r =>
    if r.epoch = h.epoch && r.openTs = h.openTs then (m, true)
    else if !ahead32 k.hdr.injTs r.lastTs then (m.bump Reg.CXN.STALE_DROP 1 s, false)
    else if !h.opn then ((m.epochNak k h).touch cx, false)
    else
      let m := (m.abandonRx cx).record 0x7001 (quadOfSlot s) [s, k.hdr.src]
      ((m.bump Reg.CXN.REPLACES 1 s).createRx k h, true)

/-! ### What stands before acceptance (R216) -/

/-- The PSN's distance within the bitmap, or why the packet is not accepted: a duplicate, or beyond 2,048. SEQ_AHEAD and SEQ_DUP show
how the PSN stands to EPSN (R21). -/
def Mach.bitmapCheck (m : Mach) (k : Packet) (h : RsxHdr) (r : RxHalf) : Mach × Bool :=
  let cx := pktCx k
  let m := m.flag (m.rxeFor cx) (if behind32 h.psn r.epsn then [18] else if h.psn = r.epsn then [] else [17]) [17, 18]
  if behind32 h.psn r.epsn || (Tbl.find r.bits h.psn).isSome then (m.bump Reg.CXN.DUP_DROP 1 (pktSlot k), false)
  else (m, decide (sub32 h.psn r.epsn < 2048))

/-- The function of a work ring's PD, with its slot (R216 step 1); the ring's own where the PD is gone. -/
def Mach.pdTarget (m : Mach) (slot pd func : Nat) : Nat × Nat :=
  match Tbl.find m.xlt.pds pd with
  | some p => (p.slot, p.func)
  | none => (slot, func)

/-- The function whose memory a sender's message reads or writes at this end, as its RESULT or answer finds it: that of the PD of
the work ring that issued the work. -/
def Mach.ownerFunc (m : Mach) (slot : Nat) (x : TxMsg) : Option (Nat × Nat) :=
  match x.owner with
  | .work ring _ => (m.wr ring).map (fun w => m.pdTarget slot w.pd w.func)
  | .get uid => (m.cxn.gets.find? (fun g => g.uid == uid)).map (fun g => m.pdTarget slot g.pd g.func)
  | .recv mid => (m.matMsg mid).bind (fun y => match y.st with | .bound r => some (m.pdTarget slot r.pd r.func) | _ => none)
  | .none => none

/-- The message of a TX half that has an MSN. -/
def TxHalf.byMsn (t : TxHalf) (msn : Nat) : Option TxMsg := t.msgs.find? (fun x => x.msn == some msn)

/-- The target function of a packet (R216 step 1), with its slot; none where the step does not apply. -/
def Mach.target (m : Mach) (k : Packet) (h : RsxHdr) : Option (Nat × Nat) :=
  let s := pktSlot k
  let cx := pktCx k
  match h.op with
  | .window w _ => (Tbl.find m.cxn.windows w).bind (fun x => if x.valid then some (x.slot, x.func) else none)
  | .readRsp req => (m.getOf cx req).map (fun g => m.pdTarget s g.pd g.func)
  | .result n _ _ _ => ((m.txOf cx).bind (fun t => t.byMsn n)).bind (m.ownerFunc s)
  | .pullReq n _ _ => (m.mat.sends.find? (fun p => p.cx == cx && p.msn == some n)).map (fun p => m.pdTarget s p.pd p.func)
  | .match_ d _ _ _ _ => (m.domain d).map (fun x => (x.slot, x.func))
  | .pullRsp req => (m.pullOf cx req).bind (fun y => (m.domain y.domain).map (fun x => (x.slot, x.func)))
  | _ => none

/-- The target function takes inbound work (R216 step 1, Table 6-15): after a reset the packet is discarded; else a
function that does not run answers NAK reason 2, and in D3hot the arrival causes PME. -/
def Mach.targetCheck (m : Mach) (k : Packet) (h : RsxHdr) : Mach × Bool :=
  match m.target k h with
  | none => (m, true)
  | some (s, f) =>
    let fn := m.func s f
    if fn.barred then (m, false)
    else if m.awake s f then (m, true)
    else
      let m := if fn.d3 then m.pme s f else m
      (m.sendNak (pktSlot k) k.hdr.src h.epoch h.openTs h.psn 2, false)

/-- Flags held in a quadrant's pool (R217). -/
def Mach.flagsHeld (m : Mach) (q : Nat) : Nat :=
  (m.cxn.ctxs.map (fun (c : Nat × Ctx) =>
    if cxQuad c.1 = q then match c.2.rx with
      | some r => (r.msgs.filter (fun (y : RxMsg) => y.flag.isSome)).length
      | none => 0
    else 0)).sum

/-- A two-sided message waits at this MSN for MESSAGE_READY (R241). -/
def Mach.heldAt (m : Mach) (cx inst msn : Nat) : Option MatMsg :=
  m.mat.msgs.find? (fun x => x.cx == cx && x.inst == inst && x.msn == msn && x.st == .held)

/-- MSNs that have been seen and hold nothing back are passed (R241). -/
def passSeen (held : Nat → Bool) : Nat → Nat → List Nat → Nat × List Nat
  | 0, n, l => (n, l)
  | fuel + 1, n, l =>
    if l.contains n && !held n then passSeen held fuel ((n + 1) % 4294967296) (l.filter (· != n)) else (n, l)

/-- The matching order of an RX half moves on. -/
def Mach.passOrder (m : Mach) (cx : Nat) : Mach :=
  m.updRx cx (fun r =>
    let (n, l) := passSeen (fun k => (m.heldAt cx r.inst k).isSome) (r.seen.length + 1) r.passMsn r.seen
    { r with passMsn := n, seen := l })

/-- The message that a two-sided packet brings, as it would enter matching (R240). -/
def Mach.newMat (m : Mach) (k : Packet) (h : RsxHdr) (d bits e mant sendLen : Nat) (r : RxHalf) : MatMsg :=
  let q := quadOfSlot (pktSlot k)
  let ts := sub32 k.hdr.injTs (mant * 2 ^ e % 4294967296)
  let now := m.nowNs q
  { id := 0, cx := pktCx k, inst := r.inst, msn := h.msn, psn0 := sub32 h.psn (h.offset / 4096), count := h.pktCount
    src := k.hdr.src, domain := d, bits := bits, orderTs := now - sub32 (m.stamp q) ts, total := h.totalLen
    rts := k.hdr.kind = 0x0A, sendLen := sendLen, st := .held }

/-- The first packet of a two-sided message: its domain must be an ACTIVE one of the slot (else NAK reason 2, Table 9-2),
and where the message will not bind at once, its store must be free (R251). -/
def Mach.matCheck (m : Mach) (k : Packet) (h : RsxHdr) (r : RxHalf) : Mach × Bool :=
  let s := pktSlot k
  match h.op with
  | .match_ d bits e mant len =>
    let good := match m.domain d with | some x => x.active && x.slot = s | none => false
    if !good then (m.sendNak s k.hdr.src h.epoch h.openTs h.psn 2, false)
    else
      let x := m.newMat k h d bits e mant len r
      let binds := h.msn = r.passMsn && (m.findPosted x).isSome
      if binds || m.canStore (quadOfSlot s) d (reserveOf x.rts x.total) then (m, true)
      else ((m.refuseStore s d).sendNak s k.hdr.src h.epoch h.openTs h.psn 3, false)
  | _ => (m, true)

/-- Message slots of an RX half: one for each PSN of its bitmap (log entry 40). -/
def rxSlots : Nat := 2048

/-- WRITE_FLAGs that a quadrant can hold (R217). -/
def flagSlots : Nat := 65536

/-! ### The fields of a message's packets (R212) -/

/-- Operation areas agree; AGE is each packet's own (R239). -/
def opAgrees (a b : RsxOp) : Bool :=
  match a, b with
  | .match_ d x _ _ n, .match_ d' x' _ _ n' => d == d' && x == x' && n == n'
  | _, _ => a == b

/-- The operation area fits the kind (Tables 8-5 and 9-1). -/
def opFits (kind : Nat) (op : RsxOp) : Bool :=
  match op with
  | .window .. => kind = 1 || kind = 2 || kind = 3
  | .readRsp _ => kind = 4
  | .result .. => kind = 8
  | .match_ .. => kind = 9 || kind = 0x0A
  | .pullReq .. => kind = 0x0B
  | .pullRsp _ => kind = 0x0C
  | _ => false

/-- A packet's own fields are consistent (R212, R238). -/
def pktSound (k : Packet) (h : RsxHdr) : Bool :=
  let i := h.offset / 4096
  k.hdr.zero && h.zero k.hdr.kind && opFits k.hdr.kind h.op && h.pktCount == pktCount k.hdr.kind h.totalLen &&
  h.offset == 4096 * i && i < h.pktCount && k.payload.length == payOf k.hdr.kind h.totalLen i &&
  (k.hdr.kind != 9 || h.totalLen ≤ 262144) && (k.hdr.kind != 0x0A || h.totalLen == 8)

/-- A packet agrees with its message's first-arrived packet (R212). -/
def pktAgrees (x : RxMsg) (k : Packet) (h : RsxHdr) : Bool :=
  x.kind == k.hdr.kind && x.total == h.totalLen && x.count == h.pktCount && opAgrees x.op h.op &&
  sub32 h.psn x.psn0 == h.offset / 4096

/-! ### Acceptance (R216 steps 2 to 4) -/

/-- A packet is accepted: bit, LAST_RX_TS, LAST_ACT, OWD, what the ACK rule counts (R221), and EPSN moves up. -/
def passBits : Nat → Nat → Tbl Nat → Nat × Tbl Nat
  | 0, e, t => (e, t)
  | fuel + 1, e, t =>
    if (Tbl.find t e).isSome then passBits fuel ((e + 1) % 4294967296) (Tbl.del t e) else (e, t)

/-- The bits and times of an accepted packet. -/
def Mach.markRx (m : Mach) (k : Packet) (h : RsxHdr) : Mach :=
  let cx := pktCx k
  let owd := sub32 (m.stamp (cxQuad cx)) k.hdr.injTs
  let due := m.clk + m.ackDelay
  (m.updRx cx (fun r =>
    { r with bits := Tbl.set r.bits h.psn k.hdr.injTs, owd := owd, sinceAck := r.sinceAck + 1
             lastTs := if ahead32 k.hdr.injTs r.lastTs then k.hdr.injTs else r.lastTs
             ackOld := r.ackOld.or (some due) })).touch cx

/-- EPSN moves up over the PSNs received. -/
def Mach.advanceRx (m : Mach) (cx : Nat) : Mach :=
  m.updRx cx (fun r =>
    let (e, t) := passBits (r.bits.length + 1) r.epsn r.bits
    { r with epsn := e, bits := t, nakFor := if e = r.epsn then r.nakFor else none })

/-- The window that a one-sided message names passes R214 for it. -/
def Mach.windowGood (m : Mach) (k : Packet) (h : RsxHdr) (win off : Nat) : Bool :=
  match Tbl.find m.cxn.windows win with
  | none => false
  | some w =>
    w.valid && w.slot == pktSlot k && (match w.peer with | some p => p == k.hdr.src | none => true) &&
    (if k.hdr.kind = 3 then w.rd else w.wr) && off + h.totalLen ≤ w.len &&
    (k.hdr.kind != 2 || (h.totalLen == 8 && (w.base + off) % 8 == 0))

/-- A message slot for the packet that arrives first (R214, R216); its MSN has been seen (R241). -/
def Mach.openRxMsg (m : Mach) (k : Packet) (h : RsxHdr) : Mach :=
  let cx := pktCx k
  let i := h.offset / 4096
  let x : RxMsg := { msn := h.msn, kind := k.hdr.kind, total := h.totalLen, count := max 1 h.pktCount, op := h.op
                     psn0 := sub32 h.psn i, src := k.hdr.src, tc := k.hdr.tc }
  m.updRx cx (fun r => { r with
    msgs := r.msgs ++ [x]
    seen := if behind32 h.msn r.passMsn || r.seen.contains h.msn then r.seen else h.msn :: r.seen })

/-- The rest of a faulted eager message counts as discarded, and its receive ends with the fault (R212, R245). -/
def Mach.breakMat (m : Mach) (mid st dt : Nat) : Mach :=
  (m.updMat mid (fun y => { y with fault := y.fault.or (some (st, dt)), took := max y.took y.total })).settleMat mid

/-- A protocol error (R212): the message is faulted with PROTECTION and DETAIL 3; FS82 and event 0x7030. -/
def Mach.protocolError (m : Mach) (k : Packet) (h : RsxHdr) : Mach :=
  let q := quadOfSlot (pktSlot k)
  ((m.raise 82 .none h.msn q).record 0x7030 q [pktSlot k, k.hdr.src, h.msn, h.psn]).faultRx (pktCx k) h.msn 0x0B 3 true

/-- The ACK rule after an accepted packet (R221): at once for ACK_REQ, else by RSX_ACK_COUNT. -/
def Mach.ackRule (m : Mach) (cx : Nat) (ackReq : Bool) : Mach :=
  match m.rxOf cx with
  | none => m
  | some r => if ackReq || max 1 (m.get Reg.CXN.RSX_ACK_COUNT) ≤ r.sinceAck then m.sendAck cx else m

/-- A message's first packet needs a message slot (log entry 40), a WRITE_FLAG that must wait a place in the flag pool (R217), and an
EAGER or RTS the matching store (R216 step 2, R239). -/
def Mach.slotCheck (m : Mach) (k : Packet) (h : RsxHdr) (r : RxHalf) : Mach × Bool :=
  let s := pktSlot k
  let q := quadOfSlot s
  if r.msgs.any (fun (y : RxMsg) => y.msn == h.msn) then (m, true)
  else if rxSlots ≤ r.msgs.length then
    (((m.raise 81 .none 2 q).record 0x7003 q [s, k.hdr.src]).sendNak s k.hdr.src h.epoch h.openTs h.psn 3, false)
  else if k.hdr.kind = 2 && r.finMsn != h.msn && flagSlots ≤ m.flagsHeld q then
    ((m.raise 81 .none 3 q).record 0x7003 q [s, k.hdr.src], false)
  else if (k.hdr.kind = 9 || k.hdr.kind = 0x0A) && pktSound k h then
    let m := m.passOrder (pktCx k)
    match m.rxOf (pktCx k) with
    | some r => m.matCheck k h r
    | none => (m, false)
  else (m, true)

/-- What stands before the acceptance of a packet of the RX half's instance (R216, steps 1 and 2). -/
def Mach.takeRx (m : Mach) (k : Packet) (h : RsxHdr) (r : RxHalf) : Mach × Bool :=
  let b := m.bitmapCheck k h r
  if !b.2 then b
  else
    let t := b.1.targetCheck k h
    if !t.2 then t else t.1.slotCheck k h r

/-- Everything that stands before acceptance; the answer says whether the packet is accepted. A packet with ACK_REQ that its RX half
drops is answered by an ACK at once (R221). -/
def Mach.takeIn (m : Mach) (k : Packet) (h : RsxHdr) : Mach × Bool :=
  let s := pktSlot k
  if !m.slotPresent s then (m.sendNak s k.hdr.src h.epoch h.openTs h.psn 4, false)
  else match (m.useCtx (m.rxeFor (pktCx k)) (pktCx k)).instanceCheck k h with
  | (m, false) => (m, false)
  | (m, true) =>
    match m.rxOf (pktCx k) with
    | none => (m, false)
    | some r =>
      let c := m.takeRx k h r
      if !c.2 then (if h.ackReq then c.1.sendAck (pktCx k) else c.1, false) else c

/-- A sequenced packet at its RXE (R207, R216): checked, accepted, its message's slot found or made, and handed to `act`
with the message where nothing is wrong with it; a faulted message's packets are finished at once, POISON faults the
message (R467); then EPSN, the ACK rule and the loss check. `first` says that it opens its message. -/
def Mach.receive (m : Mach) (k : Packet) (h : RsxHdr) (act : Mach → RxMsg → Bool → Mach) : Mach :=
  match m.takeIn k h with
  | (m, false) => m
  | (m, true) =>
    let cx := pktCx k
    let m := (m.markRx k h).pmcEngine (quadOfSlot (pktSlot k)) .rxe 0x0B 1
    let first := !(match m.rxOf cx with | some r => r.msgs.any (fun (y : RxMsg) => y.msn == h.msn) | none => false)
    let m := if first then m.openRxMsg k h else m
    let inst := match m.rxOf cx with | some r => r.inst | none => 0
    let m := match (m.rxOf cx).bind (fun r => r.msgs.find? (fun (y : RxMsg) => y.msn == h.msn)) with
      | none => m
      | some x =>
        if !(pktSound k h && pktAgrees x k h) then
          let m := m.protocolError k h
          (match x.mat with | some mid => m.breakMat mid 0x0B 3 | none => m).finPsn cx inst h.psn
        else if x.fault.isSome && x.mat.isNone then m.finPsn cx inst h.psn
        else act m x first
    let m := (m.passOrder cx).advanceRx cx
    (m.ackRule cx h.ackReq).lossCheck cx

/-- A packet with POISON faults its message with HOST_DATA_ERROR (R216, R467); READ_RSP and PULL_RSP report nothing. -/
def Mach.poisonRx (m : Mach) (cx inst msn psn kind : Nat) : Mach :=
  (m.faultRx cx msn 0x0E 0 (kind != 4 && kind != 0x0C)).finPsn cx inst psn

/-- A kind's arrival: a packet of the kind for this module goes through `receive`; the kinds 0x0D to 0x0F are protocol
errors (R212) and come to the WRITE operation as such. -/
def Mach.arrive (m : Mach) (k : Packet) (kind : Nat) (act : Mach → RsxHdr → RxMsg → Bool → Mach) : Mach :=
  if k.hdr.kind != kind && !(kind = 1 && 0x0D ≤ k.hdr.kind && k.hdr.kind ≤ 0x0F) then m
  else match k.body, m.delivered k with
    | .rsx h, some m => (m.receive k h (fun m x first => act m h x first)).retryHeld
    | _, _ => m.keepBack k

end Sys2Proof.Machine
end

