-- ==== Sys2Proof/Machine/Coll.lean ====
section
/-!
DEFINITION. The commands of the collectives (file 10): COLL entries, collective packets, timers, and the group registers.
-/

namespace Sys2Proof.Machine

/-! ### COLL entries (R261 to R265) -/

/-- A REDOP that a DTYPE allows (Table 10-4). -/
def redopAllowed (d redop : Nat) : Bool := redop ≤ 2 || (redop ≤ 5 && d < 4)

/-- The parameters of an entry are valid in a group of `size` members (R261, R262, R265); those its operation ignores are
not looked at. -/
def collValid (op dtype redop : Nat) (promote : Bool) (root size : Nat) : Bool :=
  op ≤ 3 && (op = 0 || dtype ≤ 7) && (!(op = 1 || op = 2) || root < size) &&
  (op < 2 || (redopAllowed dtype redop && (!promote || dtype = 4 || dtype = 5)))

/-- A COLL entry reaches the CLE of its group. -/
def Mach.startColl (m : Mach) (ring seq : Nat) (w : WorkRing) (e : Entry) : Mach :=
  match e.body with
  | .coll op dtype redop promote root src dst count =>
    let n := e.arg % 4096
    match m.grp n with
    | none => m.finishWork ring seq 0x0B 3
    | some g =>
      match g.ranks.find? (fun k => k.slot == w.slot) with
      | none => m.finishWork ring seq 0x0B 3
      | some k =>
        if g.reading then m.finishWork ring seq 0x0B 3
        else if g.aborted.isSome then m.finishWork ring seq 0x05 0
        else if !collValid op dtype redop promote root g.size then m.finishWork ring seq 0x0B 3
        else
          let o : CollOp :=
            { seq := k.nextSeq, ring := ring, work := seq, op := op, dtype := dtype, redop := redop
              promote := promote && decide (2 ≤ op), root := root, count := if op = 0 then 0 else count, src := src
              dst := dst, pd := w.pd, func := w.func, post := m.clk }
          let m := m.updRank n k.rank (fun k => { k with ops := k.ops ++ [o], nextSeq := (k.nextSeq + 1) % 65536 })
          (m.collCompare n k.rank).collRun n
  | _ => m.finishWork ring seq 0x0B 3

/-- COLL. -/
def execColl (ring : Nat) (e : Entry) (s : State) : Result :=
  ok s (s.m.runEntry ring e 0x30 (fun m seq w => m.startColl ring seq w e))

/-! ### Collective packets (R260, R273, R274, R275, R277) -/

/-- The edge that a packet names is one of its destination's local rank: its parent's, a child's, or an X edge between its
ROOT and rank 0 (R262). -/
def CollGroup.hasEdge (g : CollGroup) (k : CollRank) (kind : Nat) (h : CollHdr) : Bool :=
  if h.x then
    if kind = 0x10 then k.rank = 0 && h.srcRank != 0 && h.root = h.srcRank
    else if kind = 0x11 then k.rank != 0 && h.srcRank = 0 && h.root = k.rank
    else (Tbl.find g.edges (edgeKey k.rank h.srcRank true)).isSome
  else if kind = 0x10 then k.children.contains h.srcRank
  else if kind = 0x11 then k.parent == some h.srcRank
  else k.neighbours.contains h.srcRank

/-- A collective packet for this module reaches its group: one of another GEN is STALE, a malformed one or one from no
neighbour is dropped, and another runs `act` with the edge it came by. -/
def Mach.collPkt (m : Mach) (k : Packet) (kinds : List Nat) (act : Mach → Nat → CollGroup → Nat → CollHdr → Mach) : Mach :=
  if !kinds.contains k.hdr.kind then m
  else match k.body, m.delivered k with
    | .coll h, some m =>
      let n := h.group % 4096
      (match m.grp n with
        | none => m
        | some g =>
          if g.reading then m
          else if 0x14 < k.hdr.kind || !h.zero k.hdr.kind || !k.hdr.zero then m.bump Reg.COL.PROTO_DROP 1 g.homeQ
          else if h.gen != g.gen then m.bump Reg.COL.STALE 1 g.homeQ
          else match g.ranks.find? (fun r => g.eids.getD r.rank 0 == k.hdr.dst) with
            | none => m.bump Reg.COL.PROTO_DROP 1 g.homeQ
            | some r =>
              if g.hasEdge r k.hdr.kind h && g.eids.getD h.srcRank 0 == k.hdr.src then
                act m n g (edgeKey r.rank h.srcRank h.x) h
              else m.bump Reg.COL.PROTO_DROP 1 g.homeQ)
    | _, _ => m.keepBack k

/-- The chunk a packet carries. -/
def pktChunk (k : Packet) (h : CollHdr) : CollChunk :=
  { esn := h.esn, up := k.hdr.kind = 0x10, opSeq := h.opSeq, op := h.op, promoted := h.promoted, last := h.last
    dtype := h.dtype, redop := h.redop, count := h.count, root := h.root, chunk := h.chunk, flags := h.fpFlags
    data := k.payload, injTs := k.hdr.injTs }

/-- A chunk arrives: stored, compared, and the group goes on. In an aborted group it changes nothing. -/
def Mach.collChunk (m : Mach) (k : Packet) (n : Nat) (g : CollGroup) (ek : Nat) (h : CollHdr) : Mach :=
  if g.aborted.isSome then m
  else ((m.edgeRecv n ek (pktChunk k h)).collRun n).edgeCheck n ek

/-- COLL_UP. The kinds 0x15 to 0x1F, which Table 10-6 does not name, come here and are dropped. -/
def execCollUp (k : Packet) (s : State) : Result :=
  ok s (s.m.collPkt k (0x10 :: (List.range 11).map (· + 0x15)) (fun m n g ek h => m.collChunk k n g ek h))

/-- COLL_DOWN. -/
def execCollDown (k : Packet) (s : State) : Result :=
  ok s (s.m.collPkt k [0x11] (fun m n g ek h => m.collChunk k n g ek h))

/-- COLL_CREDIT. -/
def execCollCredit (k : Packet) (s : State) : Result :=
  ok s (s.m.collPkt k [0x12] (fun m n g ek h => if g.aborted.isSome then m else (m.applyCredit n ek h.esn).collRun n))

/-- COLL_NAK: the sender goes back to the missing ESN where it still keeps it. -/
def execCollNak (k : Packet) (s : State) : Result :=
  ok s (s.m.collPkt k [0x13] (fun m n g ek h =>
    if g.aborted.isNone && (g.edge ek).kept.any (fun c => c.esn == h.esn) then m.edgeResend n ek h.esn else m))

/-- COLL_ABORT: it aborts the group, is echoed to the sender and forwarded to the other neighbours. In an aborted group it
is the sender's answer; one that asks again after that is answered once more. -/
def execCollAbort (k : Packet) (s : State) : Result :=
  ok s (s.m.collPkt k [0x14] (fun m n g ek h =>
    let first := ((g.rank (edgeRank ek)).map (fun (r : CollRank) => r.firstSeq)).getD 0
    match g.aborted with
    | none =>
      let m := m.updEdge n ek (fun e => { e with answered := true })
      (m.sendAbort n ek h.reason first true).collAbort n h.reason none (some ek)
    | some reason =>
      let again := (g.edge ek).answered && !h.echo
      let m := m.updEdge n ek (fun e => { e with answered := true, abortAt := none })
      if again then m.sendAbort n ek reason first true else m))

/-! ### Timers -/

/-- The key of an edge that a command names by rank and by peer and X. -/
def timerEdge (rank edge : Nat) : Nat := rank * 2097152 + edge % 2097152

/-- COLL_CREDIT_SEND: the timer of R274 at its due time. -/
def execCollCreditSend (grp rank edge : Nat) (s : State) : Result :=
  let ek := timerEdge rank edge
  ok s (match s.m.grp grp with
    | none => s.m
    | some g =>
      match (g.edge ek).credit with
      | some due => ((s.m.elapseTo due).sendCredit grp ek).collRun grp
      | none => s.m)

/-- COLL_NAK_TIMER: the loss check of R275 at its due time. -/
def execCollNakTimer (grp rank edge : Nat) (s : State) : Result :=
  let ek := timerEdge rank edge
  ok s (match s.m.grp grp with
    | none => s.m
    | some g =>
      match (g.edge ek).hole g.window with
      | none => s.m
      | some (esn, ts) =>
        let m := s.m.elapseNs (s.m.edgeLat + 1 - sub32 (s.m.stamp g.homeQ) ts)
        let m := if (g.edge ek).nakFor = some esn then m.elapseTo ((g.edge ek).nakAt + Config.nsCycles * m.edgeLat) else m
        m.edgeCheck grp ek)

/-- COLL_RTO: no credit for RTO. -/
def execCollRto (grp rank edge : Nat) (s : State) : Result :=
  let ek := timerEdge rank edge
  ok s (match s.m.grp grp with
    | none => s.m
    | some g =>
      match (g.edge ek).timer with
      | some due => (s.m.elapseTo due).edgeResend grp ek (g.edge ek).sCum
      | none => s.m)

/-- OP_TIMEOUT: the oldest operation posted locally has not completed in time (reason 4). -/
def execOpTimeout (grp : Nat) (s : State) : Result :=
  ok s (match s.m.grp grp with
    | none => s.m
    | some g =>
      let ms := s.m.get Reg.COL.OP_TIMEOUT grp
      match g.ranks.flatMap (fun k => k.ops.map (fun o => o.post)) with
      | [] => s.m
      | p :: r =>
        if ms = 0 then s.m else (s.m.elapseTo (r.foldl min p + ms * Config.msCycles)).collAbort grp 4)

/-- ABORT_RESEND: the neighbour has sent no ABORT; at most RETRY_MAX times. -/
def execAbortResend (grp rank edge : Nat) (s : State) : Result :=
  let ek := timerEdge rank edge
  ok s (match s.m.grp grp with
    | none => s.m
    | some g =>
      let e := g.edge ek
      match g.aborted, e.abortAt with
      | some reason, some due =>
        if e.answered then s.m
        else
          let m := s.m.elapseTo due
          let n := e.aborts + 1
          let next := if n < m.retryMax then some (m.clk + m.rto) else none
          let first := ((g.rank rank).map (fun (r : CollRank) => r.firstSeq)).getD 0
          (m.updEdge grp ek (fun e => { e with aborts := n, abortAt := next })).sendAbort grp ek reason first false
      | _, _ => s.m)

/-! ### Groups (R257 to R259, R278) -/

/-- Completions that a destroyed group still awaits: those of its works that stand in a completion ring's queue. -/
def Mach.dyingLeft (m : Mach) (l : List (Nat × Nat)) : Bool :=
  l.any (fun c => m.hif.crs.vals.any (fun (r : ComplRing) =>
    (r.xq ++ r.held).any (fun x => x.opcode == 0x30 && x.ring == c.1 && x.workId == c.2)))

/-- A group's number is FREE. -/
def Mach.grpFree (m : Mach) (n : Nat) : Bool :=
  match Tbl.find m.groups n with
  | none => true
  | some g => match g.dying with | some l => !m.dyingLeft l | none => false

/-- GRP_BUSY: the table is being read, or completions are due after DESTROY. -/
def Mach.grpBusy (m : Mach) (n : Nat) : Bool :=
  match Tbl.find m.groups n with
  | none => false
  | some g => g.reading || (match g.dying with | some l => m.dyingLeft l | none => false)

/-- A CREATE fails: the group is FREE again, with its GRP_ERR. -/
def Mach.grpFail (m : Mach) (n err : Nat) : Mach :=
  { m with groups := Tbl.del m.groups n }.put Reg.COL.GRP_ERR err n

/-- WINDOW as it acts (Table 10-9). -/
def Mach.collWindow (m : Mach) (n : Nat) : Nat := clamp 1 64 (m.get Reg.COL.WINDOW n)

/-- The entries of a rank table: EID and PARENT words. -/
def rankEntries : Nat → List Byte → List (Nat × Nat)
  | 0, _ => []
  | n + 1, b => (field b 0 4, field b 4 4) :: rankEntries n (b.drop 8)

/-- Bytes of chunk slots that a group takes (R274, Table 10-9): one WINDOW for each edge of a local rank. -/
def poolBytes (ranks : List CollRank) (window : Nat) : Nat :=
  (ranks.map (fun k => k.neighbours.length)).sum * window * 4096

/-- POOL_MIB as it acts. -/
def Mach.poolMib (m : Mach) : Nat := clamp 64 8192 (m.get Reg.COL.POOL_MIB)

/-- The local ranks of a table (R259). -/
def localRanks (da : Nat) (t : List (Nat × Nat)) : List CollRank :=
  let e := t.zipIdx
  (e.filter (fun x => x.1.1 / 16 == da)).map (fun x =>
    { rank := x.2, slot := x.1.1 % 16, parent := if x.2 = 0 then none else some x.1.2
      children := (e.filter (fun y => y.2 != 0 && y.1.2 == x.2)).map (·.2) })

/-- GRP_ERR of a rank table (R259), or 0. -/
def Mach.tableErr (m : Mach) (n : Nat) (g : CollGroup) (t : List (Nat × Nat)) : Nat :=
  let eids := t.map (·.1)
  let ranks := localRanks m.ownDa t
  let used := (m.groups.filter (fun x => x.1 != n && x.2.homeQ == g.homeQ)).map (fun x => poolBytes x.2.ranks x.2.window)
  if eids.any (fun e => !m.eidValid e) || decide (!eids.Nodup) then 6
  else if t.zipIdx.any (fun x => x.2 != 0 && x.2 ≤ x.1.2) then 7
  else if ranks.any (fun k => 128 < k.children.length) then 8
  else if ranks.isEmpty then 5
  else if ranks.any (fun k => !m.slotPresent k.slot) then 9
  else if m.poolMib * 1048576 < used.sum + poolBytes ranks g.window then 11
  else 0

/-- The rank table has come: checked, and the group is ACTIVE with its local ranks and their edges (event 0x7051). -/
def Mach.tableRead (m : Mach) (n : Nat) (data : List Byte) : Mach :=
  match m.grp n with
  | none => m
  | some g =>
    if !g.reading then m
    else
      let t := rankEntries g.size data
      let err := m.tableErr n g t
      if err != 0 then m.grpFail n err
      else
        let ranks := localRanks m.ownDa t
        let edges : List (Nat × CollEdge) := ranks.flatMap (fun k => k.neighbours.map (fun p =>
          (edgeKey k.rank p false, { eid := (t.getD p (0, 0)).1 })))
        let g := { g with reading := false, eids := t.map (·.1), ranks := ranks
                          edges := edges.foldl (fun a e => Tbl.set a e.1 e.2) [] }
        { m with groups := Tbl.set m.groups n g }.record 0x7051 g.homeQ [n, ranks.length]

/-- The read of a rank table has failed: GRP_ERR 10. -/
def Mach.tableFailed (m : Mach) (n : Nat) : Mach :=
  match m.grp n with
  | some g => if g.reading then m.grpFail n 10 else m
  | none => m

/-- The creation of a group whose number is FREE: its size and PD are checked and the table's read goes out (R258). -/
def Mach.createGroup (m : Mach) (n slot : Nat) : Mach :=
  let size := m.get Reg.COL.GRP_SIZE n
  if size = 0 || 1048576 < size then m.put Reg.COL.GRP_ERR 1 n
  else
    let pd := m.get Reg.COL.GRP_PD n
    match Tbl.find m.xlt.pds pd with
    | none => m.put Reg.COL.GRP_ERR 3 n
    | some p =>
      if p.slot != slot then m.put Reg.COL.GRP_ERR 3 n
      else
        let g : CollGroup :=
          { slot := slot, pd := pd, func := p.func, homeQ := m.get Reg.COL.HOME_Q n, gen := m.get Reg.COL.GEN n
            window := m.collWindow n, size := size, reading := true }
        let m := { m with groups := Tbl.set m.groups n g }.put Reg.COL.GRP_ERR 0 n
        match m.hostAccess
            { slot := slot, func := p.func, pd := pd, va := m.get64 Reg.COL.RANKTAB_LO Reg.COL.RANKTAB_HI n, len := 8 * size
              kind := 2, data := none, purpose := .rankTable n } with
        | (m, .fault _) => m.tableFailed n
        | (m, _) => m

/-- GRP_CREATE. -/
def execGrpCreate (r : Requester) (s : State) : Result :=
  ok s (s.m.action r Reg.COL.GRP_CMD 1 (fun m n =>
    match Tbl.find m.groups n with
    | some g =>
      if g.slot != r.slotOf && !m.grpFree n then m.put Reg.COL.GRP_ERR 4 n
      else if !m.grpFree n then m.put Reg.COL.GRP_ERR 2 n
      else m.createGroup n r.slotOf
    | none => m.createGroup n r.slotOf))

/-- GRP_DESTROY: outstanding operations abort with reason 5; then the group is FREE (event 0x7052). -/
def execGrpDestroy (r : Requester) (s : State) : Result :=
  ok s (s.m.action r Reg.COL.GRP_CMD 2 (fun m n =>
    match m.grp n with
    | none => m
    | some g =>
      if g.slot != r.slotOf then m.put Reg.COL.GRP_ERR 4 n
      else if g.reading then m.put Reg.COL.GRP_ERR 2 n
      else
        let works := g.ranks.flatMap (fun k => k.ops.filterMap (fun o =>
          (m.workAt o.ring o.work).map (fun w => (o.ring, w.entry.workId))))
        let m := if works.isEmpty then m else m.collAbort n 5
        let m := (m.put Reg.COL.GRP_ERR 0 n).updGrp n (fun g => { g with ranks := [], edges := [], dying := some works })
        m.record 0x7052 g.homeQ [n]))

/-- GRP_ABORT: reason 5. -/
def execGrpAbort (r : Requester) (s : State) : Result :=
  ok s (s.m.action r Reg.COL.GRP_CMD 3 (fun m n =>
    match m.grp n with
    | none => m
    | some g =>
      if g.slot != r.slotOf then m.put Reg.COL.GRP_ERR 4 n
      else if g.reading then m.put Reg.COL.GRP_ERR 2 n
      else (m.put Reg.COL.GRP_ERR 0 n).collAbort n 5))

/-- COL_CNT_CLR. -/
def execColCntClr (r : Requester) (s : State) : Result :=
  ok s (s.m.action r Reg.COL.CNT_CLR 1 (fun m q =>
    m.clear [Reg.COL.OPS_DONE, Reg.COL.CHUNKS_UP, Reg.COL.CHUNKS_DOWN, Reg.COL.FOLDS, Reg.COL.NAKS_SENT, Reg.COL.RESENDS,
      Reg.COL.DUP_DROP, Reg.COL.PROTO_DROP, Reg.COL.STALE, Reg.COL.ABORTS, Reg.COL.FP_EXC_FOLDS] q))

end Sys2Proof.Machine
end

