-- ==== Sys2Proof/Machine/Conn.lean ====
section
/-!
DEFINITION. The commands of connections (file 08): PUT, PUT_FLAG, GET, the one-sided packets, acknowledgement and loss,
timers, windows, and the context registers.
-/

namespace Sys2Proof.Machine

/-! ### Works -/

/-- PUT: one WRITE message of LENGTH bytes (R212). -/
def execPut (ring : Nat) (e : Entry) (s : State) : Result :=
  ok s (s.m.runEntry ring e 0x10 (fun m seq w => m.startRsx ring seq w e))

/-- PUT_FLAG: a WRITE message and a WRITE_FLAG on the next MSN (R212). -/
def execPutFlag (ring : Nat) (e : Entry) (s : State) : Result :=
  ok s (s.m.runEntry ring e 0x11 (fun m seq w => m.startRsx ring seq w e))

/-- GET: one READ_REQ (R212). -/
def execGet (ring : Nat) (e : Entry) (s : State) : Result :=
  ok s (s.m.runEntry ring e 0x12 (fun m seq w => m.startRsx ring seq w e))

/-! ### Placement -/

/-- A placement fails in translation: a GET's destination ends the GET with LOCAL_XLT_FAULT (R218); a window's ends the
message with REMOTE_ACCESS_FAULT (R222). The packet is finished. -/
def Mach.placeFault (m : Mach) (cx inst psn : Nat) (f : XFault) : Mach :=
  match m.rxOf cx with
  | none => m
  | some r =>
    if r.inst != inst then m
    else match r.byPsn psn with
      | none => m.finPsn cx inst psn
      | some x =>
        let m := match x.op with
          | .readRsp req => (match m.getOf cx req with | some g => m.endGet g.uid 0x02 f.detail | none => m)
          | _ => m.faultRx cx x.msn 0x01 f.detail true
        m.finPsn cx inst psn

/-- A packet's payload is translated and issued as posted writes (R216). -/
def Mach.place (m : Mach) (cx inst psn : Nat) (op : HostOp) : Mach :=
  if op.len = 0 then m.finPsn cx inst psn
  else match m.hostAccess op with
    | (m, .issued) => m.finPsn cx inst psn
    | (m, .waiting) => m
    | (m, .fault f) => m.placeFault cx inst psn f

/-- The number of the RX instance a packet was accepted on. -/
def Mach.rxInst (m : Mach) (cx : Nat) : Nat := match m.rxOf cx with | some r => r.inst | none => 0

/-- A one-sided message is validated once, with its first packet (R214); a failed one is faulted with WINDOW_INVALID. The
answer is the window where the message may go on. -/
def Mach.validate (m : Mach) (k : Packet) (h : RsxHdr) (first : Bool) : Mach × Option (Window × Nat) :=
  match h.op with
  | .window win off =>
    if first && !m.windowGood k h win off then (m.faultRx (pktCx k) h.msn 0x0D 0 true, none)
    else
      let m := if first then m.updRxMsg (pktCx k) h.msn (fun x => { x with win := some win }) else m
      (m, (Tbl.find m.cxn.windows win).map (fun w => (w, off)))
  | _ => (m, none)

/-- WRITE_PACKET (R214, R216, R467). -/
def execWritePacket (k : Packet) (s : State) : Result :=
  ok s (s.m.arrive k 1 (fun m h _ first =>
    let cx := pktCx k
    let inst := m.rxInst cx
    match m.validate k h first with
    | (m, none) => m.finPsn cx inst h.psn
    | (m, some (w, off)) =>
      if h.poison then m.poisonRx cx inst h.msn h.psn 1
      else m.place cx inst h.psn
        { slot := pktSlot k, func := w.func, pd := w.pd, va := w.base + off + h.offset, len := k.payload.length, kind := 5
          data := some k.payload, purpose := .place cx inst h.psn }))

/-! ### Flags (R217) -/

/-- A flag whose every predecessor has finished: it is written as one aligned write, or, where the message before it in its
PUT_FLAG faulted, it ends with that status. -/
def Mach.writeFlag (m : Mach) (cx : Nat) (r : RxHalf) (x : RxMsg) (data : List Byte) : Mach :=
  let m := m.updRxMsg cx x.msn (fun x => { x with flag := none })
  match Tbl.find r.faulted (sub32 x.msn 1) with
  | some (st, dt) => (m.faultRx cx x.msn st dt true).finPsn cx r.inst x.psn0
  | none =>
    match x.op, x.win.bind (Tbl.find m.cxn.windows) with
    | .window _ off, some w =>
      m.place cx r.inst x.psn0
        { slot := cxSlot cx, func := w.func, pd := w.pd, va := w.base + off, len := data.length, kind := 5
          data := some data, purpose := .flagWrite cx r.inst x.psn0 }
    | _, _ => m.finPsn cx r.inst x.psn0

/-- WRITE_FLAG_PACKET (R217). -/
def execWriteFlagPacket (k : Packet) (s : State) : Result :=
  ok s (s.m.arrive k 2 (fun m h _ first =>
    let cx := pktCx k
    let inst := m.rxInst cx
    match m.validate k h first with
    | (m, none) => m.finPsn cx inst h.psn
    | (m, some _) =>
      if h.poison then m.poisonRx cx inst h.msn h.psn 2
      else match m.rxOf cx with
        | none => m
        | some r =>
          if r.finMsn = h.msn then
            match r.msgs.find? (fun (y : RxMsg) => y.msn == h.msn) with
            | some x => m.writeFlag cx r x k.payload
            | none => m
          else m.updRxMsg cx h.msn (fun x => { x with flag := some k.payload })))

/-- FLAG_RELEASE: the last predecessor of a held flag has finished. -/
def execFlagRelease (cx msn : Nat) (s : State) : Result :=
  ok s (match s.m.rxOf cx with
    | none => s.m
    | some r =>
      match r.msgs.find? (fun (y : RxMsg) => y.msn == msn) with
      | some x =>
        (match x.flag with
          | some b => if r.finMsn = msn then (s.m.writeFlag cx r x b).retryHeld else s.m
          | none => s.m)
      | none => s.m)

/-! ### Reads (R218) -/

/-- READ_REQ_PACKET: validated, and answered by one READ_RSP message whose data is read now. -/
def execReadReqPacket (k : Packet) (s : State) : Result :=
  ok s (s.m.arrive k 3 (fun m h _ first =>
    let cx := pktCx k
    let inst := m.rxInst cx
    match m.validate k h first with
    | (m, none) => m.finPsn cx inst h.psn
    | (m, some (w, off)) =>
      if h.poison then m.poisonRx cx inst h.msn h.psn 3
      else match m.needTx (pktSlot k) k.hdr.src with
        | (m, false) => m.finPsn cx inst h.psn
        | (m, true) =>
          let (uid, m) := m.newId
          let x : TxMsg :=
            { uid := uid, kind := 4, total := h.totalLen, count := pktCount 4 h.totalLen, tc := 1
              flow := m.respFlow (pktSlot k) k.hdr.src, minOnly := false, op := .readRsp h.msn, queue := none
              owner := .none, src := .host w.pd w.func (w.base + off) 6 false }
          (m.addMsg cx x).finPsn cx inst h.psn))

/-- READ_RSP_PACKET: placed at the GET's LOCAL_ADDR plus OFFSET, or discarded where no GET awaits it. -/
def execReadRspPacket (k : Packet) (s : State) : Result :=
  ok s (s.m.arrive k 4 (fun m h _ _ =>
    let cx := pktCx k
    let inst := m.rxInst cx
    match h.op with
    | .readRsp req =>
      if h.poison then m.poisonRx cx inst h.msn h.psn 4
      else match m.getOf cx req with
        | none => m.finPsn cx inst h.psn
        | some g => m.place cx inst h.psn
            { slot := pktSlot k, func := g.func, pd := g.pd, va := g.addr + h.offset, len := k.payload.length, kind := 3
              data := some k.payload, purpose := .place cx inst h.psn }
    | _ => m.finPsn cx inst h.psn))

/-- RESULT_PACKET (R222): counted, kept for its message, and a GET or a pulling receive ends with it at once. -/
def execResultPacket (k : Packet) (s : State) : Result :=
  ok s (s.m.arrive k 8 (fun m h _ _ =>
    let cx := pktCx k
    let inst := m.rxInst cx
    match h.op with
    | .result n st dt _ =>
      let x := (m.txOf cx).bind (fun t => t.byMsn n)
      let m := m.updTx cx (fun t => { t with faults := (t.faults + 1) % 65536 })
      let m := match x with
        | none => m
        | some x =>
          let m := m.updMsg cx x.uid (fun x => { x with result := some (st, dt) })
          match x.owner with
          | .get uid => m.endGet uid st dt
          | .recv mid => (m.closeRecv mid st dt 0).dropMat mid
          | _ => m
      (m.settleAcks cx).finPsn cx inst h.psn
    | _ => m.finPsn cx inst h.psn))

/-! ### Acknowledgement and refusal (R209, R222, R224 to R226) -/

/-- A context is absent, or as absent because it has expired (R204). -/
def Mach.ctxGone (m : Mach) (cx : Nat) : Bool := match m.ctx cx with | some c => m.ctxExpired cx c | none => true

/-- An unsequenced packet that names the current TX instance of its connection. -/
def Mach.answer (m : Mach) (k : Packet) (kind : Nat) (act : Mach → Nat → TxHalf → RsxHdr → Mach) : Mach :=
  if k.hdr.kind != kind then m
  else match k.body, m.delivered k with
    | .rsx h, some m =>
      let cx := pktCx k
      (match m.txOf cx with
        | some t =>
          let m := m.useCtx (m.rxeFor cx) cx
          if t.epoch = h.epoch && t.openTs = h.openTs && !m.ctxGone cx then (act (m.touch cx) cx t h).retryHeld else m
        | none => m)
    | _, _ => m.keepBack k

/-- The window at an ACK that advances nothing: CC_EN and CWND_MAX as they now act (Table 8-8). -/
def Mach.reclamp (m : Mach) (t : TxHalf) : TxHalf :=
  { t with cwnd := if m.isSet Reg.CXN.CC_EN then clamp cwndMin m.cwndMax t.cwnd else m.cwndMax }

/-- A FAULT_CNT is later than another, mod 2^16. -/
def later16 (a b : Nat) : Bool := let d := (65536 + a - b) % 65536; decide (0 < d && d < 32768)

/-- ACK_PACKET (R222, R224, R226). An ACK that advances nothing acts on messages that wait for a RESULT where it covers the same
PSNs with a later FAULT_CNT (DESIGN CHOICE, log entry 40). -/
def execAckPacket (k : Packet) (s : State) : Result :=
  ok s (s.m.answer k 5 (fun m cx t h =>
    match h.op with
    | .ack a d cnt =>
      let m := m.updTx cx (fun t => { t with opening := false })
      let n := sub32 ((a + 1) % 4294967296) t.una
      if behind32 a t.una || !behind32 a t.nextPsn then
        let m := m.updTx cx (fun t => { m.reclamp t with lastCnt := if n = 0 && later16 cnt t.lastCnt then cnt else t.lastCnt })
        (m.settleAcks cx).pumpSend cx
      else
        let b := t.costSum t.una n
        let due := m.clk + m.rto
        let m := m.updTx cx (fun t =>
          let u := (a + 1) % 4294967296
          let t := { t with una := u, rounds := 0, met := false, downOnly := true, lastCnt := cnt
                            timer := if u = t.nextPsn then none else some due
                            rnrHeld := t.rnrHeld.filter (fun c => !behind32 c.1 u) }
          m.window t b d)
        (m.settleAcks cx).pumpSend cx
    | _ => m))

/-- RNR_DELAY in cycles. -/
def Mach.rnrDelay (m : Mach) : Nat := max 1 (m.get Reg.CXN.RNR_DELAY) * Config.usCycles
/-- RNR_TIMEOUT in cycles. -/
def Mach.rnrTimeout (m : Mach) : Nat := clamp 1 60000 (m.get Reg.CXN.RNR_TIMEOUT) * Config.msCycles

/-- A PSN that is outstanding on a TX half. -/
def TxHalf.outstanding (t : TxHalf) (p : Nat) : Bool := decide (sub32 p t.una < sub32 t.nextPsn t.una)

/-- A NAK of reason 2 or 3 for a PSN holds all sending until its end (R224); the PSN is held since its first such NAK (R225). -/
def TxHalf.heldBy (t : TxHalf) (p now due : Nat) : TxHalf :=
  { t with rnrUntil := t.rnrUntil ++ [(due, p)]
           rnrHeld := if (Tbl.find t.rnrHeld p).isSome then t.rnrHeld else Tbl.set t.rnrHeld p now }

/-- The PSN that NAKs have held longest. -/
def TxHalf.heldLongest (t : TxHalf) : Option Nat :=
  t.rnrHeld.foldl (fun (a : Option Nat) c => match a with | some x => some (min x c.2) | none => some c.2) none

/-- NAK_PACKET (R224). -/
def execNakPacket (k : Packet) (s : State) : Result :=
  ok s (s.m.answer k 6 (fun m cx t h =>
    match h.op with
    | .nak _ 4 => (m.endAll cx 0x03).closeTx cx
    | .nak p 1 =>
      if !t.outstanding p then m
      else
        let cut := m.isSet Reg.CXN.CC_EN
        (m.updTx cx (fun t => if cut then { t with cwnd := max (t.cwnd / 2) cwndMin } else t)).goBack cx p true
    | .nak p reason =>
      if !t.outstanding p || !(reason = 2 || reason = 3) then m
      else
        let now := m.clk
        let due := now + m.rnrDelay
        m.updTx cx (fun t => t.heldBy p now due)
    | _ => m))

/-- EPOCH_NAK_PACKET (R209): a round without progress; the outstanding messages start again on a new instance. -/
def execEpochNakPacket (k : Packet) (s : State) : Result :=
  ok s (s.m.answer k 7 (fun m cx t _ =>
    if m.retryMax < t.rounds + 1 then
      ((m.failTx cx 0x09).raise 80 .none (cxPeer cx) (cxQuad cx)).record 0x7020 (cxQuad cx) [cxSlot cx, cxPeer cx]
    else match m.outlived t with
      | [] => m.reopen cx (t.rounds + 1)
      | old => (m.endOutlived cx old).reopen cx (t.rounds + 1)))

/-! ### Timers -/

/-- LOSS_CHECK: the timer of R223 at its due time. -/
def execLossCheck (cx : Nat) (s : State) : Result :=
  ok s (match s.m.rxOf cx with
    | none => s.m
    | some r =>
      match r.aboveHole with
      | none => s.m
      | some ts =>
        let age := sub32 (s.m.stamp (cxQuad cx)) ts
        let m := s.m.elapseNs (s.m.latMax + 1 - age)
        let m := if r.nakFor = some r.epsn then m.elapseTo (r.nakAt + Config.nsCycles * m.latMax) else m
        m.lossCheck cx)

/-- RSX_ACK_TIMER (R221). -/
def execRsxAckTimer (cx : Nat) (s : State) : Result :=
  ok s (match s.m.rxOf cx with
    | none => s.m
    | some r =>
      match r.ackOld, r.ackDone with
      | some a, some b => (s.m.elapseTo (min a b)).sendAck cx
      | some a, none => (s.m.elapseTo a).sendAck cx
      | none, some b => (s.m.elapseTo b).sendAck cx
      | none, none => s.m)

/-- RTO_EXPIRY (R224). -/
def execRtoExpiry (cx : Nat) (s : State) : Result :=
  ok s (match s.m.txOf cx with
    | none => s.m
    | some t =>
      match t.timer with
      | none => s.m
      | some due =>
        let m := s.m.elapseTo due
        let m := (m.bump Reg.CXN.TIMER_ROUNDS 1 (cxSlot cx)).record 0x7011 (cxQuad cx) [cxSlot cx, cxPeer cx, t.una]
        let cut := m.isSet Reg.CXN.CC_EN
        ((m.updTx cx (fun t => if cut then { t with cwnd := cwndMin } else t)).goBack cx t.una true).retryHeld)

/-- RNR_DELAY_EXPIRY (R224): the round is not counted. -/
def execRnrDelayExpiry (cx : Nat) (s : State) : Result :=
  ok s (match s.m.txOf cx with
    | none => s.m
    | some t =>
      match t.rnrUntil with
      | [] => s.m
      | (due, p) :: rest =>
        let m := (s.m.elapseTo due).updTx cx (fun t => { t with rnrUntil := rest })
        if t.una = t.nextPsn then m.pumpSend cx else (m.goBack cx p false).retryHeld)

/-- RNR_TIMEOUT (R225): one PSN has been held by reason 2 or 3 NAKs for RNR_TIMEOUT. -/
def execRnrTimeout (cx : Nat) (s : State) : Result :=
  ok s (match s.m.txOf cx with
    | none => s.m
    | some t =>
      match t.heldLongest with
      | none => s.m
      | some since =>
        let m := s.m.elapseTo (since + s.m.rnrTimeout)
        ((m.failTx cx 0x07).record 0x7022 (cxQuad cx) [cxSlot cx, cxPeer cx]).retryHeld)

/-! ### Windows (R213, R215) -/

/-- WIN_ERR of a CREATE (Table 8-8). -/
def Mach.winErr (m : Mach) (slot n : Nat) : Nat :=
  let len := m.get64 Reg.CXN.WIN_LEN_LO Reg.CXN.WIN_LEN_HI n
  match Tbl.find m.cxn.windows n with
  | some w => if w.slot != slot then 4 else 3
  | none =>
    if len = 0 || 2 ^ 48 < len then 1
    else match Tbl.find m.xlt.pds (m.get Reg.CXN.WIN_PD n) with
      | some p => if p.slot = slot then 0 else 2
      | none => 2

/-- WIN_CREATE. -/
def execWinCreate (r : Requester) (s : State) : Result :=
  ok s (s.m.action r Reg.CXN.WIN_CMD 1 (fun m n =>
    let err := m.winErr r.slotOf n
    let m := m.put Reg.CXN.WIN_ERR err n
    if err != 0 then m
    else
      let pd := m.get Reg.CXN.WIN_PD n
      let fn := match Tbl.find m.xlt.pds pd with | some p => p.func | none => 0
      let w : Window :=
        { slot := r.slotOf, pd := pd, func := fn, base := m.get64 Reg.CXN.WIN_BASE_LO Reg.CXN.WIN_BASE_HI n
          len := m.get64 Reg.CXN.WIN_LEN_LO Reg.CXN.WIN_LEN_HI n, rd := m.isSet Reg.CXN.RD n, wr := m.isSet Reg.CXN.WR n
          atm := m.isSet Reg.CXN.AT n, valid := true
          peer := if m.isSet Reg.CXN.PEER_ANY n then none else some (m.get Reg.CXN.WIN_PEER n) }
      { m with cxn := { m.cxn with windows := Tbl.set m.cxn.windows n w } }))

/-- A window stops admitting messages (R215). -/
def Mach.closeWindow (m : Mach) (n : Nat) : Mach :=
  match Tbl.find m.cxn.windows n with
  | some w =>
    { m with cxn := { m.cxn with windows := Tbl.set m.cxn.windows n { w with valid := false } } }.settleWindow n
  | none => m

/-- WIN_DISABLE. -/
def execWinDisable (r : Requester) (s : State) : Result :=
  ok s (s.m.action r Reg.CXN.WIN_CMD 2 (fun m n =>
    match Tbl.find m.cxn.windows n with
    | some w =>
      if w.slot != r.slotOf then m.put Reg.CXN.WIN_ERR 4 n
      else if !w.valid then m.put Reg.CXN.WIN_ERR 5 n
      else (m.put Reg.CXN.WIN_ERR 0 n).closeWindow n
    | none => m.put Reg.CXN.WIN_ERR 5 n))

/-! ### Context registers and counters (R229) -/

/-- CTX_LOOKUP: the registers show the context of the function's slot with CTX_PEER; an expired one is as absent (R204). -/
def execCtxLookup (r : Requester) (s : State) : Result :=
  ok s (s.m.action r Reg.CXN.CTX_LOOKUP 1 (fun m i =>
    let cx := cxKey r.slotOf (m.get Reg.CXN.CTX_PEER i)
    let fields := [Reg.CXN.FOUND, Reg.CXN.OPENING, Reg.CXN.QUIESCENT, Reg.CXN.ROUNDS, Reg.CXN.TX_EP, Reg.CXN.RX_EP,
      Reg.CXN.CTX_UNA, Reg.CXN.CTX_NEXT, Reg.CXN.CTX_EPSN, Reg.CXN.CTX_CWND]
    let m0 := m.clear fields i
    match m.ctx cx with
    | none => m0
    | some c =>
      if m.ctxExpired cx c then m0
      else
        let m0 := (m0.put Reg.CXN.FOUND 1 i).put Reg.CXN.QUIESCENT (b2n (m.quiescent cx c)) i
        let m0 := m0.put Reg.CXN.TX_EP (c.txEp.getD 0) i
        let m0 := match c.tx with
          | some t => ((((m0.put Reg.CXN.OPENING (b2n t.opening) i).put Reg.CXN.ROUNDS t.rounds i).put Reg.CXN.CTX_UNA t.una
              i).put Reg.CXN.CTX_NEXT t.nextPsn i).put Reg.CXN.CTX_CWND t.cwnd i
          | none => m0
        match c.rx with
        | some x => (m0.put Reg.CXN.RX_EP x.epoch i).put Reg.CXN.CTX_EPSN x.epsn i
        | none => m0))

/-- CXN_CNT_CLR. -/
def execCxnCntClr (r : Requester) (s : State) : Result :=
  ok s (s.m.action r Reg.CXN.CNT_CLR 1 (fun m _ =>
    m.clear [Reg.CXN.OPENS, Reg.CXN.RX_CREATES, Reg.CXN.REPLACES, Reg.CXN.DELETIONS, Reg.CXN.EPOCH_NAKS, Reg.CXN.LOSS_NAKS,
      Reg.CXN.TIMER_ROUNDS, Reg.CXN.RETX_PKTS, Reg.CXN.DUP_DROP, Reg.CXN.STALE_DROP, Reg.CXN.RNR_NAKS, Reg.CXN.RESULTS,
      Reg.CXN.FAILED] r.slotOf))

end Sys2Proof.Machine
end

