-- ==== Sys2Proof/Machine/Host.lean ====
section
/-!
DEFINITION. The commands of the host side (file 06): doorbells, the work-ring scan, NOP, PAD, FENCE and SLEEP_NOTICE
entries, interrupts and moderation, function power states, and the creation and teardown of rings.
-/

namespace Sys2Proof.Machine

/-! ### Doorbells (R151, Table 6-3) -/

/-- The work ring bound to a doorbell page. -/
def Mach.wrOfPage (m : Mach) (slot fn page : Nat) : Option Nat :=
  (m.hif.wrs.find? (fun c => c.2.slot == slot && c.2.func == fn && c.2.page == page)).map (·.1)

/-- The completion ring bound to a doorbell page. -/
def Mach.crOfPage (m : Mach) (slot fn page : Nat) : Option Nat :=
  (m.hif.crs.find? (fun c => c.2.slot == slot && c.2.func == fn && c.2.page == page)).map (·.1)

/-- A doorbell comes to a page: an absent slot has no functions (R149); a page with no ring of that kind counts in
DB_BAD; another wakes its quadrant. -/
def Mach.doorbell (m : Mach) (slot : Nat) (ring : Option Nat) (act : Mach → Nat → Mach) : Mach :=
  if !m.slotPresent slot then m
  else match ring with
    | none => m.bump Reg.HIF.DB_BAD 1 slot
    | some n => act (m.wakeQuad (quadOfSlot slot)) n

/-- WR_DOORBELL. -/
def execWrDoorbell (slot : Slot) (fn : Fin 256) (page : Nat) (s : State) : Result :=
  ok s (s.m.doorbell slot (s.m.wrOfPage slot fn page) (fun m n =>
    ((m.bump Reg.HIF.DOORBELLS 1 slot).updWr n (fun w => { w with db := w.db + 1 })).readyScan n))

/-- The head count a CR_HEAD value gives, where it is valid (R152). -/
def headCount (c : ComplRing) (v : Word) : Option Nat :=
  let size := 2 ^ c.sizeLog2
  let idx := v.toNat % 65536
  let h := (idx + size * b2n (v.getLsbD 16)) % (2 * size)
  if idx < size && (h + 2 * size - c.head) % (2 * size) ≤ (c.tail + 2 * size - c.head) % (2 * size) then some h
  else none

/-- CR_HEAD: the space before the head is freed, and held completions are written before any new ones (R164). -/
def execCrHead (slot : Slot) (fn : Fin 256) (page : Nat) (v : Word) (s : State) : Result :=
  ok s (s.m.doorbell slot (s.m.crOfPage slot fn page) (fun m n =>
    match (m.cr n).bind (fun c => headCount c v) with
    | none => m.bump Reg.HIF.DB_BAD 1 slot
    | some h => (m.updCr n (fun c => { c with head := h })).drainCr n))

/-- CR_ARM (R168). -/
def Mach.arm (m : Mach) (n : Nat) : Mach :=
  match m.cr n with
  | none => m
  | some c =>
    let m := m.updCr n (fun c => { c with armed := true })
    if max 1 c.modCount ≤ c.unsig then m.crSend n
    else if 0 < c.unsig then m.crTimer n c
    else m

/-- CR_ARM. -/
def execCrArm (slot : Slot) (fn : Fin 256) (page : Nat) (s : State) : Result :=
  ok s (s.m.doorbell slot (s.m.crOfPage slot fn page) (fun m n => m.arm n))

/-- A moderated interrupt is flushed: sent at once if the ring is armed and has unsignalled completions (R173). -/
def Mach.flushCr (m : Mach) (n : Nat) : Mach :=
  match m.cr n with
  | some c => if c.armed && 0 < c.unsig then m.crSend n else m
  | none => m

/-- SLEEP_NOTICE_DOORBELL. -/
def execSleepNoticeDoorbell (slot : Slot) (fn : Fin 256) (page : Nat) (s : State) : Result :=
  ok s (s.m.doorbell slot (s.m.crOfPage slot fn page) (fun m n => m.flushCr n))

/-- A write of `v` at an offset of a doorbell page (R151, Table 6-3): one of the four doorbells, and nothing at any other offset. -/
def State.pageWrite (s : State) (slot : Slot) (fn : Fin 256) (page off : Nat) (v : Word) : Result :=
  match off with
  | 0x000 => execWrDoorbell slot fn page s
  | 0x040 => execCrHead slot fn page v s
  | 0x080 => execCrArm slot fn page s
  | 0x0C0 => execSleepNoticeDoorbell slot fn page s
  | _ => ok s s.m

/-- What a read of a doorbell page returns (R151). -/
def pageRead : Word := 0

/-! ### The scan (R157) -/

/-- RING_READ_COMPLETION: a granule read comes back, a header or a body. -/
def execRingReadCompletion (id : Nat) (data : List Byte) (s : State) : Result :=
  ok s (match s.m.hif.reads.find? (fun r => r.id == id && r.sent && r.walk.isNone) with
    | none => s.m
    | some r =>
      match r.op.purpose with
      | .ringHeader ring db pos => (s.m.dropRead id).ringHeader ring db pos (slice data 0 64)
      | .ringBody ring db pos header => (s.m.dropRead id).ringBody ring db pos header (slice data 0 r.op.len)
      | _ => s.m)

/-- RING_RESUME: a ring paused at 4,096 entries in flight resumes at the next completion. -/
def execRingResume (ring : Nat) (s : State) : Result :=
  ok s (match s.m.wr ring with
    | some w =>
      if w.paused && s.m.inflight ring < 4096 then
        (s.m.updWr ring (fun w => { w with paused := false })).readyScan ring
      else s.m
    | none => s.m)

/-- NOP: completes with OK (Table 6-6). -/
def execNop (ring : Nat) (e : Entry) (s : State) : Result :=
  ok s (s.m.runEntry ring e 0x00 (fun m seq _ => m.finishWork ring seq 0 0))

/-- PAD: the scan position moves past it, without a completion (R154). -/
def execPad (ring : Nat) (e : Entry) (s : State) : Result :=
  ok s (match s.m.wr ring with
    | some w =>
      if e.opcode = 1 && e.own = w.phase && s.m.mayScan w && !w.reading && 1 ≤ e.len && e.len ≤ 16 &&
          w.pos + e.len ≤ 2 ^ w.sizeLog2 then
        s.m.updWr ring (fun w => w.advance e.len)
      else s.m
    | none => s.m)

/-- FENCE: the scan stops until every earlier entry has completed (R159). A FENCE that the scan has fetched already stands
in the ring's work and completes with the last of them. -/
def execFence (ring : Nat) (e : Entry) (s : State) : Result :=
  ok s (s.m.runEntry ring e 0x50 (fun m seq w =>
    (((m.updWr ring (fun x => { x with fenceAt := some seq })).stopScan ring w).pumpTxe w.slot w.txe).fenceDone ring))

/-- SLEEP_NOTICE: acts on the completion ring named in its header (R173). -/
def execSleepNotice (ring : Nat) (e : Entry) (s : State) : Result :=
  ok s (s.m.runEntry ring e 0x51 (fun m seq w =>
    let mine := match m.cr e.cr with | some c => c.slot == w.slot && c.func == w.func | none => false
    (if mine then m.flushCr e.cr else m).finishWork ring seq 0 0))

/-! ### Interrupts and functions (R168 to R170, R174) -/

/-- MODERATION_TIMER_EXPIRY. -/
def execModerationTimerExpiry (cr : Nat) (s : State) : Result :=
  ok s (match (s.m.cr cr).bind (·.timer) with
    | none => s.m
    | some t => ((s.m.elapseTo t).updCr cr (fun c => { c with timer := none })).flushCr cr)

/-- MSIX_UNMASK: a vector whose PBA bit is set sends its message (R169). -/
def execMsixUnmask (slot : Slot) (fn : Fin 256) (vec : Nat) (s : State) : Result :=
  ok s (if vec < vectorsOf fn && s.m.slotPresent slot then
      let pending := (s.m.func slot fn).pba.contains vec
      let m := s.m.updFunc slot fn (fun f => { f with
        unmasked := if f.unmasked.contains vec then f.unmasked else f.unmasked ++ [vec]
        pba := f.pba.filter (· != vec) })
      if pending then m.interrupt slot fn vec else m
    else s.m)

/-- The rings of a function. -/
def Mach.wrsOf (m : Mach) (slot fn : Nat) : List Nat :=
  (m.hif.wrs.filter (fun c => c.2.slot == slot && c.2.func == fn)).map (·.1)
/-- The completion rings of a function. -/
def Mach.crsOf (m : Mach) (slot fn : Nat) : List Nat :=
  (m.hif.crs.filter (fun c => c.2.slot == slot && c.2.func == fn)).map (·.1)

/-- A function's scans pause (Table 6-15). -/
def Mach.pauseScans (m : Mach) (slot fn : Nat) : Mach :=
  (m.wrsOf slot fn).foldl (fun a n => match a.wr n with
    | some w => (a.stopScan n w).pumpTxe w.slot w.txe
    | none => a) m

/-- A ring's interrupt is evaluated over the completions that were held and are now written (R168, R170). -/
def Mach.evalCr (m : Mach) (n : Nat) : Mach :=
  match m.cr n with
  | none => m
  | some c =>
    if !c.late then m
    else
      let m := m.updCr n (fun c => { c with late := false, urgent := false })
      if !c.armed then m else if c.urgent then m.crSend n else m.arm n

/-- Once no held completion of a function that can be written waits for its translation, the interrupts of its rings are evaluated and
those held are sent (R169, R170). -/
def Mach.evalFn (m : Mach) (slot fn : Nat) : Mach :=
  let f := m.func slot fn
  let crs := m.crsOf slot fn
  if !f.late || !m.awake slot fn || crs.any (fun n => (m.cr n).any (fun c => c.late && c.xwait)) then m
  else
    let m := m.updFunc slot fn (fun f => { f with held := [], late := false })
    let m := crs.foldl Mach.evalCr m
    f.held.foldl (fun a v => a.interrupt slot fn v) m

/-- A function runs again (R170, Table 6-15): held completions are written in order, then interrupts are evaluated and those held are
sent, and each of its rings is scanned once, as by a doorbell (R157). -/
def Mach.releaseFn (m : Mach) (slot fn : Nat) : Mach :=
  if !m.awake slot fn then m
  else
    let m := m.updFunc slot fn (fun f => { f with late := true })
    let crs := m.crsOf slot fn
    let m := crs.foldl (fun (a : Mach) n => a.updCr n (fun c => { c with late := true })) m
    let m := (crs.foldl (fun (a : Mach) n => a.drainCr n) m).evalFn slot fn
    (m.wrsOf slot fn).foldl (fun (a : Mach) n => (a.updWr n (fun w => { w with db := w.db + 1 })).readyScan n) m

/-- Inbound work is accepted again after a reset once Bus Master Enable is set and the function has a ring. -/
def Mach.unbar (m : Mach) (slot fn : Nat) : Mach :=
  if (m.func slot fn).bme && !(m.wrsOf slot fn ++ m.crsOf slot fn).isEmpty then
    m.updFunc slot fn (fun f => { f with barred := false })
  else m

/-- FUNCTION_D3HOT_ENTRY. -/
def execFunctionD3hotEntry (slot : Slot) (fn : Fin 256) (s : State) : Result :=
  ok s (if s.m.slotPresent slot then
      (s.m.updFunc slot fn (fun f => { f with d3 := true })).pauseScans slot fn
    else s.m)

/-- FUNCTION_D0_RETURN. PME_Status is cleared with it (DESIGN CHOICE, log entry 31: no command writes it). -/
def execFunctionD0Return (slot : Slot) (fn : Fin 256) (s : State) : Result :=
  ok s (if (s.m.func slot fn).d3 then
      (s.m.updFunc slot fn (fun f => { f with d3 := false, pmeSts := false })).releaseFn slot fn
    else s.m)

/-- A VF whose Bus Master Enable the host sets shows that VF Enable of its slot is set (DESIGN CHOICE, log entry 61: no command carries
VF Enable itself). -/
def Mach.vfSeen (m : Mach) (slot fn : Nat) : Mach :=
  if fn = 0 then m else { m with hif := { m.hif with vfOn := Tbl.set m.hif.vfOn slot true } }

/-- BUS_MASTER_ENABLE_SET. -/
def execBusMasterEnableSet (slot : Slot) (fn : Fin 256) (s : State) : Result :=
  ok s (if s.m.slotPresent slot && !(s.m.func slot fn).bme then
      (((s.m.vfSeen slot fn).updFunc slot fn (fun f => { f with bme := true })).unbar slot fn).releaseFn slot fn
    else s.m)

/-- BUS_MASTER_ENABLE_CLEAR. -/
def execBusMasterEnableClear (slot : Slot) (fn : Fin 256) (s : State) : Result :=
  ok s (if s.m.slotPresent slot then
      (s.m.updFunc slot fn (fun f => { f with bme := false })).pauseScans slot fn
    else s.m)

/-! ### Host port links (R148, R149, R176) -/

/-- The generation GEN_MAX stands for: 0 PCIe 7.0, 1 6.x, 2 and 3 5.0. -/
def genOf (g : Nat) : Nat := 7 - min 2 g

/-- A half that trained is below GEN_MAX or its full width (Table 6-17). -/
def HalfLink.degraded (h : HalfLink) (gen full : Nat) : Bool := h.speed != 0 && (h.speed < gen || h.width < full)

/-- One half of a host port comes up: FS65 and event 0x6003 where it is degraded, and the end of that condition where it
is not. -/
def Mach.halfUp (m : Mach) (slot : Nat) (h : HalfLink) (gen full : Nat) : Mach :=
  if HalfLink.degraded h gen full then
    (m.raise 65 (.slot slot) (16 * h.speed + h.width) (quadOfSlot slot)).record 0x6003 (quadOfSlot slot) [slot, h.speed, h.width]
  else if h.speed != 0 then m.endCondition 65 (.slot slot) else m

/-- HOST_PORT_LINK_UP. A port in reset does not train. -/
def execHostPortLinkUp (hp : HostPort) (h0 h1 : HalfLink) (s : State) : Result :=
  if Tbl.get s.m.hif.perst hp false then ok s s.m else
  let gen := genOf (Tbl.get s.m.hif.gens hp 0)
  let split := s.m.isSet Reg.HIF.BIFURCATED hp
  let full := if split then 8 else 16
  let h1 : HalfLink := if split then h1 else { speed := 0, width := 0 }
  let m := ((s.m.put Reg.HIF.SPEED_H0 h0.speed hp).put Reg.HIF.WIDTH_H0 h0.width hp)
  let m := ((m.put Reg.HIF.SPEED_H1 h1.speed hp).put Reg.HIF.WIDTH_H1 h1.width hp)
  let m := m.record 0x6002 (hp.val / 2) [hp]
  ok s ((m.halfUp (2 * hp) h0 gen full).halfUp (2 * hp + 1) h1 gen full)

/-! ### Creation and teardown (R171, R172, R177) -/

/-- A base aligned to 4 KiB, or to the ring's own size if that is smaller (R153, R161). -/
def ringAligned (base bytes : Nat) : Bool := base % (min 4096 bytes) = 0

/-- A doorbell page lies in the function's BAR2 (Table 6-2). -/
def pageInRange (fn page : Nat) : Bool := fn = 0 || page < 256

/-- A completion ring is ACTIVE and of a function. -/
def Mach.crActive (m : Mach) (n slot fn : Nat) : Bool :=
  match m.cr n with
  | some c => c.slot == slot && c.func == fn && !c.overflow
  | none => false

/-- What WR_ERR reports of a CREATE (Table 6-18); 0 where the ring may be created. -/
def Mach.wrCreateErr (m : Mach) (slot n : Nat) : Nat :=
  let sz := m.get Reg.HIF.SIZE_LOG2 n
  let fn := m.get Reg.HIF.WR_FUNC n
  let page := m.get Reg.HIF.WR_DB_PAGE n
  match m.wr n with
  | some w => if w.slot != slot then 7 else 5
  | none =>
    if sz < 4 || 16 < sz then 1
    else if !ringAligned (m.get64 Reg.HIF.WR_BASE_LO Reg.HIF.WR_BASE_HI n) (64 * 2 ^ sz) ||
        (m.isSet Reg.HIF.CONS_WB_EN n && m.get Reg.HIF.CONS_WB_LO n % 4 != 0) then 2
    else if !m.fnPresent slot fn then 3
    else if !pageInRange fn page || (m.wrOfPage slot fn page).isSome then 4
    else if !m.crActive (m.get Reg.HIF.WR_DEF_CR n) slot fn then 6
    else 0

/-- The work ring that the staging fields describe. -/
def Mach.stagedWr (m : Mach) (slot n : Nat) : WorkRing :=
  { slot := slot, func := m.get Reg.HIF.WR_FUNC n
    base := m.get64 Reg.HIF.WR_BASE_LO Reg.HIF.WR_BASE_HI n, sizeLog2 := m.get Reg.HIF.SIZE_LOG2 n
    txe := m.get Reg.HIF.WR_TXE n, super_ := m.isSet Reg.HIF.SUPERVISOR n
    wbEn := m.isSet Reg.HIF.CONS_WB_EN n, wbAddr := m.get64 Reg.HIF.CONS_WB_LO Reg.HIF.CONS_WB_HI n
    pd := m.get Reg.HIF.WR_PD n, page := m.get Reg.HIF.WR_DB_PAGE n, seq := m.hif.seqBase, db := m.hif.dbBase + 1, schq := m.get Reg.HIF.WR_SCHQ n
    defCr := m.get Reg.HIF.WR_DEF_CR n }

/-- WR_CREATE: the ring is created from the staging fields and scanned once. -/
def execWrCreate (r : Requester) (s : State) : Result :=
  ok s (s.m.action r Reg.HIF.WR_CMD 1 (fun m n =>
    let slot := r.slotOf
    let err := m.wrCreateErr slot n
    let m := m.put Reg.HIF.WR_ERR err n
    if err != 0 then m
    else
      let w := m.stagedWr slot n
      let m := { m with hif := { m.hif with wrs := Tbl.set m.hif.wrs n w } }
      (m.unbar slot w.func).readyScan n))

/-- A command on a ring that must not be FREE nor of another slot: 8 or 7 in ERR otherwise (R171). -/
def Mach.onWr (m : Mach) (r : Requester) (n : Nat) (act : Mach → WorkRing → Mach) : Mach :=
  match m.wr n with
  | none => m.put Reg.HIF.WR_ERR 8 n
  | some w => if w.slot != r.slotOf then m.put Reg.HIF.WR_ERR 7 n else act (m.put Reg.HIF.WR_ERR 0 n) w

/-- As `onWr`, for a completion ring. -/
def Mach.onCr (m : Mach) (r : Requester) (n : Nat) (act : Mach → ComplRing → Mach) : Mach :=
  match m.cr n with
  | none => m.put Reg.HIF.CR_ERR 8 n
  | some c => if c.slot != r.slotOf then m.put Reg.HIF.CR_ERR 7 n else act (m.put Reg.HIF.CR_ERR 0 n) c

/-- Completions of a work ring that wait in some completion ring. -/
def Mach.heldOf (m : Mach) (ring : Nat) : Bool := m.hif.crs.vals.any (fun c => (c.xq ++ c.held).any (fun x => x.ring == ring))

/-- A DRAINING ring with nothing in flight and its last completion written is FREE (R172). -/
def Mach.drainDone (m : Mach) (ring : Nat) : Mach :=
  match m.wr ring with
  | some w =>
    if w.st = 2 && m.inflight ring = 0 && !m.heldOf ring then
      { m with hif := { m.hif with
          wrs := Tbl.del m.hif.wrs ring, seqBase := max m.hif.seqBase (w.seq + 1), dbBase := max m.hif.dbBase w.db } }
    else m
  | none => m

/-- WR_DRAIN_DONE. -/
def execWrDrainDone (ring : Nat) (s : State) : Result := ok s (s.m.drainDone ring)

/-- WR_RESET: position 0, phase 1, ERROR left (Table 6-18). -/
def execWrReset (r : Requester) (s : State) : Result :=
  ok s (s.m.action r Reg.HIF.WR_CMD 3 (fun m n => m.onWr r n (fun m w =>
    ((m.stopScan n w).pumpTxe w.slot w.txe).updWr n (fun w =>
      { w with pos := 0, phase := true, st := if w.st = 3 then 1 else w.st, drainStop := false, db := w.db + 1, rdDb := w.db + 1 }))))

/-- What CR_ERR reports of a CREATE. -/
def Mach.crCreateErr (m : Mach) (slot n : Nat) : Nat :=
  let sz := m.get Reg.HIF.CR_SIZE_LOG2 n
  let fn := m.get Reg.HIF.CR_FUNC n
  let page := m.get Reg.HIF.CR_DB_PAGE n
  match m.cr n with
  | some c => if c.slot != slot then 7 else 5
  | none =>
    if sz < 4 || 16 < sz then 1
    else if !ringAligned (m.get64 Reg.HIF.CR_BASE_LO Reg.HIF.CR_BASE_HI n) (32 * 2 ^ sz) then 2
    else if !m.fnPresent slot fn || (!m.isSet Reg.HIF.POLLED n && vectorsOf fn ≤ m.get Reg.HIF.VECTOR n) then 3
    else if !pageInRange fn page || (m.crOfPage slot fn page).isSome then 4
    else 0

/-- CR_CREATE: the ring is created from the staging fields, armed (R168). -/
def execCrCreate (r : Requester) (s : State) : Result :=
  ok s (s.m.action r Reg.HIF.CR_CMD 1 (fun m n =>
    let slot := r.slotOf
    let err := m.crCreateErr slot n
    let m := m.put Reg.HIF.CR_ERR err n
    if err != 0 then m
    else
      let c : ComplRing :=
        { slot := slot, func := m.get Reg.HIF.CR_FUNC n
          base := m.get64 Reg.HIF.CR_BASE_LO Reg.HIF.CR_BASE_HI n, sizeLog2 := m.get Reg.HIF.CR_SIZE_LOG2 n
          twoWrite := m.isSet Reg.HIF.TWO_WRITE n, polled := m.isSet Reg.HIF.POLLED n
          vector := m.get Reg.HIF.VECTOR n, page := m.get Reg.HIF.CR_DB_PAGE n
          modTime := m.get Reg.HIF.MOD_TIME n, modCount := m.get Reg.HIF.MOD_COUNT n }
      { m with hif := { m.hif with crs := Tbl.set m.hif.crs n c } }.unbar slot c.func))

/-- CR_DESTROY: at once (R172). -/
def execCrDestroy (r : Requester) (s : State) : Result :=
  ok s (s.m.action r Reg.HIF.CR_CMD 2 (fun m n => m.onCr r n (fun m _ =>
    { m with hif := { m.hif with crs := Tbl.del m.hif.crs n } })))

/-- CR_MODIFY: the staged moderation, vector and POLLED act from the next completion or timer start (Table 6-18). -/
def execCrModify (r : Requester) (s : State) : Result :=
  ok s (s.m.action r Reg.HIF.CR_CMD 3 (fun m n => m.onCr r n (fun m c =>
    if !m.isSet Reg.HIF.POLLED n && vectorsOf c.func ≤ m.get Reg.HIF.VECTOR n then m.put Reg.HIF.CR_ERR 3 n
    else
      let x := m
      m.updCr n (fun c => { c with
        polled := x.isSet Reg.HIF.POLLED n, vector := x.get Reg.HIF.VECTOR n
        modTime := x.get Reg.HIF.MOD_TIME n, modCount := x.get Reg.HIF.MOD_COUNT n }))))

/-- CR_RESET: head and tail 0, phase 1, ACTIVE, held completions discarded (Table 6-18). -/
def execCrReset (r : Requester) (s : State) : Result :=
  ok s (s.m.action r Reg.HIF.CR_CMD 4 (fun m n => m.onCr r n (fun m _ =>
    m.updCr n (fun c => { c with head := 0, tail := 0, overflow := false, held := [], xq := [], xwait := false }))))

/-- HIF_CNT_CLR. -/
def execHifCntClr (r : Requester) (s : State) : Result :=
  ok s (s.m.action r Reg.HIF.CNT_CLR 1 (fun m i =>
    m.clear [Reg.HIF.DOORBELLS, Reg.HIF.ENTRIES, Reg.HIF.COMPLETIONS, Reg.HIF.IRQS, Reg.HIF.OVF_DROP,
      Reg.HIF.DB_BAD, Reg.HIF.PME_SENT] i))

end Sys2Proof.Machine
end

