-- ==== Sys2Proof/Machine/Lane.lean ====
section
/-!
DEFINITION. The lanes (file 03): codeword lock and lane loss (R58, R68, R79), ALIGN blocks (R57, R61 to R63), electrical
idle and its exit (R69 to R74), margin scans (R77, R78), the pattern checker (R75), the counters (R76).
-/

namespace Sys2Proof.Machine

/-- A codeword is good: with FEC on, it decodes (R56); with FEC off, its fill is there (R58). -/
def Decoded.good (fec : Bool) (d : Decoded) : Bool := if fec then d.errors.isSome else d.fillOk

/-- The counters of a codeword received in lock with FEC on (Table 3-8): symbols corrected, or uncorrectable. -/
def Mach.countCodeword (m : Mach) (l : LaneId) (errors : Option Nat) : Mach :=
  match errors with
  | some n =>
    if 0 < n then ((m.bump Reg.LAN.CW_CORR 1 l).bump Reg.LAN.SYM_CORR n l).pmcPort (portOfLane l) 0x28 1 else m
  | none => ((m.bump Reg.LAN.CW_UNCORR 1 l).pmcPort (portOfLane l) 0x29 1).updLane l (fun x => { x with uncorrSec := x.uncorrSec + 1 })

/-- Codeword lock (R58): four good codewords in a row lock; eight bad ones in a row clear CW_LOCK and start a search. A lane that
locks has its signal and its clock; a lost one that locks again is regained: event 0x3002. -/
def Mach.trackLock (m : Mach) (l : LaneId) (good : Bool) : Mach :=
  let x := m.lane l
  if m.isSet Reg.LAN.CW_LOCK l then
    if good then m.updLane l (fun x => { x with badRun := 0 })
    else if x.badRun + 1 < 8 then m.updLane l (fun x => { x with badRun := x.badRun + 1 })
    else (m.put Reg.LAN.CW_LOCK 0 l).updLane l (fun x => { x with badRun := 0, goodRun := 0, seekSince := some m.clk })
  else if !good then m.updLane l (fun x => { x with goodRun := 0 })
  else if x.goodRun + 1 < 4 then m.updLane l (fun x => { x with goodRun := x.goodRun + 1 })
  else m.regain l

/-! ### Lanes that a width change adds (R108) -/

/-- The lanes that the width change in progress on a port adds. -/
def Mach.toAdd (m : Mach) (p : Nat) : List Nat :=
  match (m.link p).train with
  | some t => (List.range 4).filter (fun k => bit t.lanes k && !bit (m.get Reg.LNK.ACTIVE p) k)
  | none => []

/-- The requester's DONE for these lanes waits to be sent (R105). -/
def Mach.queueDone (m : Mach) (p : Nat) (lanes rate : Nat) : Mach :=
  match (m.link p).train with
  | some t =>
    (m.updLink p (fun l => { l with train := some { t with acked := true, lanes := lanes, rate := rate, alignAt := none } })).queueCtrl p
      (.train (m.mkTrain p .done t.action t.reason t.good lanes rate))
  | none => m

/-- A lane whose skew exceeds 40 ns is excluded (R74): FS20, event 0x3005. -/
def Mach.excludeLane (m : Mach) (p l : Nat) : Mach :=
  ((m.updLane l (fun x => { x with lost := true })).raise 20 (.port p) l (quadOfPort p)).record 0x3005 (quadOfPort p) [l]

/-- Lanes that the change adds and that have locked but are skewed by more than 40 ns (R74). -/
def Mach.lateAdded (m : Mach) (p : Nat) : List Nat :=
  (m.toAdd p).filter (fun k => m.isSet Reg.LAN.CW_LOCK (m.physOf p k) && decide (40000 < (m.lane (m.physOf p k)).skew))

/-- The change completes on the widest set among the active lanes and the added ones that locked in time (R108, R74). -/
def Mach.addDone (m : Mach) (p : Nat) : Mach :=
  let late := m.lateAdded p
  let good := ((m.toAdd p).filter (fun k => m.isSet Reg.LAN.CW_LOCK (m.physOf p k) && !late.contains k)).foldl
    (fun a k => a + 2 ^ k) (m.get Reg.LNK.ACTIVE p)
  let all := (m.toAdd p).all (bit good)
  let m := late.foldl (fun a k => a.excludeLane p (a.physOf p k)) m
  match (m.link p).train with
  | some t => m.queueDone p (if all then t.lanes else chooseLanes (m.widthMax p) good) 0
  | none => m

/-- Lanes that the change adds lock without a CODEWORD_RECEIVE for each of their codewords (log entry 66): those that a mask of the
port's physical lanes names and that have no lock yet. -/
def Mach.lockAdded (m : Mach) (p : Nat) (locked : BitVec 4) : Mach :=
  (((m.toAdd p).map (m.physOf p)).filter (fun l => locked.getLsbD (l % 4) && !m.isSet Reg.LAN.CW_LOCK l)).foldl Mach.regain m

/-- The requester of a width change has its ACK and waits for lanes that it adds. -/
def Mach.adding (m : Mach) (p : Nat) : Bool :=
  match (m.link p).train with
  | some t => t.requester && t.acked && t.action == .width && t.alignAt.isSome
  | none => false

/-- Every lane that the change adds has locked: the change goes on to its DONE. -/
def Mach.tryAdd (m : Mach) (p : Nat) : Mach :=
  if m.adding p && (m.toAdd p).all (fun k => m.isSet Reg.LAN.CW_LOCK (m.physOf p k)) then m.addDone p else m

/-- A lane out of electrical idle receives one codeword (R55, R56, R58 to R62): its symbols are decoded and descrambled into blocks, which
are errored where it was uncorrectable. -/
def Mach.codeword (m : Mach) (l : LaneId) (c : Codeword) : Mach :=
  if m.isSet Reg.LAN.EI l then m
  else
    let fec := m.isSet Reg.LAN.FEC (portOfLane l)
    let (g, m) := m.laneIn l c.symbols
    let d := decodeCodeword fec g
    let m := if fec && m.isSet Reg.LAN.CW_LOCK l then m.countCodeword l d.errors else m
    let (blocks, hist) := descrambleBlocks (m.lane l).rxHist d.blocks
    let m := m.updLane l (fun x => { x with rxBlocks := blocks, rxHist := hist, rxErr := fec && d.errors.isNone })
    (m.trackLock l (d.good fec)).tryAdd (portOfLane l)

/-- CODEWORD_RECEIVE. -/
def execCodewordReceive (l : LaneId) (c : Codeword) (s : State) : Result := ok s (s.m.codeword l c)

/-- LANE_LOST (R58, R79): 1 µs after lock was lost, or at once with the loss of the signal, which CDR_LOCK goes with (R68). -/
def execLaneLost (l : LaneLoss) (s : State) : Result :=
  let m := s.m
  ok s (if m.laneActive l.lane && m.trained (portOfLane l.lane) then
    if l.signal then ((m.put Reg.LAN.SIG_DET 0 l.lane).put Reg.LAN.CDR_LOCK 0 l.lane).loseLane l.lane
    else match (m.lane l.lane).seekSince with
    | some t => (m.elapseTo (t + Config.usCycles)).loseLane l.lane
    | none => m
  else m)

/-- CDR_LOCK_LOSS: CDR_LOCK clears and the lane is lost, at once, as R68 says (DEDUCED, log entry 59: Table 3-7 gives CDR_LOCK 1 µs
to be regained). -/
def execCdrLockLoss (l : LaneId) (s : State) : Result := ok s ((s.m.put Reg.LAN.CDR_LOCK 0 l).loseLane l)

/-- An ALIGN block (R57, R61 to R63, R74): polarity and order are detected, the far end's settings are taken, and the lane's skew; being
a non-frame block, it ends RESYNC (R81). -/
def Mach.align (m : Mach) (l : LaneId) (b : AlignBlock) : Mach :=
  let p := portOfLane l
  let m := (m.put Reg.LAN.RX_INV_DET (b2n b.inverted) l).frameIn p
  let m := if b.lane.val = l.val % 4 then m.put Reg.LAN.RX_ORDER_REV_DET 0 p
    else if b.lane.val + l.val % 4 = 3 then m.put Reg.LAN.RX_ORDER_REV_DET 1 p else m
  let m := m.put Reg.LAN.LOGICAL (m.logicalOf l) l
  let m := m.put Reg.LAN.SKEW (min 65535 (max (m.get Reg.LAN.SKEW p) b.skew)) p
  m.updLane l (fun x => { x with
    farFec := b.fecEn, farPrec := b.precode, farReady := b.ready, cwIndex := b.index, skew := b.skew })

/-- ALIGN_BLOCK. A lane in electrical idle receives none. -/
def execAlignBlock (l : LaneId) (b : AlignBlock) (s : State) : Result :=
  ok s (if s.m.isSet Reg.LAN.EI l then s.m else s.m.align l b)

/-! ### Electrical idle (R69 to R74) -/

/-- EI_DELAY as it acts, in CORECLK cycles; none for 0, which keeps the port out of idle. -/
def Mach.eiDelay (m : Mach) (p : Nat) : Option Nat :=
  match m.get Reg.LAN.EI_DELAY p with
  | 0 => none
  | v => some (clamp 100 1000000 v * Config.nsCycles)

/-- What R69 asks before an end sends IDLE_NOTICE, apart from the delay: an UP port, an empty replay buffer, no NAK of its
own outstanding, nothing waiting to be returned or sent, and no scan. -/
def Mach.idleReady (m : Mach) (p : Nat) : Bool :=
  let l := m.link p
  m.linkState p = 2 && !(m.ei p).driversOff && l.replay.isEmpty && l.nakAt.isNone && l.ackDue.isNone &&
  !l.toReturn.any (fun c => c.2 != 0) && !l.ctrl.any Ctrl.wakes && (m.rp p).sel.isEmpty && !m.scanOn p

/-- The drivers turn off once the end has both sent and received IDLE_NOTICE (R69); not under an EI_DELAY of 0, nor while a scan keeps
the port out of idle (R78). -/
def Mach.idleIfBoth (m : Mach) (p : Nat) : Mach :=
  if (m.ei p).sentNotice && (m.ei p).rcvdNotice && (m.eiDelay p).isSome && !m.scanOn p then m.driversOff p else m

/-- IDLE_NOTICE_SEND (R69). -/
def execIdleNoticeSend (p : PortId) (s : State) : Result :=
  let m := s.m
  ok s (match m.eiDelay p with
    | none => m
    | some d =>
      if m.idleReady p && !(m.ei p).sentNotice then
        let m := m.elapseTo ((m.ei p).quietSince + d)
        ((m.updEi p (fun e => { e with sentNotice := true })).sendNotice p).idleIfBoth p
      else m)

/-- IDLE_NOTICE_RECEIVE (R69); a non-frame block, it ends RESYNC (R81). -/
def execIdleNoticeReceive (p : PortId) (s : State) : Result :=
  let m := s.m
  ok s (if m.linkState p = 2 && !(m.ei p).driversOff then
    ((m.frameIn p).updEi p (fun e => { e with rcvdNotice := true })).idleIfBoth p else m)

/-- A parked quadrant's CORECLK runs before its port answers or wakes: a PLL that has been started is waited for (R25, R72). -/
def Mach.wakeForPort (m : Mach) (p : Nat) : Mach :=
  let q := quadOfPort p
  let m := m.wakeQuad q
  m.elapseTo (Tbl.get m.quads q {}).usableAt

/-- A wake burst and two ALIGN codewords with READY set go out on every active lane (Table 3-6). -/
def Mach.sendWake (m : Mach) (p : Nat) : Mach := (m.sendBurst p (m.txLanes p)).sendAlign p (m.txLanes p) true

/-- A port in electrical idle begins its exit (R70): a turn-off in this very cycle is cancelled (R26); otherwise a wake burst
goes out. -/
def Mach.exitIdle (m : Mach) (p : Nat) : Mach :=
  if m.trained p && (m.ei p).driversOff && (m.ei p).bursts = 0 then
    if (m.ei p).offAt = m.clk && 0 < m.clk then m.driversOn p
    else
      let m := m.wakeForPort p
      (m.updEi p (fun e => { e with bursts := 1, burstAt := m.clk })).sendWake p
  else m

/-- EI_EXIT_REQUEST (R70). -/
def execEiExitRequest (p : PortId) (s : State) : Result :=
  ok s (if s.m.exitWanted p then s.m.exitIdle p else s.m)

/-- Lanes whose skew exceeds 40 ns are excluded (R74), and the width changes without them. `skew` lists the skew of each physical lane
in ps. -/
def Mach.skewCheck (m : Mach) (p : PortId) (skew : List Nat) : Mach :=
  let act := m.get Reg.LNK.ACTIVE p
  let ks := (List.range 4).filter (bit act)
  let sk := fun k => skew.getD (m.physOf p k % 4) 0
  let m := m.put Reg.LAN.SKEW (min 65535 ((ks.map sk).foldl max 0)) p
  let bad := ks.filter (fun k => 40000 < sk k)
  if bad.isEmpty then m
  else
    let m := bad.foldl (fun a k => a.excludeLane p (a.physOf p k)) m
    let set := chooseLanes (m.widthMax p) (m.goodLanes p)
    if set = 0 then m.linkDown p 3 else if m.linkState p = 2 then m.startAction p .width 3 set else m

/-- WAKE_BURST_RECEIVE (R70 to R74): an end that has sent a burst takes it as the answer; another answers it. -/
def execWakeBurstReceive (p : PortId) (skew : List Nat) (s : State) : Result :=
  let m := s.m
  ok s (if m.trained p && (m.ei p).driversOff then
    let m := if (m.ei p).bursts = 0 then (m.wakeForPort p).sendWake p else m
    let m := (List.range 4).foldl (fun (a : Mach) k => a.updLane (4 * p.val + k) (fun x => { x with rxPrev := 0 })) m
    (m.driversOn p).skewCheck p skew
  else m)

/-- WAKE_ANSWER_TIMEOUT (R72): after 25 µs the burst is repeated once; after the second failure FS19, event 0x3004, and
the link goes down. -/
def execWakeAnswerTimeout (p : PortId) (s : State) : Result :=
  let m := s.m
  let e := m.ei p
  ok s (if e.driversOff && 0 < e.bursts && m.trained p then
    let m := m.elapseTo (e.burstAt + 25 * Config.usCycles)
    if e.bursts = 1 then (m.updEi p (fun e => { e with bursts := 2, burstAt := m.clk })).sendBurst p (m.txLanes p)
    else ((m.raise 19 (.port p) 0 (quadOfPort p)).record 0x3004 (quadOfPort p) [p]).linkDown p 1
  else m)

/-- FEC_INTERVAL_END (R79): a second's uncorrectable codewords above the FEC_LIMIT it began with raise FS18 with event 0x3030; the next
second begins with FEC_LIMIT as it stands (Table 3-8). -/
def execFecIntervalEnd (l : LaneId) (s : State) : Result :=
  let m := s.m
  let lim := (m.lane l).fecLim
  let n := (m.lane l).uncorrSec
  let m1 := m.updLane l (fun x => { x with uncorrSec := 0, fecLim := m.get Reg.LAN.FEC_LIMIT })
  ok s (if 0 < lim && lim < n then
    (m1.raise 18 (.port (portOfLane l)) l (quadOfLane l)).record 0x3030 (quadOfLane l) [l, n] else m1)

/-! ### Margin scans (R77, R78) -/

/-- The scan of a lane begins (R78): a lane in electrical idle exits first. -/
def Mach.beginScan (m : Mach) (l : Nat) : Mach :=
  if m.isSet Reg.LAN.EI l then { m with scanWait := m.scanWait.filter (· != l) ++ [l] }.exitIdle (portOfLane l)
  else m.startScan l

/-- A scan runs, or waits for its lane's exit, in a quadrant: each scans one lane at a time (R78). -/
def Mach.scanning (m : Mach) (q : Nat) : Bool := (m.scans ++ m.scanWait).any (fun x => quadOfLane x == q)

/-- A scan of a lane is asked for (R78): deferred behind a link action of its port or another scan of its quadrant. SCAN_STATUS is one
value a port and shows the latest: a second lane's DEFERRED overwrites the RUNNING of the first (DESIGN CHOICE, log entry 59). -/
def Mach.askScan (m : Mach) (l : LaneId) : Mach :=
  let p := portOfLane l
  let q := quadOfLane l
  if m.linkState p = 1 || m.linkState p = 3 || m.linkState p = 4 || m.scanning q then
    ((m.put Reg.LAN.SCAN_STATUS 2 p).defer 4 l q).record 0x3021 q [l]
  else m.beginScan l

/-- SCAN_START (R78). A write during a scan of the same lane is ignored. -/
def execScanStart (r : Requester) (s : State) : Result :=
  ok s (s.m.actionIf r Reg.LAN.SCAN_START 1 (fun m _ => !(m.scans ++ m.scanWait).contains (m.idx r Reg.LAN.LANE_IDX))
    (fun m _ => m.askScan (Fin.ofNat 512 (m.idx r Reg.LAN.LANE_IDX))))

/-- SCAN_PERIOD_DUE (R78): the next active lane of the quadrant, in turn, is scanned; 0 stops background scans. One that
falls due while its predecessor is still deferred merges with it (R329). -/
def execScanPeriodDue (q : Quad) (s : State) : Result :=
  let m := s.m
  let from_ := Tbl.get m.hive.scanTurn q 0
  let next := (List.range 128).find? (fun k =>
    let l := 128 * q.val + (from_ + k) % 128
    m.trained (portOfLane l) && m.laneActive l)
  ok s (match next with
    | none => m
    | some k =>
      if m.get Reg.LAN.SCAN_PERIOD = 0 then m
      else
        let n := (from_ + k) % 128
        let l := 128 * q.val + n
        let m := { m with hive := { m.hive with scanTurn := Tbl.set m.hive.scanTurn q ((n + 1) % 128) } }
        if (m.scans ++ m.scanWait).contains l then m else m.askScan (Fin.ofNat 512 l))

/-- Points of a scan that are done: one dwell of 2^DWELL symbols each, at the lane's rate (R77), three eyes of 289. -/
def Mach.scanDone (m : Mach) (l : Nat) : Nat :=
  match (Tbl.get m.scanRuns l []).getLast? with
  | some (n, dwell, t) =>
    min 867 (n + (m.clk - t) / max 1 (2 ^ (clamp 16 28 dwell + m.get Reg.LAN.RATE_AT_14 l) * 4 / 425))
  | none => 0

/-- DWELL of a port is written: a scan that runs on one of its lanes takes it up from its next point (Table 3-8). -/
def Mach.redwell (m : Mach) (p : Nat) : Mach :=
  (m.scans.filter (fun l => portOfLane l == p)).foldl (fun a l =>
    { a with scanRuns := Tbl.modify a.scanRuns l [] (fun r => r ++ [(a.scanDone l + 1, a.get Reg.LAN.DWELL p, a.clk)]) }) m

/-- The DWELL that point `n` of a scan had: 16 to 28 (Table 3-8). -/
def dwellAt (run : List (Nat × Nat × Nat)) (n : Nat) : Nat :=
  clamp 16 28 (((run.filter (fun x => x.1 ≤ n)).getLast?.map (fun x => x.2.1)).getD 20)

/-- A point is open (R77): no more than 1 symbol in 2^16 of its dwell. -/
def openPoint (dwell disagree : Nat) : Bool := decide (disagree * 65536 ≤ 2 ^ dwell)

/-- Point (phase `x`, voltage `y`) of eye `e` of a scan is open; the points are scanned phase by phase, the lowest voltage first, the
upper eye first (DESIGN CHOICE, log entry 59: the order decides only which points a live write of DWELL reaches). -/
def EyeScan.isOpen (run : List (Nat × Nat × Nat)) (e : Nat) (eye : EyeScan) (x y : Nat) : Bool :=
  openPoint (dwellAt run (289 * e + 17 * y + x)) (eye.disagree.getD (17 * y + x) 0)

/-- Width, in 1/64 UI, and height, in mV, of an eye (R77): from the zero-voltage row and the zero-phase column. -/
def EyeScan.size (run : List (Nat × Nat × Nat)) (e : Nat) (eye : EyeScan) : Nat × Nat :=
  (4 * (runThroughCentre ((List.range 17).map (fun x => EyeScan.isOpen run e eye x 8)) - 1),
   8 * (runThroughCentre ((List.range 17).map (fun y => EyeScan.isOpen run e eye 8 y)) - 1))

/-- SCAN_COMPLETE (R77): the six results are stored; one below MARGIN_MIN raises FS17 with event 0x3020. -/
def execScanComplete (l : LaneId) (upper middle lower : EyeScan) (s : State) : Result :=
  let m := s.m
  let p := portOfLane l
  ok s (if m.scans.contains l.val then
    let run := Tbl.get m.scanRuns l []
    let m := { m with scans := m.scans.filter (· != l.val), scanRuns := Tbl.del m.scanRuns l }
    let (wu, hu) := EyeScan.size run 0 upper
    let (wm, hm) := EyeScan.size run 1 middle
    let (wl, hl) := EyeScan.size run 2 lower
    let m := ((m.put Reg.LAN.EYE_U_W wu l).put Reg.LAN.EYE_U_H hu l).put Reg.LAN.EYE_M_W wm l
    let m := ((m.put Reg.LAN.EYE_M_H hm l).put Reg.LAN.EYE_L_W wl l).put Reg.LAN.EYE_L_H hl l
    let m := (m.put Reg.LAN.SCAN_STATUS 3 p).refreeze l
    let m := m.updEi p (fun e => { e with quietSince := m.clk })
    let w := m.get Reg.LAN.W_MIN
    let h := m.get Reg.LAN.H_MIN
    if wu < w || wm < w || wl < w || hu < h || hm < h || hl < h then
      (m.raise 17 (.port p) l (quadOfLane l)).record 0x3020 (quadOfLane l) [l] else m
  else m)

/-- The counters of a lane (R76). -/
def laneCounters : List Field :=
  [Reg.LAN.PRBS_ERR, Reg.LAN.PRBS_BITS_LO, Reg.LAN.PRBS_BITS_HI, Reg.LAN.CW_CORR, Reg.LAN.CW_UNCORR, Reg.LAN.SYM_CORR]

/-- LANE_CNT_CLR (R76). -/
def execLaneCntClr (r : Requester) (s : State) : Result :=
  ok s (s.m.action r Reg.LAN.CNT_CLR 1 (fun m i => m.clear laneCounters i))

/-! ### The pattern checker (R75) -/

/-- One symbol, as its two Gray-decoded bits, comes to a lane's checker. Unlocked, the checker seeds itself from what it
receives; locked, it runs on its own pattern and counts bits and bit errors. The 8 errors within 64 symbols that clear the lock are
counted as errored symbols (DESIGN CHOICE, log entry 59: R75 does not say of what). -/
def Mach.prbsSymbol (m : Mach) (l : LaneId) (two : Bool × Bool) : Mach :=
  let x := m.lane l
  let sel := m.get Reg.LAN.PRBS_SEL l
  let e1 := prbsNext sel x.prbsHist
  let h1 := if m.isSet Reg.LAN.PRBS_LOCK l then e1 :: x.prbsHist else two.1 :: x.prbsHist
  let e2 := prbsNext sel h1
  let h2 := (if m.isSet Reg.LAN.PRBS_LOCK l then e2 :: h1 else two.2 :: h1).take 31
  let wrong := b2n (e1 != two.1) + b2n (e2 != two.2)
  if m.isSet Reg.LAN.PRBS_LOCK l then
    let errs := ((wrong != 0) :: x.prbsErrs).take 64
    let m := m.bump Reg.LAN.PRBS_ERR wrong l
    let bits := min (m.get64 Reg.LAN.PRBS_BITS_LO Reg.LAN.PRBS_BITS_HI l + 2) (2 ^ 64 - 1)
    let m := m.put64 Reg.LAN.PRBS_BITS_LO Reg.LAN.PRBS_BITS_HI bits l
    if 8 ≤ (errs.filter (· == true)).length then
      (m.put Reg.LAN.PRBS_LOCK 0 l).updLane l (fun x => { x with prbsHist := h2, prbsErrs := [], prbsRun := 0 })
    else m.updLane l (fun x => { x with prbsHist := h2, prbsErrs := errs })
  else
    let run := if wrong = 0 && (if sel = 0 then 7 else if sel = 1 then 13 else 31) ≤ x.prbsHist.length then x.prbsRun + 1 else 0
    if 64 ≤ run then
      (m.put Reg.LAN.PRBS_LOCK 1 l).updLane l (fun x => { x with prbsHist := h2, prbsErrs := [], prbsRun := 0 })
    else m.updLane l (fun x => { x with prbsHist := h2, prbsRun := run })

/-- PRBS_LOCK (R75): symbols come to the checker; inversion is corrected (R62) and the far end's precoding undone (R61). -/
def execPrbsLock (l : LaneId) (symbols : List Nat) (s : State) : Result :=
  let m := s.m
  ok s (if m.isSet Reg.LAN.PRBS_CHK_EN l && !m.isSet Reg.LAN.EI l then
    let (g, m) := m.laneIn l symbols
    g.foldl (fun a y => a.prbsSymbol l (ungray y)) m
  else m)

end Sys2Proof.Machine
end

