-- ==== Sys2Proof/Machine/Link.lean ====
section
/-!
DEFINITION. The Rushaern link (file 04): the receiver (R85, R90 to R93), the sender's frame boundary with replay (R94 to
R97) and output arbitration (R138, R139), credits and audits (R98 to R103), training, retrain and width change (R104 to
R110), link down and failover (R111, R112), and the port's commands (R115).
-/

namespace Sys2Proof.Machine

/-! ### Timers as they act, in CORECLK cycles (Table 4-12) -/

/-- REPLAY_TIMEOUT: units of 10 ns, below 20 as 20. -/
def Mach.replayTimeout (m : Mach) (p : Nat) : Nat := 20 * max 20 (m.get Reg.LNK.REPLAY_TIMEOUT p)
/-- NAK_RESEND: below 100 ns as 100. -/
def Mach.nakResend (m : Mach) (p : Nat) : Nat := 2 * max 100 (m.get Reg.LNK.NAK_RESEND p)
/-- TRAIN_RETRY: 10 to 60,000 ms. -/
def Mach.trainRetry (m : Mach) (p : Nat) : Nat := Config.msCycles * clamp 10 60000 (m.get Reg.LNK.TRAIN_RETRY p)

/-! ### The receiver -/

/-- A responder whose ACK is out hears the requester: its action is complete (R105), a full training at the rate and on the lanes that
both ends reported. Its available credit is what it was: the credits of the DONE it did not get are stated by no rule, and no
reset is made (DEDUCED, log entry 59). -/
def Mach.hear (m : Mach) (p : Nat) : Mach :=
  match (m.link p).train with
  | some t =>
    if t.requester || !t.acked then m
    else if t.action = .full then m.finishFull p t.rate t.lanes else m.finishAction p t.lanes
  | none => m

/-- An ACK_FSN arrives (R94): kept if it is not behind UNA and is behind NEXT_FSN. -/
def Mach.ackIn (m : Mach) (p a : Nat) : Mach :=
  if !behind16 a (m.get Reg.LNK.UNA p) && behind16 a (m.get Reg.LNK.NEXT_FSN p) then
    m.updLink p (fun l => { l with pendingAck := match l.pendingAck with
      | some b => if ahead16 a b then some a else some b
      | none => some a })
  else m

/-- The header as a packet leaves on a hop (R132). -/
def hopHeader (h : RspHdr) (kind : HopKind) (dim vc : Nat) : RspHdr :=
  let h := { h with hops := (h.hops + 1) % 256, esc := h.esc || vc % 2 == 0 }
  match kind with
  | .again => h
  | .nonMinimal => { h with derouted := setBit h.derouted dim, detour := false }
  | .detourFirst => { h with derouted := setBit h.derouted dim, detour := true, detourDim := dim }
  | .minimal => { h with detour := false }
  | .escape => { h with detour := false }

/-- A hop is counted (Table 5-8): on an escape VC, as a detour's first, or as minimal or not; one of a failed port that another member
takes over counts as what it was. -/
def Mach.countHop (m : Mach) (p : Nat) (k : Packet) (kind : HopKind) (dim vc entry : Nat) : Mach :=
  let min_ := m.bump Reg.RTE.HOPS_MIN
  let non := (m.bump Reg.RTE.HOPS_NONMIN).pmcPort p 0x2A 1
  if vc % 2 = 0 then m.bump Reg.RTE.HOPS_ESC
  else match kind with
    | .minimal => min_
    | .nonMinimal => non
    | .escape => min_
    | .detourFirst => m.bump Reg.RTE.HOPS_DETOUR
    | .again =>
      if k.hdr.detour then m.bump Reg.RTE.HOPS_DETOUR
      else if m.coord (k.hdr.dst / 16) dim = entry % 64 then min_ else non

/-- The rate of a port, in units of 100 Gb/s (R138). -/
def Mach.portRate (m : Mach) (p : Nat) : Nat := m.get Reg.LNK.WIDTH p * (4 / 2 ^ m.get Reg.LAN.RATE_AT_48 p)
/-- The rate of a die-to-die link, 25.6 Tb/s (R138). -/
def dieRate : Nat := 256

/-- The packet of a frame begins to leave before its CRC is checked, and its outgoing copy ends with a stomp CRC (R85):
CT_EN is 1, the header is valid, the hop's output is free, no faster than the input, as is the die-to-die link to it (R138), and holds
its cells. -/
def Mach.stompThrough (m : Mach) (p : PortId) (f : DataFrame) : Mach :=
  let a : Arrival := { id := m.nextId, pkt := f.pkt, from_ := .port p, vc := f.vc, shared := f.shared, atc := m.clk,
                       len := f.pktLen }
  let n := cellsOf f.pktLen
  if !m.isSet Reg.RTE.CT_EN || !m.headerValid a || m.expired (ingQuad a.from_) f.pkt ||
      (m.unaligned f.pkt.hdr.dst).isEmpty || max 8 (m.get Reg.RTE.HOP_MAX) ≤ f.pkt.hdr.hops then m
  else match m.chooseHop (ingQuad a.from_) f.pkt with
    | none => m
    | some h =>
      let l := m.link h.port
      let pv := poolOf h.vc false
      let k := if n ≤ pool l.avail pv then pv else 8
      let rate := if quadOfPort h.port = quadOfPort p then m.portRate h.port else max dieRate (m.portRate h.port)
      if m.linkState h.port = 2 && !(m.ei h.port).driversOff && (m.rp h.port).sel.isEmpty && l.ctrl.isEmpty &&
          l.rp.isNone && l.pendingNak.isNone && !l.schedExit && rate ≤ m.portRate p && n ≤ pool l.avail k then
        let fsn := m.get Reg.LNK.NEXT_FSN h.port
        let pkt := { f.pkt with hdr := hopHeader f.pkt.hdr h.kind h.dim h.vc }
        let m := (m.noteDetour h).spendDraws
        let m := (m.bump Reg.LNK.STOMPS 1 h.port).put Reg.LNK.NEXT_FSN ((fsn + 1) % 65536) h.port
        let m := m.updLink h.port (fun l => { l with
          avail := subPool l.avail k n
          replay := l.replay ++ [{ fsn := fsn, vc := h.vc, shared := k == 8, cells := n, pkt := pkt, stomp := true }]
          timer := if l.replay.isEmpty then some (m.clk + m.replayTimeout h.port) else l.timer
          lastData := m.clk })
        let m := (m.busyPort h.port).countHop h.port f.pkt h.kind h.dim h.vc h.entry
        m.sendFrame h.port (.data { vc := h.vc, shared := k == 8, replay := false, fsn := fsn, pktLen := f.pktLen,
                                    pkt := pkt } true)
      else m

/-- A data frame at EXPECTED whose cells the pool holds is accepted (R90). -/
def Mach.acceptFrame (m : Mach) (p : PortId) (f : DataFrame) (keep : Bool) : Mach :=
  let k := poolOf f.vc f.shared
  let n := cellsOf f.pktLen
  let m := m.put Reg.LNK.EXPECTED ((m.get Reg.LNK.EXPECTED p + 1) % 65536) p
  let m := m.updLink p (fun l => { l with
    ackValid := true, nakAt := none
    ackWait := some (m.linkAckDelay p), ackDue := l.ackDue.or (some (m.clk + m.linkAckDelay p))
    occupied := addPool l.occupied k n })
  if keep then
    let (id, m) := m.newId
    { m with rte := { m.rte with arrivals := m.rte.arrivals ++
      [{ id := id, pkt := f.pkt, from_ := .port p, vc := f.vc, shared := f.shared, atc := m.clk, len := f.pktLen }] } }
  else m.freeCells p k n

/-- A credit overrun (R90): FS23, RX_MISMATCH in the next AUDIT, a retrain at once with reason 1, and no NAK. -/
def Mach.creditOverrun (m : Mach) (p : Nat) : Mach :=
  let m := (m.raise 23 (.port p) 1 (quadOfPort p)).record 0x3130 (quadOfPort p) [p]
  let m := m.updLink p (fun l => { l with overrun := true, rxMismatch := true })
  if m.linkState p = 2 then m.startAction p .retrain 1 0 else m

/-- A data frame whose format is right and whose CRC is good or a stomp (R85, R90). -/
def Mach.dataIn (m : Mach) (p : PortId) (f : DataFrame) (stomp : Bool) : Mach :=
  let expected := m.get Reg.LNK.EXPECTED p
  let l := m.link p
  if l.overrun then m.bump Reg.LNK.GAP_DROP 1 p
  else if f.fsn = expected then
    let k := poolOf f.vc f.shared
    if stomp then m.acceptFrame p f false
    else if pool l.occupied k + cellsOf f.pktLen ≤ pool l.size k then m.acceptFrame p f true
    else m.creditOverrun p
  else if behind16 f.fsn expected then m.bump Reg.LNK.DUP_DROP 1 p
  else (m.bump Reg.LNK.GAP_DROP 1 p).nak p 2

/-- DATA_FRAME (R81, R83, R85, R90, R91). -/
def execDataFrame (p : PortId) (f : DataFrame) (rx : Rx) (s : State) : Result :=
  let m := s.m
  ok s (if !m.receives p then m
    else match m.checkFrame p f.wire f.framingError rx with
      | .discarded => m
      | check =>
        let m := ((m.frameIn p).busyPort p).updLink p (fun l => { l with lastData := m.clk })
        let m := m.pmcReceived p (Frame.bytes (.data f false)) true
        match check with
        | .framing => m.frameBad p 3
        | .bad =>
          let l := m.link p
          let k := poolOf f.vc f.shared
          let m := if m.trained p && f.fsn = m.get Reg.LNK.EXPECTED p && pool l.occupied k + cellsOf f.pktLen ≤ pool l.size k && !l.overrun
            then m.stompThrough p f else m
          m.frameBad p 1
        | c =>
          let m := m.hear p
          if m.trained p then m.dataIn p f (c == .stomp) else m)

/-- A credit mismatch (R100, R101): FS23, event 0x3130, and a scheduled retrain. -/
def Mach.creditMismatch (m : Mach) (p : Nat) : Mach :=
  ((m.raise 23 (.port p) 0 (quadOfPort p)).record 0x3130 (quadOfPort p) [p]).scheduleRetrain p

/-- The returns of a CREDIT frame (R100): into their pools. One that would pass its pool's size is not added there, while the frame's
other returns are, and it still counts as received (DESIGN CHOICE, log entry 59: R100 says what is raised and no more). -/
def Mach.creditIn (m : Mach) (p : Nat) (f : CreditFrame) : Mach :=
  let ret := (List.range 9).map (fun k => (k, if k = 8 then f.shared else f.cells.getD k 0))
  let l := m.link p
  let tooMany := ret.any (fun (k, n) => 0 < n && pool l.farSize k < pool l.avail k + n)
  let m := m.updLink p (fun l => { l with
    avail := ret.foldl (fun t (k, n) => if pool l.farSize k < pool l.avail k + n then t else addPool t k n) l.avail
    rcvdRet := ret.foldl (fun t (k, n) => Tbl.set t k ((pool t k + n) % 4294967296)) l.rcvdRet })
  let m := if tooMany then m.creditMismatch p else m
  if f.ackValid then m.ackIn p f.ackFsn else m

/-- CREDIT_FRAME (R94, R100). -/
def execCreditFrame (p : PortId) (f : CreditFrame) (rx : Rx) (s : State) : Result :=
  ok s (s.m.ctrlIn p f.wire rx (fun m => if (m.hear p).trained p then (m.hear p).creditIn p f else m))

/-- NAK_FRAME (R94): every FSN below NAK_FSN is acknowledged, and a replay is pending. -/
def execNakFrame (p : PortId) (f : NakFrame) (rx : Rx) (s : State) : Result :=
  ok s (s.m.ctrlIn p f.wire rx (fun m =>
    let m := (m.busyPort p).hear p
    if m.trained p then
      ((m.bump Reg.LNK.NAK_RX 1 p).ackIn p ((f.fsn + 65535) % 65536)).updLink p (fun l => { l with pendingNak := some f.fsn })
    else m))

/-- An AUDIT is compared (R101, R102): leaked cells and mismatches by pool; one audit may show both. LEAK_CELLS sticks at the largest
value of its field (DESIGN CHOICE, log entry 59). -/
def Mach.auditIn (m : Mach) (p : Nat) (f : AuditFrame) : Mach :=
  let l := m.link p
  let ds := (List.range 9).map (fun k =>
    toSigned 32 (sub32 (if k = 8 then f.shared else f.cells.getD k 0) (pool l.rcvdRet k)))
  let leak := (ds.map (fun d => d.toNat)).sum
  let m := m.put Reg.LNK.LEAK_CELLS (min 16383 leak) p
  let m := if f.rxMismatch || ds.any (fun d => decide (d < 0)) then m.creditMismatch p else m
  if m.get Reg.LNK.LEAK_LIMIT p < leak then
    ((m.raise 24 (.port p) leak (quadOfPort p)).record 0x3131 (quadOfPort p) [p, leak]).scheduleRetrain p
  else m

/-- AUDIT_FRAME (R101, R102). -/
def execAuditFrame (p : PortId) (f : AuditFrame) (rx : Rx) (s : State) : Result :=
  ok s (s.m.ctrlIn p f.wire rx (fun m => if m.trained p then m.auditIn p f else m))

/-- UNKNOWN_CONTROL_FRAME (R82): cut by the length in its byte 1, checked, and discarded whole. -/
def execUnknownControlFrame (p : PortId) (bytes : List Byte) (rx : Rx) (s : State) : Result :=
  ok s (match unlistedFrame bytes with
    | some body => s.m.ctrlIn p body rx (fun m => m.bump Reg.LNK.CTRL_DROP 1 p)
    | none => s.m)

/-! ### Training (R104 to R110) -/

/-- The neighbour that a TRAIN frame names, kept from the last full training. -/
def Mach.setNeighbour (m : Mach) (p serial port : Nat) : Mach :=
  (m.put64 Reg.LNK.NBR_SERIAL_LO Reg.LNK.NBR_SERIAL_HI serial p).put Reg.LNK.NBR_PORT port p

/-- A TRAIN frame names another neighbour than the last full training did (R109). -/
def Mach.otherNeighbour (m : Mach) (p : Nat) (f : TrainFrame) : Bool :=
  (m.link p).everTrained &&
  !(m.get64 Reg.LNK.NBR_SERIAL_LO Reg.LNK.NBR_SERIAL_HI p = f.serial && m.get Reg.LNK.NBR_PORT p = f.port)

/-- The lanes that a list of good-lane masks by rate gives, and 0 where it has none. -/
def TrainSt.goodNow (t : TrainSt) (rate : Nat) : Nat := t.goodAt.getD rate 0

/-- The logical lanes that both of two masks hold. -/
def bothLanes (a b : Nat) : Nat := (List.range 4).foldl (fun x k => if bit a k && bit b k then x + 2 ^ k else x) 0

/-- A round of requests for transmit taps waits to be sent, if the port adapts in ADAPT_FULL and has sent none at this rate (R66, R104
step 3). -/
def Mach.startEq (m : Mach) (p : Nat) : Mach :=
  match (m.link p).train with
  | some t =>
    if t.action = .full && t.eqRounds = 0 && (List.range 4).any (fun k => (m.lane (4 * p + k)).eqMode = 2) then
      m.queueCtrl p (.train (m.mkTrain p .eq .full t.reason t.good t.lanes t.rate))
    else m
  | none => m

/-- This end answers a REQ (R105, R108): it takes the action, keeps a request of its own aside (R107), lets the lanes that a width
change adds leave idle, and queues its ACK, behind its requests for taps. In a full training it moves to the common rate, no faster
than either end has gone down to, and reports the lanes that are good there (R104). -/
def Mach.respond (m : Mach) (p : PortId) (f : TrainFrame) (aside : Option (TrainAction × Nat × Nat)) : Mach :=
  let old := (m.link p).train
  let was := (old.map (·.rate)).getD 0
  let goodAt := (old.map (·.goodAt)).getD []
  let rate := chooseRate (max was f.chosenRate) (m.rateMask p) f.rates
  let good := if f.action = .full then goodAt.getD rate 0 else m.goodLanes p
  let lanes := if f.action = .full then chooseLanes (m.widthMax p) (bothLanes good f.goodLanes) else f.proposed
  let m := m.beginAction p
  let m := match f.action with
    | .full => m
    | .retrain => (m.put Reg.LNK.LINK_STATE 3 p).record 0x3103 (quadOfPort p) [p, f.reason]
    | .width => (m.put Reg.LNK.LINK_STATE 4 p).addLanes p f.proposed
  let m := m.updLink p (fun l => { l with
    ctrl := l.ctrl.filter (fun c => c.rank != 1)
    train := some { action := f.action, requester := false, reason := f.reason, lanes := lanes, sends := 0,
                    atc := m.clk, acked := false, good := good, goodAt := goodAt, rate := rate
                    eqRounds := if rate = was then (old.map (·.eqRounds)).getD 0 else 0, aside := aside }
    schedAt := none, schedExit := false })
  ((m.put Reg.LNK.RETRAIN_SCHED 0 p).startEq p).queueCtrl p (.train (m.mkTrain p .ack f.action f.reason good f.proposed 0))

/-- REQs have crossed (R107): the larger (serial number, port) leads and ignores the other; the follower puts its own
request aside and answers. In a full training the leader's rate is now known (R104). -/
def Mach.collide (m : Mach) (p : PortId) (f : TrainFrame) (t : TrainSt) : Mach :=
  let lead := f.serial < Config.serial || f.serial = Config.serial && f.port < p.val
  let m := ((m.bump Reg.LNK.COLLISIONS 1 p).record 0x3110 (quadOfPort p) [p, b2n lead]).put Reg.LNK.LEADER (b2n lead) p
  if !lead then m.respond p f (some (t.action, t.reason, t.lanes))
  else if t.action = .full then
    let rate := chooseRate (max t.rate f.chosenRate) (m.rateMask p) f.rates
    (m.updLink p (fun l => { l with train := some { t with rate := rate, good := t.goodNow rate } })).startEq p
  else m

/-- A port looped to itself answers its own REQ with an ACK (R110). -/
def Mach.answerSelf (m : Mach) (p : PortId) (f : TrainFrame) (t : TrainSt) : Mach :=
  let rate := chooseRate (max t.rate f.chosenRate) (m.rateMask p) f.rates
  let good := if f.action = .full then t.goodNow rate else t.good
  m.queueCtrl p (.train (m.mkTrain p .ack f.action f.reason good f.proposed 0))

/-- A REQ (R105, R107, R110). A collision needs a REQ of this end that has been sent. A REQ of full training takes a trained link down;
another REQ does nothing to a port in full training. -/
def Mach.trainReq (m : Mach) (p : PortId) (f : TrainFrame) : Mach :=
  let self := f.serial = Config.serial && f.port = p.val
  match (m.link p).train with
  | some t =>
    if self then m.answerSelf p f t
    else if f.action = .full && m.trained p then (m.linkDown p 6).startFull p
    else if f.action != .full && t.action = .full then m
    else if t.requester && !t.acked then
      (if 0 < t.sends then m.collide p f t else m.respond p f (some (t.action, t.reason, t.lanes)))
    else m.respond p f t.aside
  | none =>
    if f.action = .full then (if m.trained p then (m.linkDown p 6).startFull p else m)
    else if m.linkState p = 2 then m.respond p f none
    else m

/-- An ACK of a full training (R104 step 4): the requester chooses the width among the lanes good at both ends; with none it
goes down to the next common rate with a new REQ, and at 53.125 GBd training fails. -/
def Mach.trainAckFull (m : Mach) (p : PortId) (f : TrainFrame) (t : TrainSt) : Mach :=
  let rate := chooseRate t.rate (m.rateMask p) f.rates
  let good := t.goodNow rate
  let lanes := chooseLanes (m.widthMax p) (bothLanes good f.goodLanes)
  if lanes != 0 then
    let m := (m.updLink p (fun l => { l with train := some { t with rate := rate, good := good, lanes := lanes } })).startEq p
    (m.sendAlign p (m.txLanes p) true).queueDone p lanes rate
  else if 2 ≤ rate then m.trainFail p 1
  else
    let next := chooseRate (rate + 1) (m.rateMask p) f.rates
    let m := m.updLink p (fun l => { l with
      train := some { t with rate := next, good := t.goodNow next, sends := 0, eqRounds := 0, atc := m.clk } })
    m.queueCtrl p (.train (m.mkTrain p .req .full t.reason (t.goodNow next) t.lanes next))

/-- An ACK of this end's request (R105, R106): credits are reset, two ALIGN codewords a lane go out, and DONE follows: at once, or when
the lanes that a width change adds have locked to the far end's ALIGN (R108). -/
def Mach.trainAck (m : Mach) (p : PortId) (f : TrainFrame) : Mach :=
  match (m.link p).train with
  | some t =>
    if !t.requester || t.action != f.action then m
    else
      let m := m.creditReset p f
      if t.acked then m
      else if t.action = .full then m.trainAckFull p f t
      else
        let m := if t.action = .width then m.addLanes p t.lanes else m
        let m := m.sendAlign p (m.actionLanes p) true
        if (m.toAdd p).isEmpty || t.action != .width then m.queueDone p t.lanes 0
        else (m.updLink p (fun l => { l with train := some { t with acked := true, alignAt := some m.clk } }))
  | none => m

/-- A DONE completes the responder (R105, R106). -/
def Mach.trainDone (m : Mach) (p : PortId) (f : TrainFrame) : Mach :=
  match (m.link p).train with
  | some t =>
    if t.requester || t.action != f.action then m
    else
      let m := m.creditReset p f
      if t.action = .full then m.finishFull p f.chosenRate f.proposed else m.finishAction p f.proposed
  | none => m

/-- An EQ (R66, R104): the taps requested for the lanes this end sends, taken where ADAPT_FULL is in force. -/
def Mach.trainEq (m : Mach) (p : PortId) (f : TrainFrame) : Mach :=
  if m.linkState p != 1 then m
  else (List.range 4).foldl (fun a k =>
    let l := a.physTx p k
    match f.eqTaps[k]? with
    | some (pre, post) =>
      if (a.lane l).eqMode = 2 then
        (a.put Reg.LAN.C_PRE (min 16 pre) l).put Reg.LAN.C_POST (min 16 post) l
      else a
    | none => a) m

/-- The port is looped to its own module with LOOP_OK clear (R110): it stays down, in LOOPBACK, with FS28 and event 0x3111. -/
def Mach.loopback (m : Mach) (p : PortId) : Mach :=
  ((m.linkClear p 5).raise 28 (.port p) 0 (quadOfPort p)).record 0x3111 (quadOfPort p) [p]

/-- The PHASE of a TRAIN frame decides (Table 4-7). -/
def Mach.trainPhase (m : Mach) (p : PortId) (f : TrainFrame) : Mach :=
  match f.phase with
  | .req => m.trainReq p f
  | .ack => m.trainAck p f
  | .done => m.trainDone p f
  | .eq => m.trainEq p f

/-- A TRAIN frame whose CRC is good. -/
def Mach.trainIn (m : Mach) (p : PortId) (f : TrainFrame) : Mach :=
  let m := m.busyPort p
  let own := f.serial = Config.serial
  if own && !m.isSet Reg.LNK.LOOP_OK p then m.loopback p
  else
    let m := if own then m.updLink p (fun l => { l with looped := true }) else m
    if m.otherNeighbour p f then
      let m := ((m.raise 27 (.port p) f.port (quadOfPort p)).record 0x3142 (quadOfPort p) [p, f.serial, f.port]).setNeighbour
        p f.serial f.port
      if f.action = .full then m.trainPhase p f else (m.linkDown p 6).startFull p
    else (if f.action = .full then m.setNeighbour p f.serial f.port else m).trainPhase p f

/-- TRAIN_FRAME (R104 to R110). -/
def execTrainFrame (p : PortId) (f : TrainFrame) (rx : Rx) (s : State) : Result :=
  ok s (s.m.ctrlIn p f.wire rx (fun m => m.trainIn p f))

/-- One lane of a port is woken for a full training (R104, R74): it locks, or it does not; locked, it is good unless its skew exceeds
40 ns. -/
def Mach.wakeLane (m : Mach) (p l : Nat) (locked : Bool) (skew : Nat) : Mach × Bool :=
  let m := (m.setEi l false).put Reg.LAN.RATE_AT_14 2 l
  if !locked then ((m.put Reg.LAN.CDR_LOCK 0 l).put Reg.LAN.CW_LOCK 0 l, false)
  else
    let m := ((m.regain l).updLane l (fun y => { y with skew := skew })).put Reg.LAN.SKEW
      (min 65535 (max (m.get Reg.LAN.SKEW p) skew)) p
    if 40000 < skew then (m.excludeLane p l, false) else (m, true)

/-- The lanes of a port are woken for a full training (R104, steps 1 and 4): the enabled lanes that lock at 53.125 GBd, as a mask of
physical lanes. -/
def Mach.wakeLanes (m : Mach) (p : PortId) (x : LanesIn) : Mach × List Nat :=
  (List.range 4).foldl (fun (c : Mach × List Nat) i =>
    let l := 4 * p.val + i
    if !c.1.isSet Reg.LAN.LANE_EN l then c
    else
      let (m, good) := c.1.wakeLane p l (x.locked.getLsbD i) (x.skew.getD i 0)
      (m, if good then c.2 ++ [i] else c.2)) (m.put Reg.LAN.SKEW 0 p, [])

/-- The logical lanes among physical ones that a condition holds for. -/
def Mach.lanesWith (m : Mach) (p : Nat) (ls : List Nat) (c : Nat → Bool) : Nat :=
  ((ls.filter c).map (fun i => 2 ^ m.logicalOf (4 * p + i))).sum

/-- A full training from its start to the REQ (R104, steps 1 and 2; R98: pool sizes above 8,192 cells do not train). -/
def Mach.fullTraining (m : Mach) (p : PortId) (x : LanesIn) : Mach :=
  let m := if m.linkState p = 1 then m else m.startFull p
  if 8192 < m.vcSum p then m.trainFail p 2
  else
    let m := m.updEi p (fun _ => { driversOff := false, quietSince := m.clk })
    let on := (List.range 4).filter (fun k => m.isSet Reg.LAN.LANE_EN (m.physTx p k))
    let m := (m.sendBurst p on).sendAlign p on false
    let (m, ls) := m.wakeLanes p x
    let good := m.lanesWith p ls (fun _ => true)
    if good = 0 then m.trainFail p 1
    else
      let at0 := m.lanesWith p ls (fun i => x.lock0.getLsbD i)
      let at1 := m.lanesWith p ls (fun i => x.lock1.getLsbD i)
      let m := m.updLink p (fun l => { l with
        train := some { action := .full, requester := true, reason := 6, lanes := good, sends := 0, atc := m.clk,
                        acked := false, good := good, goodAt := [at0, at1, good] } })
      m.queueCtrl p (.train (m.mkTrain p .req .full 6 good good 0))

/-- FULL_TRAINING (R104): of a port that is enabled and down or begun, in a mode whose ports train. -/
def execFullTraining (p : PortId) (lanes : LanesIn) (s : State) : Result :=
  let m := s.m
  ok s (if m.mayTrain p && m.linkState p ≤ 1 && (m.link p).train.isNone then m.fullTraining p lanes else m)

/-- TRAIN_RETRY_EXPIRY (R111): a port that is down, or in LOOPBACK, with PORT_EN 1 tries again TRAIN_RETRY after it went down. -/
def execTrainRetryExpiry (p : PortId) (lanes : LanesIn) (s : State) : Result :=
  let m := s.m
  ok s (if m.mayTrain p && (m.linkState p = 0 || m.linkState p = 5) then
    (m.elapseTo ((m.link p).downAt + m.trainRetry p)).fullTraining p lanes
  else m)

/-- DONE_TIMEOUT (R105): 10 µs after its ACK the responder takes the DONE as lost and starts its own retrain, reason 7. In a full
training it first takes its port as trained, at the rate and on the lanes that both ends reported (DEDUCED, log entry 59). -/
def execDoneTimeout (p : PortId) (s : State) : Result :=
  let m := s.m
  ok s (match (m.link p).train with
    | some t =>
      if !t.requester && t.acked then
        let m := m.elapseTo (t.atc + 10 * Config.usCycles)
        (if t.action = .full then m.finishFull p t.rate t.lanes else m).startAction p .retrain 7 0
      else m
    | none => m)

/-- TRAIN_REQ_RESEND (R109): a REQ that has been sent goes again after 10 µs with no ACK; a retrain or width change sent three times takes
the link down. -/
def execTrainReqResend (p : PortId) (s : State) : Result :=
  let m := s.m
  ok s (match (m.link p).train with
    | some t =>
      if t.requester && !t.acked && 0 < t.sends then
        let m := m.elapseTo (t.atc + 10 * Config.usCycles)
        if 3 ≤ t.sends && t.action != .full then m.linkDown p 6
        else
          let m := m.updLink p (fun l => { l with
            ctrl := l.ctrl.filter (fun c => c.rank != 1)
            train := some { t with atc := m.clk } })
          m.queueCtrl p (.train (m.mkTrain p .req t.action t.reason t.good t.lanes t.rate))
      else m
    | none => m)

/-- LANE_ADD_TIMEOUT (R108): lanes that have not locked 1 µs after the ALIGN are left out, and the width change goes on to its DONE with
the widest set among those that did, by their CODEWORD_RECEIVEs or as the operand says. -/
def execLaneAddTimeout (p : PortId) (locked : BitVec 4) (s : State) : Result :=
  let m := s.m
  ok s (match (m.link p).train with
    | some t =>
      match t.alignAt with
      | some a => if m.adding p then ((m.lockAdded p locked).elapseTo (a + Config.usCycles)).addDone p else m
      | none => m
    | none => m)

/-! ### The sender's frame boundary (R94) -/

/-- A pending ACK is applied (R94). -/
def Mach.applyAck (m : Mach) (p : Nat) : Mach :=
  match (m.link p).pendingAck with
  | none => m
  | some a =>
    let una := (a + 1) % 65536
    let next := m.get Reg.LNK.NEXT_FSN p
    let m := m.put Reg.LNK.UNA una p
    m.updLink p (fun l => { l with
      replay := l.replay.filter (fun e => !behind16 e.fsn una)
      rounds := 0, limitRuns := 0, pendingAck := none
      timer := if una = next then none else some (m.clk + m.replayTimeout p)
      rp := match l.rp with
        | some r =>
          let r := if behind16 r una then una else r
          if r = next then none else some r
        | none => none })

/-- The replay limit (R97, R109): FS22 and a retrain at once, or the link goes down where four were made without
progress. -/
def Mach.replayLimit (m : Mach) (p : PortId) : Mach :=
  let m := (m.raise 22 (.port p) 0 (quadOfPort p)).record 0x3120 (quadOfPort p) [p]
  if 4 ≤ (m.link p).limitRuns then m.linkDown p 6
  else (m.updLink p (fun l => { l with limitRuns := l.limitRuns + 1 })).startAction p .retrain 2 0

/-- A pending NAK, or an expired replay timer, starts a replay from UNA (R94, R95); an idle block goes first. -/
def Mach.applyNak (m : Mach) (p : PortId) : Mach :=
  match (m.link p).pendingNak with
  | none => m
  | some _ =>
    let m := (m.sendIdle p).updLink p (fun l => { l with pendingNak := none })
    let una := m.get Reg.LNK.UNA p
    if una = m.get Reg.LNK.NEXT_FSN p then m
    else
      let m := (m.bump Reg.LNK.REPLAYS 1 p).updLink p (fun l => { l with
        rp := some una, rounds := l.rounds + 1, timer := some (m.clk + m.replayTimeout p) })
      if max 1 (m.get Reg.LNK.REPLAY_LIMIT p) < (m.link p).rounds then m.replayLimit p else m

/-- The credits, ACK_FSN and pool sizes that a TRAIN frame carries as it is sent (R105, Table 4-7). -/
def Mach.fillTrain (m : Mach) (p : Nat) (f : TrainFrame) : TrainFrame :=
  let sizes := m.poolSizes p
  let adv := fun k => pool sizes k - pool (m.link p).occupied k
  { f with
    ackFsn := (m.get Reg.LNK.EXPECTED p + 65535) % 65536, ackValid := (m.link p).ackValid
    credits := (List.range 8).map adv, shared := adv 8
    poolSize := (List.range 8).map (pool sizes), poolShared := pool sizes 8 }

/-- This end's half of the credit reset, as its ACK or DONE goes (R105): the pool sizes in force from now on, and nothing
left to return. -/
def Mach.advertise (m : Mach) (p : Nat) : Mach :=
  let sizes := m.poolSizes p
  (m.put Reg.LNK.SHARED_CELLS (pool sizes 8) p).updLink p (fun l => { l with
    size := sizes, toReturn := [], cumRet := [], ackDue := none, freeDue := none })

/-- An EQ goes with the taps it requests; the next round waits before the ACK or the DONE, up to 200 rounds (R66, R104 step 3). -/
def Mach.sendEq (m : Mach) (p : PortId) (f : TrainFrame) : Mach :=
  let (n, m) := m.fresh
  let taps := (List.range 4).map (fun k => (Config.eqRequest n (2 * k) % 17, Config.eqRequest n (2 * k + 1) % 17))
  let m := m.sendFrame p (.train { m.fillTrain p f with eqTaps := taps })
  match (m.link p).train with
  | some t =>
    m.updLink p (fun l => { l with
      train := some { t with eqRounds := t.eqRounds + 1 }
      ctrl := if t.eqRounds + 1 < 200 && Config.eqMore n then .train f :: l.ctrl else l.ctrl })
  | none => m

/-- A TRAIN frame goes (R105): an ACK is followed by two ALIGN codewords a lane; the requester is complete with its DONE. -/
def Mach.sendTrain (m : Mach) (p : PortId) (f : TrainFrame) : Mach :=
  if (f.phase = .ack || f.phase = .done) && 8192 < m.vcSum p then
    ((m.raise 25 (.port p) 2 (quadOfPort p)).record 0x3102 (quadOfPort p) [p, 2]).linkDown p 6
  else
    let m := m.busyPort p
    match f.phase with
    | .req => (m.sendFrame p (.train (m.fillTrain p f))).updLink p (fun l => { l with
        train := l.train.map (fun t => { t with atc := m.clk, sends := t.sends + 1 }) })
    | .eq => m.sendEq p f
    | .ack =>
      let m := ((m.sendFrame p (.train (m.fillTrain p f))).advertise p).sendAlign p (m.actionLanes p) true
      m.updLink p (fun l => { l with
        train := l.train.map (fun t => if t.requester then t else { t with atc := m.clk, acked := true }) })
    | .done =>
      let m := (m.sendFrame p (.train (m.fillTrain p f))).advertise p
      if f.action = .full then m.finishFull p f.chosenRate f.proposed else m.finishAction p f.proposed

/-- A CREDIT frame is made of everything freed since the last (R93). -/
def Mach.sendLinkCredit (m : Mach) (p : Nat) : Mach :=
  let l := m.link p
  let f : CreditFrame :=
    { ackFsn := (m.get Reg.LNK.EXPECTED p + 65535) % 65536, ackValid := l.ackValid
      shared := pool l.toReturn 8, cells := (List.range 8).map (pool l.toReturn) }
  let m := m.updLink p (fun l => { l with
    cumRet := l.toReturn.foldl (fun t (k, n) => Tbl.set t k ((pool t k + n) % 4294967296)) l.cumRet
    toReturn := [], ackDue := none, freeDue := none })
  m.sendFrame p (.credit f)

/-- A control frame goes (R36, R87, R88, R92, R101, R133): what it carries is taken as it is sent. The first AUDIT_SEQ is 0 (DESIGN
CHOICE, log entry 59). -/
def Mach.sendCtrl (m : Mach) (p : PortId) (c : Ctrl) : Mach :=
  let q := quadOfPort p
  match c with
  | .train f => m.sendTrain p f
  | .nak r =>
    let m := ((m.busyPort p).bump Reg.LNK.NAK_TX 1 p).updLink p (fun l => { l with nakAt := some m.clk })
    m.sendFrame p (.nak { fsn := m.get Reg.LNK.EXPECTED p, reason := r })
  | .credit => m.sendLinkCredit p
  | .timeReq =>
    let n := ((m.timPort p).exch + 1) % 256
    let m := m.updTim p (fun x => { x with exch := n, t1 := some (m.hgt q), asym := m.get Reg.TIM.ASYM p })
    m.sendTimeFrame p (.timeReq { serial := Config.serial, port := p, view := m.ownView, exch := n, t1 := m.hgt q,
                                  t2 := 0, t3 := 0 })
  | .timeRsp f t2 =>
    m.sendTimeFrame p (.timeRsp { serial := Config.serial, port := p, view := m.ownView, exch := f.exch, t1 := f.t1,
                                  t2 := t2, t3 := m.hgt q })
  | .audit =>
    let l := m.link p
    let m := (m.put Reg.LNK.AUDIT_DEFERRED 0 p).updLink p (fun l => { l with
      auditSeq := (l.auditSeq + 1) % 65536, rxMismatch := false })
    m.sendFrame p (.audit { seq := l.auditSeq, shared := pool l.cumRet 8, cells := (List.range 8).map (pool l.cumRet)
                            rxMismatch := l.rxMismatch })
  | .beacon =>
    let b := m.buildBeacon p
    (m.updRp p (fun x => { x with beaconSeq := (x.beaconSeq + 1) % 256 })).sendFrame p (.beacon b)

/-- The control frame that goes next: the least rank, and of equals the first queued (R88). -/
def nextCtrl (cs : List Ctrl) : Option Ctrl :=
  match cs with
  | [] => none
  | c :: r => some (r.foldl (fun a b => if b.rank < a.rank then b else a) c)

/-- A replayed copy goes (R94, R96): it keeps its FSN and consumes no credit; a stomp CRC it ends with counts (Table 4-12). -/
def Mach.sendCopy (m : Mach) (p : Nat) (r : Nat) : Mach :=
  let next := m.get Reg.LNK.NEXT_FSN p
  let after := (r + 1) % 65536
  let m := (m.busyPort p).updLink p (fun l => { l with rp := if after = next then none else some after, lastData := m.clk })
  match (m.link p).replay.find? (fun e => e.fsn == r) with
  | none => m
  | some e =>
    let m := m.bump Reg.LNK.REPLAY_FRAMES 1 p
    (if e.stomp then m.bump Reg.LNK.STOMPS 1 p else m).sendFrame p (.data
      { vc := e.vc, shared := e.shared, replay := true, fsn := e.fsn, pktLen := pktLen e.pkt, pkt := e.pkt } e.stomp)

/-- A packet that output `p` may choose, with the hop it would take there. -/
structure VcOffer where
  sel  : Selected
  home : Nat
  kind : HopKind
  dim  : Nat
  vc   : Nat
  late : Bool
  deriving DecidableEq, Repr

/-- The packets eligible on an output: those selected for it, and those also eligible there on their escape hop (R131),
whose VC downstream has a pool that holds their cells (R138) and whose way to the port is open (R14, R24). -/
def Mach.offers (m : Mach) (p : Nat) : List VcOffer :=
  let own := (m.rp p).sel.map (fun x => { sel := x, home := p, kind := x.hop, dim := x.dim, vc := x.vc, late := false : VcOffer })
  let also := m.rte.ports.flatMap (fun (o, y) => y.sel.filterMap (fun x =>
    match x.alsoOn with
    | some (t, k, d, v) => if t = p then some { sel := x, home := o, kind := k, dim := d, vc := v, late := true } else none
    | none => none))
  (own ++ also).filter (fun x =>
    let n := cellsOf x.sel.arr.len
    m.pathReady (ingQuad x.sel.arr.from_) x.sel.arr.path ≤ m.clk &&
    (n ≤ pool (m.link p).avail (poolOf x.vc false) || n ≤ pool (m.link p).avail 8))

/-- The order of R139 within an output: TC3 first, then the round robin's TC, the escape VC, the oldest INJ_TS. -/
def Mach.offerKey (m : Mach) (p : Nat) (x : VcOffer) : Nat :=
  let tc := x.sel.arr.pkt.hdr.tc
  let turn := if tc = 3 then 0 else 1 + (tc + 3 - (m.rp p).rr % 3) % 3
  (turn * 2 + x.vc % 2) * 4294967296 + (4294967295 - m.ageOf (quadOfPort p) x.sel.arr.pkt)

/-- The offer an output grants. -/
def Mach.bestOffer (m : Mach) (p : Nat) : Option VcOffer :=
  match m.offers p with
  | [] => none
  | x :: r => some (r.foldl (fun a b => if m.offerKey p b < m.offerKey p a then b else a) x)

/-- A granted packet leaves (R94, R99, R132, R139): cells are taken from the private pool if it holds them, else from the
shared one; the frame is kept for replay; its input cells are freed. -/
def Mach.sendNew (m : Mach) (p : PortId) (x : VcOffer) : Mach :=
  let a := x.sel.arr
  let n := cellsOf a.len
  let pv := poolOf x.vc false
  let k := if n ≤ pool (m.link p).avail pv then pv else 8
  let fsn := m.get Reg.LNK.NEXT_FSN p
  let pkt := { a.pkt with hdr := hopHeader a.pkt.hdr x.kind x.dim x.vc }
  let m := m.put Reg.LNK.NEXT_FSN ((fsn + 1) % 65536) p
  let m := m.updLink p (fun l => { l with
    avail := subPool l.avail k n
    timer := if l.replay.isEmpty then some (m.clk + m.replayTimeout p) else l.timer
    replay := l.replay ++ [{ fsn := fsn, vc := x.vc, shared := k == 8, cells := n, pkt := pkt }]
    lastData := m.clk })
  let m := (m.busyPort p).freeArrival a
  let tc := a.pkt.hdr.tc
  let m := if tc = 3 then m else m.updRp p (fun y => { y with rr := (tc + 1) % 3 })
  let m := if x.late then
      (m.bump Reg.RTE.ESC_FALLBACK).crossDies (ingQuad a.from_) (m.diePath (ingQuad a.from_) (quadOfPort p) x.vc)
    else m
  (m.countHop p a.pkt x.kind x.dim x.vc x.sel.entry).sendFrame p
    (.data { vc := x.vc, shared := k == 8, replay := false, fsn := fsn, pktLen := a.len, pkt := pkt } false)

/-- New packets are tried in the order of R139; one that is past LIFETIME at its grant is discarded (R140). `fuel` bounds
the tries by the packets there are. -/
def Mach.tryNew (p : PortId) : Nat → Mach → Mach
  | 0, m => m
  | fuel + 1, m =>
    match m.bestOffer p with
    | none => m
    | some x =>
      let m := m.updRp x.home (fun y => { y with sel := y.sel.filter (fun z => z.arr.id != x.sel.arr.id) })
      if m.expired (quadOfPort p) x.sel.arr.pkt then Mach.tryNew p fuel (m.discardLifetime x.sel.arr)
      else m.sendNew p x

/-- Control frames that wait and may no longer go are dropped: time frames while exchanges pause or are off (R38, Table 2-5), beacons
while FF_EN is 0 (R133, Table 5-8). -/
def Mach.dropCtrl (m : Mach) (p : Nat) : Mach :=
  let time := m.exchanges p
  let beacon := m.isSet Reg.RTE.FF_EN
  m.updLink p (fun l => { l with ctrl := l.ctrl.filter (fun c => (c.rank != 4 || time) && (c.rank != 6 || beacon)) })

/-- What goes at a frame boundary (R94, R88, R105): a control frame; else, on an UP port, a replayed copy or a new frame, neither of them
between an exit from electrical idle and the retrain that was scheduled (R102). A training port sends TRAIN frames only, and so does
an end that has sent its ACK. -/
def Mach.sendNext (m : Mach) (p : PortId) : Mach :=
  let m := m.dropCtrl p
  let l := m.link p
  let only := m.linkState p = 1 || (match l.train with | some t => t.acked && !t.requester | none => false)
  let cs := if only then l.ctrl.filter (fun c => c.rank == 1) else l.ctrl
  match nextCtrl cs with
  | some c => (m.updLink p (fun l => { l with ctrl := l.ctrl.erase c })).sendCtrl p c
  | none =>
    if m.linkState p != 2 || l.schedExit then m
    else match l.rp with
      | some r => m.sendCopy p r
      | none => Mach.tryNew p ((m.offers p).length) m

/-- FRAME_BOUNDARY (R94, R97, R109, R139, R140). -/
def execFrameBoundary (p : PortId) (s : State) : Result :=
  let m := s.m
  ok s (if (m.ei p).driversOff || m.linkState p = 0 || m.linkState p = 5 then m
    else if m.linkState p = 2 then ((m.applyAck p).applyNak p).sendNext p
    else m.sendNext p)

/-! ### Credits, NAKs, the replay timer, audits -/

/-- CREDIT_SEND (R93): a full batch, or ACK_DELAY after the oldest accepted frame or freed cell that waits. -/
def execCreditSend (p : PortId) (s : State) : Result :=
  let m := s.m
  let l := m.link p
  let batch := max 1 (m.get Reg.LNK.CREDIT_BATCH p)
  ok s (if m.linkState p != 2 then m
    else if l.toReturn.any (fun c => batch ≤ c.2) then m.queueCtrl p .credit
    else match l.ackDue, l.freeDue with
      | some a, some b => (m.elapseTo (min a b)).queueCtrl p .credit
      | some a, none => (m.elapseTo a).queueCtrl p .credit
      | none, some b => (m.elapseTo b).queueCtrl p .credit
      | none, none => m)

/-- NAK_RESEND_EXPIRY (R92). -/
def execNakResendExpiry (p : PortId) (s : State) : Result :=
  let m := s.m
  ok s (match (m.link p).nakAt with
    | some t =>
      let m := m.elapseTo (t + m.nakResend p)
      (m.updLink p (fun l => { l with nakAt := some m.clk })).queueCtrl p (.nak 4)
    | none => m)

/-- REPLAY_TIMEOUT (R95): replay starts from UNA at the next frame boundary. -/
def execReplayTimeout (p : PortId) (s : State) : Result :=
  let m := s.m
  ok s (match (m.link p).timer with
    | some t => (m.elapseTo t).updLink p (fun l => { l with timer := none, pendingNak := some (m.get Reg.LNK.UNA p) })
    | none => m)

/-- An audit falls due on a trained port (R101, R103): deferred during a retrain or width change. -/
def Mach.audit (m : Mach) (p : Nat) : Mach :=
  match m.linkState p with
  | 2 => m.queueCtrl p .audit
  | 3 => ((m.put Reg.LNK.AUDIT_DEFERRED 1 p).defer 8 p (quadOfPort p)).record 0x3133 (quadOfPort p) [p]
  | 4 => ((m.put Reg.LNK.AUDIT_DEFERRED 1 p).defer 8 p (quadOfPort p)).record 0x3133 (quadOfPort p) [p]
  | _ => m

/-- AUDIT_TICK (R101): under AUDIT_EN. -/
def execAuditTick (p : PortId) (s : State) : Result :=
  ok s (if s.m.isSet Reg.LNK.AUDIT_EN p then s.m.audit p else s.m)

/-- AUDIT_NOW (R101, R103). -/
def execAuditNow (r : Requester) (s : State) : Result :=
  ok s (s.m.action r Reg.LNK.AUDIT_NOW 1 (fun m i => m.audit i))

/-- SCHEDULED_RETRAIN_START (R102): after 2 µs without a data frame, at once after an exit from electrical idle, or 10 ms after
scheduling; not while the port is in electrical idle. -/
def execScheduledRetrainStart (p : PortId) (s : State) : Result :=
  let m := s.m
  ok s (match (m.link p).schedAt with
    | some t =>
      if m.linkState p = 2 && !(m.ei p).driversOff then
        let m := if (m.link p).schedExit then m
          else m.elapseTo (min ((m.link p).lastData + 2 * Config.usCycles) (t + 10 * Config.msCycles))
        m.startAction p .retrain 1 0
      else m
    | none => m)

/-- REINJECTION_COMPLETE (R112): the replay buffer has emptied; event 0x3141 with REINJECTED. -/
def execReinjectionComplete (p : PortId) (s : State) : Result :=
  let m := s.m
  let l := m.link p
  ok s (if 0 < l.reinjTotal && l.reinject.isEmpty then
    (m.updLink p (fun l => { l with reinjTotal := 0 })).record 0x3141 (quadOfPort p) [p, l.reinjTotal]
  else m)

/-! ### Port commands (R115) -/

/-- RETRAIN (R105), ignored while a link action is in progress or the port is not UP. -/
def execRetrain (r : Requester) (s : State) : Result :=
  ok s (s.m.actionIf r Reg.LNK.RETRAIN 1 (fun m i => m.linkState i = 2) (fun m i => m.startAction i .retrain 0 0))

/-- TARGET_LANES names a set that a port can have (Table 4-12). -/
def targetOk (v : Nat) : Bool := v = 15 || v = 3 || v = 12 || v = 1 || v = 2 || v = 4 || v = 8

/-- WIDTH_CHANGE (R108), ignored while one is in progress, and recorded as ignored for any other TARGET_LANES. -/
def execWidthChange (r : Requester) (s : State) : Result :=
  ok s (s.m.actionIf r Reg.LNK.WIDTH_CHANGE 1
    (fun m i => m.linkState i = 2 && targetOk (m.get Reg.LNK.TARGET_LANES i))
    (fun m i => m.startAction i .width 5 (m.get Reg.LNK.TARGET_LANES i)))

/-- AUTO_WIDTH_TRIAL (R108): a port below WIDTH_MAX tries its excluded lanes. -/
def execAutoWidthTrial (p : PortId) (s : State) : Result :=
  let m := s.m
  let want := chooseLanes (m.widthMax p) ((List.range 4).foldl (fun a k =>
    if m.isSet Reg.LAN.LANE_EN (m.physOf p k) then a + 2 ^ k else a) 0)
  ok s (if m.linkState p = 2 && m.isSet Reg.LNK.AUTO_WIDTH_UP p && m.get Reg.LNK.WIDTH p < m.widthMax p &&
      m.get Reg.LNK.WIDTH p < popCount want then m.startAction p .width 4 want else m)

/-- A write of 1 to PORT_EN releases a contained port (Table 16-3). -/
def Mach.uncontainPort (m : Mach) (p : Nat) : Mach :=
  let f := Reg.FLT.PORT_CONT (p / 32 % 4)
  if bit (m.get f) (p % 32) then m.put f (m.get f - 2 ^ (p % 32)) else m

/-- PORT_EN takes a value (R111, R112, R115): clearing it takes the link down with failover; setting it starts full training
in a mode whose ports train. -/
def Mach.portEnable (m : Mach) (i : Nat) (on : Bool) : Mach :=
  let p : PortId := Fin.ofNat 128 i
  let m := if on then m.uncontainPort i else m
  if on then (if m.mayTrain i && m.linkState i = 0 then m.startFull i else m)
  else if m.linkState i = 5 then (m.put Reg.LNK.LINK_STATE 0 i).endCondition 28 (.port p) else m.linkDown p 0

/-- PORT_EN. -/
def execPortEn (r : Requester) (on : Bool) (s : State) : Result :=
  ok s (s.m.setting r Reg.LNK.PORT_EN (b2n on) (fun m i => m.portEnable i on))

/-- WIDTH_MAX takes a value (R114, R115): a trained port is judged narrow by it, and one below the current width starts a width change
at once. -/
def Mach.widthMaxSet (m : Mach) (i : Nat) : Mach := (if m.trained i then m.judgeWidth i else m).narrow i

/-- WIDTH_MAX. -/
def execWidthMax (r : Requester) (v : Fin 8) (s : State) : Result :=
  ok s (s.m.setting r Reg.LNK.WIDTH_MAX v Mach.widthMaxSet)

/-- LINK_CNT_CLR (R115). -/
def execLinkCntClr (r : Requester) (s : State) : Result :=
  ok s (s.m.action r Reg.LNK.CNT_CLR 1 (fun m i => m.clear
    [Reg.LNK.CRC_ERR, Reg.LNK.NAK_TX, Reg.LNK.NAK_RX, Reg.LNK.REPLAYS, Reg.LNK.REPLAY_FRAMES, Reg.LNK.DUP_DROP,
     Reg.LNK.GAP_DROP, Reg.LNK.CTRL_DROP, Reg.LNK.RETRAINS, Reg.LNK.WIDTH_CHANGES, Reg.LNK.COLLISIONS,
     Reg.LNK.STOMPS, Reg.LNK.REINJECTED] i))

end Sys2Proof.Machine
end

