-- ==== Sys2Proof/Machine/Match.lean ====
section
/-!
DEFINITION. The commands of tag matching (file 09): SEND, RECV, RECV_CANCEL, the two-sided packets, MESSAGE_READY,
RECV_RESUME, and the match domains.
-/

namespace Sys2Proof.Machine

/-- SEND (R244, R246). -/
def execSend (ring : Nat) (e : Entry) (s : State) : Result :=
  ok s (s.m.runEntry ring e 0x20 (fun m seq w => m.startRsx ring seq w e))

/-- The receive that a RECV entry asks for. -/
def recvOf (ring seq : Nat) (w : WorkRing) (e : Entry) : Option Recv :=
  match e.body with
  | .recv src d bits ignore addr len =>
    some { ring := ring, seq := seq, workId := e.workId, order := 0, domain := d
           src := if bit e.arg 0 then none else some src, bits := bits, ignore := ignore, addr := addr, cap := len
           pd := w.pd, func := w.func }
  | _ => none

/-- A RECV reaches its MTE: its domain must be ACTIVE and of the ring's function (R230); at the posted-receive limit the
TXE holds it and stops its ring's scan, with FS84 and event 0x7041 (R250). -/
def Mach.takeRecv (m : Mach) (r : Recv) (w : WorkRing) : Mach :=
  match m.domain r.domain with
  | none => m.finishWork r.ring r.seq 0x0B 3
  | some d =>
    let q := quadOfSlot w.slot
    let bits := ignoreMask d.commBits r.ignore
    if !d.active || d.slot != w.slot || d.func != w.func then m.finishWork r.ring r.seq 0x0B 3
    else if 4194304 ≤ m.postedIn q && (m.unexpectedFor { r with ignore := bits }).isEmpty then
      let m := (m.updWr r.ring (fun w => { w with recvHold := true })).stopScan r.ring w
      let m := { m with mat := { m.mat with heldRecv := m.mat.heldRecv ++ [r] } }
      ((m.raise 84 .none r.domain q).record 0x7041 q [w.slot, r.domain]).pumpTxe w.slot w.txe
    else m.post r

/-- RECV (R234, R250). -/
def execRecv (ring : Nat) (e : Entry) (s : State) : Result :=
  ok s (s.m.runEntry ring e 0x21 (fun m seq w =>
    match recvOf ring seq w e with
    | some r => m.takeRecv r w
    | none => m.finishWork ring seq 0x0B 3))

/-- RECV_CANCEL (R254): DATA 1 where the RECV was still posted. -/
def execRecvCancel (ring : Nat) (e : Entry) (s : State) : Result :=
  ok s (s.m.runEntry ring e 0x22 (fun m seq _ =>
    match e.body with
    | .cancel workId target =>
      let fn := (m.wr target).map (fun w => (w.slot, w.func))
      let hit := m.mat.posted.find? (fun r => r.workId == workId && r.ring == target &&
        (m.domain r.domain).map (fun d => (d.slot, d.func)) == fn)
      (match hit with
        | some r =>
          let slot := match fn with | some (x, _) => x | none => 0
          (((m.unpost r).bump Reg.MAT.CANCELS 1 slot).finishWork r.ring r.seq 0x08 0).finishWork ring seq 0 0 1
        | none => m.finishWork ring seq 0 0 0)
    | _ => m.finishWork ring seq 0x0B 3))

/-! ### Packets -/

/-- A two-sided message enters matching with its first packet (R241, R242): ready at once where every lower MSN has been
passed, else HELD. -/
def Mach.enterMat (m : Mach) (k : Packet) (h : RsxHdr) : Mach :=
  let cx := pktCx k
  match m.rxOf cx, h.op with
  | some r, .match_ d bits e mant len =>
    let (id, m) := m.newId
    let x := { m.newMat k h d bits e mant len r with id := id }
    let m := { m with mat := { m.mat with msgs := m.mat.msgs ++ [x] } }
    let m := m.updRxMsg cx h.msn (fun y => { y with mat := some id })
    let m := if x.rts then m.bump Reg.MAT.RTS_MSGS 1 (pktSlot k) else m.bump Reg.MAT.EAGER_MSGS 1 (pktSlot k)
    if h.msn = r.passMsn then m.matReady id else m.bump Reg.MAT.ORDER_HELD 1 (pktSlot k)
  | _, _ => m

/-- The message of matching that a packet's slot holds. -/
def Mach.matOf (m : Mach) (cx msn : Nat) : Option MatMsg :=
  ((m.rxOf cx).bind (fun r => r.msgs.find? (fun (y : RxMsg) => y.msn == msn))).bind (fun y => y.mat.bind m.matMsg)

/-- EAGER_PACKET (R245, R467): placed in its bound receive, stored while unbound, discarded where its message is gone or
faulted. -/
def execEagerPacket (k : Packet) (s : State) : Result :=
  ok s (s.m.arrive k 9 (fun m h x first =>
    let cx := pktCx k
    let inst := m.rxInst cx
    let n := k.payload.length
    let m := if first then m.enterMat k h else m
    match m.matOf cx h.msn with
    | none => m.finPsn cx inst h.psn
    | some y =>
      if h.poison then
        let m := m.updMat y.id (fun y => { y with poison := true })
        (m.matTook y.id n 0 false cx inst h.psn).poisonRx cx inst h.msn h.psn 9
      else if x.fault.isSome then m.matTook y.id n 0 true cx inst h.psn
      else match y.st with
        | .bound r => m.matPlace y.id r h.offset k.payload true cx inst h.psn
        | _ => (m.updMat y.id (fun y => { y with store := Tbl.set y.store h.offset k.payload })).finPsn cx inst h.psn))

/-- RTS_PACKET (R246). -/
def execRtsPacket (k : Packet) (s : State) : Result :=
  ok s (s.m.arrive k 0x0A (fun m h _ first =>
    let cx := pktCx k
    let inst := m.rxInst cx
    if h.poison then m.poisonRx cx inst h.msn h.psn 0x0A
    else (if first then m.enterMat k h else m).finPsn cx inst h.psn))

/-- A pending SEND is pulled (R246): its PULL_RSP message, once the whole source range has translated. -/
def Mach.pullSend (m : Mach) (p : PendSend) (msn len : Nat) : Mach :=
  let queue := (m.wr p.ring).map (fun w => w.schq % 16384)
  let (uid, m) := (m.dropSend p.uid).newId
  let x : TxMsg :=
    { uid := uid, kind := 0x0C, total := len, count := pktCount 0x0C len, tc := 1
      flow := match m.workAt p.ring p.seq with
        | some w => entryFlow p.ring w.entry | none => m.respFlow (cxSlot p.cx) (cxPeer p.cx)
      minOnly := match m.workAt p.ring p.seq with | some w => bit w.entry.flags 6 | none => false
      op := .pullRsp msn, queue := queue, owner := .work p.ring p.seq, src := .host p.pd p.func p.addr 2 true }
  m.addMsg p.cx x

/-- PULL_REQ_PACKET (R246, R247). -/
def execPullReqPacket (k : Packet) (s : State) : Result :=
  ok s (s.m.arrive k 0x0B (fun m h _ _ =>
    let cx := pktCx k
    let inst := m.rxInst cx
    let slot := pktSlot k
    if h.poison then m.poisonRx cx inst h.msn h.psn 0x0B
    else match h.op with
      | .pullReq n len abort =>
        let p := m.mat.sends.find? (fun (p : PendSend) => p.cx == cx && p.msn == some n)
        let m := match p, abort with
          | some p, true => (m.dropSend p.uid).finishWork p.ring p.seq 0x08 0
          | some p, false => (match m.needTx slot k.hdr.src with
              | (m, true) => m.pullSend p h.msn len
              | (m, false) => m)
          | none, true => m
          | none, false =>
            ((m.bump Reg.MAT.PULL_ABORTS 1 slot).record 0x7044 (quadOfSlot slot) [slot, k.hdr.src, n]).faultRx cx h.msn
              0x08 0 true
        m.finPsn cx inst h.psn
      | _ => m.finPsn cx inst h.psn))

/-- PULL_RSP_PACKET (R246). -/
def execPullRspPacket (k : Packet) (s : State) : Result :=
  ok s (s.m.arrive k 0x0C (fun m h _ _ =>
    let cx := pktCx k
    let inst := m.rxInst cx
    match h.op with
    | .pullRsp req =>
      if h.poison then m.poisonRx cx inst h.msn h.psn 0x0C
      else match m.pullOf cx req with
        | some y =>
          (match y.st with
            | .bound r => m.matPlace y.id r h.offset k.payload true cx inst h.psn
            | _ => m.finPsn cx inst h.psn)
        | none => m.finPsn cx inst h.psn
    | _ => m.finPsn cx inst h.psn))

/-- MESSAGE_READY (R241): the message at the head of the order is matched. -/
def execMessageReady (cx msn : Nat) (s : State) : Result :=
  let m := s.m.passOrder cx
  ok s (match m.rxOf cx with
    | none => m
    | some r =>
      match m.heldAt cx r.inst msn with
      | some x => if r.passMsn = msn then (m.matReady x.id).passOrder cx else m
      | none => m)

/-- RECV_RESUME (R250): the oldest RECV held in a quadrant is posted once an entry is free, and its ring scans on. -/
def execRecvResume (q : Quad) (s : State) : Result :=
  let m := s.m
  ok s (match m.mat.heldRecv.find? (fun r => match m.wr r.ring with | some w => quadOfSlot w.slot == q.val | none => false) with
    | none => m
    | some r =>
      match m.wr r.ring with
      | none => m
      | some w =>
        if 4194304 ≤ m.postedIn q then m
        else
          let rest := m.mat.heldRecv.erase r
          let m := { m with mat := { m.mat with heldRecv := rest } }
          let m := m.takeRecv r w
          if rest.any (fun x => x.ring == r.ring) || m.lka.waiting.any (fun x => x.1 == r.ring) then m
          else (m.updWr r.ring (fun w => { w with recvHold := false })).readyScan r.ring)

/-! ### Domains -/

/-- DOM_ERR of a CREATE (Table 9-6). -/
def Mach.domErr (m : Mach) (slot n : Nat) : Nat :=
  match m.domain n with
  | some d => if d.slot != slot then 4 else 2
  | none => if m.fnPresent slot (m.get Reg.MAT.DOM_FUNC n) then 0 else 1

/-- DOM_CREATE. -/
def execDomCreate (r : Requester) (s : State) : Result :=
  ok s (s.m.action r Reg.MAT.DOM_CMD 1 (fun m n =>
    let err := m.domErr r.slotOf n
    let m := m.put Reg.MAT.DOM_ERR err n
    if err != 0 then m
    else
      let d : Domain := { slot := r.slotOf, func := m.get Reg.MAT.DOM_FUNC n, commBits := min 32 (m.get Reg.MAT.COMM_BITS n)
                          active := true, nextPost := 0 }
      { m with mat := { m.mat with domains := Tbl.set m.mat.domains n d } }))

/-- DOM_DISABLE (R252). -/
def execDomDisable (r : Requester) (s : State) : Result :=
  ok s (s.m.action r Reg.MAT.DOM_CMD 2 (fun m n =>
    match m.domain n with
    | some d =>
      if d.slot != r.slotOf then m.put Reg.MAT.DOM_ERR 4 n
      else if d.active then (m.put Reg.MAT.DOM_ERR 0 n).disableDomain n 0x08
      else m
    | none => m))

/-- MAT_CNT_CLR. -/
def execMatCntClr (r : Requester) (s : State) : Result :=
  ok s (s.m.action r Reg.MAT.CNT_CLR 1 (fun m _ =>
    m.clear [Reg.MAT.EAGER_MSGS, Reg.MAT.RTS_MSGS, Reg.MAT.MATCH_ARRIVAL, Reg.MAT.MATCH_POST, Reg.MAT.ORDER_HELD,
      Reg.MAT.WILD_SCAN, Reg.MAT.TRUNCATIONS, Reg.MAT.CANCELS, Reg.MAT.UNX_NAKS, Reg.MAT.PULLS, Reg.MAT.PULL_ABORTS,
      Reg.MAT.ABANDONED] r.slotOf))

end Sys2Proof.Machine
end

