-- ==== Sys2Proof/Machine/Contain.lean ====
section
/-!
DEFINITION. Containment of a unit (R380, Table 16-3), and what becomes of the work of a stopped engine (Table 16-4).
-/

namespace Sys2Proof.Machine

/-! ### The work of a stopped engine (Table 16-4) -/

/-- An opcode whose work its TXE carries itself; the others are handed on to an MTE, a CLE or the LKU (Table 6-6). -/
def txeOpcode (op : Nat) : Bool :=
  !(op = 0x13 || op = 0x21 || op = 0x22 || op = 0x30 || op = 0x40 || op = 0x41 || op = 0x42)

/-- The next running TXE of the quadrant in ascending number, wrapping at 16. -/
def Mach.nextTxe (m : Mach) (e : Engine) : Option Nat :=
  ((List.range 15).map (fun k => (e.n.val + 1 + k) % 16)).find? (fun n => !(m.eng { e with n := Fin.ofNat 16 n }).stopped)

/-- A TXE's work: each entry it has fetched completes with DEVICE_SAFE, and its rings go to the next running TXE, where
their scans resume from WR_POS; with no TXE running they read PAUSED. -/
def Mach.dropTxe (m : Mach) (e : Engine) : Mach :=
  let rings := (m.hif.wrs.filter (fun c => c.2.engine == e)).map (·.1)
  let m := rings.foldl (fun a n => match a.wr n with
    | some w => (a.stopScan n w).updWr n (fun w => { w with fenceAt := none })
    | none => a) m
  let mine := m.hif.work.filter (fun w => rings.contains w.ring && (!w.started || txeOpcode w.entry.opcode))
  let m := mine.foldl (fun a w => a.endWork w.ring w.seq 0x0C 0) m
  match m.nextTxe e with
  | none => m
  | some k => rings.foldl (fun a n => (a.updWr n (fun w => { w with txe := k })).readyScan n) m

/-- An RXE's work: its contexts are deleted, their RX halves abandoned, and the work on their TX halves completes with
DEVICE_SAFE. -/
def Mach.dropRxe (m : Mach) (e : Engine) : Mach :=
  let before := m.setEng e { m.eng e with stopped := false }
  let mine := m.cxn.ctxs.keys.filter (fun cx => cxQuad cx == e.q.val && before.rxeOf cx == e.n.val)
  mine.foldl (fun a cx =>
    let left := match a.ctx cx with | some c => c.left | none => []
    let a := left.foldl (fun a x => a.endOwner x 0x0C 0) ((a.endAll cx 0x0C).endAwaited cx 0x0C)
    (((a.closeTx cx).abandonRx cx).delCtx cx).bump Reg.CXN.DELETIONS 1 (cxSlot cx)) m |>.retryHeld

/-- An MTE's work: each of its domains is disabled, posted receives completing with DEVICE_SAFE. -/
def Mach.dropMte (m : Mach) (e : Engine) : Mach :=
  let mine := (m.mat.domains.filter (fun d => quadOfSlot d.2.slot == e.q.val && d.1 % 4 == e.n.val)).map (·.1)
  mine.foldl (fun a d => a.disableDomain d 0x0C) m

/-- What becomes of the work of an engine that has stopped. -/
def Mach.dropWork (m : Mach) (e : Engine) : Mach :=
  match e.cls with
  | .txe => m.dropTxe e
  | .rxe => m.dropRxe e
  | .mte => m.dropMte e
  | .cle => m.collEngineGone e.q e.n
  | .lku => m

/-- An engine is contained: its Yarrow stops, SEQ shows STOPPED, and its work is disposed of (Table 16-3). An LKU raises
FS117 with it (R377). -/
def Mach.stopEngine (m : Mach) (e : Engine) : Mach :=
  if !engExists e || (m.eng e).stopped then m
  else
    let m := (m.setEng e { m.eng e with stopped := true }).dropWork e
    if e.cls == .lku then m.raise 117 (.engine e) 0 e.q else m

/-! ### Units (Table 16-3) -/

/-- A port is contained: its link goes down as on a clear of PORT_EN, and it does not retrain. -/
def Mach.containPort (m : Mach) (p : Nat) : Mach :=
  let f := Reg.FLT.PORT_CONT (p / 32 % 4)
  (m.put f (m.get f ||| 2 ^ (p % 32))).linkDown (Fin.ofNat 128 p) 0

/-- A slot is contained: bus mastering of its functions stops, and its rings read PAUSED. -/
def Mach.containSlot (m : Mach) (s : Nat) : Mach :=
  let m := m.put Reg.FLT.SLOT_CONT (m.get Reg.FLT.SLOT_CONT ||| 2 ^ s)
  let m := { m with flt := { m.flt with lastSet := Tbl.set m.flt.lastSet (1000 + s) m.clk } }
  m.hif.wrs.foldl (fun a c => if c.2.slot = s then a.stopScan c.1 c.2 else a) m

/-- A contained slot is released: its functions run again. -/
def Mach.releaseSlot (m : Mach) (s : Nat) : Mach :=
  if !bit (m.get Reg.FLT.SLOT_CONT) s then m
  else
    let m := m.put Reg.FLT.SLOT_CONT (m.get Reg.FLT.SLOT_CONT - 2 ^ s)
    (m.hif.funcs.keys.filter (fun k => k / 256 == s)).foldl (fun a k => a.releaseFn s (k % 256)) m

/-- A work ring is contained: ERROR, its scan stopped; no completion is written for the containment itself. -/
def Mach.containRing (m : Mach) (n : Nat) : Mach :=
  match m.wr n with
  | none => m
  | some w => ((m.stopScan n w).updWr n (fun w => { w with st := 3 })).pumpTxe w.slot w.txe

/-- CONTAIN acts on the unit of a detection; with no unit, a feed or a rail it acts as ALERT (R380). -/
def Mach.contain (m : Mach) (u : FUnit) : Mach :=
  match u with
  | .port p => m.containPort p
  | .slot s => m.containSlot s
  | .ring _ n => m.containRing n
  | .engine e => m.stopEngine e
  | .none => m
  | .feed _ => m
  | .rail _ => m

end Sys2Proof.Machine
end

