-- ==== Sys2Proof/Machine/Power.lean ====
section
/-!
DEFINITION. Power entry (file 14): the feeds (R333 to R344), what PGOOD waits for (R345), the rails (R347 to R349), sharing
and input power (R350, R351), and the PWR counters (R354).
-/

namespace Sys2Proof.Machine

/-- FEED_IDX of a feed. -/
def Feed.idx : Feed → Nat
  | .a => 0 | .b => 1

/-- What no register holds of a feed. -/
def Mach.feed (m : Mach) (f : Nat) : FeedSt := Tbl.get m.pwr.feeds f {}
/-- The machine with that changed. -/
def Mach.updFeed (m : Mach) (f : Nat) (g : FeedSt → FeedSt) : Mach :=
  { m with pwr := { m.pwr with feeds := Tbl.modify m.pwr.feeds f {} g } }
/-- STATE of a feed (Table 14-1). -/
def Mach.feedState (m : Mach) (f : Nat) : Nat := m.get Reg.PWR.STATE f
/-- A feed is enabled: its pin is high and SW_OFF is 0 (R333). -/
def Mach.feedEnabled (m : Mach) (f : Nat) : Bool := m.isSet Reg.PWR.EN_PIN f && !m.isSet Reg.PWR.SW_OFF f

/-- The digital conditions of R345 and R346: a feed ON with ENHANCED set, and no fault timer running. -/
def Mach.goodFeed (m : Mach) : Bool := (List.range 2).any (fun f => m.feedState f = 4 && m.isSet Reg.PWR.ENHANCED f)

/-- Since when the conditions of R345 have held, brought up to date after a change of a feed: the deglitch restarts when
they break. -/
def Mach.regood (m : Mach) : Mach :=
  let ok := m.goodFeed && !m.isSet Reg.PWR.TIMER_RUN 0 && !m.isSet Reg.PWR.TIMER_RUN 1
  { m with pwr := { m.pwr with goodAt := if ok then m.pwr.goodAt.or (some m.clk) else none } }

/-- A feed is down for R344: below 37.0 V, or its pin low. -/
def Mach.feedDown (m : Mach) (f : Nat) : Bool := (m.feed f).vinLow.isSome || (m.feed f).pinLow.isSome

/-- Since when both feeds have been down. -/
def Mach.reboth (m : Mach) : Mach :=
  { m with pwr := { m.pwr with
    bothAt := if m.feedDown 0 && m.feedDown 1 then m.pwr.bothAt.or (some m.clk) else none } }

/-- A feed enters a state. -/
def Mach.setFeed (m : Mach) (f st : Nat) : Mach :=
  (((m.put Reg.PWR.STATE st f).put Reg.PWR.LATCHED (b2n (st == 6)) f).updFeed f (fun x => { x with since := m.clk })).regood

/-- The gate and the pre-charge path of a feed open; its fault timer is cleared. -/
def Mach.openGate (m : Mach) (f : Nat) : Mach :=
  (((m.put Reg.PWR.ENHANCED 0 f).put Reg.PWR.LIMITING 0 f).put Reg.PWR.TIMER_RUN 0 f).updFeed f (fun x => { x with timer := none })

/-- OFF is left for DEBOUNCE once the feed is in range and enabled: event 0x1010 or 0x1011 (R334). -/
def Mach.tryFeed (m : Mach) (f : Nat) : Mach :=
  if m.feedState f = 0 && m.isSet Reg.PWR.IN_RANGE f && m.feedEnabled f then (m.setFeed f 1).record (0x1010 + f) 4 [f] else m

/-- PRECHARGE begins: event 0x1020 or 0x1021. -/
def Mach.startPrecharge (m : Mach) (f : Nat) : Mach := (m.setFeed f 2).record (0x1020 + f) 4 [f]

/-- A feed goes LATCHED with a cause, its gate open (R336, R341, R342). -/
def Mach.latchFeed (m : Mach) (f cause : Nat) : Mach :=
  (((m.openGate f).bump Reg.PWR.TRIPS 1 f).put Reg.PWR.CAUSE cause f).setFeed f 6

/-- A trip of cause 1, 2 or 3 (R337, R339, R340, R342): FS1 or FS2 and its event; BACKOFF with retries left, which is a retry,
else LATCHED. -/
def Mach.tripFeed (m : Mach) (f cause ev : Nat) : Mach :=
  let m := ((m.openGate f).bump Reg.PWR.TRIPS 1 f).put Reg.PWR.CAUSE cause f
  let m := (m.raise (1 + f) (.feed f) cause).record ev 4 [f, cause]
  let used := m.get Reg.PWR.RETRIES_USED f
  if used < m.get Reg.PWR.RETRY_MAX f then
    (((m.put Reg.PWR.RETRIES_USED (used + 1) f).bump Reg.PWR.RETRIES 1 f).setFeed f 5).record (0x1080 + f) 4 [f, used + 1]
  else m.setFeed f 6

/-- A feed goes OFF with nothing latched (R335); a latch stays until R343 clears it. -/
def Mach.feedOff (m : Mach) (f : Nat) : Mach := if m.feedState f = 6 then m else (m.openGate f).setFeed f 0

/-- A latch is cleared: OFF, RETRIES_USED 0, event 0x1150 (R343). -/
def Mach.clearLatch (m : Mach) (f : Nat) : Mach :=
  (((m.put Reg.PWR.RETRIES_USED 0 f).setFeed f 0).record 0x1150 4 [f]).tryFeed f

/-- Both feed gates open by a fault reaction (R341): LATCHED with CAUSE 4, event 0x1140. -/
def Mach.gatesOff (m : Mach) : Mach :=
  (((m.latchFeed 0 4).latchFeed 1 4).put Reg.FLT.GATES_OFF 1).record 0x1140 4 []

/-! ### The commands of a feed -/

/-- FEED_IN_RANGE (R333, R334): VIN is in range and FEED_EN high. -/
def execFeedInRange (f : Feed) (s : State) : Result :=
  let i := Feed.idx f
  let m := (s.m.put Reg.PWR.IN_RANGE 1 i).put Reg.PWR.EN_PIN 1 i
  let m := m.updFeed i (fun x => { x with pinLow := none, vinLow := none })
  ok s (m.reboth.tryFeed i)

/-- DEBOUNCE_COMPLETE (R334): after 20 ms in DEBOUNCE. -/
def execDebounceComplete (f : Feed) (s : State) : Result :=
  let i := Feed.idx f
  ok s (if s.m.feedState i = 1 then
    (s.m.elapseTo ((s.m.feed i).since + 20 * Config.msCycles)).startPrecharge i else s.m)

/-- PRECHARGE_COMPLETE (R337): VBUS has reached 92 % of the feed's VIN. -/
def execPrechargeComplete (f : Feed) (s : State) : Result :=
  let i := Feed.idx f
  ok s (if s.m.feedState i = 2 then s.m.setFeed i 3 else s.m)

/-- PRECHARGE_TIMEOUT (R337): 80 ms after PRECHARGE began. -/
def execPrechargeTimeout (f : Feed) (s : State) : Result :=
  let i := Feed.idx f
  ok s (if s.m.feedState i = 2 then
    (s.m.elapseTo ((s.m.feed i).since + 80 * Config.msCycles)).tripFeed i 1 (0x1030 + i) else s.m)

/-- RAMP_COMPLETE (R338): the gate is fully enhanced, 1 ms after RAMP began. -/
def execRampComplete (f : Feed) (s : State) : Result :=
  let i := Feed.idx f
  ok s (if s.m.feedState i = 3 then
    (((s.m.elapseTo ((s.m.feed i).since + Config.msCycles)).put Reg.PWR.ENHANCED 1 i).setFeed i 4).record (0x1040 + i) 4 [i]
  else s.m)

/-- FEED_OUT_OF_RANGE (R335): from RAMP or ON, or on a rise to 62.0 V from any state, FS3 or FS4 and event 0x1090 or
0x1091. -/
def execFeedOutOfRange (f : Feed) (high : Bool) (s : State) : Result :=
  let i := Feed.idx f
  let st := s.m.feedState i
  let m := s.m.put Reg.PWR.IN_RANGE 0 i
  let m := (m.updFeed i (fun x => { x with vinLow := if high then none else x.vinLow.or (some m.clk) })).reboth
  let m := m.feedOff i
  ok s (if high || st = 3 || st = 4 then (m.raise (3 + i) (.feed i) (b2n high)).record (0x1090 + i) 4 [i, b2n high] else m)

/-- A feed is disabled, by its pin or by SW_OFF (R335): OFF, with event 0x10B0 or 0x10B1. -/
def Mach.disableFeed (m : Mach) (f : Nat) : Mach := (m.feedOff f).record (0x10B0 + f) 4 [f]

/-- FEED_DISABLE (R333, R335): the FEED_EN pin goes low. -/
def execFeedDisable (f : Feed) (s : State) : Result :=
  let i := Feed.idx f
  let was := s.m.feedEnabled i
  let m := s.m.put Reg.PWR.EN_PIN 0 i
  let m := (m.updFeed i (fun x => { x with pinLow := x.pinLow.or (some m.clk) })).reboth
  ok s (if was then m.disableFeed i else m)

/-- SW_OFF is written (R333, R335, Table 14-7): setting it disables a feed that was enabled; clearing it lets the feed
start. -/
def Mach.swOff (m : Mach) (f : Nat) (was now : Bool) : Mach :=
  if now && !was then (if m.isSet Reg.PWR.EN_PIN f then m.disableFeed f else m.feedOff f)
  else if was && !now then m.tryFeed f else m

/-- REVERSE_CURRENT (R336): LATCHED with CAUSE 5, FS6, event 0x10A0 or 0x10A1. -/
def execReverseCurrent (f : Feed) (s : State) : Result :=
  let i := Feed.idx f
  ok s (if s.m.feedState i = 6 then s.m
    else ((s.m.latchFeed i 5).raise 6 (.feed i) i).record (0x10A0 + i) 4 [i])

/-- FAULT_TIME as it acts, in cycles. -/
def Mach.faultTime (m : Mach) (f : Nat) : Nat := clamp 1 40 (m.get Reg.PWR.FAULT_TIME f) * (Config.msCycles / 2)

/-- LIMIT_ENTRY (R339): in RAMP or ON the loop begins to regulate, and the fault timer starts: event 0x1050 or 0x1051. -/
def execLimitEntry (f : Feed) (s : State) : Result :=
  let i := Feed.idx f
  let m := s.m
  ok s (if (m.feedState i = 3 || m.feedState i = 4) && !m.isSet Reg.PWR.TIMER_RUN i then
    ((((m.put Reg.PWR.LIMITING 1 i).put Reg.PWR.TIMER_RUN 1 i).updFeed i (fun x =>
      { x with timer := some (m.clk + m.faultTime i) })).regood).record (0x1050 + i) 4 [i]
  else m)

/-- The fault timer of a feed reaches FAULT_TIME within a time. -/
def Mach.expiresWithin (m : Mach) (f n : Nat) : Bool :=
  match (m.feed f).timer with
  | some t => t ≤ m.clk + n
  | none => false

/-- LIMIT_CLEAR (R339): the current stays below 95 % of ILIM for 100 µs from now on. A timer that reaches FAULT_TIME within them is not
cleared: it expires. -/
def execLimitClear (f : Feed) (s : State) : Result :=
  let i := Feed.idx f
  ok s (if s.m.isSet Reg.PWR.TIMER_RUN i && !s.m.expiresWithin i (100 * Config.usCycles) then
    ((((s.m.elapse (100 * Config.usCycles)).put Reg.PWR.LIMITING 0 i).put Reg.PWR.TIMER_RUN 0 i).updFeed i (fun x =>
      { x with timer := none })).regood
  else s.m)

/-- FAULT_TIMER_EXPIRY (R339): the timer reaches FAULT_TIME. -/
def execFaultTimerExpiry (f : Feed) (s : State) : Result :=
  let i := Feed.idx f
  ok s (match (s.m.feed i).timer with
    | some t => (s.m.elapseTo t).tripFeed i 2 (0x1060 + i)
    | none => s.m)

/-- The feed's timer has expired in this very cycle. -/
def Mach.expiredNow (m : Mach) (f : Nat) : Bool :=
  (m.feedState f = 5 || m.feedState f = 6) && m.get Reg.PWR.CAUSE f = 2 && (m.feed f).since = m.clk && 0 < m.clk

/-- FAST_TRIP (R340): above 3 × ILIM in RAMP or ON. With a timer expiry in the same cycle the cause is 3 (Table 14-3). -/
def execFastTrip (f : Feed) (s : State) : Result :=
  let i := Feed.idx f
  ok s (if s.m.feedState i = 3 || s.m.feedState i = 4 then s.m.tripFeed i 3 (0x1070 + i)
    else if s.m.expiredNow i then (s.m.put Reg.PWR.CAUSE 3 i).record (0x1070 + i) 4 [i, 3]
    else s.m)

/-- BACKOFF_EXPIRY (R342): after 1 s the feed re-enters PRECHARGE, if it is still in range and enabled. -/
def execBackoffExpiry (f : Feed) (s : State) : Result :=
  let i := Feed.idx f
  ok s (if s.m.feedState i = 5 then
    let m := s.m.elapseTo ((s.m.feed i).since + Config.secCycles)
    if m.isSet Reg.PWR.IN_RANGE i && m.feedEnabled i then m.startPrecharge i else m.setFeed i 0
  else s.m)

/-- RETRY_COUNT_RESET (R342): after 60 s continuously ON. -/
def execRetryCountReset (f : Feed) (s : State) : Result :=
  let i := Feed.idx f
  ok s (if s.m.feedState i = 4 then
    (s.m.elapseTo ((s.m.feed i).since + 60 * Config.secCycles)).put Reg.PWR.RETRIES_USED 0 i else s.m)

/-- When a latch is cleared by its input: 10 ms after the pin went low, or VIN below 37.0 V, whichever is first (R343). -/
def Mach.latchDue (m : Mach) (f : Nat) : Option Nat :=
  match (m.feed f).pinLow, (m.feed f).vinLow with
  | some a, some b => some (min a b + 10 * Config.msCycles)
  | some a, none => some (a + 10 * Config.msCycles)
  | none, some b => some (b + 10 * Config.msCycles)
  | none, none => none

/-- LATCH_CLEAR (R343): a latch of CAUSE 4 stays. -/
def execLatchClear (f : Feed) (s : State) : Result :=
  let i := Feed.idx f
  ok s (if s.m.feedState i = 6 && s.m.get Reg.PWR.CAUSE i != 4 then
    match s.m.latchDue i with
    | some t => (s.m.elapseTo t).clearLatch i
    | none => s.m
  else s.m)

/-- FEED_CLR (R343, Table 14-3): clears a latch that is not of CAUSE 4, and RETRIES_USED; a feed in BACKOFF goes OFF and then
through DEBOUNCE. -/
def Mach.feedClr (m : Mach) (f : Nat) : Mach :=
  if m.feedState f = 6 then (if m.get Reg.PWR.CAUSE f = 4 then m else m.clearLatch f)
  else
    let m := m.put Reg.PWR.RETRIES_USED 0 f
    if m.feedState f = 5 then (m.setFeed f 0).tryFeed f else m

/-- FEED_CLR. -/
def execFeedClr (r : Requester) (s : State) : Result := ok s (s.m.action r Reg.PWR.FEED_CLR 1 Mach.feedClr)

/-! ### Rails (R347 to R349) -/

/-- The group of a rail (Table 14-2). -/
def railGroup (rail : Nat) : Nat := if rail < 2 then rail + 1 else 3 + (rail - 2) / 4
/-- The rails of a group, as bits of RAIL_OK. -/
def groupRails (g : Nat) : Nat := ((List.range 26).filter (fun r => railGroup r == g)).foldl (fun a r => a + 2 ^ r) 0

/-- RAIL_GROUP_START (R347): the next group, 100 µs after the group before it is in regulation, which takes its 500 µs. After group 8
comes none: 9 is the end of the sequence, with every rail in regulation: event 0x1100. -/
def execRailGroupStart (g : Nat) (s : State) : Result :=
  let m := s.m
  if !m.isSet Reg.PWR.PGOOD || m.isSet Reg.PWR.RAILS_UP || m.pwr.falling || m.pwr.stuck || g != m.pwr.groups + 1 || 9 < g || g < 2 then
    ok s m
  else if g = 9 then
    let m := m.elapseTo (m.pwr.groupAt + 500 * Config.usCycles)
    ok s (((m.put Reg.PWR.RAIL_OK (2 ^ 26 - 1)).put Reg.PWR.RAILS_UP 1).record 0x1100 4 [])
  else
    let m := m.elapseTo (m.pwr.groupAt + 600 * Config.usCycles)
    let m := m.put Reg.PWR.RAIL_OK (m.get Reg.PWR.RAIL_OK ||| groupRails (g - 1))
    ok s { m with pwr := { m.pwr with groups := g, groupAt := m.clk } }

/-- RAIL_GROUP_DISCHARGE (R348): while the rails go down, the highest group that has begun, within 200 µs. -/
def execRailGroupDischarge (g : Nat) (s : State) : Result :=
  let m := s.m
  if !m.pwr.falling || g = 0 || g != m.pwr.groups then ok s m
  else
    let m := m.elapse (200 * Config.usCycles)
    let m := m.put Reg.PWR.RAIL_OK (m.get Reg.PWR.RAIL_OK &&& ((2 ^ 26 - 1) ^^^ groupRails g))
    ok s { m with pwr := { m.pwr with groups := g - 1, falling := g != 1 } }

/-- A rail of the group that has started last is not yet in regulation. -/
def Mach.railStarting (m : Mach) (rail : Nat) : Bool :=
  m.isSet Reg.PWR.PGOOD && !m.pwr.falling && !m.isSet Reg.PWR.RAILS_UP && railGroup rail = m.pwr.groups &&
  !bit (m.get Reg.PWR.RAIL_OK) rail

/-- RAIL_FAULT (R349): FS7, its RAIL_FAULT bit and event 0x1110; a rail that fails to start, 2 ms after its group began, reverses the
sequence. -/
def execRailFault (rail : Nat) (s : State) : Result :=
  let m := s.m
  if 26 ≤ rail then ok s m
  else
    let starting := m.railStarting rail
    let m := if starting then m.elapseTo (m.pwr.groupAt + 2 * Config.msCycles) else m
    let m := (m.put Reg.PWR.RAIL_FAULT (m.get Reg.PWR.RAIL_FAULT ||| 2 ^ rail)).put Reg.PWR.RAIL_OK
      (m.get Reg.PWR.RAIL_OK &&& ((2 ^ 26 - 1) ^^^ 2 ^ rail))
    let m := { m with flt := { m.flt with lastSet := Tbl.set m.flt.lastSet (2000 + rail) m.clk } }
    let m := ((m.put Reg.PWR.RAILS_UP 0).raise 7 (.rail rail) rail).record 0x1110 4 [rail]
    ok s (if starting then { m with pwr := { m.pwr with falling := true, stuck := true } } else m)

/-! ### Sharing, input power, counters -/

/-- SHARING_FAULT (R350): both feeds ON, the tolerance broken for 1 s; once per crossing. -/
def execSharingFault (s : State) : Result :=
  let m := s.m
  ok s (if m.feedState 0 = 4 && m.feedState 1 = 4 && !m.flt.active.contains (5, .none) then
    (m.raise 5 .none).record 0x1120 4 [] else m)

/-- PWR_LIMIT as it acts on an average over the last second, in units of 0.1 W: a live write applies from the next average, so the
value of a second ago (Table 14-7). -/
def Mach.powerLimit (m : Mach) : Nat :=
  let w := (m.pwr.limits.find? (fun x => m.clk < x.1 + Config.secCycles)).elim (m.get Reg.PWR.PWR_LIMIT) (·.2)
  10 * clamp 100 900 w

/-- PWR_LIMIT is written: the old value stays for the averages that have begun. -/
def Mach.limitSet (m : Mach) (old : Nat) : Mach :=
  { m with pwr := { m.pwr with limits := m.pwr.limits.filter (fun x => m.clk < x.1 + Config.secCycles) ++ [(m.clk, old)] } }

/-- Cicada's input powers of the last second, each with its cycle. -/
def Mach.recentPower (m : Mach) : List (Nat × Nat) := m.pwr.powers.filter (fun x => decide (m.clk < x.1 + Config.secCycles))

/-- The input power averaged over 1 s, in units of 0.1 W: the mean of Cicada's samples of the last second, and PIN where there is none
(DEDUCED from R351, log entry 66). -/
def Mach.powerAvg (m : Mach) : Nat :=
  if m.recentPower.isEmpty then m.get Reg.PWR.PIN else m.recentPower.foldl (fun a x => a + x.2) 0 / m.recentPower.length

/-- Cicada has sampled the input power; an average no longer above PWR_LIMIT ends the crossing (R351). -/
def Mach.samplePower (m : Mach) (pin : Nat) : Mach :=
  let m := { m with pwr := { m.pwr with powers := m.recentPower ++ [(m.clk, pin)] } }
  if m.powerAvg ≤ m.powerLimit then m.endCondition 9 .none else m

/-- POWER_LIMIT_EXCEEDED (R351): the input power averaged over 1 s is above PWR_LIMIT; once per crossing. -/
def execPowerLimitExceeded (s : State) : Result :=
  let m := s.m
  let avg := m.powerAvg
  ok s (if m.flt.active.contains (9, .none) || avg ≤ m.powerLimit then m else (m.raise 9 .none avg).record 0x1130 4 [avg])

/-- PWR_CNT_CLR (R354). -/
def execPwrCntClr (r : Requester) (s : State) : Result :=
  ok s (s.m.action r Reg.PWR.CNT_CLR 1 (fun m _ =>
    ((m.clear [Reg.PWR.TRIPS, Reg.PWR.RETRIES] 0).clear [Reg.PWR.TRIPS, Reg.PWR.RETRIES] 1).clear [Reg.PWR.PGOOD_FALLS]))

end Sys2Proof.Machine
end

