-- ==== Sys2Proof/Machine/Seqr.lean ====
section
/-!
DEFINITION. Step tables and the work beneath the traffic (file 13): swaps up to the switch (R321, R322), the patrols
(R323 to R325), row repair (R326), Cicada (R327, R351) and the SEQ counters (R332).
-/

namespace Sys2Proof.Machine

/-! ### Swaps (R321, R322) -/

/-- Swaps are made in CONFIG and DRAIN only. -/
def swapMode (md : Mode) : Bool := md = .config || md = .drain

/-- A swap that did not reach its switch ends: SWAP_STATUS FAILED with its reason (R322). -/
def Mach.swapFail (m : Mach) (c err : Nat) : Mach :=
  ({ m with seqr := { m.seqr with swaps := Tbl.del m.seqr.swaps c } }.put Reg.SEQ.SWAP_STATUS 4 c).put Reg.SEQ.SWAP_ERR err c

/-- The work rings that scan again once the TXE class takes work again (R321, R322). -/
def Mach.rescanAll (m : Mach) : Mach := m.hif.wrs.keys.foldl (fun a n => a.readyScan n) m

/-- A swap fails and the engines of its class resume with the old table (R322). -/
def Mach.swapEnd (m : Mach) (c err : Nat) : Mach :=
  let m := m.swapFail c err
  if c = 1 then m.rescanAll else m

/-- The swap of a class starts: LOADING, or at once FAILED where VAR_SEL names a variant that is not in AVAIL. -/
def Mach.swapStart (m : Mach) (role c v : Nat) : Mach :=
  if !bit (Tbl.get m.seqr.avail c 0) v then m.swapFail c 3
  else
    ({ m with seqr := { m.seqr with swaps := Tbl.set m.seqr.swaps c { variant := v, role := role } } }.put Reg.SEQ.SWAP_STATUS 1 c).put
      Reg.SEQ.SWAP_ERR 0 c

/-- A swap is asked of Hive: while another class swaps it is deferred, its status DEFERRED before LOADING (Table 13-4). -/
def Mach.askSwap (m : Mach) (role c : Nat) : Mach :=
  let v := m.get Reg.SEQ.VAR_SEL c
  if m.seqr.swaps.isEmpty || !bit (Tbl.get m.seqr.avail c 0) v then m.swapStart role c v
  else
    (({ m with seqr := { m.seqr with
        swaps := Tbl.set m.seqr.swaps c { variant := v, role := role, started := false } } }.put Reg.SEQ.SWAP_STATUS 2 c).put
      Reg.SEQ.SWAP_ERR 0 c).defer 10 c 5

/-- What an accepted SWAP asks: the mode, and no swap of the class LOADING or DEFERRED. -/
def Mach.maySwap (m : Mach) (c : Nat) : Bool := swapMode m.mode && !m.seqr.swaps.keys.contains c

/-- SWAP. A write that is ignored for the mode or for a swap in progress leaves its reason in SWAP_ERR. -/
def execSwap (r : Requester) (s : State) : Result :=
  let f := Reg.SEQ.SWAP
  let m := s.m.actionIf r f 1 Mach.maySwap (fun m c => m.askSwap (m.roleOf r).code c)
  match s.m.inst r f with
  | none => ok s m
  | some c =>
    if s.m.mode.decodes f.block && s.m.mode != .lockout && !s.m.behindWrite r f.block && (s.m.roleOf r).covers f.rights &&
        !s.m.maySwap c then
      ok s (m.put Reg.SEQ.SWAP_ERR (if swapMode s.m.mode then 4 else 1) c)
    else ok s m

/-- The check of a variant fails: FS116 and event 0x8005 (R322). -/
def Mach.swapBad (m : Mach) (c : Nat) : Mach :=
  ((m.raise 116 .none c).record 0x8005 5 [c, (Tbl.find m.seqr.swaps c).elim 0 (·.variant)]).swapEnd c 2

/-- SWAP_LOADED: the variant is verified and stands in STANDBY, and the swap waits for its engines; or its check fails. -/
def execSwapLoaded (c : EngClass) (v : VariantIn) (s : State) : Result :=
  match Tbl.find s.m.seqr.swaps c.code with
  | none => ok s s.m
  | some w =>
    if !w.started || w.loaded.isSome then ok s s.m
    else if !v.ok then ok s (s.m.swapBad c.code)
    else
      let w' := { w with loaded := some { variant := w.variant, version := v.version, steps := v.steps } }
      ok s ({ s.m with seqr := { s.m.seqr with swaps := Tbl.set s.m.seqr.swaps c.code w' } }.put
        Reg.SEQ.SWAP_STATUS 2 c.code)

/-- The mode leaves CONFIG and DRAIN: every swap fails with reason 5 (R322, Table 15-5). -/
def Mach.failSwaps (m : Mach) : Mach :=
  let m1 := m.seqr.swaps.keys.foldl (fun a c => a.swapFail c 5) m
  { m1 with hive := { m1.hive with deferred := m1.hive.deferred.filter (fun d => d.1 != 10) } }

/-! ### Weevil (R323 to R326) -/

/-- An HBM address as one of the 128 GiB (R13). -/
def hbmAddr (q a : Nat) : Nat := q * 2 ^ 35 + a % 2 ^ 35
/-- The stack of an address. -/
def hbmStack (a : Nat) : Nat := a / 2 ^ 35 % 4
/-- The 1 KiB row of an address (R326). -/
def hbmRow (a : Nat) : Nat := a / 1024
/-- Where a bank's figures are kept. -/
def bankKey (a : Nat) : Nat := hbmStack a * 65536 + Config.hbmBank a % 65536
/-- Spare rows left in the bank of an address. -/
def Mach.sparesLeft (m : Mach) (a : Nat) : Nat :=
  min 15 (Config.spareRows (hbmStack a) (Config.hbmBank a)) - Tbl.get m.seqr.spares (bankKey a) 0

/-- A row repair starts: with a spare row left in the bank it runs, without one it is impossible: FS91 and event 0x8025. -/
def Mach.startRepair (m : Mach) (a : Nat) : Mach :=
  if m.sparesLeft a = 0 then
    (((m.raise 91 .none (hbmRow a % 2 ^ 32) (hbmStack a)).record 0x8025 (hbmStack a) [a]).put Reg.SEQ.REPAIR_STATUS 4).put
      Reg.SEQ.SPARES_LEFT 0
  else
    { m with seqr := { m.seqr with repairs := Tbl.set m.seqr.repairs (hbmStack a) a } }.put Reg.SEQ.REPAIR_STATUS 1

/-- A row repair is asked of Hive: while one runs in the stack it is deferred; one pending for its bank takes it in. -/
def Mach.askRepair (m : Mach) (a : Nat) : Mach :=
  if (Tbl.find m.seqr.repairs (hbmStack a)).isNone then m.startRepair a
  else if m.seqr.repairQ.any (fun b => bankKey b == bankKey a) then m.put Reg.SEQ.REPAIR_STATUS 2
  else
    ({ m with seqr := { m.seqr with repairQ := m.seqr.repairQ ++ [a] } }.put Reg.SEQ.REPAIR_STATUS 2).defer
      2 (bankKey a) (hbmStack a)

/-- REPAIR_GO (R326). -/
def execRepairGo (r : Requester) (s : State) : Result :=
  ok s (s.m.action r Reg.SEQ.REPAIR_GO 1 (fun m _ =>
    m.askRepair (m.get64 Reg.SEQ.REPAIR_ADDR_LO Reg.SEQ.REPAIR_ADDR_HI % 2 ^ 37)))

/-- ROW_REPAIR_COMPLETE: the row is restored, the bank reopens, event 0x8024; the repair joins the list in MRAM. -/
def execRowRepairComplete (q : Quad) (s : State) : Result :=
  match Tbl.find s.m.seqr.repairs q with
  | none => ok s s.m
  | some a =>
    let m := { s.m with seqr := { s.m.seqr with
      repairs := Tbl.del s.m.seqr.repairs q
      repaired := s.m.seqr.repaired ++ [hbmRow a]
      rows := Tbl.del s.m.seqr.rows (hbmRow a)
      spares := Tbl.modify s.m.seqr.spares (bankKey a) 0 (· + 1) } }
    ok s ((((m.bump Reg.SEQ.REPAIRS).put Reg.SEQ.REPAIR_STATUS 3).put Reg.SEQ.SPARES_LEFT (m.sparesLeft a)).record
      0x8024 q [a])

/-- The hour in which corrected words are counted, from the module's start. -/
def Mach.hourNow (m : Mach) : Nat := m.clk / (3600 * Config.secCycles)

/-- CORR_LIMIT is written: the hour that runs keeps the value it began with (Table 13-6). -/
def Mach.corrSet (m : Mach) (old : Nat) : Mach :=
  { m with seqr := { m.seqr with corr := (List.range 4).foldl (fun (a : Tbl (Nat × Nat × Nat)) q =>
      if (Tbl.find a q).any (fun x => x.2.1 == m.hourNow) then a else Tbl.set a q (0, m.hourNow, old)) m.seqr.corr } }

/-- A corrected word of a stack counts in its hour, under the CORR_LIMIT in force since the hour began: crossing it raises
FS88 and event 0x8020, once (R324). -/
def Mach.corrWord (m : Mach) (q : Nat) : Mach :=
  let limit := m.get Reg.SEQ.CORR_LIMIT
  let old := Tbl.get m.seqr.corr q (0, m.hourNow, limit)
  let (n, h, l) := if old.2.1 = m.hourNow then old else (0, m.hourNow, limit)
  let m := { m with seqr := { m.seqr with corr := Tbl.set m.seqr.corr q (n + 1, h, l) } }.bump Reg.SEQ.CORR_HBM
  if l != 0 && n = l then (m.raise 88 .none q q).record 0x8020 q [q] else m

/-- A row that gives corrected words on consecutive passes: the count of such passes, this one included. -/
def rowPasses (old : Nat × Nat) (pass : Nat) : Nat :=
  if old.1 = 0 then 1 else if old.2 = pass then old.1 else if old.2 + 1 = pass then old.1 + 1 else 1

/-- A corrected word of a row: on REPAIR_THRESH consecutive passes the row is repaired (R326). -/
def Mach.rowWord (m : Mach) (q a thresh : Nat) : Mach :=
  let pass := Tbl.get m.seqr.pass q 0
  let old := Tbl.get m.seqr.rows (hbmRow a) (0, 0)
  let n := rowPasses old pass
  let m := { m with seqr := { m.seqr with rows := Tbl.set m.seqr.rows (hbmRow a) (n, pass) } }
  if thresh != 0 && n = thresh && (n != old.1 || old.2 != pass) then m.askRepair a else m

/-- SCRUB_HBM_PERIOD as it acts, in seconds (Table 13-6). -/
def Mach.scrubPeriod (m : Mach) : Nat :=
  let p := m.get Reg.SEQ.SCRUB_HBM_PERIOD
  if p = 0 then 0 else max 60 p

/-- The time from one patrol read of a stack to the next: a pass of 2^29 reads in SCRUB_HBM_PERIOD (R324). -/
def Mach.patrolPace (m : Mach) : Nat := m.scrubPeriod * Config.secCycles / 2 ^ 29

/-- A new pass of a stack begins at its first address. -/
def Mach.passBegin (m : Mach) (q : Nat) : Mach :=
  { m with seqr := { m.seqr with
    patrol := Tbl.set m.seqr.patrol q 0
    passAt := Tbl.set m.seqr.passAt q (m.clk, m.get Reg.SEQ.REPAIR_THRESH)
    pass := Tbl.modify m.seqr.pass q 0 (· + 1)
    overran := m.seqr.overran.filter (· != q) } }

/-- A read of an address that the patrol has passed: of a bank that it skipped for a repair which has ended (Table 13-4). -/
def Mach.patrolBack (m : Mach) (q a : Nat) : Bool :=
  a % 2 ^ 35 < Tbl.get m.seqr.patrol q 0 && (Tbl.get m.seqr.skipped q []).contains (bankKey a)

/-- The patrol comes to an address, in address order: the reads before it found nothing, and an address behind it belongs to the next
pass (R324). A read comes one pace after the last at the earliest. -/
def Mach.patrolTo (m : Mach) (q a : Nat) : Mach :=
  let back := m.patrolBack q a
  let pos := Tbl.get m.seqr.patrol q 0
  let here := a % 2 ^ 35
  let steps := if back then 1 else if pos ≤ here then (here - pos) / 64 + 1 else (2 ^ 35 - pos + here) / 64 + 1
  let m := m.elapseTo (Tbl.get m.seqr.readAt q m.clk + steps * m.patrolPace)
  let m := { m with seqr := { m.seqr with readAt := Tbl.set m.seqr.readAt q m.clk } }
  if back || pos ≤ here then m else m.passBegin q

/-- The patrol goes on behind an address; behind the last a new pass begins. A bank it came back to is done once it goes on elsewhere. -/
def Mach.patrolNext (m : Mach) (q a : Nat) : Mach :=
  if m.patrolBack q a then m
  else
    let busy := fun (k : Nat) => (Tbl.find m.seqr.repairs q).any (fun b => bankKey b == k)
    let m := { m with seqr := { m.seqr with skipped := Tbl.modify m.seqr.skipped q [] (fun l => l.filter busy) } }
    let next := a % 2 ^ 35 / 64 * 64 + 64
    if next < 2 ^ 35 then { m with seqr := { m.seqr with patrol := Tbl.set m.seqr.patrol q next } } else m.passBegin q

/-- The patrol meets a bank under repair and skips it; it comes back when the repair ends (Table 13-4). -/
def Mach.patrolSkip (m : Mach) (q a : Nat) : Mach :=
  { m with seqr := { m.seqr with
    skipped := Tbl.modify m.seqr.skipped q [] (fun l => if l.contains (bankKey a) then l else bankKey a :: l) } }

/-- A word is marked poisoned. -/
def Mach.poisonHbm (m : Mach) (a : Nat) : Mach :=
  if m.seqr.poison.contains (a / 64) then m
  else { m with seqr := { m.seqr with poison := a / 64 :: m.seqr.poison } }

/-- A patrol read of HBM (R324). The bank under repair is skipped until the repair ends (Table 13-4). -/
def Mach.patrolHbm (m : Mach) (q : Nat) (found : PatrolFound) : Mach :=
  let a := hbmAddr q found.addr
  if m.get Reg.SEQ.SCRUB_HBM_PERIOD = 0 then m
  else if (Tbl.find m.seqr.repairs q).any (fun b => bankKey b == bankKey a) then m.patrolSkip q a
  else
    let at0 := Tbl.get m.seqr.passAt q (m.clk, m.get Reg.SEQ.REPAIR_THRESH)
    let m := { m with seqr := { m.seqr with passAt := Tbl.set m.seqr.passAt q at0 } }.patrolTo q a
    let m := match found.result with
      | .corrected => (m.corrWord q).rowWord q a (Tbl.get m.seqr.passAt q at0).2
      | .uncorrectable => (((m.poisonHbm a).bump Reg.SEQ.UNCORR_HBM).raise 89 .none (a / 64) q).record 0x8021 q [a]
      | _ => m
    m.patrolNext q a

/-- HBM_PATROL_READ. -/
def execHbmPatrolRead (q : Quad) (found : PatrolFound) (s : State) : Result := ok s (s.m.patrolHbm q found)

/-- The engines of a class in a quadrant are held for a time of at most 1 µs (R323). -/
def Mach.holdEngines (m : Mach) (q : Nat) (c : EngClass) : Mach :=
  let until_ := m.clk + min Config.usCycles (Config.rewriteHold m.free)
  (enginesIn c (Fin.ofNat 4 q)).foldl (fun (a : Mach) e =>
    a.setEng e { a.eng e with usableAt := max (a.eng e).usableAt until_ }) { m with free := m.free + 1 }

/-- A step-store word with a parity error (R323): in an ACTIVE bank the MGC rewrites it, with FS113 and event 0x8003, the class's engines
held. A
STANDBY bank holds nothing that runs; while its class loads, the patrol skips it (Table 13-4). -/
def Mach.patrolStep (m : Mach) (q : Nat) (c : EngClass) (addr : Nat) (active : Bool) : Mach :=
  if active then (((m.holdEngines q c).bump Reg.SEQ.STEP_REWRITES).raise 113 .none addr q).record 0x8003 q [q, c.code, addr] else m

/-- SRAM_PATROL_READ (R325). SCRUB_SRAM_PERIOD 0 stops it. -/
def execSramPatrolRead (q : Quad) (found : PatrolFound) (s : State) : Result :=
  let m := s.m
  if m.get Reg.SEQ.SCRUB_SRAM_PERIOD = 0 then ok s m
  else match found.result with
  | .clean => ok s m
  | .corrected => ok s (m.bump Reg.SEQ.CORR_SRAM)
  | .uncorrectable =>
    let m := if m.seqr.sramBad.contains (q.val, found.addr) then m
      else { m with seqr := { m.seqr with sramBad := (q.val, found.addr) :: m.seqr.sramBad } }
    ok s (((m.bump Reg.SEQ.UNCORR_SRAM).raise 90 .none found.addr q).record 0x8023 q [q, found.addr])
  | .step c active => ok s (m.patrolStep q c found.addr active)

/-- PATROL_OVERRUN: a pass not complete after twice its period records event 0x8022, once (R324). -/
def execPatrolOverrun (q : Quad) (s : State) : Result :=
  match Tbl.find s.m.seqr.passAt q with
  | none => ok s s.m
  | some (t, _) =>
    if s.m.scrubPeriod = 0 || s.m.seqr.overran.contains q.val then ok s s.m
    else
      let m := s.m.elapseTo (t + 2 * s.m.scrubPeriod * Config.secCycles)
      ok s ({ m with seqr := { m.seqr with overran := q.val :: m.seqr.overran } }.record 0x8022 q [q])

/-! ### Cicada (R327, R351) -/

/-- A signed 16-bit register value as its bits, and back. -/
def signed16 (x : Int) : Nat := (x % 65536).toNat
/-- The signed value of 16 bits. -/
def ofSigned16 (n : Nat) : Int := if n < 32768 then n else (n : Int) - 65536

/-- TEMP_ALERT as it acts, in 1/8 degree. -/
def Mach.tempAlert (m : Mach) : Int := 8 * (clamp 60 125 (m.get Reg.SEQ.TEMP_ALERT) : Nat)
/-- TEMP_CRIT as it acts: a value below TEMP_ALERT acts as TEMP_ALERT. -/
def Mach.tempCrit (m : Mach) : Int := max m.tempAlert (8 * (clamp 60 125 (m.get Reg.SEQ.TEMP_CRIT) : Nat))

/-- The origin of a sensor's record: its quadrant, or the AON die (TEMP_IDX order). -/
def sensorOrigin (i : Nat) : Nat := if i ≤ 4 then i else i - 5

/-- A reading against a threshold: above it, the source is raised and its event recorded once per crossing; 5 degrees below
TEMP_ALERT the crossing is over, and the source's condition ends with the last (R327). -/
def Mach.tempCheck (m : Mach) (k fs ev i : Nat) (t limit clear : Int) : Mach :=
  let hot := m.seqr.hot.contains (k, i)
  if limit < t && !hot then
    let m := { m with seqr := { m.seqr with hot := (k, i) :: m.seqr.hot } }
    (((m.endCondition fs .none).raise fs .none i (sensorOrigin i))).record ev (sensorOrigin i) [i, signed16 t]
  else if t ≤ clear && hot then
    let m := { m with seqr := { m.seqr with hot := m.seqr.hot.filter (· != (k, i)) } }
    if m.seqr.hot.any (fun h => h.1 == k) then m else m.endCondition fs .none
  else m

/-- An HBM stack's refresh goes to four times above 95 degrees, and back at 92 or less. -/
def Mach.refreshCheck (m : Mach) (q : Nat) (t : Int) : Mach :=
  let v := m.get Reg.SEQ.REFRESH_X4
  if 760 < t && !bit v q then (m.put Reg.SEQ.REFRESH_X4 (v + 2 ^ q)).record 0x8032 q [q]
  else if t ≤ 736 && bit v q then (m.put Reg.SEQ.REFRESH_X4 (v - 2 ^ q)).record 0x8033 q [q]
  else m

/-- One temperature is taken (TEMP_IDX i). -/
def Mach.takeTemp (m : Mach) (i : Nat) (t : Int) : Mach :=
  let top := max t (ofSigned16 (m.get Reg.SEQ.TEMP_MAX i))
  let m := (m.put Reg.SEQ.TEMP (signed16 t) i).put Reg.SEQ.TEMP_MAX (signed16 top) i
  let clear := m.tempAlert - 40
  let m := (m.tempCheck 0 94 0x8030 i t m.tempAlert clear).tempCheck 1 95 0x8031 i t m.tempCrit clear
  if 5 ≤ i then m.refreshCheck (i - 5) t else m

/-- The input energy of an interval at a power: PIN is in 0.1 W and a cycle is 0.5 ns, so a product is in units of 0.05 nJ
and 20,000,000 of them make a millijoule. -/
def Mach.addEnergy (m : Mach) (pin : Nat) : Mach :=
  let nj := m.pwr.nj + pin * (m.clk - m.pwr.sampleAt)
  let mj := m.get64 Reg.PWR.ENERGY_LO Reg.PWR.ENERGY_HI + nj / 20000000
  { m with pwr := { m.pwr with nj := nj % 20000000, sampleAt := m.clk } }.put64 Reg.PWR.ENERGY_LO Reg.PWR.ENERGY_HI
    (mj % 2 ^ 64)

/-- Cicada's readings for the PWR block (R351). -/
def Mach.takePower (m : Mach) (c : CicadaIn) : Mach :=
  let va := c.vin.getD 0 0
  let vb := c.vin.getD 1 0
  let ia := c.iin.getD 0 0
  let ib := c.iin.getD 1 0
  let pin := (va * ia + vb * ib) / 100000
  let m := (((m.put Reg.PWR.VIN va 0).put Reg.PWR.VIN vb 1).put Reg.PWR.IIN ia 0).put Reg.PWR.IIN ib 1
  let m := ((m.put Reg.PWR.VBUS c.vbus).put Reg.PWR.PIN pin).put Reg.PWR.SHARE_A (if ia + ib = 0 then 0 else 100 * ia / (ia + ib))
  let m := (List.range 26).foldl (fun a i =>
    (a.put Reg.PWR.RAIL_V (c.railV.getD i 0) i).put Reg.PWR.RAIL_I (c.railI.getD i 0) i) m
  (m.addEnergy pin).samplePower pin

/-- CIC_PERIOD as it acts, in cycles. -/
def Mach.cicPeriod (m : Mach) : Nat := clamp 1 1000 (m.get Reg.SEQ.CIC_PERIOD) * Config.msCycles

/-- CICADA_SAMPLE: the next sample, CIC_PERIOD after the last. -/
def execCicadaSample (c : CicadaIn) (s : State) : Result :=
  let m := s.m.elapseTo s.m.seqr.sampleAt
  let m := { m with seqr := { m.seqr with sampleAt := m.clk + m.cicPeriod } }
  let m := (c.temps.take 9).zipIdx.foldl (fun a (x : Int × Nat) => a.takeTemp x.2 x.1) m
  ok s (m.takePower c)

/-! ### The counters -/

/-- SEQ_CNT_CLR: clears the deferrals, the counters from CORR_HBM to STEP_REWRITES and every TEMP_MAX (R332). -/
def execSeqCntClr (r : Requester) (s : State) : Result :=
  ok s (s.m.action r Reg.SEQ.CNT_CLR 1 (fun m _ =>
    let m := { m with hive := { m.hive with deferrals := [] } }
    let m := m.clear [Reg.SEQ.CORR_HBM, Reg.SEQ.UNCORR_HBM, Reg.SEQ.CORR_SRAM, Reg.SEQ.UNCORR_SRAM, Reg.SEQ.REPAIRS,
      Reg.SEQ.STEP_REWRITES]
    (List.range 9).foldl (fun a i => a.put Reg.SEQ.TEMP_MAX 32768 i) m))

end Sys2Proof.Machine
end

