-- ==== Sys2Proof/Machine/FaultOps.lean ====
section
/-!
DEFINITION. Handlings and their records (R382, R383, R391, R395), the mode changes (R355 to R360), the SAFE and LOCKOUT
reactions (R381), and the fault collector (R379 to R384).
-/

namespace Sys2Proof.Machine

/-! ### The open fault record -/

/-- A fault record with the contents its handling now has. -/
def Rec.withHandling (r : Rec) (h : Handling) (open_ : Bool) (modeClose closeTs reactTs : Nat) : Rec :=
  { r with sev := h.sev, body := .fault h open_ modeClose closeTs reactTs }

/-- A held fault record is that of the open handling: its text still says OPEN. -/
def Rec.isOpen (r : Rec) : Bool :=
  match r.body with | .fault _ o _ _ _ => o | _ => false

/-- The open record follows its handling (R383, R395): in the queue it is written with what it then has; in MRAM it is
amended, by the flush that ends the command; held, it is accepted with what it then has. -/
def Mach.amendOpen (m : Mach) (h : Handling) (open_ : Bool) (modeClose closeTs reactTs : Nat) : Mach :=
  let new := fun (r : Rec) => r.withHandling h open_ modeClose closeTs reactTs
  match m.evr.openRec with
  | some o =>
    let queued := m.evr.queue.any (fun r => r.seq == o.seq)
    let o' := if queued then new o else { new o with amended := true }
    let m := if open_ then m else m.put64 Reg.FLT.CAP_SEQ_LO Reg.FLT.CAP_SEQ_HI o.seq
    { m with evr := { m.evr with
        queue := m.evr.queue.map (fun r => if r.seq == o.seq then o' else r)
        openRec := if open_ then some o' else none
        amends := if queued then m.evr.amends else m.evr.amends ++ [o'] } }
  | none =>
    { m with evr := { m.evr with held := m.evr.held.map (fun r => if r.isOpen then new r else r) } }

/-- The amended records are copied over the old ones in MRAM (R395). -/
def State.flush (s : State) : State :=
  { s with
    mram := s.m.evr.amends.foldl (fun mem (o : Rec) => Memory.writeRec mem o.place o.toBytes) s.mram
    m := { s.m with evr := { s.m.evr with amends := [] } } }

/-- The next state of a command that may have amended the open record. -/
def okFlt (s : State) (m : Mach) : Result := .next ({ s with m := m }.flush)

/-- The open handling ends (R383), with the mode at its close. -/
def Mach.closeHandling (m : Mach) (modeClose reactTs : Nat) : Mach :=
  match m.flt.handling with
  | none => m
  | some h =>
    let m := m.amendOpen h false modeClose m.aonHgt reactTs
    { m with flt := { m.flt with handling := none, last := some h } }

/-! ### Changes of mode -/

/-- Every port's link goes down, as on a clear of PORT_EN (R358); a port in LOOPBACK leaves it. -/
def Mach.allPortsOff (m : Mach) : Mach :=
  (List.finRange 128).foldl (fun (a : Mach) (p : PortId) =>
    if a.linkState p = 5 then (a.put Reg.LNK.LINK_STATE 0 p).driversOff p else a.linkDown p 0) m

/-- Every engine's clock is gated (R364, R381). -/
def Mach.gateAll (m : Mach) : Mach :=
  { m with engines := m.engines.map (fun c => (c.1, { c.2 with gated := true, gateAt := m.clk })) }

/-- A mode whose links stay as they are. -/
def netMode (md : Mode) : Bool := md = .train || md = .run || md = .drain

/-- The module enters a mode (R355, R358, R360). Swaps fail when the mode leaves CONFIG and DRAIN (R322); rings scan at
entry to RUN, at the position where a drain stopped them (R357, R362); DORMANT gates and parks everything (R364). Causes:
0 command, 1 automatic, 2 fault reaction with its source, 3 reset. -/
def Mach.enterMode (m : Mach) (new : Mode) (cause : Nat) (fs : Nat := 0) : Mach :=
  let old := m.mode
  let m := if swapMode old && !swapMode new then m.failSwaps else m
  let m := if netMode old && !netMode new then m.allPortsOff else m
  let m := if old = .config then { m with mat := { m.mat with unxMax := some (m.get Reg.MAT.UNX_QUAD_MAX) } } else m
  let m := ((m.put Reg.GLB.GLB_MODE new.code).put Reg.GLB.LAST_CAUSE cause).put Reg.GLB.CAUSE_FS fs
  let m := (m.put64 Reg.GLB.MODE_TS_LO Reg.GLB.MODE_TS_HI m.aonHgt).record 0x0001 5 [old.code, new.code, cause]
  match new with
  | .run =>
    let wrs := m.hif.wrs.map (fun (c : Nat × WorkRing) => (c.1, { c.2 with drainStop := false }))
    let m := { m with hif := { m.hif with wrs := wrs } }
    let m := if m.boot.started then m
      else { m with boot := { m.boot with started := true } }.put Reg.GLB.START_TIME ((m.clk - m.boot.pgoodAt) / 20000)
    m.rescanAll
  | .train => { m with boot := { m.boot with trainAt := m.clk } }
  | .drain => { m with boot := { m.boot with drainSeen := false } }
  | .dormant => (List.range 4).foldl (fun a q => a.park q true) m.gateAll
  | .attest => m
  | .config => m
  | .safe => m
  | .lockout => m

/-- CONFIG is entered: the forced outputs are released, the persistent settings are in force, and with AUTO_START the module
goes on to TRAIN if the configuration check passes (R371). -/
def Mach.enterConfig (m : Mach) (cause : Nat) : Mach :=
  let m := m.enterMode .config cause
  let m := ((m.put Reg.FLT.LANES_IDLE 0).put Reg.FLT.PPS_FORCED 0).put Reg.FLT.BM_STOPPED 0
  if !m.isSet Reg.GLB.AUTO_START then m
  else
    let m := m.runCfgCheck
    if m.isSet Reg.RTE.CFG_OK then m.enterMode .train 1 else m.put Reg.GLB.MODE_ERR 3

/-- The outputs that a reaction drives directly (R381): lanes idle, PPS_OUT and CLK_OUT low, and the feed gates where they
are ordered off. -/
def Mach.forceOutputs (m : Mach) (gates : Bool) : Mach :=
  let m := (m.put Reg.FLT.LANES_IDLE 1).put Reg.FLT.PPS_FORCED 1
  let m := { m with tim := { m.tim with ppsHigh := false, clkHz := 0 } }
  if gates && !m.isSet Reg.FLT.GATES_OFF then m.gatesOff else m

/-- A reaction is complete: the open handling ends, and leaving needs a new FLT_ACK (R383, R385). -/
def Mach.reacted (m : Mach) : Mach :=
  let m := m.closeHandling m.mode.code m.aonHgt
  { m with flt := { m.flt with acked := false } }

/-- Bus mastering stops on every host port (Table 16-6): the completions of outstanding reads will be discarded; every
engine is stopped and gated. -/
def Mach.stopBus (m : Mach) : Mach :=
  { m.put Reg.FLT.BM_STOPPED 1 with hif := { m.hif with reads := [] } }.gateAll

/-- The SAFE reaction (R381): in ATTEST the outputs only (R359); in SAFE and LOCKOUT it has been made already. -/
def Mach.reactSafe (m : Mach) (cause fs : Nat) : Mach :=
  match m.mode with
  | .safe => m
  | .lockout => m
  | .attest => (m.forceOutputs false).reacted
  | _ => (((m.forceOutputs false).stopBus).enterMode .safe cause fs).reacted

/-- The LOCKOUT reaction (R381): recorded as a marker in MRAM. In LOCKOUT only the gates can still go off. -/
def Mach.reactLockout (m : Mach) (cause fs : Nat) (gates : Bool) : Mach :=
  if m.mode = .lockout then m.forceOutputs gates
  else
    let m := ((m.forceOutputs gates).stopBus).enterMode .lockout cause fs
    { m with boot := { m.boot with lockMarker := true } }.reacted

/-! ### The collector -/

/-- The severity of a source as it acts: 5 to 7 act as 4 (Table 16-5). -/
def Mach.sevOf (m : Mach) (fs : Nat) : Nat := min 4 (m.get Reg.FLT.SEV fs)

/-- The reaction of a severity (Table 16-2). -/
def Mach.react (m : Mach) (sev fs : Nat) : Mach :=
  if sev = 4 then m.reactLockout 2 fs (m.isSet Reg.FLT.PWR fs)
  else if sev = 3 then m.reactSafe 2 fs else m

/-- The MCTP event message that carries a fault record's number. -/
def Mach.faultMessage (m : Mach) (seq : Nat) : Mach :=
  if m.isSet Reg.FLT.MCTP_EN then m.emit (.faultEvent seq) else m

/-- A detection opens a handling (R382): captures, record, interrupt, MCTP message. A record that has to be held has no
number yet: its message follows its acceptance. -/
def Mach.openHandling (m : Mach) (d : Detection) (sev : Nat) : Mach :=
  let h : Handling :=
    { first := d.fs, sev := sev, list := [d.fs], merged := 0, escalated := false, listFull := false, forced := d.forced
      unit := d.unit, detail := d.detail, mode := m.mode.code, hgt := d.hgt }
  let m := { m with flt := { m.flt with handling := some h } }.bump Reg.FLT.HANDLINGS
  let m := m.put64 Reg.FLT.CAP_SEQ_LO Reg.FLT.CAP_SEQ_HI 0
  let m := m.accept { code := 0x2000 + d.fs, sev := sev, role := 0, origin := d.origin, aonStamp := decide (4 ≤ d.origin)
                      hgt := d.hgt, body := .fault h true 0 0 0 }
  let m := match m.evr.openRec with | some o => m.faultMessage o.seq | none => m
  let vec := m.get Reg.FLT.IRQ_VEC
  if m.isSet Reg.FLT.IRQ_EN && vec < vectorsOf 0 && m.slotPresent (m.get Reg.FLT.IRQ_SLOT) then
    m.interrupt (m.get Reg.FLT.IRQ_SLOT) 0 vec
  else m

/-- A handling after one more detection (R383). -/
def Handling.merge (h : Handling) (fs sev : Nat) : Handling :=
  let known := h.list.contains fs
  { h with
    merged := h.merged + 1
    list := if known || 16 ≤ h.list.length then h.list else h.list ++ [fs]
    listFull := h.listFull || (!known && decide (16 ≤ h.list.length))
    sev := max h.sev sev
    escalated := h.escalated || decide (h.sev < sev) }

/-- A detection merges into the open handling, and may escalate it (R383). -/
def Mach.mergeHandling (m : Mach) (h : Handling) (fs sev : Nat) : Mach :=
  let h' := h.merge fs sev
  let m := { m with flt := { m.flt with handling := some h' } }.bump Reg.FLT.MERGES
  let m := if h.sev < sev then m.bump Reg.FLT.ESCALATIONS else m
  m.amendOpen h' true 0 0 0

/-- A detection at the collector (R379): its sticky bit and COUNT; at SEV1 and above it opens a handling or merges into the
open one, contains its unit and has its module reaction. -/
def Mach.collect (m : Mach) (d : Detection) : Mach :=
  let sev := m.sevOf d.fs
  let m := (m.put Reg.FLT.STICKY 1 d.fs).bump Reg.FLT.COUNT 1 d.fs
  let m := m.put Reg.FLT.FORCED (b2n d.forced) d.fs
  let m := { m with flt := { m.flt with lastSet := Tbl.set m.flt.lastSet d.fs m.clk } }
  if sev = 0 then m
  else
    match m.flt.handling with
    | none =>
      let m := m.openHandling d sev
      (if 2 ≤ sev then m.contain d.unit else m).react sev d.fs
    | some h =>
      let m := m.mergeHandling h d.fs sev
      let m := if 2 ≤ sev then m.contain d.unit else m
      if h.sev < sev then m.react sev d.fs else m

/-- FAULT_N (R381): in SAFE and LOCKOUT always; else while the open handling is of SEV3 or above or has a source with FAULTN
set, such a source is active, or one of severity SEV0 has its sticky bit set. -/
def Mach.faultN (m : Mach) : Bool :=
  m.mode = .safe || m.mode = .lockout ||
  (match m.flt.handling with
   | some h => decide (3 ≤ h.sev) || h.list.any (fun f => m.isSet Reg.FLT.FAULTN f)
   | none => false) ||
  m.flt.active.any (fun a => m.isSet Reg.FLT.FAULTN a.1) ||
  (List.range 128).any (fun f => m.isSet Reg.FLT.FAULTN f && m.sevOf f = 0 && m.isSet Reg.FLT.STICKY f)

end Sys2Proof.Machine
end

