-- ==== Sys2Proof/Machine/Fault.lean ====
section
/-!
DEFINITION. The commands of the fault collector (file 16): detections (R379, R384), the self-check (R377), acknowledgement
(R383, R385), injection (R384), the clearing of sticky bits and the release of slots (R380, R430), the end of a condition
(R375) and the FLT counters (R387).
-/

namespace Sys2Proof.Machine

/-- The AONCLK period a cycle lies in. -/
def aonPeriod (t : Nat) : Nat := t / Config.aonCycles

/-- The lowest-numbered of the detections in the AONCLK period of the oldest: the first for the collector (Table 16-8). -/
def firstWire (ws : List Detection) : Option Detection :=
  match ws with
  | [] => none
  | d :: _ =>
    (ws.filter (fun x => aonPeriod x.atc == aonPeriod d.atc)).foldl
      (fun (a : Option Detection) x => match a with
        | none => some x
        | some y => if x.fs < y.fs then some x else some y) none

/-- A detection is taken off the wires. -/
def Mach.takeWire (m : Mach) (d : Detection) : Mach := { m with flt := { m.flt with wires := m.flt.wires.erase d } }

/-- A detection that comes to the collector from outside the model's own detectors: the condition of a source of kind L that
is active already makes none (Table 16-8), and a reserved source is never raised (R376). -/
def Mach.fromOutside (m : Mach) (d : Detection) : Mach :=
  if fsReserved d.fs then m
  else if m.flt.wires.contains d then (m.takeWire d).collect d
  else if fsLevel d.fs then
    if m.flt.active.contains (d.fs, d.unit) then m
    else { m with flt := { m.flt with active := (d.fs, d.unit) :: m.flt.active } }.collect d
  else m.collect d

/-- FAULT_DETECTION: the next detection on the wires, or the one named. -/
def execFaultDetection (ext : Option Detection) (s : State) : Result :=
  okFlt s (match ext with
    | some d => s.m.fromOutside d
    | none => match firstWire s.m.flt.wires with
      | some d => (s.m.takeWire d).collect d
      | none => s.m)

/-- The second of the self-check passes, and the next begins (R377). -/
def Mach.checkSecond (m : Mach) : Mach :=
  let m := m.elapseTo m.flt.checkAt
  { m with flt := { m.flt with checkAt := m.clk + Config.secCycles } }

/-- FAULT_SELF_CHECK (R377): once every second, each wire that fails the test raises FS0 with the wire in DETAIL. -/
def execFaultSelfCheck (bad : List (Fin 128)) (s : State) : Result :=
  ok s (bad.foldl (fun a w => a.raise 0 .none w.val 4) s.m.checkSecond)

/-- FLT_ACK (R383, R385): ends the open handling; ignored while four records are held (R394). -/
def execFltAck (r : Requester) (s : State) : Result :=
  okFlt s (s.m.actionIf r Reg.FLT.FLT_ACK 1 (fun m _ => m.evr.held.length < 4) (fun m _ =>
    let m := m.closeHandling m.mode.code 0
    { m with flt := { m.flt with acked := true } }))

/-- A source is injected (R384): one detection, with no unit, into which the detections of the same source in the same AONCLK
period are taken. -/
def Mach.force (m : Mach) (fs : Nat) : Mach :=
  if fsReserved fs then m
  else
    let same := fun (d : Detection) => d.fs == fs && aonPeriod d.atc == aonPeriod (m.clk - 1)
    let m := { m with flt := { m.flt with wires := m.flt.wires.filter (fun d => !same d) } }
    m.collect { fs := fs, unit := .none, detail := (Config.faultDetail fs .none 0 m.clk).toNat, hgt := m.aonHgt,
                atc := m.clk, forced := true }

/-- FAULT_FORCE: the sources of a bank whose bits are written as 1, in ascending order, at the next AONCLK edge. -/
def execFaultForce (r : Requester) (bank : Fin 4) (bits : Word) (s : State) : Result :=
  okFlt s (s.m.action r (Reg.FLT.FORCE bank) bits.toNat (fun m _ =>
    ((List.range 32).filter (bit bits.toNat)).foldl (fun a k => a.force (32 * bank.val + k)) m))

/-- Something was set anew in the two AONCLK periods before now (R430). -/
def Mach.setAnew (m : Mach) (key : Nat) : Bool :=
  match Tbl.find m.flt.lastSet key with
  | some t => decide (m.clk < t + 2 * Config.aonCycles)
  | none => false

/-- A sticky bit is cleared, unless it was set anew (R430). -/
def Mach.clearSticky (m : Mach) (fs : Nat) : Mach := if m.setAnew fs then m else m.put Reg.FLT.STICKY 0 fs

/-- STICKY_CLEAR. -/
def execStickyClear (r : Requester) (t : StickyTarget) (s : State) : Result :=
  ok s (match t with
    | .indexed => s.m.action r Reg.FLT.STICKY 1 Mach.clearSticky
    | .bank k bits => s.m.action r (Reg.FLT.STICKY_BANK k) bits.toNat (fun m _ =>
        ((List.range 32).filter (bit bits.toNat)).foldl (fun a n => a.clearSticky (32 * k.val + n)) m))

/-- SLOT_CONT_RELEASE (R380, Table 16-3). -/
def execSlotContRelease (r : Requester) (bits : BitVec 16) (s : State) : Result :=
  ok s (s.m.action r Reg.FLT.SLOT_CONT bits.toNat (fun m _ =>
    ((List.range 16).filter (bit bits.toNat)).foldl (fun a k => if a.setAnew (1000 + k) then a else a.releaseSlot k) m))

/-- FLT_CNT_CLR (R387). -/
def execFltCntClr (r : Requester) (s : State) : Result :=
  ok s (s.m.action r Reg.FLT.CNT_CLR 1 (fun m _ =>
    (List.range 128).foldl (fun a k => a.put Reg.FLT.COUNT 0 k)
      (m.clear [Reg.FLT.HANDLINGS, Reg.FLT.MERGES, Reg.FLT.ESCALATIONS])))

/-- A rail is back in regulation: RAIL_OK, and RAILS_UP with all of them (Table 14-6). -/
def Mach.railBack (m : Mach) (rail : Nat) : Mach :=
  if railGroup rail ≤ m.pwr.groups && rail < 26 && m.isSet Reg.PWR.PGOOD then
    let ok := m.get Reg.PWR.RAIL_OK ||| 2 ^ rail
    let m := m.put Reg.PWR.RAIL_OK ok
    if ok = 2 ^ 26 - 1 then m.put Reg.PWR.RAILS_UP 1 else m
  else m

/-- CONDITION_END (R375): the ACTIVE bit clears. A temperature's crossing is over with its condition (R327). -/
def execConditionEnd (fs : Fin 128) (unit : FUnit) (s : State) : Result :=
  let was := s.m.flt.active.contains (fs.val, unit)
  let m := s.m.endCondition fs unit
  if !was then ok s s.m
  else if fs.val = 94 || fs.val = 95 then
    ok s { m with seqr := { m.seqr with hot := m.seqr.hot.filter (fun h => h.1 + 94 != fs.val) } }
  else match unit with
    | .rail n => ok s (m.railBack n)
    | _ => ok s m

end Sys2Proof.Machine
end

