-- ==== Sys2Proof/Machine/LockOps.lean ====
section
/-!
DEFINITION. Locks and atomics as shared operations (file 11): the lock at its home (R281, R282, R284, R289 to R291), its
event records (R293), the requester's held list and requests (R283, R286, R288), and the atomic at its target (R295 to
R297).
-/

namespace Sys2Proof.Machine

/-! ### Packets (R287) -/

/-- The home quadrant of a lock (R281). -/
def lockQuad (l : Nat) : Nat := l % 65536 / 16384
/-- LEASE_MS as it acts (Table 11-8). -/
def Mach.leaseMs (m : Mach) : Nat := clamp 1 10000 (m.get Reg.LKA.LEASE_MS)
/-- An EID of this module. -/
def Mach.isLocalEid (m : Mach) (eid : Nat) : Bool := eid / 16 == m.ownDa

/-- A transport area with a tag and nothing else. -/
def lkuHdr (lock tag : Nat) : LkuHdr :=
  { code := 0, b25 := 0, lockId := lock, tag := tag, gen := 0, queued := 0, offset := 0, op1 := 0, op2 := 0 }

/-- An LKU packet is built and offered on TC3, to a queue or to SYSQ; `false` where it meets PEER_DOWN. -/
def Mach.lkuSend (m : Mach) (q slot dst kind : Nat) (h : LkuHdr) (queue : Option Nat := none) (flow : Option Nat := none)
    (minOnly : Bool := false) : Mach × Bool :=
  let k : Packet :=
    { hdr := m.rspHdr slot dst kind 3 (flow.getD (m.respFlow slot dst)) 0 minOnly, body := .lku h, payload := [] }
  m.build q queue { pkt := k }

/-! ### The requester's side (R283, R285, R286, R288, R292) -/

/-- An entry of a held list. -/
def Mach.heldLock (m : Mach) (q tag : Nat) : Option HeldLock := m.lka.held.find? (fun h => h.q == q && h.tag == tag)
/-- An entry of a held list changed. -/
def Mach.updHeld (m : Mach) (q tag : Nat) (f : HeldLock → HeldLock) : Mach :=
  { m with lka := { m.lka with held := modifyFirst (fun (h : HeldLock) => h.q == q && h.tag == tag) f m.lka.held } }
/-- An entry leaves a held list. -/
def Mach.dropHeld (m : Mach) (q tag : Nat) : Mach :=
  { m with lka := { m.lka with held := m.lka.held.filter (fun h => !(h.q == q && h.tag == tag)) } }
/-- A request that is not finished. -/
def Mach.lkReq (m : Mach) (q tag : Nat) : Option LkReq := m.lka.reqs.find? (fun x => x.q == q && x.tag == tag)
/-- A request changed. -/
def Mach.updReq (m : Mach) (q tag : Nat) (f : LkReq → LkReq) : Mach :=
  { m with lka := { m.lka with reqs := modifyFirst (fun (x : LkReq) => x.q == q && x.tag == tag) f m.lka.reqs } }
/-- A request leaves. -/
def Mach.dropReq (m : Mach) (q tag : Nat) : Mach :=
  { m with lka := { m.lka with reqs := m.lka.reqs.filter (fun x => !(x.q == q && x.tag == tag)) } }

/-- A request's work ends. -/
def Mach.endReq (m : Mach) (q tag status detail : Nat) (data length : Nat := 0) : Mach :=
  match m.lkReq q tag with
  | some x => (m.dropReq q tag).finishWork x.ring x.seq status detail data length
  | none => m

/-- The entry of the held list that a LOCK_RELEASE names by its own function, home and lock, and that stands in `st`. -/
def Mach.heldBy (m : Mach) (slot fn da lock : Nat) (st : HoldState) : Option HeldLock :=
  m.lka.held.find? (fun h => h.slot == slot && h.fn == fn && h.da == da && h.lock == lock && h.st == st)

/-- GRANTED reaches the requester (R284, R288, Table 11-4): the acquire completes; a grant that nothing here waits for is
returned with LK_REL. `src` is the home's EID where it is another module. -/
def Mach.lkGranted (m : Mach) (q tag lock gen : Nat) (orphan : Bool) (slot : Nat) (src : Option Nat) : Mach :=
  match m.heldLock q tag with
  | none =>
    match src with
    | some home => (m.lkuSend q slot home 0x21 { lkuHdr lock tag with gen := gen }).1
    | none => m
  | some h =>
    let due := if src.isSome then some (m.clk + m.leaseMs * Config.msCycles / 4) else none
    let m := if h.st = .waiting then
        (m.updHeld q tag (fun h => { h with st := .held, gen := gen, renew := due })).endReq q tag (if orphan then 6 else 0) 0
      else m
    match src with
    | some home => (m.lkuSend q slot home 0x26 { lkuHdr lock tag with gen := gen }).1
    | none => m

/-- LOST: the holder learns that it has lost its lock (R292). -/
def Mach.lkLost (m : Mach) (q tag : Nat) : Mach :=
  match m.heldLock q tag with
  | none => m
  | some h =>
    if h.st = .held || h.st = .releasing then
      (m.updHeld q tag (fun h => { h with st := .lost, renew := none })).record 0x7065 q [h.slot, h.fn, h.da, h.lock]
    else m

/-- A LOCK_RELEASE is answered (R285): its held-list entry goes, and the work ends. -/
def Mach.endRelease (m : Mach) (x : LkReq) (status detail : Nat) : Mach :=
  let gone := fun (h : HeldLock) => h.slot == x.slot && h.da == x.dst / 16 && h.lock == x.hdr.lockId && h.gen == x.hdr.gen &&
    (h.st == .releasing || h.st == .lost)
  { m with lka := { m.lka with held := m.lka.held.filter (fun h => !gone h) } }.endReq x.q x.tag status detail

/-- RNR_DELAY of the CXN block, in cycles (R288). -/
def Mach.rnrDelay' (m : Mach) : Nat := max 1 (m.get Reg.CXN.RNR_DELAY) * Config.usCycles
/-- RNR_TIMEOUT of the CXN block, in cycles (R288). -/
def Mach.rnrTimeout' (m : Mach) : Nat := clamp 1 60000 (m.get Reg.CXN.RNR_TIMEOUT) * Config.msCycles

/-- An answer reaches the requester (R284 to R286, R288, R292). `src` is the home's EID where it is another module. -/
def Mach.lkAnswered (m : Mach) (q slot code tag lock gen : Nat) (orphan : Bool) (src : Option Nat) : Mach :=
  match code with
  | 1 =>
    let due := if src.isSome then some (m.clk + m.leaseMs * Config.msCycles) else none
    m.updReq q tag (fun x => if x.kind = 0x20 then { x with due := none, busy := none, busySince := none, probe := due } else x)
  | 2 => m.lkGranted q tag lock gen orphan slot src
  | 3 => match m.lkReq q tag with
    | some x => if x.kind = 0x21 then m.endRelease x 0 0 else m
    | none => m
  | 4 => match m.lkReq q tag with
    | some x => if x.kind = 0x22 then m.endReq q tag 0 0 else m
    | none => m
  | 5 => match m.lkReq q tag with
    | some x => match x.withdraw with
      | some st => (m.dropHeld q tag).endReq q tag st 0
      | none => m
    | none => m
  | 6 => match m.lkReq q tag with
    | some x => if x.kind = 0x21 then (if x.resends = 0 then m.endRelease x 1 1 else m.endRelease x 0 0) else m
    | none => m
  | 7 =>
    let now := m.clk
    let due := now + m.rnrDelay'
    m.updReq q tag (fun x => if x.kind = 0x20 then
      { x with due := none, probe := none, busy := some due, busySince := x.busySince.or (some now) } else x)
  | 8 => m.lkLost q tag
  | _ => m

/-! ### The lock at its home (R281, R282, R284) -/

/-- A lock of this module. -/
def Mach.lock (m : Mach) (l : Nat) : Lock := Tbl.get m.lka.locks l {}
/-- A lock changed. -/
def Mach.updLock (m : Mach) (l : Nat) (f : Lock → Lock) : Mach :=
  { m with lka := { m.lka with locks := Tbl.modify m.lka.locks l {} f } }

/-- The home answers a requester or holder, with the lock's GEN: at once where it is this module (R288). -/
def Mach.homeAnswer (m : Mach) (l eid tag code : Nat) (orphan : Bool := false) (queued : Nat := 0) : Mach :=
  let gen := (m.lock l).gen
  if m.isLocalEid eid then m.lkAnswered (quadOfSlot (eid % 16)) (eid % 16) code tag l gen orphan none
  else
    let h : LkuHdr := { lkuHdr l tag with code := code, b25 := b2n orphan, gen := gen, queued := queued }
    (m.lkuSend (lockQuad l) (4 * lockQuad l) eid 0x25 h).1

/-- An event record (Table 11-3). -/
def Mach.lockRecord (m : Mach) (l : Nat) : List Byte :=
  let x := m.lock l
  let holder := match x.held with | some (e, _) => e % 1048576 | none => 0
  leBytes 4 x.gen ++ leBytes 1 (b2n x.held.isSome + 2 * b2n (x.orphan || x.carried)) ++
  leBytes 3 (min 16777215 x.waiters.length) ++ leBytes 4 holder ++ leBytes 4 (m.stamp (lockQuad l))

/-- The access that writes a lock's event record. -/
def Mach.recordOp (m : Mach) (l : Nat) (data : List Byte) : HostOp :=
  let pd := m.get Reg.LKA.EVT_PD l
  let (slot, fn) := match Tbl.find m.xlt.pds pd with | some p => (p.slot, p.func) | none => (4 * lockQuad l, 0)
  { slot := slot, func := fn, pd := pd, va := m.get64 Reg.LKA.EVT_VA_LO Reg.LKA.EVT_VA_HI l / 16 * 16, len := 16, kind := 8
    data := some data, purpose := .eventWord l }

/-- An event record's write has faulted: it is skipped (R293). -/
def Mach.recordSkipped (m : Mach) (l : Nat) : Mach :=
  let q := lockQuad l
  ((m.updLock l (fun x => { x with records := x.records.drop 1, recWait := false })).bump Reg.LKA.EVT_SKIPPED 1 q).record
    0x7064 q [l]

/-- Event records go out in GEN order (R293). `fuel` bounds the records. -/
def Mach.pumpRecords (l : Nat) : Nat → Mach → Mach
  | 0, m => m
  | fuel + 1, m =>
    let x := m.lock l
    match x.records with
    | [] => m
    | r :: _ =>
      if x.recWait then m
      else match m.hostAccess (m.recordOp l r) with
        | (m, .issued) => Mach.pumpRecords l fuel (m.updLock l (fun x => { x with records := x.records.drop 1 }))
        | (m, .waiting) => m.updLock l (fun x => { x with recWait := true })
        | (m, .fault _) => Mach.pumpRecords l fuel (m.recordSkipped l)

/-- A lock has changed: its event record is issued, where EVT_EN is set. -/
def Mach.lockChanged (m : Mach) (l : Nat) : Mach :=
  if !m.isSet Reg.LKA.EVT_EN l then m
  else
    let r := m.lockRecord l
    let m := m.updLock l (fun x => { x with records := x.records ++ [r] })
    Mach.pumpRecords l (m.lock l).records.length m

/-- The write of an event record that waited for its translation has been issued. -/
def Mach.recordIssued (m : Mach) (l : Nat) : Mach :=
  let m := m.updLock l (fun x => { x with records := x.records.drop 1, recWait := false })
  Mach.pumpRecords l (m.lock l).records.length m

/-- The lease of a grant to another module (R290), in HGT LSBs. -/
def Mach.leaseDue (m : Mach) (l : Nat) : Nat := m.hgt (lockQuad l) + m.leaseMs * 16000000

/-- A lock is granted (R282, R284, R289): GEN goes up, a marking of the lock or of the handoff makes it LOCK_ORPHANED and is
cleared, and the requester is told. -/
def Mach.grantTo (m : Mach) (l eid tag : Nat) (orphaned : Bool) : Mach :=
  let x := m.lock l
  let mark := orphaned || x.orphan
  let gen := (x.gen + 1) % 4294967296
  let remote := !m.isLocalEid eid
  let lease := if remote then some (m.leaseDue l) else none
  let resend := if remote then some (m.clk + m.rto) else none
  let m := m.updLock l (fun x =>
    { x with held := some (eid, tag), orphan := false, carried := mark, gen := gen, lease := lease, resend := resend })
  let m := (m.bump Reg.LKA.GRANTS 1 (lockQuad l)).pmcEngine (lockQuad l) .lku 0x0B 1
  let m := if mark then m.bump Reg.LKA.ORPHAN_GRANTS 1 (lockQuad l) else m
  m.homeAnswer l eid tag 2 mark

/-- A lock leaves its holder (R284, R289): the head of its FIFO is granted at once; else the lock is FREE, with the marking
where it was taken from its holder. -/
def Mach.handOn (m : Mach) (l : Nat) (orphaned : Bool) : Mach :=
  let m := m.updLock l (fun x => { x with held := none, carried := false, lease := none, resend := none, orphan := orphaned })
  match (m.lock l).waiters with
  | (eid, tag) :: r =>
    ((m.updLock l (fun x => { x with waiters := r, orphan := false })).grantTo l eid tag orphaned).lockChanged l
  | [] => m.lockChanged l

/-- Waiters in a quadrant's pool (R282). -/
def Mach.waitersIn (m : Mach) (q : Nat) : Nat :=
  (m.lka.locks.map (fun (l : Nat × Lock) => if lockQuad l.1 = q then l.2.waiters.length else 0)).sum

/-- An acquire, a copy of one, or a probe reaches the home (R284, R288). -/
def Mach.homeAcquire (m : Mach) (l eid tag : Nat) : Mach :=
  let q := lockQuad l
  let x := m.lock l
  if x.held == some (eid, tag) then m.homeAnswer l eid tag 2 x.carried
  else match x.waiters.findIdx? (fun w => w == (eid, tag)) with
  | some i => m.homeAnswer l eid tag 1 false i
  | none =>
    if x.held.isNone then ((m.bump Reg.LKA.ACQUIRES 1 q).grantTo l eid tag false).lockChanged l
    else if 262144 ≤ m.waitersIn q then ((m.raise 86 .none 1 q).record 0x7063 q [l, eid]).homeAnswer l eid tag 7
    else
      let m := (m.updLock l (fun x => { x with waiters := x.waiters ++ [(eid, tag)] })).bump Reg.LKA.ACQUIRES 1 q
      m.homeAnswer l eid tag 1 false x.waiters.length

/-- A release reaches the home (R285). A grant that its requester returns carries the REQ_TAG of the acquire, and hands the
lock on with the marking that grant carried (Table 11-4). -/
def Mach.homeRelease (m : Mach) (l eid tag gen : Nat) : Mach :=
  let x := m.lock l
  match x.held with
  | some (e, t) =>
    if e = eid && x.gen = gen then
      (m.homeAnswer l eid tag 3).handOn l (t == tag && x.carried)
    else m.homeAnswer l eid tag 6
  | none => m.homeAnswer l eid tag 6

/-- A force reaches the home (R291): the former holder is told LOST, and the lock is handed on as orphaned. -/
def Mach.homeForce (m : Mach) (l : Nat) : Mach :=
  let q := lockQuad l
  let m := m.bump Reg.LKA.FORCES 1 q
  match (m.lock l).held with
  | none => m
  | some (e, t) => ((m.record 0x7062 q [l, e]).homeAnswer l e t 8).handOn l true

/-- A WITHDRAW reaches the home (R286). -/
def Mach.homeWithdraw (m : Mach) (l eid tag : Nat) : Mach :=
  let x := m.lock l
  if x.held == some (eid, tag) then m
  else
    let m := if x.waiters.contains (eid, tag) then
        (m.updLock l (fun x => { x with waiters := x.waiters.filter (· != (eid, tag)) })).bump Reg.LKA.WITHDRAWS 1 (lockQuad l)
      else m
    m.homeAnswer l eid tag 5

/-- A renewal reaches the home (R290, Table 11-4). -/
def Mach.homeRenew (m : Mach) (l eid tag gen : Nat) : Mach :=
  let x := m.lock l
  match x.held with
  | some (e, _) =>
    if e = eid && x.gen = gen then let due := m.leaseDue l; m.updLock l (fun x => { x with lease := some due })
    else m.homeAnswer l eid tag 8
  | none => m.homeAnswer l eid tag 8

/-! ### Requests (R283, R286, R288) -/

/-- A copy of a request goes out; the lock of this module answers at once. -/
def Mach.sendReq (m : Mach) (q tag : Nat) : Mach :=
  match m.lkReq q tag with
  | none => m
  | some x =>
    if x.kind < 0x28 && m.isLocalEid x.dst then
      let m := m.updReq q tag (fun x => { x with due := none })
      let eid := m.ownEid x.slot
      let l := x.hdr.lockId
      if x.kind = 0x20 then m.homeAcquire l eid tag
      else if x.kind = 0x21 then m.homeRelease l eid tag x.hdr.gen
      else if x.kind = 0x22 then (m.homeForce l).homeAnswer l eid tag 4
      else m.homeWithdraw l eid tag
    else
      match m.lkuSend q x.slot x.dst x.kind x.hdr (some x.queue) (some x.flow) x.minOnly with
      | (m, sent) =>
        let due := m.clk + m.rto
        m.updReq q tag (fun x => { x with due := some due, allDown := x.allDown && !sent })

/-- REQ_TAG of a new work entry (R287). -/
def Mach.newTag (m : Mach) (q : Nat) : Nat × Mach :=
  let t := Tbl.get m.lka.tags q 0
  (t, { m with lka := { m.lka with tags := Tbl.set m.lka.tags q ((t + 1) % 4294967296) } })

/-- A request starts: it is kept until it is answered, and its first copy goes out. -/
def Mach.startReq (m : Mach) (x : LkReq) : Mach :=
  { m with lka := { m.lka with reqs := m.lka.reqs ++ [x] } }.sendReq x.q x.tag

/-- The request of a work entry. -/
def reqOf (q tag ring seq : Nat) (w : WorkRing) (e : Entry) (kind : Nat) (h : LkuHdr) : LkReq :=
  { q := q, tag := tag, ring := ring, seq := seq, slot := w.slot, dst := entryDst e, kind := kind, hdr := h
    flow := entryFlow ring e, minOnly := bit e.flags 6, queue := w.schq % 16384 }

/-- Entries of a quadrant's held list. -/
def Mach.heldCount (m : Mach) (q : Nat) : Nat := (m.lka.held.filter (fun h => h.q == q)).length

/-- A LOCK_ACQUIRE starts (R283, R284): it takes an entry of the held list; where none is free the TXE keeps it and stops the
ring. -/
def Mach.startAcquire (m : Mach) (ring seq : Nat) (w : WorkRing) (e : Entry) : Mach :=
  match e.body with
  | .lock dst lock timeout =>
    let q := quadOfSlot w.slot
    if !m.eidValid dst then m.finishWork ring seq 0x03 0
    else if 65536 ≤ m.heldCount q then
      let m := { m with lka := { m.lka with waiting := m.lka.waiting ++ [(ring, seq)] } }
      (m.updWr ring (fun w => { w with recvHold := true })).stopScan ring w
    else
      let (tag, m) := m.newTag q
      let h : HeldLock := { q := q, tag := tag, slot := w.slot, fn := w.func, da := dst / 16, lock := lock, st := .waiting }
      let due := if timeout = 0 then none else some (m.clk + timeout * Config.usCycles)
      { m with lka := { m.lka with held := m.lka.held ++ [h] } }.startReq
        { reqOf q tag ring seq w e 0x20 (lkuHdr lock tag) with timeout := due }
  | _ => m.finishWork ring seq 0x0B 3

/-- Acquires that wait for an entry of the held list go on where one is free (R283). -/
def Mach.resumeAcquires (m : Mach) : Mach :=
  let l := m.lka.waiting
  l.foldl (fun a (ring, seq) =>
    match a.workAt ring seq, a.wr ring with
    | some x, some w =>
      if a.heldCount (quadOfSlot w.slot) < 65536 then
        let held := a.mat.heldRecv.any (fun (r : Recv) => r.ring == ring)
        ((a.updWr ring (fun w => { w with recvHold := held })).startAcquire ring seq w x.entry).readyScan ring
      else { a with lka := { a.lka with waiting := a.lka.waiting ++ [(ring, seq)] } }
    | _, _ => a) { m with lka := { m.lka with waiting := [] } }

/-- A request ends for want of an answer (R288), and its held-list entry with it. -/
def Mach.failReq (m : Mach) (x : LkReq) (status : Nat) : Mach :=
  if x.kind = 0x21 then m.endRelease x status 0
  else ((if x.kind = 0x20 || x.kind = 0x24 then m.dropHeld x.q x.tag else m).endReq x.q x.tag status 0)

/-- An acquire is withdrawn (R286, R172): WITHDRAW goes out in its place, recovered like any request, and WITHDRAWN will end
its work with `status`. -/
def Mach.withdrawReq (m : Mach) (q tag status : Nat) : Mach :=
  (m.updReq q tag (fun x =>
    { x with kind := 0x24, withdraw := some status, resends := 0, probe := none, busy := none, timeout := none
             allDown := true })).sendReq q tag

/-! ### Functions that are reset (R289) -/

/-- The locks that a reset function holds are handed on, its waiting acquires leave their queues, and its requests are
forgotten (R289). -/
def Mach.locksReset (m : Mach) (slot fn : Nat) : Mach :=
  let mine := m.lka.held.filter (fun h => h.slot == slot && h.fn == fn)
  let m := { m with lka := { m.lka with
    held := m.lka.held.filter (fun h => !(h.slot == slot && h.fn == fn))
    reqs := m.lka.reqs.filter (fun x => match m.wr x.ring with | some w => !(w.slot == slot && w.func == fn) | none => true) } }
  mine.foldl (fun a h =>
    let eid := a.ownEid slot
    if h.da == a.ownDa then
      if h.st = .waiting then
        a.updLock h.lock (fun x => { x with waiters := x.waiters.filter (· != (eid, h.tag)) })
      else if (a.lock h.lock).held == some (eid, h.tag) then (a.record 0x7060 (lockQuad h.lock) [h.lock, eid]).handOn h.lock true
      else a
    else if h.st = .waiting then (a.lkuSend h.q slot (16 * h.da) 0x24 (lkuHdr h.lock h.tag)).1
    else a) m

/-! ### Atomics at their target (R295 to R297) -/

/-- The value an atomic leaves in memory (Table 11-6), operands and memory of `w` bytes. -/
def atomicValue (aop w mem op1 op2 : Nat) : Nat :=
  let n := 8 * w
  let a := op1 % 2 ^ n
  let lt := fun x y => decide (toSigned n x < toSigned n y)
  match aop with
  | 0 => (mem + a) % 2 ^ n
  | 1 => a
  | 2 => if mem = op2 % 2 ^ n then a else mem
  | 3 => mem &&& a
  | 4 => mem ||| a
  | 5 => mem ^^^ a
  | 6 => if lt a mem then a else mem
  | 7 => if lt mem a then a else mem
  | 8 => min mem a
  | 9 => max mem a
  | _ => ((if w = 4 then binary32 else binary64).add mem a).1

/-- An atomic at its target. -/
def Mach.atom (m : Mach) (slot src tag : Nat) : Option AtEntry :=
  m.lka.atoms.find? (fun x => x.slot == slot && x.src == src && x.tag == tag)
/-- An atomic changed. -/
def Mach.updAtom (m : Mach) (slot src tag : Nat) (f : AtEntry → AtEntry) : Mach :=
  { m with lka := { m.lka with
      atoms := modifyFirst (fun (x : AtEntry) => x.slot == slot && x.src == src && x.tag == tag) f m.lka.atoms } }

/-- AT_RSP. -/
def Mach.atRsp (m : Mach) (slot src tag status detail value : Nat) : Mach :=
  (m.lkuSend (quadOfSlot slot) slot src 0x29 { lkuHdr 0 tag with code := status, b25 := detail, op1 := value }).1

/-- An atomic is done: its result is kept, and AT_RSP answers (R296, R297). -/
def Mach.atomDone (m : Mach) (x : AtEntry) (status detail value : Nat) : Mach :=
  let now := m.clk
  (m.updAtom x.slot x.src x.tag (fun x =>
    { x with st := .done, status := status, detail := detail, value := value, doneAt := now })).atRsp x.slot x.src x.tag
    status detail value

/-- The 8 B-aligned address an atomic acts on. -/
def AtEntry.cell (x : AtEntry) : Nat := match x.segs with | (pa, _) :: _ => pa / 8 | [] => 0

/-- The operand of an atomic is read. -/
def Mach.readOperand (m : Mach) (x : AtEntry) : Mach :=
  let (id, m) := m.newId
  let op : HostOp := { slot := x.slot, func := x.func, pd := x.pd, va := x.va, len := x.size, kind := 7, data := none
                       purpose := .atomicOperand x.slot x.src x.tag }
  let rd : HostRead := { id := id, op := op, segs := x.segs, atc := m.clk }
  let m := m.updAtom x.slot x.src x.tag (fun x => { x with st := .reading })
  { m with hif := { m.hif with reads := m.hif.reads ++ [rd] } }.emit (.hostRead x.slot x.func id x.segs)

/-- Atomics that wait for their turn start, in order: one at a time on an 8 B-aligned address, up to 64 addresses in a
quadrant (R296). -/
def Mach.pumpAtoms (m : Mach) (q : Nat) : Mach :=
  (m.lka.atoms.filter (fun x => quadOfSlot x.slot == q && x.st == .queued)).foldl (fun a x =>
    let busy := a.lka.atoms.filter (fun y => quadOfSlot y.slot == q && y.st == .reading)
    if busy.length < 64 && !busy.any (fun y => y.slot == x.slot && y.cell == x.cell) then a.readOperand x else a) m

/-- The operand of an atomic has come: the new value is written, and the fetched one answered. -/
def Mach.operandRead (m : Mach) (slot src tag : Nat) (data : List Byte) : Mach :=
  match m.atom slot src tag with
  | none => m
  | some x =>
    if x.st != .reading then m
    else
      let mem := field data 0 x.size
      let v := atomicValue x.aop x.size mem x.op1 x.op2
      let m := (cutData x.segs (leBytes x.size v)).foldl (fun a (pa, d) => a.emit (.hostWrite slot x.func pa d)) m
      (((m.bump Reg.LKA.ATOMICS 1 (quadOfSlot slot)).pmcEngine (quadOfSlot slot) .lku 0x0B 1).atomDone x 0 0 mem).pumpAtoms (quadOfSlot slot)

/-- The read of an operand has failed on PCIe (R467): memory is unchanged. -/
def Mach.operandFailed (m : Mach) (slot src tag : Nat) : Mach :=
  match m.atom slot src tag with
  | some x => if x.st = .reading then (m.atomDone x 0x0E 0 0).pumpAtoms (quadOfSlot slot) else m
  | none => m

/-- The address of an atomic has faulted (R296). -/
def Mach.atomFault (m : Mach) (slot src tag : Nat) (f : XFault) : Mach :=
  match m.atom slot src tag with
  | some x => m.atomDone x 0x01 f.detail 0
  | none => m

/-- The write of RESULT_ADDR has been issued, or has faulted (R296); the completion's DATA is the fetched value in both cases
(Table 6-12). -/
def Mach.atomicEnd (m : Mach) (ring seq value : Nat) (fault : Option XFault) : Mach :=
  match fault with
  | some f => m.finishWork ring seq 0x02 f.detail value
  | none =>
    let size := match m.workAt ring seq with | some w => 2 ^ (w.entry.arg / 256 % 16) | none => 0
    m.finishWork ring seq 0 0 value size

end Sys2Proof.Machine
end

