-- ==== Sys2Proof/Machine/Sched.lean ====
section
/-!
DEFINITION. The commands of the injection scheduler (file 12): grants, the calendar wheel, and the time gates.
-/

namespace Sys2Proof.Machine

/-! ### Grants (R306) -/

/-- The least exponent from `e` on with which an age fits a 15-bit mantissa, and that mantissa (R239). -/
def ageFit (a : Nat) : Nat → Nat → Nat × Nat
  | 0, _ => (15, 32767)
  | fuel + 1, e =>
    let mant := (a + 2 ^ e - 1) / 2 ^ e
    if mant ≤ 32767 then (e, mant) else ageFit a fuel (e + 1)

/-- AGE of a packet (R239): exponent and mantissa. -/
def msgAge (a : Nat) : Nat × Nat := ageFit a 16 0

/-- The packet with its AGE filled in at injection (R239). -/
def Mach.withAge (m : Mach) (q : Nat) (o : Offer) : Packet :=
  match o.msgTs, o.pkt.body with
  | some ts, .rsx h =>
    match h.op with
    | .match_ d bits _ _ n =>
      let (e, mant) := msgAge (sub32 (m.stamp q) ts)
      { o.pkt with body := .rsx { h with op := .match_ d bits e mant n } }
    | _ => o.pkt
  | _, _ => o.pkt

/-- The first injection of a message's first packet is remembered (R225). -/
def Mach.noteFirst (m : Mach) (o : Offer) : Mach :=
  let now := m.clk
  match o.tx with
  | some (cx, uid) => m.updMsg cx uid (fun x => { x with firstAt := x.firstAt.or (some now) })
  | none => m

/-- A packet is the last of a message of a work entry: its payload reaches the message's length (Table 8-3). Of the RSX kinds READ_RSP,
ACK, NAK, EPOCH_NAK, RESULT and PULL_REQ are built for no work entry (R301). -/
def endsMessage (k : Packet) : Bool :=
  match k.body with
  | .rsx h => !(4 ≤ k.hdr.kind && k.hdr.kind ≤ 8) && k.hdr.kind != 0x0B && h.totalLen ≤ h.offset + k.payload.length
  | _ => false

/-- INJECTION_GRANT (R306, R311, R312): one packet a cycle. -/
def execInjectionGrant (q : Quad) (s : State) : Result :=
  let m := s.m
  ok s (if !m.netModes then m
    else
      let m := if Tbl.find m.sch.last q.val = some m.clk then m.elapse 1 else m
      let m := m.countWaits q
      match m.pickGrant q with
      | (m, none) => m
      | (m, some o) =>
        let tc := o.pkt.hdr.tc % 4
        let never := m.neverFits tc (m.cost o.pkt)
        let m := if never then
            (m.bump Reg.SCH.GATE_OVERRUNS 1 q).record 0x6041 q [tc, m.cost o.pkt] else m
        let m := (m.bump Reg.SCH.GRANTS 1 q).noteFirst o
        let m := { m with sch := { m.sch with last := Tbl.set m.sch.last q.val m.clk } }
        let m := if endsMessage o.pkt then m.pmcEngine q .txe 0x0B 1 else m
        let m := m.inject q (m.withAge q o)
        match o.tx with
        | some (cx, _) => (m.injected o).pumpSend cx
        | none => m)

/-! ### The wheel (R309) -/

/-- The earliest slot that comes round in a quadrant. -/
def Mach.nextSlot (m : Mach) (q : Nat) : Option Nat :=
  (Tbl.get m.sch.parked q []).foldl (fun (a : Option Nat) p =>
    match a with | some t => some (min t p.due) | none => some p.due) none

/-- A parked member whose slot has come round: from the coarse wheel it moves to the fine one, from the fine one it leaves. -/
def slotRound (now : Nat) (p : Parked) : Option Parked :=
  if now < p.due then some p
  else if p.coarse then
    let due := (p.t / fineSlot + 1) * fineSlot
    if due ≤ now then none else some { p with coarse := false, due := due }
  else none

/-- WHEEL_SLOT. -/
def execWheelSlot (q : Quad) (s : State) : Result :=
  ok s (match s.m.nextSlot q with
    | none => s.m
    | some due =>
      let m := s.m.elapseTo ((due + 499999) / 500000)
      { m with sch := { m.sch with parked := Tbl.modify m.sch.parked q.val [] (fun l => l.filterMap (slotRound m.fs)) } })

/-! ### Gates (R310 to R313) -/

/-- Time passes to the first CORECLK edge at which a quadrant's HGT has gained `n` LSBs. -/
def Mach.elapseHgt (m : Mach) (q n : Nat) : Mach :=
  if m.tim.rateWord = 0 then m
  else
    let frac := m.tim.hgt.acc q % 2 ^ 32
    m.elapse ((n * 2 ^ 32 - frac + m.tim.rateWord - 1) / m.tim.rateWord)

/-- GATE_CHANGE: the next boundary of the list in force; the state of the gates follows the position (R310). -/
def execGateChange (s : State) : Result :=
  let m := s.m
  ok s (if !m.gated then m
    else
      let q := m.refQuad
      let pos := m.sch.gates.pos (m.hgt q)
      let (_, stop, _) := spanAt pos 0 0 m.sch.gates.spans
      m.elapseHgt q (stop - pos))

/-- GATE_SWAP: a swap is armed at SWAP_TIME; it replaces a pending one. -/
def execGateSwap (r : Requester) (s : State) : Result :=
  ok s (s.m.action r Reg.SCH.GATE_SWAP 1 (fun m _ =>
    let t := m.get64 Reg.SCH.SWAP_TIME_LO Reg.SCH.SWAP_TIME_HI
    let now := m.hgtRef
    { m with sch := { m.sch with swapAt := some (t, now) } }))

/-- The staged list (R313). -/
def Mach.stagedGates (m : Mach) : GateList :=
  { entries := (List.range (clamp 1 16 (m.get Reg.SCH.GL_LEN))).map (fun i =>
      { ns := m.get Reg.SCH.DURATION i, open_ := m.get Reg.SCH.OPEN i })
    base := m.get64 Reg.SCH.GATE_BASE_LO Reg.SCH.GATE_BASE_HI
    cycle := max 1000 (m.get Reg.SCH.GATE_CYCLE) }

/-- The first cycle start of a list at or after an instant. -/
def GateList.startFrom (g : GateList) (t : Nat) : Nat :=
  t + (((g.base : Int) - (t : Int)) % ((16 * g.cycle : Nat) : Int)).toNat

/-- GATE_SWAP_INSTANT: the first cycle start of the staged list at or after SWAP_TIME, and not before the write. -/
def execGateSwapInstant (s : State) : Result :=
  let m := s.m
  ok s (match m.sch.swapAt with
    | none => m
    | some (t, armed) =>
      let g := m.stagedGates
      let q := m.refQuad
      let start := g.startFrom (max t armed)
      let m := if m.hgt q < start then m.elapseHgt q (start - m.hgt q) else m
      { m with sch := { m.sch with gates := g, swapAt := none } }.record 0x6040 q [start])

/-- GATE_EN (R312): the gates come into force, or every TC opens. -/
def execGateEn (r : Requester) (on : Bool) (s : State) : Result :=
  ok s (s.m.setting r Reg.SCH.GATE_EN (b2n on) (fun m _ => m))

/-- SCH_CNT_CLR. -/
def execSchCntClr (r : Requester) (s : State) : Result :=
  ok s (s.m.action r Reg.SCH.CNT_CLR 1 (fun m i =>
    m.clear [Reg.SCH.GRANTS, Reg.SCH.SYS_GRANTS, Reg.SCH.PARKS, Reg.SCH.GATE_WAITS, Reg.SCH.TC3_HELD,
      Reg.SCH.GATE_OVERRUNS] i))

end Sys2Proof.Machine
end

