-- ==== Sys2Proof/Machine/Lock.lean ====
section
/-!
DEFINITION. The commands of locks and atomics (file 11): the work entries, the LKU packets, the timers of both sides, and the
LKA registers that act.
-/

namespace Sys2Proof.Machine

/-! ### Work entries -/

/-- LOCK_ACQUIRE (R283, R284). -/
def execLockAcquire (ring : Nat) (e : Entry) (s : State) : Result :=
  ok s (s.m.runEntry ring e 0x40 (fun m seq w => m.startAcquire ring seq w e))

/-- LOCK_RELEASE (R285): sent to the home where the function holds the lock. -/
def execLockRelease (ring : Nat) (e : Entry) (s : State) : Result :=
  ok s (s.m.runEntry ring e 0x41 (fun m seq w =>
    match e.body with
    | .lock dst lock _ =>
      let q := quadOfSlot w.slot
      (match m.heldBy w.slot w.func (dst / 16) lock .held with
        | some h =>
          let (tag, m) := m.newTag q
          ((m.updHeld q h.tag (fun h => { h with st := .releasing, renew := none })).startReq
            (reqOf q tag ring seq w e 0x21 { lkuHdr lock tag with gen := h.gen })).resumeAcquires
        | none =>
          match m.heldBy w.slot w.func (dst / 16) lock .lost with
          | some h => ((m.dropHeld q h.tag).finishWork ring seq 0x01 1).resumeAcquires
          | none => m.finishWork ring seq 0x01 1)
    | _ => m.finishWork ring seq 0x0B 3))

/-- LOCK_FORCE (R156, R291): from a supervisor ring only. -/
def execLockForce (ring : Nat) (e : Entry) (s : State) : Result :=
  ok s (s.m.runEntry ring e 0x42 (fun m seq w =>
    match e.body with
    | .lock dst lock _ =>
      if !w.super_ then m.finishWork ring seq 0x0B 5
      else if !m.eidValid dst then m.finishWork ring seq 0x03 0
      else
        let q := quadOfSlot w.slot
        let (tag, m) := m.newTag q
        (m.startReq (reqOf q tag ring seq w e 0x22 (lkuHdr lock tag))).resumeAcquires
    | _ => m.finishWork ring seq 0x0B 3))

/-- ATOMIC (R295). SIZE has been checked with the entry. -/
def execAtomic (ring : Nat) (e : Entry) (s : State) : Result :=
  ok s (s.m.runEntry ring e 0x13 (fun m seq w =>
    match e.body with
    | .atomic dst win off resultAddr op1 op2 =>
      let aop := e.arg % 256
      if 10 < aop then m.finishWork ring seq 0x0B 3
      else if !m.eidValid dst then m.finishWork ring seq 0x03 0
      else
        let q := quadOfSlot w.slot
        let (tag, m) := m.newTag q
        let h : LkuHdr := { lkuHdr 0 tag with code := aop, b25 := e.arg / 256 % 256, queued := win, offset := off, op1 := op1, op2 := op2 }
        m.startReq { reqOf q tag ring seq w e 0x28 h with resultAddr := resultAddr }
    | _ => m.finishWork ring seq 0x0B 3))

/-! ### Packets at the home (R284 to R291) -/

/-- An LKU packet for this module reaches the LKU: one of a kind that Table 11-1 does not name, or with a non-zero zero
field, is dropped. -/
def Mach.lkuPkt (m : Mach) (k : Packet) (kinds : List Nat) (act : Mach → LkuHdr → Mach) : Mach :=
  if !kinds.contains k.hdr.kind then m
  else match k.body, m.delivered k with
    | .lku h, some m =>
      if k.hdr.kind = 0x27 || 0x2B ≤ k.hdr.kind || !h.zero k.hdr.kind || !k.hdr.zero then
        m.bump Reg.LKA.PROTO_DROP 1 (if k.hdr.kind < 0x27 && k.hdr.kind != 0x25 then lockQuad h.lockId else quadOfSlot (k.hdr.dst % 16))
      else (act m h).resumeAcquires
    | _, _ => m.keepBack k

/-- LK_ACQ (R284, R288). The kinds 0x27 and 0x2B to 0x2F come here and are dropped (R287). -/
def execLkAcq (k : Packet) (s : State) : Result :=
  ok s (s.m.lkuPkt k [0x20, 0x27, 0x2B, 0x2C, 0x2D, 0x2E, 0x2F] (fun m h => m.homeAcquire h.lockId k.hdr.src h.tag))

/-- LK_REL (R285). -/
def execLkRel (k : Packet) (s : State) : Result :=
  ok s (s.m.lkuPkt k [0x21] (fun m h => m.homeRelease h.lockId k.hdr.src h.tag h.gen))

/-- LK_FORCE (R291). -/
def execLkForce (k : Packet) (s : State) : Result :=
  ok s (s.m.lkuPkt k [0x22] (fun m h => (m.homeForce h.lockId).homeAnswer h.lockId k.hdr.src h.tag 4))

/-- LK_RENEW (R290). -/
def execLkRenew (k : Packet) (s : State) : Result :=
  ok s (s.m.lkuPkt k [0x23] (fun m h => m.homeRenew h.lockId k.hdr.src h.tag h.gen))

/-- LK_WITHDRAW (R286). -/
def execLkWithdraw (k : Packet) (s : State) : Result :=
  ok s (s.m.lkuPkt k [0x24] (fun m h => m.homeWithdraw h.lockId k.hdr.src h.tag))

/-- LK_GRANT_ACK (R288, R290). -/
def execLkGrantAck (k : Packet) (s : State) : Result :=
  ok s (s.m.lkuPkt k [0x26] (fun m h =>
    let x := m.lock h.lockId
    match x.held with
    | some (e, _) =>
      if e = k.hdr.src && x.gen = h.gen then
        let due := m.leaseDue h.lockId
        m.updLock h.lockId (fun x => { x with resend := none, lease := some due })
      else m
    | none => m))

/-- LK_RSP (R284 to R288, R292), at the requester. -/
def execLkRsp (k : Packet) (s : State) : Result :=
  ok s (s.m.lkuPkt k [0x25] (fun m h =>
    let slot := k.hdr.dst % 16
    m.lkAnswered (quadOfSlot slot) slot h.code h.tag h.lockId h.gen (bit h.b25 0) (some k.hdr.src)))

/-! ### Atomics (R295 to R297) -/

/-- The window that an AT_REQ names passes R214 for it (R296). -/
def Mach.atomWindow (m : Mach) (k : Packet) (h : LkuHdr) (size : Nat) : Option Window :=
  (Tbl.find m.cxn.windows (h.queued % 1048576)).bind (fun w =>
    if w.valid && w.slot == k.hdr.dst % 16 && (match w.peer with | some p => p == k.hdr.src | none => true) && w.atm &&
      h.offset + size ≤ w.len && h.offset % size == 0 then some w else none)

/-- The first refusal for a full result table in each second raises FS86 and records event 0x7066 (R297). -/
def Mach.tableFull (m : Mach) (q : Nat) : Mach :=
  let sec := m.hgt q / Config.hgtSec + 1
  if Tbl.get m.lka.fullSec q 0 = sec then m
  else { m with lka := { m.lka with fullSec := Tbl.set m.lka.fullSec q sec } }.raise 86 .none 2 q |>.record 0x7066 q [q]

/-- A new AT_REQ is validated, and its address translated with access kind 7 (R296). -/
def Mach.startAtom (m : Mach) (k : Packet) (h : LkuHdr) : Mach :=
  let slot := k.hdr.dst % 16
  let q := quadOfSlot slot
  let size := 2 ^ (h.b25 % 16)
  let x : AtEntry := { src := k.hdr.src, tag := h.tag, slot := slot, aop := h.code, size := size, pd := 0, func := 0, va := 0
                       op1 := h.op1, op2 := h.op2, st := .translating }
  match m.atomWindow k h size with
  | none => { m with lka := { m.lka with atoms := m.lka.atoms ++ [x] } }.atomDone x 0x0D 0 0
  | some w =>
    let f := m.func w.slot w.func
    if f.barred then m
    else if !m.awake w.slot w.func then (if f.d3 then m.pme w.slot w.func else m)
    else
      let x := { x with pd := w.pd, func := w.func, va := w.base + h.offset }
      let m := { m with lka := { m.lka with atoms := m.lka.atoms ++ [x] } }
      match m.hostAccess
          { slot := slot, func := w.func, pd := w.pd, va := x.va, len := size, kind := 7, data := none
            purpose := .atomicAddr slot k.hdr.src h.tag } with
      | (m, .issued) => m.pumpAtoms q
      | (m, .waiting) => m
      | (m, .fault f) => m.atomFault slot k.hdr.src h.tag f

/-- AT_REQ (R296, R297): a copy of one that is done is answered from the result table, a copy of one in progress is dropped,
and a full table answers TIMEOUT. -/
def execAtReq (k : Packet) (s : State) : Result :=
  ok s (s.m.lkuPkt k [0x28] (fun m h =>
    let slot := k.hdr.dst % 16
    let q := quadOfSlot slot
    if !m.slotPresent slot then m.atRsp slot k.hdr.src h.tag 0x03 0 0
    else match m.atom slot k.hdr.src h.tag with
      | some x =>
        if x.st = .done then
          (m.bump Reg.LKA.AT_DUP 1 q).atRsp slot x.src x.tag x.status x.detail x.value
        else m
      | none =>
        if 65536 ≤ (m.lka.atoms.filter (fun x => quadOfSlot x.slot == q)).length then
          (m.tableFull q).atRsp slot k.hdr.src h.tag 0x07 0 0
        else m.startAtom k h))

/-- AT_RSP (R296, R297): TIMEOUT is retried as BUSY is; any other STATUS is acknowledged, and ends the work, for OK with the
fetched value in DATA and, where RESULT_ADDR asks for it, in host memory (access kind 4). -/
def execAtRsp (k : Packet) (s : State) : Result :=
  ok s (s.m.lkuPkt k [0x29] (fun m h =>
    let slot := k.hdr.dst % 16
    let q := quadOfSlot slot
    if h.code = 7 then
      let now := m.clk
      let due := now + m.rnrDelay'
      m.updReq q h.tag (fun x => if x.kind = 0x28 then
        { x with due := none, busy := some due, busySince := x.busySince.or (some now) } else x)
    else
      let m := (m.lkuSend q slot k.hdr.src 0x2A (lkuHdr 0 h.tag)).1
      match m.lkReq q h.tag with
      | none => m
      | some x =>
        if x.kind != 0x28 then m
        else if h.code != 0 then m.endReq q h.tag h.code h.b25
        else
          let m := m.dropReq q h.tag
          match if x.resultAddr = 0 then none else m.wr x.ring with
          | none => m.atomicEnd x.ring x.seq h.op1 none
          | some w =>
            let size := 2 ^ (x.hdr.b25 % 16)
            match m.hostAccess
                { slot := w.slot, func := w.func, pd := w.pd, va := x.resultAddr, len := size, kind := 4
                  data := some (leBytes size h.op1), purpose := .atomicResult x.ring x.seq h.op1 } with
            | (m, .issued) => m.atomicEnd x.ring x.seq h.op1 none
            | (m, .waiting) => m
            | (m, .fault f) => m.atomicEnd x.ring x.seq h.op1 (some f)))

/-- AT_ACK (R297). -/
def execAtAck (k : Packet) (s : State) : Result :=
  ok s (s.m.lkuPkt k [0x2A] (fun m h =>
    { m with lka := { m.lka with atoms := m.lka.atoms.filter (fun x =>
        !(x.slot == k.hdr.dst % 16 && x.src == k.hdr.src && x.tag == h.tag && x.st == .done)) } }))

/-! ### Timers of the requester (R286, R288, R290) -/

/-- LOCK_TIMEOUT (R286). -/
def execLockTimeout (q : Quad) (tag : Nat) (s : State) : Result :=
  ok s (match (s.m.lkReq q tag).bind (fun (x : LkReq) => x.timeout) with
    | some due => ((s.m.elapseTo due).withdrawReq q tag 7).resumeAcquires
    | none => s.m)

/-- LKU_REQUEST_RESEND (R288). -/
def execLkuRequestResend (q : Quad) (tag : Nat) (s : State) : Result :=
  ok s (match s.m.lkReq q tag with
    | none => s.m
    | some x =>
      match x.due with
      | none => s.m
      | some due =>
        let m := s.m.elapseTo due
        if m.retryMax ≤ x.resends then (m.failReq x (if x.allDown then 0x03 else 0x09)).resumeAcquires
        else (m.updReq q tag (fun x => { x with resends := x.resends + 1 })).sendReq q tag)

/-- LOCK_PROBE (R288). -/
def execLockProbe (q : Quad) (tag : Nat) (s : State) : Result :=
  ok s (match s.m.lkReq q tag with
    | none => s.m
    | some x =>
      match x.probe with
      | none => s.m
      | some due =>
        let m := s.m.elapseTo due
        let next := m.clk + m.leaseMs * Config.msCycles
        let m := m.updReq q tag (fun x => { x with probe := some next })
        (m.lkuSend q x.slot x.dst 0x20 x.hdr (some x.queue) (some x.flow) x.minOnly).1)

/-- LOCK_BUSY_RETRY (R288, R297). -/
def execLockBusyRetry (q : Quad) (tag : Nat) (s : State) : Result :=
  ok s (match s.m.lkReq q tag with
    | none => s.m
    | some x =>
      match x.busy with
      | none => s.m
      | some due =>
        let m := s.m.elapseTo due
        if x.busySince.getD m.clk + m.rnrTimeout' ≤ m.clk then
          ((m.raise 86 .none (if x.kind = 0x28 then 2 else 1) q).failReq x 0x07).resumeAcquires
        else ((m.updReq q tag (fun x => { x with busy := none })).sendReq q tag).resumeAcquires)

/-- LEASE_RENEWAL (R290): every lock whose renewal is the next to fall due is renewed. -/
def execLeaseRenewal (s : State) : Result :=
  ok s (match s.m.lka.held.filterMap (fun h => h.renew) with
    | [] => s.m
    | d :: r =>
      let m := s.m.elapseTo (r.foldl min d)
      (m.lka.held.filter (fun h => match h.renew with | some t => decide (t ≤ m.clk) | none => false)).foldl (fun a h =>
        let next := a.clk + a.leaseMs * Config.msCycles / 4
        let a := a.updHeld h.q h.tag (fun h => { h with renew := some next })
        (a.lkuSend h.q h.slot (16 * h.da) 0x23 { lkuHdr h.lock h.tag with gen := h.gen }).1) m)

/-! ### Timers of the home (R288, R290, R297) -/

/-- GRANT_RESEND (R288). -/
def execGrantResend (lock : Nat) (s : State) : Result :=
  let x := s.m.lock lock
  ok s (match x.held, x.resend with
    | some (e, t), some due =>
      let m := s.m.elapseTo due
      let next := m.clk + m.rto
      (m.updLock lock (fun x => { x with resend := some next })).homeAnswer lock e t 2 x.carried
    | _, _ => s.m)

/-- LEASE_EXPIRY (R290): handed on as orphaned; FS87 and event 0x7061. -/
def execLeaseExpiry (lock : Nat) (s : State) : Result :=
  let x := s.m.lock lock
  let q := lockQuad lock
  ok s (match x.held, x.lease with
    | some (e, _), some due =>
      let m := (s.m.elapseHgt q (due - s.m.hgt q)).bump Reg.LKA.LEASE_EXPIRIES 1 q
      let m := (m.raise 87 .none lock q).record 0x7061 q [lock, e]
      (m.handOn lock true).resumeAcquires
    | _, _ => s.m)

/-- RESULT_TABLE_EXPIRY (R297). -/
def execResultTableExpiry (slot : Slot) (src tag : Nat) (s : State) : Result :=
  ok s (match s.m.atom slot src tag with
    | some x =>
      if x.st = .done then
        let m := s.m.elapseTo (x.doneAt + 4 * s.m.lifetime)
        { m with lka := { m.lka with atoms := m.lka.atoms.filter (fun x =>
            !(x.slot == slot.val && x.src == src && x.tag == tag)) } }
      else s.m
    | none => s.m)

/-! ### Registers (R300) -/

/-- LOCK_CMD_FORCE (R291). -/
def execLockCmdForce (r : Requester) (s : State) : Result :=
  ok s (s.m.action r Reg.LKA.FORCE 1 (fun m l => (m.homeForce l).resumeAcquires))

/-- LKA_CNT_CLR. -/
def execLkaCntClr (r : Requester) (s : State) : Result :=
  ok s (s.m.action r Reg.LKA.CNT_CLR 1 (fun m q =>
    m.clear [Reg.LKA.ACQUIRES, Reg.LKA.GRANTS, Reg.LKA.ORPHAN_GRANTS, Reg.LKA.LEASE_EXPIRIES, Reg.LKA.FORCES,
      Reg.LKA.WITHDRAWS, Reg.LKA.ATOMICS, Reg.LKA.AT_DUP, Reg.LKA.EVT_SKIPPED, Reg.LKA.PROTO_DROP] q))

end Sys2Proof.Machine
end

