-- ==== Sys2Proof/Machine/RecOps.lean ====
section
/-!
DEFINITION. The recorder's write-out (R394), records by number (R399), and the boot ledger (R403 to R408).
-/

namespace Sys2Proof.Machine

/-! ### Out of the queue -/

/-- A held record is accepted (R394); a fault record's number goes to CAP_SEQ and into its MCTP message. -/
def Mach.acceptHeld (m : Mach) (r : Rec) : Mach :=
  let m := { m with evr := m.evr.enqueue (m.evr.reserve { r with boot := m.get Reg.GLB.BOOT_COUNT }) }
  if r.code / 4096 = 2 then
    let seq := m.evr.nextSeq - 1
    (m.put64 Reg.FLT.CAP_SEQ_LO Reg.FLT.CAP_SEQ_HI seq).faultMessage seq
  else m

/-- Space has returned: the LOST record first, then the held records, then the records whose producers wait, each in its
order (R394). -/
def Mach.resume : Nat → Mach → Mach
  | 0, m => m
  | fuel + 1, m =>
    let m := m.lostFirst
    if !m.evr.roomExempt then m
    else match m.evr.held with
    | r :: rest => Mach.resume fuel ({ m with evr := { m.evr with held := rest } }.acceptHeld r)
    | [] =>
      match m.evr.waiting with
      | r :: rest =>
        let m := { m with evr := { m.evr with waiting := rest } }
        Mach.resume fuel { m with evr := m.evr.enqueue (m.evr.reserve r) }
      | [] => m

/-- The record at the head of the queue is written to MRAM, and the write position advances past it (R394). -/
def State.writeHead (s : State) : State :=
  match s.m.evr.queue with
  | [] => s
  | r :: rest =>
    let m := { s.m with evr := { s.m.evr with queue := rest } }
    { s with
      mram := Memory.writeRec s.mram r.place r.toBytes
      m := Mach.resume (m.evr.held.length + m.evr.waiting.length + 1) m }

/-- The recorder writes out everything that is queued or held. -/
def State.drainQueue : Nat → State → State
  | 0, s => s
  | fuel + 1, s => match s.m.evr.queue with
    | [] => s
    | _ :: _ => State.drainQueue fuel s.writeHead

/-- A record is no longer among the accepted but unwritten. -/
def Evr.written (e : Evr) (seq : Nat) : Bool := seq < e.nextSeq && !e.queue.any (fun r => r.seq == seq)

/-- Where an available record stands (R399). -/
def Evr.find (e : Evr) (seq : Nat) : Option RecAt :=
  if e.written seq then e.where_.find? (fun a => a.seq == seq) else none

/-- RING_FIRST_SEQ (R390): the oldest record in the Ring; NEXT_SEQ where the Ring holds none. -/
def Evr.ringFirst (e : Evr) : Nat := ((e.where_.find? (fun a => decide (16777216 ≤ a.place))).map (·.seq)).getD e.nextSeq

/-- KEEP_LAST_SEQ (R390). -/
def Evr.keepLast (e : Evr) : Nat := ((e.where_.filter (fun a => decide (a.place < 16777216))).getLast?.map (·.seq)).getD 0

/-! ### Digests and measurements -/

/-- The SHA-384 of a byte string (its value is not the spec's to give; log entry 6). -/
def digest (b : List Byte) : List Byte := (List.range 48).map (Config.sha384 b)

/-- The digest of a component of Table 17-6, at a version. -/
def component (index version : Nat) : List Byte := (List.range 48).map (Config.componentDigest index version)

/-- The table loaded for a class. -/
def Mach.table (m : Mach) (c : Nat) : ClsTable := Tbl.get m.seqr.tables c { variant := 0, version := 0, steps := 0 }

/-- DIGEST of a class's loaded variant (Table 1-7). -/
def Mach.tableDigest (m : Mach) (c : Nat) : List Byte :=
  component (2 + c) ((m.table c).variant * 65536 + (m.table c).version)

/-- DIGEST_SET (R404): over 310 B. -/
def Mach.digestSet (m : Mach) : List Byte :=
  digest ((List.range 5).flatMap (fun k =>
      leBytes 1 (k + 1) ++ leBytes 1 (m.table (k + 1)).variant ++ leBytes 2 (m.table (k + 1)).version ++ m.tableDigest (k + 1)) ++
    leBytes 2 m.boot.lacewing ++ component 8 m.boot.lacewing)

/-- How many instances of a persistent field there are. -/
def persistentCount (f : Field) : Nat := match f.scope with | .source => 128 | .rl => 32 | _ => 1

/-- The configuration fields of the settings array, in one fixed order (Table 17-6, index 9). -/
def Mach.settings (m : Mach) : List Byte :=
  (persistent.filter (fun f => f.off != 0x40)).flatMap (fun f =>
    (List.range (persistentCount f)).flatMap (fun i => leBytes 4 (m.get f i))) ++
  (List.range 5).flatMap (fun k => leBytes 1 (Tbl.get m.seqr.stored (k + 1) 0))

/-- Where a ledger entry stands (Table 17-1). -/
def ledgerAddr (i : Nat) : Nat := 0x3000000 + 256 * i

/-- A ledger entry as it stands in MRAM. -/
def State.ledgerEntry (s : State) (i : Nat) : List Byte := Memory.readAll s.mram (ledgerAddr i) 256

/-- Measurement 10: the newest entry's INDEX and its SHA-384; of an empty ledger, INDEX 0 and zero bytes. -/
def State.ledgerHead (s : State) : List Byte :=
  if s.m.evr.ledger = 0 then digest (leBytes 4 0 ++ zeros 48)
  else digest (leBytes 4 (s.m.evr.ledger - 1) ++ digest (s.ledgerEntry (s.m.evr.ledger - 1)))

/-- A measurement by its index (Table 17-6, R411); number 9 is the one taken at the last entry to CONFIG that takes it. -/
def State.measurement (s : State) (index : Nat) : List Byte :=
  if index = 1 then component 1 0
  else if index = 2 then component 2 s.m.boot.mgcVersion
  else if index ≤ 7 then s.m.tableDigest (index - 2)
  else if index = 8 then component 8 s.m.boot.lacewing
  else if index = 9 then s.m.boot.settings
  else if index = 10 then s.ledgerHead
  else digest (leBytes 4 s.m.boot.svn ++ leBytes 4 s.m.boot.fuse)

/-- A measurement is recorded (R403): a 96 B record with the index in byte 32 and the digest in bytes 36 to 83. -/
def Mach.measured (m : Mach) (index : Nat) (d : List Byte) : Mach :=
  m.accept (m.mkRec 0xA020 (if index ≤ 2 || index = 11 then 6 else 5) (.bytes (leBytes 1 index ++ zeros 3 ++ d)))

/-- Measurement 9 taken, at an entry to CONFIG that is no warm reset (Table 17-6, R403, R411). -/
def Mach.measureSettings (m : Mach) : Mach :=
  { m with boot := { m.boot with settings := digest m.settings } }.measured 9 (digest m.settings)

/-- The value type of a measurement (R411). -/
def measKind (index : Nat) : MeasKind :=
  if index = 1 then .immutableRom
  else if index ≤ 8 then .mutableFirmware
  else if index = 9 then .firmwareConfiguration
  else if index = 10 then .informational
  else .securityVersion

/-! ### Ledger entries (R405 to R408) -/

/-- Bytes 0 to 159 of an entry (Table 17-7). -/
def Mach.entryBody (m : Mach) (kind flags tail4 : Nat) (mgc set : List Byte) : List Byte :=
  leBytes 2 m.evr.ledger ++ leBytes 1 kind ++ leBytes 1 flags ++ leBytes 4 (m.get Reg.GLB.BOOT_COUNT) ++
  leBytes 8 m.aonHgt ++ leBytes 8 m.evr.nextSeq ++ leBytes 4 m.boot.svn ++ leBytes 4 m.boot.fuse ++
  leBytes 1 (m.get Reg.GLB.BOOT_SLOT) ++
  leBytes 3 ((List.range 5).foldl (fun a k => a + (m.table (k + 1)).variant * 16 ^ k) 0) ++
  leBytes 4 m.boot.mgcVersion ++ leBytes 8 Config.serial ++ zeros 4 ++ leBytes 4 tail4 ++ zeros 8 ++ mgc ++ set

/-- An entry is signed, chained and written, with event 0xA001; of a full ledger, event 0xA002 (R405 to R408). -/
def State.ledgerWrite (s : State) (kind flags tail4 : Nat) (mgc set : List Byte) : State :=
  if 65536 ≤ s.m.evr.ledger then { s with m := s.m.record 0xA002 5 [kind, leNat mgc, leNat set] }
  else
    let i := s.m.evr.ledger
    let body := s.m.entryBody kind flags tail4 mgc set
    let prev := if i = 0 then zeros 48 else digest (s.ledgerEntry (i - 1))
    let (n, m) := s.m.fresh
    let sig := (List.range 96).map (Config.sign (body ++ prev) n)
    { s with
      mram := Memory.writeAll s.mram (ledgerAddr i) (body ++ sig)
      m := { m with evr := { m.evr with ledger := i + 1 } }.record 0xA001 5 [i, kind] }

end Sys2Proof.Machine
end

