-- ==== Sys2Proof/Machine/RoleOps.lean ====
section
/-!
DEFINITION. Sessions and grants as they end (R418, R423), the clock as the roles use it, and what becomes of index
registers (R433).
-/

namespace Sys2Proof.Machine

/-- A slot's grant ends: event 0x9013 with its cause (R423). Causes, in the model's coding: 0 ROLE_DROP, 1 expiry, 2 the end
of the session, 3 a reset of the function or its port, 4 a warm or module reset. -/
def Mach.endGrant (m : Mach) (slot cause : Nat) : Mach :=
  match Tbl.find m.rol.grants slot with
  | none => m
  | some g => { m with rol := { m.rol with grants := Tbl.del m.rol.grants slot } }.record 0x9013 5 [slot, g.sess, cause]

/-- JTAG is locked: event 0x9041 (R424). -/
def Mach.lockJtag (m : Mach) : Mach :=
  if m.rol.jtag.isNone then m else { m with rol := { m.rol with jtag := none } }.record 0x9041 5 []

/-- A session ends, its grants and the JTAG unlock that it made with it: event 0x9011 with its cause (R418, R423, R424).
Causes, in the model's coding: 0 END_SESSION, 1 SESS_IDLE, 2 a reset of the module, 3 a reset of the function or its port, 4
the removal of its key, 5 RELEASE. -/
def Mach.closeSession (m : Mach) (k cause : Nat) : Mach :=
  match Tbl.find m.rol.sessions k with
  | none => m
  | some _ =>
    let slots := (m.rol.grants.filter (fun (g : Nat × Grant) => g.2.sess == k)).map (·.1)
    let m := slots.foldl (fun a s => a.endGrant s 2) m
    let m := if m.rol.jtag = some k then m.lockJtag else m
    { m with rol := { m.rol with sessions := Tbl.del m.rol.sessions k } }.record 0x9011 5 [k, cause]

/-- The offsets of the index registers of every block (R433). -/
def indexOffsets : List Nat :=
  [0x10060, 0x20000, 0x30000, 0x300B4, 0x40030, 0x4003C, 0x50000, 0x50040, 0x50084, 0x60000, 0x60020, 0x60060, 0x70040,
   0x80000, 0x90000, 0xA0000, 0xB0000, 0xB0020, 0xB0074, 0xC0000, 0xC0050, 0xC0080, 0xC00CC] ++
  [0xD0000, 0xD0058, 0xE0000, 0xF0028, 0xF0040, 0xF0044, 0xF0084, 0x100030, 0x100080, 0x110000, 0x1100E0]

/-- A key of an index register. -/
def indexKey (k : Nat) : Bool := indexOffsets.contains (keyOff k)

/-- The index registers of a function return to 0 (R433). -/
def Mach.clearIndexes (m : Mach) (fnKey : Nat) : Mach :=
  { m with regs := m.regs.filter (fun c => !(c.1 / 536870912 == fnKey && indexKey c.1)) }

end Sys2Proof.Machine
end

