-- ==== Sys2Proof/Machine/Reset.lean ====
section
/-!
DEFINITION. The resets (R366 to R368): what a warm reset clears and keeps, and the boot that follows a power-on or a module
reset: images, tables, measurements, the ledger entry (R320, R368, R370, R403 to R409, R413).
-/

namespace Sys2Proof.Machine

/-! ### Warm reset (Table 15-3) -/

/-- A stored field survives a warm reset: the persistent settings, what the MGC keeps of modes and boot (GLB), the AON
blocks, the TIM epoch, and what the host ports report of their links; not the index registers (R433), nor the containment
that a warm reset releases (Table 16-3). -/
def warmKeeps (k : Nat) : Bool :=
  let o := keyOff k
  persistentKey k || (o < 0x10000 && (o < 0x18 || 0x30 ≤ o)) ||
  (aonBlock (o / 65536) && !indexKey k && !(0xE0070 ≤ o && o ≤ 0xE0080)) ||
  o = 0x10010 || o = 0x10014 || o = 0x5008C

/-- HGT after a warm reset (R34): that of a running quadrant, else the AON copy. -/
def Mach.warmHgt (m : Mach) : Nat :=
  if m.running m.refQuad then m.tim.hgt.acc m.refQuad
  else match (List.range 4).find? m.running with
    | some q => m.tim.hgt.acc q
    | none => m.tim.aon

/-- EPOCH_SEED of every quadrant as drawn at a reset (R203). -/
def Mach.drawSeeds (m : Mach) : Mach :=
  let (n, m) := m.fresh
  { m with cxn := { m.cxn with seeds := (List.range 4).map (fun q => (q, (Config.epochSeed n q).toNat)) } }

/-- The quadrants after a warm reset. Fault conditions that a port or the time state keeps end with it; those of power,
temperature, host ports and die-to-die links persist. -/
def Mach.warmed (m : Mach) : Mach :=
  let slots := m.rol.grants.map (·.1)
  let m := slots.foldl (fun a s => a.endGrant s 4) m
  let h := m.warmHgt
  let gone := fun (a : Nat × FUnit) =>
    a.1 = 26 || a.1 = 28 || a.1 = 48 || a.1 = 53 || a.1 = 104 || a.1 = 105 || a.1 = 106 || a.1 = 108
  let m := { m with
    regs := m.regs.filter (fun c => warmKeeps c.1)
    hold := [], engines := [], quads := [], scans := [], hive := {}, links := [], lanes := [], idle := [], rte := {}
    die := m.die.map (fun (d : Nat × DieLink) => (d.1, { down := d.2.down }))
    tim := { aon := m.tim.aon, osc := m.tim.osc, hgt := { q0 := h, q1 := h, q2 := h, q3 := h } }
    xlt := {}, cxn := {}, mat := {}, sch := {}, groups := [], lka := {}, pmc := {}
    hif := { funcs := m.hif.funcs, perst := m.hif.perst, gens := m.hif.gens, common := m.hif.common, seqBase := m.hif.seqBase }
    seqr := { m.seqr with swaps := [], repairs := [], repairQ := [] }
    flt := { m.flt with active := m.flt.active.filter (fun a => !gone a) } }
  let m := (List.range 5).foldl (fun a k => a.put Reg.SEQ.VAR_SEL (Tbl.get m.seqr.stored (k + 1) 0) (k + 1)) m
  m.drawSeeds

/-- Interrupts and completions held while bus mastering was stopped go out (R382). -/
def Mach.releaseHeld (m : Mach) : Mach :=
  (m.hif.funcs.filter (fun (c : Nat × Func) => !c.2.held.isEmpty)).foldl (fun a c => a.releaseFn (c.1 / 256) (c.1 % 256)) m

/-- A warm reset: event 0x0020, then CONFIG with a cause (R366). With `back` a SEV3 reaction came during the reset that
leaves SAFE: the module is in SAFE still (Table 15-5). -/
def Mach.warmReset (m : Mach) (cause : Nat) (back : Bool := false) : Mach :=
  let m := if netMode m.mode then m.allPortsOff else m
  let m := (m.record 0x0020 5 [m.mode.code]).warmed
  let m := { m with shadow := m.aonNow }
  if back then m
  else if m.mode = .config then m
  else (m.enterConfig cause).releaseHeld

/-! ### Boot -/

/-- What the recorder keeps through a loss of power (R388, R413): the records written, and its write positions behind the
last of them; what was only queued leaves no trace. -/
def Evr.afterPowerLoss (e : Evr) : Evr :=
  let live := e.where_.filter (fun a => !e.queue.any (fun r => r.seq == a.seq))
  let open_ := match e.openRec with
    | some o => if e.queue.any (fun r => r.seq == o.seq) then none else some o
    | none => none
  match live.getLast? with
  | none => { ledger := e.ledger }
  | some a =>
    let keep := decide (a.place < 16777216)
    { nextSeq := a.seq + 1, where_ := live, ledger := e.ledger, openRec := open_
      keepNext := if keep then a.place + a.len else e.keepNext
      keepFull := !keep
      ringNext := if keep then 0 else a.place - 16777216 + a.len }

/-- What the recorder keeps through a module reset, once its queue is written out. -/
def Evr.afterReset (e : Evr) : Evr :=
  { nextSeq := e.nextSeq, where_ := e.where_, keepNext := e.keepNext, keepFull := e.keepFull, ringNext := e.ringNext
    ledger := e.ledger, openRec := e.openRec, amends := e.amends }

/-- The machine as a power-on or a module reset leaves it, in ATTEST (Table 15-3): the settings array, the power-entry
controller, the AON copy of HGT after a module reset. -/
def Mach.bare (m : Mach) (power : Bool) : Mach :=
  let h := if power then 0 else m.tim.aon
  let e := if power then m.evr.afterPowerLoss else m.evr.afterReset
  let m : Mach :=
    { clk := m.clk, free := m.free, nextId := m.nextId, out := m.out, pwr := m.pwr, evr := e
      regs := m.regs.filter (fun c => persistentKey c.1 || (keyOff c.1 / 65536 == 13 && !indexKey c.1))
      tim := { aon := h, osc := m.tim.osc, hgt := { q0 := h, q1 := h, q2 := h, q3 := h } }
      seqr := { stored := m.seqr.stored, repaired := m.seqr.repaired, spares := m.seqr.spares }
      hif := { perst := m.hif.perst }
      flt := { checkAt := m.clk + Config.secCycles }
      rol := { keys := m.rol.keys, claimed := m.rol.claimed, staticAddr := m.rol.staticAddr
               i3cAddr := if power then none else m.rol.i3cAddr }
      boot := { lockMarker := m.boot.lockMarker, prefSlot := m.boot.prefSlot
                pgoodAt := if power then m.clk else m.boot.pgoodAt } }
  m.drawSeeds

/-- The boot code tries an image slot (R368): FS120 with event 0xA010 for a bad signature, FS121 with 0xA011 for a version
below the anti-rollback counter. -/
def Mach.tryImage (m : Mach) (slot fuse : Nat) (i : ImageIn) : Bool × Mach :=
  if !i.sigOk then (false, (m.raise 120 .none slot 6).record 0xA010 6 [slot])
  else if i.svn < fuse then (false, (m.raise 121 .none slot 6).record 0xA011 6 [slot])
  else (true, { m with boot := { m.boot with svn := i.svn, fuse := fuse, mgcVersion := i.version } }.put Reg.GLB.BOOT_SLOT slot)

/-- The boot code picks an image: the preferred slot, else the other with BOOT_FALLBACK, else recovery (R368). -/
def Mach.pickImage (m : Mach) (b : BootIn) : Mach :=
  let p := m.boot.prefSlot
  let image := fun (s : Nat) => if s = 0 then b.imageA else b.imageB
  match m.tryImage p b.fuse (image p) with
  | (true, m) => m
  | (false, m) =>
    match m.tryImage (1 - p) b.fuse (image (1 - p)) with
    | (true, m) => m.put Reg.GLB.BOOT_FALLBACK 1
    | (false, m) => { m with boot := { m.boot with recovery := true, fuse := b.fuse } }

/-- One class's table is loaded (R320): the stored variant, else variant 0 with FS114; with neither, FS115. -/
def Mach.loadTable (m : Mach) (c : Nat) (t : TableIn) : Mach × Bool × Bool :=
  let v := Tbl.get m.seqr.stored c 0
  let m := { m with seqr := { m.seqr with avail := Tbl.set m.seqr.avail c t.avail } }.put Reg.SEQ.VAR_SEL v c
  let load := fun (m : Mach) (v : Nat) =>
    { m with seqr := { m.seqr with tables := Tbl.set m.seqr.tables c { variant := v, version := t.version, steps := t.steps } } }
  if t.storedOk then (load m v, false, false)
  else if v != 0 && t.zeroOk then (load ((m.raise 114 .none c 5).record 0x8004 5 [c, v]) 0, true, false)
  else ((m.raise 115 .none c 5).record 0x8004 5 [c, v], false, true)

/-- The five tables and the Lacewing set are loaded; answers whether a variant was substituted, and whether any failed. -/
def Mach.loadTables (m : Mach) (b : BootIn) : Mach × Bool × Bool :=
  let step := fun (x : Mach × Bool × Bool) (k : Nat) =>
    match b.tables[k]? with
    | some t => match x.1.loadTable (k + 1) t with
      | (m, sub, bad) => (m, x.2.1 || sub, x.2.2 || bad)
    | none => ((x.1.raise 115 .none (k + 1) 5).record 0x8004 5 [k + 1], x.2.1, true)
  let (m, sub, bad) := (List.range 5).foldl step (m, false, false)
  if b.lacewingOk then ({ m with boot := { m.boot with lacewing := b.lacewingVersion } }, sub, bad)
  else ((m.raise 115 .none 8 5).record 0x8004 5 [8], sub, true)

/-- A torn ledger slot at LEDGER_COUNT is erased: event 0xA031 (R407). -/
def State.eraseTorn (s : State) : State :=
  { s with
    mram := Memory.writeAll s.mram (ledgerAddr s.m.evr.ledger) (zeros 256)
    m := s.m.record 0xA031 6 [s.m.evr.ledger] }

/-- The LOST record that takes the place of a record left incomplete (R413). -/
def Mach.lostTorn (m : Mach) (hgt : Option Nat) : Mach :=
  m.accept (m.mkRec 0x0FF1 6 (.bytes (zeros 4 ++ leBytes 4 1 ++ leBytes 4 ((hgt.getD 0) / 16 % 2 ^ 32))))

/-- What the boot code finds of the recorder and of the ledger (R407, R409, R413). -/
def State.checkMram (s : State) (b : BootIn) (power : Bool) : State :=
  let s := if power then (match b.tornRecord with | some h => { s with m := s.m.lostTorn h } | none => s) else s
  let s := if power && b.tornLedger && s.m.evr.ledger < 65536 then s.eraseTorn else s
  if b.chainOk then s
  else { s with m := (s.m.raise 123 .none (s.m.evr.ledger - 1) 6).record 0xA030 6 [s.m.evr.ledger - 1] }

/-- The ledger entry of a boot (R405): kind, flags and cause; then measurement 10. -/
def State.bootEntry (s : State) (cause : Nat) (sub bad : Bool) : State :=
  let rec_ := s.m.boot.recovery
  let kind := if rec_ then 4 else if cause = 0 then 1 else 2
  let flags := s.m.get Reg.GLB.BOOT_FALLBACK + 2 * b2n sub + 4 * b2n bad + 8 * b2n s.m.boot.lockMarker
  let s := s.ledgerWrite kind flags cause (if rec_ then zeros 48 else component 2 s.m.boot.mgcVersion)
    (if rec_ || bad then zeros 48 else s.m.digestSet)
  { s with m := s.m.measured 10 s.ledgerHead }

/-- What the MGC does once its firmware runs (R320, R326, R403): soft repairs, tables, measurements; whether a table was
substituted or failed. -/
def Mach.mgcRuns (m : Mach) (b : BootIn) : Mach × Bool × Bool :=
  let m := m.measured 2 (component 2 m.boot.mgcVersion)
  let m := if m.seqr.repaired.isEmpty then m else m.record 0x8026 5 [m.seqr.repaired.length]
  let (m, sub, bad) := m.loadTables b
  let m := (List.range 5).foldl (fun a k =>
    if (Tbl.find a.seqr.tables (k + 1)).isSome then a.measured (k + 3) (a.tableDigest (k + 1)) else a) m
  let m := if b.lacewingOk then m.measured 8 (component 8 m.boot.lacewing) else m
  ({ m with boot := { m.boot with attestOk := !bad } }, sub, bad)

/-- A boot up to the end of what ATTEST waits for. Causes: 0 power-on, 1 MODULE_RESET, 2 firmware activation, 3 MGC
watchdog. The LOCKOUT marker goes only where the dwell detector shows that both feeds were cycled (R381). -/
def State.boots (s : State) (b : BootIn) (cause : Nat) : State :=
  let power := decide (cause = 0)
  let old := s.m.mode
  let m := (s.m.bare power).bump Reg.GLB.BOOT_COUNT
  let m := { m with rol := { m.rol with staticAddr := 0x28 + b.straps.val } }
  let m := if power && b.dwellMet then { m with boot := { m.boot with lockMarker := false } } else m
  let m := match m.evr.openRec.map (·.body) with
    | some (.fault h true _ _ _) => m.amendOpen h false 1 m.aonHgt 0
    | _ => m
  let m := m.clear [Reg.FLT.CAP_SEQ_LO, Reg.FLT.CAP_SEQ_HI]
  let s := ({ s with m := m }.flush).checkMram b power
  let m := s.m.put64 Reg.GLB.MODE_TS_LO Reg.GLB.MODE_TS_HI s.m.aonHgt
  let m := m.record 0x0001 6 [old.code, 1, 3]
  let m := match b.selfCheckBad with | some w => m.raise 0 .none w 4 | none => m
  let m := m.measured 1 (component 1 0)
  let m := m.pickImage b
  let m := m.measured 11 (digest (leBytes 4 m.boot.svn ++ leBytes 4 m.boot.fuse))
  let s := if m.boot.recovery then { s with m := m }.bootEntry cause false false
    else
      let (m, sub, bad) := m.mgcRuns b
      { s with m := m }.bootEntry cause sub bad
  { s with m := { s.m with shadow := s.m.aonNow } }

/-- A module reset (R366): event 0x0021 is accepted, sessions end, the recorder writes out everything accepted or held, and the
reset acts; an open fault record is closed with mode 1 (R384). -/
def State.moduleResets (s : State) (b : BootIn) (cause : Nat) : State :=
  let m := s.m.record 0x0021 5 [cause]
  let ks := m.rol.sessions.keys
  let m := ks.foldl (fun a k => a.closeSession k 2) m
  let s := State.drainQueue (m.evr.queue.length + m.evr.held.length + m.evr.waiting.length + 64) { s with m := m }
  s.boots b cause

/-! ### Mode requests refused (R359) -/

/-- A request is refused (R359): MODE_ERR and event 0x0002. -/
def Mach.refuseMode (m : Mach) (role : Role) (req err : Nat) : Mach :=
  (m.put Reg.GLB.MODE_ERR err).record 0x0002 5 [req, err] role

/-- A request is busy or overtaken (Table 15-5, R394): a reaction in its cycle, a change in progress but for an entry to
DORMANT that a CONFIG request waits for, or four records held. -/
def Mach.modeBusy (m : Mach) (req : Nat) (meet : ModeMeet) : Bool :=
  4 ≤ m.evr.held.length ||
  (match meet with
   | .alone => false
   | .reaction => true
   | .inTransition => true
   | .inDormantEntry => !(req = 2 && m.mode = .dormant))

/-- DORMANT is left: every quadrant wakes from cold (R364). -/
def Mach.wakeAll (m : Mach) : Mach := (List.range 4).foldl Mach.wakeQuad m

end Sys2Proof.Machine
end

