-- ==== Sys2Proof/Machine/Recorder.lean ====
section
/-!
DEFINITION. The commands of the recorder and of the ledger (file 17): LOST and SUPPRESSED records (R394, R398), reading (R399,
R400), export (R401), the ledger check (R409), and the MCTP commands LEDGER_READ and EVR_READ (R412). The write-out of a
record stands in Late.lean, because writes that waited for it then act.
-/

namespace Sys2Proof.Machine

/-- LOST_RECORD (R394). -/
def execLostRecord (s : State) : Result := ok s s.m.lostFirst

/-- Time passes to the first AONCLK edge at which the AON copy has reached an HGT value. -/
def Mach.elapseAon (m : Mach) (t : Nat) : Mach :=
  if t ≤ m.aonHgt || m.aonRate = 0 then m
  else
    let step := Config.aonCycles * m.aonRate
    let edges := (t * 2 ^ 32 - m.tim.aon + step - 1) / step
    m.elapseTo ((m.clk / Config.aonCycles + edges) * Config.aonCycles)

/-- The whole second of the AON HGT that ends the second of a 1 ns stamp not long past. -/
def Mach.secondAfter (m : Mach) (stamp : Nat) : Nat :=
  let now := m.aonHgt / 16
  ((now - sub32 now stamp) / 1000000000 + 1) * Config.hgtSec

/-- SUPPRESSED_RECORD (R398): at the whole second, one record for each code that had records suppressed. -/
def execSuppressedRecord (s : State) : Result :=
  ok s (match s.m.evr.supp with
    | [] => s.m
    | (_, _, t) :: _ =>
      let sec := s.m.secondAfter t
      let m := s.m.elapseAon sec
      let list := m.evr.supp
      list.foldl (fun (a : Mach) (c : Nat × Nat × Nat) =>
        a.accept { code := 0x0FF0, sev := 0, role := 0, origin := 4, aonStamp := true, hgt := sec
                   body := .bytes (leBytes 2 c.1 ++ zeros 2 ++ leBytes 4 c.2.1 ++ leBytes 4 c.2.2) })
        { m with evr := { m.evr with supp := [] } })

/-! ### RD_BUF (R399, R400) -/

/-- RD_BUF of a function. -/
def Mach.rdBuf (m : Mach) (fnKey : Nat) : RdBuf := Tbl.get m.evr.bufs fnKey {}

/-- A copy into RD_BUF has ended with a result; RD_BUF keeps what it held where there is no copy. -/
def Mach.rdDone (m : Mach) (fnKey result : Nat) (bytes : List Byte) (open_ : Bool) (len : Nat) : Mach :=
  let old := m.rdBuf fnKey
  let b : RdBuf := { bytes := if result = 0 then bytes else old.bytes, done := result = 0, open_ := open_, len := len
                     result := result }
  { m with evr := { m.evr with bufs := Tbl.set m.evr.bufs fnKey b } }

/-- The checks of a record as read: its number, HDR_CRC and the trailer (R392). -/
def recordGood (seq : Nat) (b : List Byte) : Bool :=
  field b 8 8 == seq && field b 28 4 == (crc32c (b.take 28)).toNat &&
  (b.length ≤ 32 || field b (b.length - 4) 4 == (crc32c (b.take (b.length - 4))).toNat)

/-- The OPEN bit of a record: byte 34 of a fault record (Table 16-7). -/
def recordOpen (b : List Byte) : Bool := field b 2 2 / 4096 == 2 && bit (field b 34 1) 0

/-- An MRAM read cannot be corrected: FS12 and event 0xA033. -/
def Mach.mramBad (m : Mach) (detail : Nat) : Mach := (m.raise 12 .none detail).record 0xA033 4 [detail]

/-- RD_GO (R400): the record RD_SEQ. -/
def Mach.rdGo (mram : Memory) (bad : Bool) (m : Mach) (i : Nat) : Mach :=
  let seq := m.get64 Reg.EVR.RD_SEQ_LO Reg.EVR.RD_SEQ_HI i
  if !m.evr.written seq then m.rdDone i 1 [] false 0
  else match m.evr.find seq with
  | none => m.rdDone i 2 [] false 0
  | some a =>
    let b := Memory.readRec mram a.place a.len
    if bad then (m.mramBad a.place).rdDone i 4 [] false 0
    else if !recordGood seq b then ((m.raise 123 .none a.place).record 0xA030 4 [seq]).rdDone i 3 [] false 0
    else m.rdDone i 0 b (recordOpen b) (a.len / 16)

/-- RD_GO. -/
def execRdGo (r : Requester) (uncorrectable : Bool) (s : State) : Result :=
  ok s (s.m.action r Reg.EVR.RD_GO 1 (Mach.rdGo s.mram uncorrectable))

/-- LEDGER_GO (R400): entry LEDGER_IDX into the first 256 B of RD_BUF. -/
def Mach.ledgerGo (s : State) (bad : Bool) (m : Mach) (i : Nat) : Mach :=
  let n := m.get Reg.EVR.LEDGER_IDX i
  if m.evr.ledger ≤ n then m.rdDone i 5 [] false 0
  else if bad then (m.mramBad (ledgerAddr n)).rdDone i 4 [] false 0
  else m.rdDone i 0 (s.ledgerEntry n ++ (m.rdBuf i).bytes.drop 256) false 16

/-- LEDGER_GO. -/
def execLedgerGo (r : Requester) (uncorrectable : Bool) (s : State) : Result :=
  ok s (s.m.action r Reg.EVR.LEDGER_GO 1 (Mach.ledgerGo s uncorrectable))

/-! ### Export (R401) -/

/-- The export of a function. -/
def Mach.export_ (m : Mach) (fnKey : Nat) : Export := Tbl.get m.evr.exports fnKey {}
/-- The machine with it changed. -/
def Mach.updExport (m : Mach) (fnKey : Nat) (f : Export → Export) : Mach :=
  { m with evr := { m.evr with exports := Tbl.modify m.evr.exports fnKey {} f } }

/-- The slot a function's exports go through. -/
def slotOfKey (fnKey : Nat) : Nat := if fnKey < 16 then fnKey else fnKey % 16

/-- An export starts (R401, Table 17-10). -/
def Mach.startExport (m : Mach) (r : Requester) (i : Nat) : Mach :=
  if (m.export_ i).busy then (m.ignoreWrite r Reg.EVR.EXP_GO 1).updExport i (fun e => { e with err := 2 })
  else
    let pd := m.get Reg.EVR.EXP_PD i
    match Tbl.find m.xlt.pds pd with
    | none => m.updExport i (fun e => { e with err := 3 })
    | some p =>
      if p.slot != r.slotOf then m.updExport i (fun e => { e with err := 3 })
      else
        let va := m.get64 Reg.EVR.EXP_VA_LO Reg.EVR.EXP_VA_HI i / 16 * 16
        m.updExport i (fun _ =>
          { busy := true, next := m.get64 Reg.EVR.EXP_FROM_SEQ_LO Reg.EVR.EXP_FROM_SEQ_HI i, upTo := m.evr.nextSeq
            atc := va, limit := va + max 1024 (m.get Reg.EVR.EXP_LEN i), pd := pd })

/-- EXP_GO. -/
def execExpGo (r : Requester) (s : State) : Result :=
  ok s (s.m.action r Reg.EVR.EXP_GO 1 (fun m i => m.startExport r i))

/-- The write of one record by an export. -/
def Mach.exportOp (m : Mach) (i : Nat) (e : Export) (b : List Byte) : HostOp :=
  let f := match Tbl.find m.xlt.pds e.pd with | some p => p.func | none => 0
  { slot := slotOfKey i, func := f, pd := e.pd, va := e.atc, len := b.length, kind := 1, data := some b, purpose := .exporting i }

/-- The write of an export's next record has been issued. -/
def Mach.exportIssued (m : Mach) (i len : Nat) : Mach :=
  m.updExport i (fun e => { e with atc := e.atc + len, bytes := e.bytes + len, next := e.next + 1, wait := false })

/-- An export ends with an error code. -/
def Mach.exportEnd (m : Mach) (i err : Nat) : Mach := m.updExport i (fun e => { e with busy := false, wait := false, err := err })

/-- An export goes on, record by record: queued records are written to MRAM first; numbers that are gone are passed over with
GAP; it ends at its buffer's end or at the NEXT_SEQ held at its start. `fuel` bounds the numbers tried. -/
def State.pumpExport (i : Nat) : Nat → State → State
  | 0, s => s
  | fuel + 1, s =>
    let e := s.m.export_ i
    if !e.busy || e.wait then s
    else if e.upTo ≤ e.next then { s with m := s.m.exportEnd i 0 }
    else if !s.m.evr.written e.next then State.pumpExport i fuel s.writeHead
    else match s.m.evr.find e.next with
    | none =>
      let next := ((s.m.evr.where_.find? (fun a => decide (e.next < a.seq))).map (·.seq)).getD e.upTo
      State.pumpExport i fuel { s with m := s.m.updExport i (fun e => { e with gap := true, next := min next e.upTo }) }
    | some a =>
      if e.limit < e.atc + a.len then { s with m := s.m.exportEnd i 0 }
      else
        match s.m.hostAccess (s.m.exportOp i e (Memory.readRec s.mram a.place a.len)) with
        | (m, .issued) => State.pumpExport i fuel { s with m := m.exportIssued i a.len }
        | (m, .waiting) => { s with m := m.updExport i (fun e => { e with wait := true }) }
        | (m, .fault _) => { s with m := m.exportEnd i 1 }

/-- An export goes on with what it has to copy. -/
def State.goExport (s : State) (i : Nat) : State :=
  let e := s.m.export_ i
  s.pumpExport i (2 * (e.upTo - e.next) + s.m.evr.queue.length + s.m.evr.held.length + 4)

/-- EXPORT_COMPLETE: the export of the requester's function runs to its end, or to a translation it has to wait for. -/
def execExportComplete (r : Requester) (s : State) : Result := .next (s.goExport r.fnKey)

/-! ### The full ledger check (R409) -/

/-- VERIFY_GO: ignored while a check runs. -/
def execVerifyGo (r : Requester) (s : State) : Result :=
  ok s (s.m.actionIf r Reg.EVR.VERIFY_GO 1 (fun m _ => !m.evr.verBusy) (fun m _ =>
    let n := m.get Reg.EVR.VERIFY_FROM
    { m with evr := { m.evr with verBusy := true, verBad := false, verFrom := n, verPos := n, verAt := m.clk } }))

/-- The time the check of one entry takes, 1.5 ms (R409). -/
def verifyCycles : Nat := 3000000

/-- VERIFY_COMPLETE, 1.5 ms for each entry after VERIFY_GO: event 0xA032, or FS123 with 0xA030 at the failing entry. -/
def execVerifyComplete (bad : Option Nat) (s : State) : Result :=
  let m := s.m
  if !m.evr.verBusy then ok s m
  else
    let fail := match bad with | some i => decide (m.evr.verFrom ≤ i) && decide (i < m.evr.ledger) | none => false
    let i := bad.getD 0
    let stop := if fail then i + 1 else max m.evr.verFrom m.evr.ledger
    let m := m.elapseTo (m.evr.verAt + (stop - m.evr.verFrom) * verifyCycles)
    ok s (if fail then
        ({ m with evr := { m.evr with verBusy := false, verBad := true, verPos := i } }.raise 123 .none i 5).record 0xA030 5 [i]
      else { m with evr := { m.evr with verBusy := false, verPos := max m.evr.verFrom m.evr.ledger } }.record 0xA032 5
        [m.evr.verFrom, m.evr.ledger])

/-! ### Management messages -/

/-- A management message is answered. -/
def Mach.say (m : Mach) (p : Path) (r : MgmtRsp) : Mach := m.emit (.mgmt p r)

/-- A management message is refused: its completion code and event 0x9803 (R435). -/
def Mach.refuseCmd (m : Mach) (p : Path) (cmd code : Nat) : Mach :=
  ((m.bump Reg.ROL.REFUSED).record 0x9803 5 [cmd, code] (m.pathRole p)).say p (.code code)

/-- A management message reaches the MGC: in recovery nothing but PLDM and the reading of the recorder is answered (R368); a
message inside a session that is not open on its transport is an SPDM error; any other counts as the session's latest
(R418). SMBus is answered until the dynamic address is assigned (R459). -/
def Mach.mgmt (m : Mach) (p : Path) (act : Mach → Mach) : Mach :=
  if m.boot.recovery || (decide (p.via = .smbus) && m.rol.i3cAddr.isSome) then m
  else match p.sess with
  | none => act m
  | some k =>
    match Tbl.find m.rol.sessions k with
    | some x =>
      if x.via = p.via then
        act { m with rol := { m.rol with sessions := Tbl.set m.rol.sessions k { x with last := m.clk } } }
      else m.say p .spdmError
    | none => m.say p .spdmError

/-- LEDGER_READ (R412): any requester. -/
def State.doLedgerRead (s : State) (p : Path) (first count : Nat) (m : Mach) : Mach :=
  if count < 1 || 16 < count || m.evr.ledger ≤ first then m.refuseCmd p 0x10 2
  else
    let n := min count (m.evr.ledger - first)
    m.say p (.ledger first n m.evr.ledger ((List.range n).flatMap (fun k => s.ledgerEntry (first + k))))

/-- LEDGER_READ. -/
def execLedgerRead (p : Path) (first count : Nat) (s : State) : Result :=
  ok s (s.m.mgmt p (s.doLedgerRead p first count))

/-- The whole records from a number on that fit into so many bytes: their bytes, the number after the last, and whether
numbers were passed over. -/
def State.recordsFrom (s : State) : List RecAt → Nat → Nat → List Byte → Bool → List Byte × Nat × Bool
  | [], next, _, acc, gap => (acc, next, gap)
  | a :: rest, next, left, acc, gap =>
    if a.seq < next || !s.m.evr.written a.seq then s.recordsFrom rest next left acc gap
    else if left < a.len then (acc, next, gap)
    else s.recordsFrom rest (a.seq + 1) (left - a.len) (acc ++ Memory.readRec s.mram a.place a.len) (gap || next != a.seq)

/-- EVR_READ (R412): needs OPERATOR. -/
def State.doEvrRead (s : State) (p : Path) (maxBytes fromSeq : Nat) (m : Mach) : Mach :=
  if !(m.pathRole p).covers .operator then m.refuseCmd p 0x11 1
  else if maxBytes < 64 || 4096 < maxBytes then m.refuseCmd p 0x11 2
  else
    let (b, next, gap) := s.recordsFrom s.m.evr.where_ fromSeq maxBytes [] false
    m.say p (.records gap next m.evr.ringFirst b)

/-- EVR_READ: answered in recovery too (R368). -/
def execEvrRead (p : Path) (maxBytes fromSeq : Nat) (s : State) : Result :=
  ok s (if s.m.boot.recovery then s.doEvrRead p maxBytes fromSeq s.m else s.m.mgmt p (s.doEvrRead p maxBytes fromSeq))

/-- EVR_CNT_CLR. -/
def execEvrCntClr (r : Requester) (s : State) : Result :=
  ok s (s.m.action r Reg.EVR.CNT_CLR 1 (fun m _ => m.clear [Reg.EVR.LOST, Reg.EVR.SUPPRESSED]))

end Sys2Proof.Machine
end

