-- ==== Sys2Proof/Machine/Role.lean ====
section
/-!
DEFINITION. The SPDM responder (R410, R411), sessions, keys, grants and JTAG (R415 to R425): every command of file 18 but
register access, and the update of firmware (R368).
-/

namespace Sys2Proof.Machine

/-! ### Attestation -/

/-- A number for a transport. -/
def transportKey : Transport → Nat
  | .i3c => 0 | .smbus => 1 | .doe s => 2 + s

/-- GET_VERSION. -/
def execGetVersion (p : Path) (s : State) : Result := ok s (s.m.mgmt p (fun m => m.say p .version))
/-- GET_CAPABILITIES. -/
def execGetCapabilities (p : Path) (s : State) : Result := ok s (s.m.mgmt p (fun m => m.say p .capabilities))

/-- NEGOTIATE_ALGORITHMS: the module has one algorithm of each kind (R410). -/
def execNegotiateAlgorithms (p : Path) (offer : AlgOffer) (s : State) : Result :=
  let good := offer.sha384 && offer.ecdsaP384 && offer.ecdheP384 && offer.aes256Gcm
  ok s (s.m.mgmt p (fun m =>
    { m with rol := { m.rol with algs := Tbl.set m.rol.algs (transportKey p.via) good } }.say p (.algorithms good)))

/-- The slot 0 certificate chain. -/
def certificateChain : List Byte := (List.range Config.certificateLen).map Config.certificate

/-- GET_DIGESTS: that of slot 0. -/
def execGetDigests (p : Path) (s : State) : Result :=
  ok s (s.m.mgmt p (fun m => m.say p (.digests [leNat (digest certificateChain)])))

/-- GET_CERTIFICATE: part of the chain of slot 0, the only one. -/
def execGetCertificate (p : Path) (slot offset length : Nat) (s : State) : Result :=
  ok s (s.m.mgmt p (fun m =>
    if slot = 0 && offset < Config.certificateLen then m.say p (.certificate offset ((certificateChain.drop offset).take length))
    else m.say p .spdmError))

/-- A signature under the device attestation key, over a byte string (R406, R410). -/
def Mach.signed (m : Mach) (b : List Byte) : Nat × Mach :=
  let (n, m) := m.fresh
  (leNat ((List.range 96).map (Config.sign b n)), m)

/-- CHALLENGE: signed over the requester's nonce and the responder's. -/
def execChallenge (p : Path) (slot : Nat) (nonce : Nat) (s : State) : Result :=
  ok s (s.m.mgmt p (fun m =>
    if slot != 0 then m.say p .spdmError
    else
      let (n, m) := m.fresh
      let mine := Config.random n
      let (sig, m) := m.signed (leBytes 32 nonce ++ leBytes 32 mine)
      m.say p (.challenge mine sig)))

/-- The blocks a GET_MEASUREMENTS index names (R411): 0 the count, 0xFF all, 1 to 11 one. -/
def State.measurementBlocks (s : State) (index : Nat) : Option (List MeasBlock) :=
  let one := fun (k : Nat) => ({ index := k, kind := some (measKind k), value := leNat (s.measurement k) } : MeasBlock)
  if index = 0 then some [{ index := 0, kind := none, value := 11 }]
  else if index = 255 then some ((List.range 11).map (fun k => one (k + 1)))
  else if index ≤ 11 then some [one index]
  else none

/-- GET_MEASUREMENTS. -/
def execGetMeasurements (p : Path) (index : Nat) (signed : Bool) (nonce : Nat) (s : State) : Result :=
  ok s (s.m.mgmt p (fun m =>
    match s.measurementBlocks index with
    | none => m.say p .spdmError
    | some bs =>
      if signed then
        let (sig, m) := m.signed (leBytes 32 nonce ++ bs.flatMap (fun b => leBytes 1 b.index ++ leBytes 48 b.value))
        m.say p (.measurements bs (some sig))
      else m.say p (.measurements bs none)))

/-! ### Sessions (R417, R418, R421) -/

/-- The role that a key matches, with its key slot: the highest of MAKER, installer slots 0 to 3, operator slots 4 to 11. -/
def Mach.keyRole (m : Mach) (hash : List Byte) : Role × Option Nat :=
  let is := fun (k : Nat) => Tbl.find m.rol.keys k == some hash
  if hash == (List.range 48).map Config.makerKey then (.maker, none)
  else match (List.range 4).find? is with
  | some k => (.installer, some k)
  | none => match ((List.range 8).map (· + 4)).find? is with
    | some k => (.operator, some k)
    | none => (.none, none)

/-- AUTH_FAIL_LIMIT as it acts. -/
def Mach.authLimit (m : Mach) : Nat := max 1 (m.get Reg.ROL.AUTH_FAIL_LIMIT)

/-- An authentication failure (R421): event 0x9810; at the limit within 60 s, FS122, and the transport answers Busy for the
next 60 s. -/
def Mach.authFail (m : Mach) (via : Transport) : Mach :=
  let m := (m.bump Reg.ROL.AUTH_FAILS).record 0x9810 5 [transportKey via]
  let recent := m.clk :: m.rol.fails.filter (fun t => decide (m.clk < t + 60 * Config.secCycles))
  let m := { m with rol := { m.rol with fails := recent } }
  if m.authLimit ≤ recent.length then
    { m.raise 122 .none recent.length 5 with
      rol := { m.rol with busy := Tbl.set m.rol.busy (transportKey via) (m.clk + 60 * Config.secCycles) } }
  else m

/-- A transport answers Busy. -/
def Mach.authBusy (m : Mach) (via : Transport) : Bool :=
  match Tbl.find m.rol.busy (transportKey via) with | some t => decide (m.clk < t) | none => false

/-- The slot of a DOE transport. -/
def doeSlot : Transport → Nat
  | .doe s => s | .i3c => 0 | .smbus => 0

/-- A session is open (R418): event 0x9010 with role, transport and slot. -/
def Mach.sessionOpened (m : Mach) (k : Nat) (x : Session) : Mach :=
  (m.bump Reg.ROL.SESS_OPENED).record 0x9010 5 [k, x.role.code, transportKey x.via, x.keySlot.getD 255] x.role

/-- The lowest free session number. -/
def Mach.freeSession (m : Mach) : Option Nat := (List.range 16).find? (fun k => (Tbl.find m.rol.sessions k).isNone)

/-- KEY_EXCHANGE: a session without mutual authentication is open at once and has no role; one with it takes its role at
FINISH. -/
def Mach.keyExchange (m : Mach) (p : Path) (x : KeyExchange) : Mach :=
  if m.authBusy p.via then m.say p .busy
  else match m.freeSession with
  | none => m.say p .busy
  | some k =>
    if x.mutualAuth && !x.mutualOk then (m.authFail p.via).say p .spdmError
    else
      let hash := slice x.keyHash 0 48
      let (role, slot) := if x.mutualAuth then m.keyRole hash else (Role.none, none)
      let y : Session := { via := p.via, role := role, keySlot := slot, mutualAuth := x.mutualAuth, done := !x.mutualAuth
                           keyHash := hash, last := m.clk }
      let m := { m with rol := { m.rol with sessions := Tbl.set m.rol.sessions k y } }
      let m := (List.range 16).foldl (fun a v => a.clearIndexes (32 + 16 * k + v)) m
      let m := if x.mutualAuth then m else m.sessionOpened k y
      m.say p (.keyExchange k)

/-- KEY_EXCHANGE. -/
def execKeyExchange (p : Path) (x : KeyExchange) (s : State) : Result := ok s (s.m.mgmt p (fun m => m.keyExchange p x))

/-- FINISH: a good signature completes a mutually authenticated session; a bad one is an authentication failure and ends
it. -/
def Mach.finish (m : Mach) (p : Path) (k : Nat) (good : Bool) : Mach :=
  match Tbl.find m.rol.sessions k with
  | none => m.say p .spdmError
  | some x =>
    if x.via != p.via || x.mutualAuth && x.done then m.say p .spdmError
    else if !x.mutualAuth then m.say p (.finished .none)
    else if good then
      let y := { x with done := true, last := m.clk }
      ({ m with rol := { m.rol with sessions := Tbl.set m.rol.sessions k y } }.sessionOpened k y).say p (.finished y.role)
    else ({ m with rol := { m.rol with sessions := Tbl.del m.rol.sessions k } }.authFail p.via).say p .spdmError

/-- FINISH. -/
def execFinish (p : Path) (k : Fin 16) (signatureOk : Bool) (s : State) : Result :=
  ok s (s.m.mgmt p (fun m => m.finish p k signatureOk))

/-- AUTH_BUSY_END: after 60 s the transport takes key exchanges again (R421). -/
def execAuthBusyEnd (t : Transport) (s : State) : Result :=
  ok s (match Tbl.find s.m.rol.busy (transportKey t) with
    | none => s.m
    | some e =>
      let m := s.m.elapseTo e
      { m with rol := { m.rol with busy := Tbl.del m.rol.busy (transportKey t) } })

/-- A message that needs a session to be inside. -/
def Mach.inSession (m : Mach) (p : Path) (act : Mach → Nat → Mach) : Mach :=
  m.mgmt p (fun m => match p.sess with | some k => act m k | none => m.say p .spdmError)

/-- HEARTBEAT. -/
def execHeartbeat (p : Path) (s : State) : Result := ok s (s.m.inSession p (fun m _ => m.say p .heartbeatAck))
/-- KEY_UPDATE. -/
def execKeyUpdate (p : Path) (s : State) : Result := ok s (s.m.inSession p (fun m _ => m.say p .keyUpdated))
/-- END_SESSION. -/
def execEndSession (p : Path) (s : State) : Result :=
  ok s (s.m.inSession p (fun m k => (m.say p .sessionEnded).closeSession k 0))

/-- SESS_IDLE as it acts, in cycles. -/
def Mach.sessIdle (m : Mach) : Nat := clamp 10 3600 (m.get Reg.ROL.SESS_IDLE) * Config.secCycles

/-- SESSION_IDLE_TIMEOUT (R418). -/
def execSessionIdleTimeout (k : Fin 16) (s : State) : Result :=
  ok s (match Tbl.find s.m.rol.sessions k with
    | some x => (s.m.elapseTo (x.last + s.m.sessIdle)).closeSession k 1
    | none => s.m)

/-! ### Commands that need a role (Table 18-5) -/

/-- The 0x9001 record of an MCTP command that needs INSTALLER or MAKER (R427): no register is named, and the command's code
stands for the value written. -/
def Mach.recordCmd (m : Mach) (p : Path) (cmd : Nat) : Mach :=
  let seq := m.evr.nextSeq
  let path := match p.via with | .doe _ => 2 | .i3c => 1 | .smbus => 1
  let body := zeros 8 ++ leBytes 4 cmd ++ zeros 4 ++ leBytes 1 path ++ leBytes 1 (doeSlot p.via) ++
    leBytes 2 (match p.sess with | some k => k.val | none => 65535) ++ leBytes 4 4294967295 ++ leBytes 4 4294967295
  let m := m.accept (m.mkRec 0x9001 5 (.bytes body) (m.pathRole p))
  (m.bump Reg.ROL.PRIV_WRITES).put64 Reg.ROL.LAST_PRIV_SEQ_LO Reg.ROL.LAST_PRIV_SEQ_HI seq

/-- A command that changes state, with the role it needs (Table 18-5): refused with 0x01 for its role, with 0x03 in LOCKOUT
(R425). -/
def Mach.roleCmd (m : Mach) (p : Path) (cmd : Nat) (need : Role) (act : Mach → Mach) : Mach :=
  m.mgmt p (fun m =>
    if !(m.pathRole p).covers need then m.refuseCmd p cmd 1
    else if m.mode = .lockout then m.refuseCmd p cmd 3
    else act m)

/-- WAKE (R435): DORMANT to CONFIG. -/
def Mach.wake (m : Mach) (p : Path) (meet : ModeMeet) : Mach :=
  m.roleCmd p 0x22 .operator (fun m =>
    if m.modeBusy 2 meet then (m.refuseMode (m.pathRole p) 2 2).refuseCmd p 0x22 3
    else if m.mode = .dormant then (m.wakeAll.measureSettings.enterConfig 0).say p (.code 0)
    else (m.refuseMode (m.pathRole p) 2 1).refuseCmd p 0x22 3)

/-- WAKE. -/
def execWake (p : Path) (meet : ModeMeet) (s : State) : Result := okFlt s (s.m.wake p meet)

/-- GRANT_MAX as it acts, in minutes. -/
def Mach.grantMax (m : Mach) : Nat := clamp 1 1440 (m.get Reg.ROL.GRANT_MAX)

/-- ROLE_GRANT (R422). -/
def Mach.roleGrant (m : Mach) (p : Path) (slot minutes : Nat) : Mach :=
  m.roleCmd p 0x30 .installer (fun m =>
    let own := match p.via with | .doe s => decide (s.val = slot) | .i3c => true | .smbus => true
    if 16 ≤ slot || minutes < 1 || m.grantMax < minutes || !m.slotPresent slot then m.refuseCmd p 0x30 2
    else if !own then m.refuseCmd p 0x30 1
    else if (Tbl.find m.rol.grants slot).isNone && 4 ≤ m.rol.grants.length then m.refuseCmd p 0x30 3
    else
      let k := match p.sess with | some k => k.val | none => 0
      let g : Grant := { sess := k, role := m.pathRole p, ends := m.clk + minutes * 60 * Config.secCycles }
      let m := m.recordCmd p 0x30
      let m := { m with rol := { m.rol with grants := Tbl.set m.rol.grants slot g } }
      (((m.bump Reg.ROL.GRANTS).record 0x9012 5 [slot, k, minutes] g.role).say p (.code 0)))

/-- ROLE_GRANT. -/
def execRoleGrant (p : Path) (slot : Nat) (minutes : Nat) (s : State) : Result := ok s (s.m.roleGrant p slot minutes)

/-- ROLE_DROP by a message: from a session of the grant's role or a higher one, so that it needs INSTALLER or MAKER and is
recorded (R427); it succeeds with no grant too, and then needs neither. -/
def Mach.roleDropMsg (m : Mach) (p : Path) (slot : Nat) : Mach :=
  let need := match Tbl.find m.rol.grants slot with | some g => g.role | none => .none
  m.roleCmd p 0x31 need (fun m =>
    if 16 ≤ slot then m.refuseCmd p 0x31 2
    else ((if need.covers .installer then m.recordCmd p 0x31 else m).endGrant slot 0).say p (.code 0))

/-- ROLE_DROP written by a PF0 ends its slot's grant. -/
def Mach.roleDropReg (m : Mach) (r : Requester) : Mach :=
  m.action r Reg.ROL.ROLE_DROP 1 (fun m _ => m.endGrant r.slotOf 0)

/-- ROLE_DROP (R423). -/
def execRoleDrop (by_ : RoleDropBy) (s : State) : Result :=
  ok s (match by_ with
    | .register r => s.m.roleDropReg r
    | .message p slot => s.m.roleDropMsg p slot)

/-- GRANT_EXPIRY (R423). -/
def execGrantExpiry (slot : Slot) (s : State) : Result :=
  ok s (match Tbl.find s.m.rol.grants slot with
    | some g => (s.m.elapseTo g.ends).endGrant slot 1
    | none => s.m)

/-- KEY_ENROL (R420): event 0x9020 with the slot and the hash. -/
def Mach.keyEnrol (m : Mach) (p : Path) (slot : Nat) (hash : List Byte) : Mach :=
  m.roleCmd p 0x40 .installer (fun m =>
    if 12 ≤ slot then m.refuseCmd p 0x40 2
    else
      let h := slice hash 0 48
      let m := m.recordCmd p 0x40
      ({ m with rol := { m.rol with keys := Tbl.set m.rol.keys slot h } }.record 0x9020 5 [slot, leNat h] (m.pathRole p)).say
        p (.code 0))

/-- KEY_ENROL. -/
def execKeyEnrol (p : Path) (slot : Nat) (hash : List Byte) (s : State) : Result := ok s (s.m.keyEnrol p slot hash)

/-- KEY_REMOVE (R420): the sessions that matched the key end; event 0x9021. -/
def Mach.keyRemove (m : Mach) (p : Path) (slot : Nat) : Mach :=
  m.roleCmd p 0x41 .installer (fun m =>
    if 12 ≤ slot then m.refuseCmd p 0x41 2
    else
      let h := Tbl.get m.rol.keys slot []
      let role := m.pathRole p
      let m := m.recordCmd p 0x41
      let ks := (m.rol.sessions.filter (fun (x : Nat × Session) => x.2.keySlot == some slot)).map (·.1)
      let m := { m with rol := { m.rol with keys := Tbl.del m.rol.keys slot } }
      let m := (m.record 0x9021 5 [slot, leNat h] role).say p (.code 0)
      ks.foldl (fun a k => a.closeSession k 4) m)

/-- KEY_REMOVE. -/
def execKeyRemove (p : Path) (slot : Nat) (s : State) : Result := ok s (s.m.keyRemove p slot)

/-- CLAIM (R419): over MCTP, inside a session with mutual authentication, while UNCLAIMED. -/
def Mach.claim (m : Mach) (p : Path) : Mach :=
  m.roleCmd p 0x42 .none (fun m =>
    let mctp := match p.via with | .doe _ => false | .i3c => true | .smbus => true
    match p.sess with
    | none => m.refuseCmd p 0x42 1
    | some k =>
      match Tbl.find m.rol.sessions k with
      | none => m.refuseCmd p 0x42 1
      | some x =>
        if !mctp || !x.mutualAuth || !x.done then m.refuseCmd p 0x42 1
        else if m.rol.claimed then m.refuseCmd p 0x42 3
        else
          let role := if x.role.covers .installer then x.role else .installer
          let y := { x with role := role, keySlot := if x.role = .maker then x.keySlot else some 0 }
          let m := { m with rol := { m.rol with
            keys := Tbl.set m.rol.keys 0 x.keyHash, claimed := true, sessions := Tbl.set m.rol.sessions k y } }
          (m.record 0x9030 5 [k] role).say p (.code 0))

/-- CLAIM. -/
def execClaim (p : Path) (s : State) : Result := ok s (s.m.claim p)

/-- RELEASE (R419): every key goes, and every session but its own ends. -/
def Mach.release (m : Mach) (p : Path) : Mach :=
  m.roleCmd p 0x43 .maker (fun m =>
    let role := m.pathRole p
    let m := m.recordCmd p 0x43
    let others := m.rol.sessions.keys.filter (fun k => p.sess.map (·.val) != some k)
    let m := { m with rol := { m.rol with keys := [], claimed := false } }
    let m := (m.record 0x9031 5 [] role).say p (.code 0)
    others.foldl (fun a k => a.closeSession k 5) m)

/-- RELEASE. -/
def execRelease (p : Path) (s : State) : Result := ok s (s.m.release p)

/-! ### JTAG (R424) -/

/-- JTAG_UNLOCK. -/
def Mach.jtagUnlock (m : Mach) (p : Path) (unlock : Bool) : Mach :=
  m.roleCmd p 0x50 .maker (fun m =>
    let role := m.pathRole p
    let k := match p.sess with | some k => k.val | none => 0
    let m := m.recordCmd p 0x50
    (if unlock then { m with rol := { m.rol with jtag := some k } }.record 0x9040 5 [k] role else m.lockJtag).say p (.code 0))

/-- JTAG_UNLOCK. -/
def execJtagUnlock (p : Path) (unlock : Bool) (s : State) : Result := ok s (s.m.jtagUnlock p unlock)

/-- JTAG_INSTRUCTION: IDCODE and BYPASS are answered at all times; any other does nothing while JTAG is locked and raises
FS124. -/
def execJtagInstruction (ir : JtagIr) (s : State) : Result :=
  ok s (match ir with
    | .idcode => s.m
    | .bypass => s.m
    | .other code => if s.m.rol.jtag.isSome then s.m else s.m.raise 124 .none code 4)

/-- ROL_CNT_CLR. -/
def execRolCntClr (r : Requester) (s : State) : Result :=
  ok s (s.m.action r Reg.ROL.CNT_CLR 1 (fun m _ =>
    m.clear [Reg.ROL.PRIV_WRITES, Reg.ROL.REFUSED, Reg.ROL.SESS_OPENED, Reg.ROL.AUTH_FAILS, Reg.ROL.GRANTS]))

/-! ### Firmware and the I3C address -/

/-- PLDM_FIRMWARE_UPDATE (R366, R368): the image is written into its slot; activation names the slot as preferred and makes a
module reset. It is answered in recovery too; in LOCKOUT it is refused (R425). -/
def execPldmFirmwareUpdate (p : Path) (u : PldmUpdate) (b : BootIn) (s : State) : Result :=
  match p.via with
  | .doe _ => ok s s.m
  | _ =>
    if u.complete && u.activate && s.m.mode != .lockout then
      .next ({ s with m := { s.m with boot := { s.m.boot with prefSlot := u.slot } } }.moduleResets b 2)
    else ok s s.m

/-- DYNAMIC_ADDRESS_ASSIGNMENT (R459). -/
def execDynamicAddressAssignment (addr : Nat) (s : State) : Result :=
  ok s { s.m with rol := { s.m.rol with i3cAddr := some (addr % 128) } }

end Sys2Proof.Machine
end

