-- ==== Sys2Proof/Machine/HostReset.lean ====
section
/-!
DEFINITION. Function resets and host-port resets (R172, R174, R175, Table 6-15), and the clocks and resets of the module's
pins (R454 to R456).
-/

namespace Sys2Proof.Machine

/-! ### Rings that are destroyed -/

/-- WR_DESTROY (R172): the scan stops; an acquire that still waits completes with CANCELLED. -/
def execWrDestroy (r : Requester) (s : State) : Result :=
  ok s (s.m.action r Reg.HIF.WR_CMD 2 (fun m n => m.onWr r n (fun m w =>
    let m := ((m.stopScan n w).updWr n (fun w => { w with st := 2, drainStop := false })).pumpTxe w.slot w.txe
    let kept := m.lka.waiting.filter (fun x => x.1 == n)
    let m := { m with lka := { m.lka with waiting := m.lka.waiting.filter (fun x => x.1 != n) } }
    let m := kept.foldl (fun (a : Mach) x => a.finishWork x.1 x.2 8 0) m
    let mine := m.lka.reqs.filter (fun (x : LkReq) => x.ring == n && x.kind == 0x20)
    mine.foldl (fun (a : Mach) x => a.withdrawReq x.q x.tag 8) m)))

/-- A message whose work has been destroyed: one that has sent nothing leaves; of another, the packets not yet sent carry
POISON (DESIGN CHOICE, log entry 42). -/
def orphanMsg (mine : Owner → Bool) (x : TxMsg) : Option TxMsg :=
  if !mine x.owner then some x
  else if x.msn.isNone then none
  else if x.src == .held then some { x with owner := .none }
  else some { x with owner := .none, poison := some (min (4096 * x.sent) (x.poison.getD (4096 * x.sent))), reading := [] }

/-- The messages, GETs, receives and acquires of destroyed rings go with them (Table 6-15, R289). -/
def Mach.dropRings (m : Mach) (rings : List Nat) : Mach :=
  let has := fun (n : Nat) => rings.contains n
  let gets := (m.cxn.gets.filter (fun (g : GetOut) => has g.ring)).map (fun (g : GetOut) => g.uid)
  let mine := fun (o : Owner) => match o with
    | .work n _ => has n
    | .get uid => gets.contains uid
    | _ => false
  let touched := m.cxn.ctxs.keys.filter (fun cx => match m.txOf cx with
    | some t => t.msgs.any (fun x => mine x.owner)
    | none => false)
  let opMine := fun (o : HostOp) => match o.purpose with
    | .ringHeader n _ _ => has n
    | .ringBody n .. => has n
    | .consWb n => has n
    | _ => false
  let m := { m with
    cxn := { m.cxn with gets := m.cxn.gets.filter (fun (g : GetOut) => !has g.ring) }
    mat := { m.mat with
      sends := m.mat.sends.filter (fun (p : PendSend) => !has p.ring)
      posted := m.mat.posted.filter (fun (r : Recv) => !has r.ring)
      heldRecv := m.mat.heldRecv.filter (fun (r : Recv) => !has r.ring) }
    lka := { m.lka with waiting := m.lka.waiting.filter (fun x => !has x.1) }
    xlt := { m.xlt with
      walks := m.xlt.walks.map (fun (w : Walk) => { w with waiters := w.waiters.filter (fun o => !opMine o) })
      waiting := m.xlt.waiting.filter (fun o => !opMine o) }
    hif := { m.hif with
      work := m.hif.work.filter (fun (w : Work) => !has w.ring)
      reads := m.hif.reads.filter (fun (r : HostRead) => r.walk.isSome || !opMine r.op) } }
  touched.foldl (fun (a : Mach) cx =>
    ((a.updTx cx (fun t => { t with msgs := t.msgs.filterMap (orphanMsg mine) })).assign cx).pumpSend cx) m

/-- A work ring is destroyed without completions: it is FREE at once. -/
def Mach.freeWr (m : Mach) (n : Nat) : Mach :=
  match m.wr n with
  | none => m
  | some w =>
    let m := m.stopScan n w
    { m with hif := { m.hif with wrs := Tbl.del m.hif.wrs n, seqBase := max m.hif.seqBase (w.seq + 1), dbBase := max m.hif.dbBase w.db } }.pumpTxe w.slot w.txe

/-! ### Function resets -/

/-- A function is reset (Table 6-15, R175, R215, R252, R289). -/
def Mach.resetFn (m : Mach) (slot fn : Nat) : Mach :=
  let rings := m.wrsOf slot fn
  let m := (m.updFunc slot fn (fun _ => { barred := true })).locksReset slot fn
  let m := rings.foldl Mach.collRingGone m
  let crs := m.crsOf slot fn
  let m := { m with hif := { m.hif with crs := m.hif.crs.filter (fun c => !crs.contains c.1) } }
  let m := (rings.foldl Mach.freeWr m).dropRings rings
  let wins := (m.cxn.windows.filter (fun (w : Nat × Window) => w.2.slot == slot && w.2.func == fn && w.2.valid)).map (·.1)
  let m := wins.foldl Mach.closeWindow m
  let doms := (m.mat.domains.filter (fun (d : Nat × Domain) => d.2.slot == slot && d.2.func == fn && d.2.active)).map (·.1)
  doms.foldl (fun (a : Mach) d => a.disableDomain d 8) m

/-- The functions of a slot that own something or have been enabled. -/
def Mach.fnsOf (m : Mach) (slot : Nat) : List Nat :=
  let a := (m.hif.funcs.keys.filter (fun k => k / 256 == slot)).map (· % 256)
  let b := (m.hif.wrs.filter (fun (c : Nat × WorkRing) => c.2.slot == slot)).map (fun (c : Nat × WorkRing) => c.2.func)
  let c := (m.hif.crs.filter (fun (c : Nat × ComplRing) => c.2.slot == slot)).map (fun (c : Nat × ComplRing) => c.2.func)
  let d := (m.cxn.windows.filter (fun (w : Nat × Window) => w.2.slot == slot)).map (fun (w : Nat × Window) => w.2.func)
  let e := (m.mat.domains.filter (fun (d : Nat × Domain) => d.2.slot == slot)).map (fun (d : Nat × Domain) => d.2.func)
  let f := (m.lka.held.filter (fun (h : HeldLock) => h.slot == slot)).map (fun (h : HeldLock) => h.fn)
  (a ++ b ++ c ++ d ++ e ++ f).eraseDups

/-- Functions `lo` to 255 of a slot read as after a reset. -/
def Mach.barFns (m : Mach) (slot lo : Nat) : Mach :=
  { m with hif := { m.hif with
      funcs := m.hif.funcs.filter (fun c => decide (c.1 < fnKey slot lo)) ++
        (List.range (256 - lo)).map (fun i => (fnKey slot (lo + i), { barred := true })) ++
        m.hif.funcs.filter (fun c => decide (fnKey slot 255 < c.1)) } }

/-- VF Enable of a slot is clear. -/
def Mach.vfClear (m : Mach) (slot : Nat) : Mach := { m with hif := { m.hif with vfOn := Tbl.del m.hif.vfOn slot } }

/-- VF Enable is cleared: every VF of the slot is reset. -/
def Mach.resetVfs (m : Mach) (slot : Nat) : Mach :=
  ((((m.fnsOf slot).filter (· != 0)).foldl (fun (a : Mach) f => a.resetFn slot f) m).barFns slot 1).vfClear slot

/-- The sessions over a slot's DOE mailbox and its grant end, and its index registers return to 0 (R418, R423, R433). -/
def Mach.slotSessions (m : Mach) (slot : Nat) : Mach :=
  let doeOf := fun (x : Session) => match x.via with | .doe s => s.val == slot | _ => false
  let ks := (m.rol.sessions.filter (fun (c : Nat × Session) => doeOf c.2)).map (·.1)
  ((ks.foldl (fun (a : Mach) k => a.closeSession k 3) m).endGrant slot 3).clearIndexes slot

/-- FLR: the function, with PF0 also every VF; event 0x6030 (R175). -/
def execFlr (slot : Slot) (fn : Fin 256) (s : State) : Result :=
  ok s (if !s.m.slotPresent slot then s.m
    else
      let m := s.m.resetFn slot fn
      let m := if fn.val = 0 then (m.resetVfs slot).slotSessions slot else m
      m.record 0x6030 (quadOfSlot slot) [slot, fn])

/-- VF_ENABLE_CLEAR; event 0x6030. -/
def execVfEnableClear (slot : Slot) (s : State) : Result :=
  ok s (if !s.m.slotPresent slot then s.m
    else (s.m.resetVfs slot).record 0x6030 (quadOfSlot slot) [slot, 256])

/-! ### Host ports -/

/-- Every function of a slot is reset with its port, and FS64 raised for the slot. -/
def Mach.resetSlot (m : Mach) (slot : Nat) : Mach :=
  if !m.slotPresent slot then m
  else
    let m := m.collSlotGone slot
    let m := (((m.fnsOf slot).foldl (fun (a : Mach) f => a.resetFn slot f) m).barFns slot 0).vfClear slot
    (m.raise 64 (.slot slot) 0 (quadOfSlot slot)).endCondition 65 (.slot slot)

/-- The bifurcation and generation that a port's registers ask for act (R149). -/
def Mach.applyBifurc (m : Mach) (hp : Nat) : Mach :=
  let m := { m with hif := { m.hif with gens := Tbl.set m.hif.gens hp (m.get Reg.HIF.GEN_MAX hp) } }
  m.put Reg.HIF.BIFURCATED (m.get Reg.HIF.BIFURC hp) hp

/-- A host port goes down (Table 6-15, R175, R176): PERST and a hot reset also end the slots' sessions, grants and
containment, and let BIFURC and GEN_MAX act, PERST at its de-assertion. -/
def Mach.resetPort (m : Mach) (hp : Nat) (kind : PortResetKind) : Mach :=
  let slots := [2 * hp, 2 * hp + 1]
  let m := slots.foldl Mach.resetSlot m
  let m := [Reg.HIF.SPEED_H0, Reg.HIF.WIDTH_H0, Reg.HIF.SPEED_H1, Reg.HIF.WIDTH_H1].foldl (fun (a : Mach) f => a.put f 0 hp) m
  let m := m.record 0x6001 (hp / 2) [hp]
  if kind = .linkDown then m
  else
    let m := slots.foldl (fun (a : Mach) s => (a.slotSessions s).releaseSlot s) m
    if kind = .hot then m.applyBifurc hp
    else { m with hif := { m.hif with perst := Tbl.set m.hif.perst hp true } }

/-- HOST_PORT_RESET. -/
def execHostPortReset (hp : HostPort) (kind : PortResetKind) (s : State) : Result := ok s (s.m.resetPort hp kind)

/-- PERST_DEASSERT: the clock mode is chosen, and BIFURC acts (R149, R455, R456). -/
def execPerstDeassert (hp : HostPort) (refClock : Bool) (s : State) : Result :=
  let m := s.m
  ok s ({ m with hif := { m.hif with
    perst := Tbl.set m.hif.perst hp false, common := Tbl.set m.hif.common hp refClock } }.applyBifurc hp)

/-- PCIE_REFCLK_STOP: a link that is up in common-clock mode goes down (R455). -/
def execPcieRefclkStop (hp : HostPort) (s : State) : Result :=
  ok s (if Tbl.get s.m.hif.common hp false && (s.m.get Reg.HIF.SPEED_H0 hp != 0 || s.m.get Reg.HIF.SPEED_H1 hp != 0) then
    s.m.resetPort hp .linkDown else s.m)

/-! ### REFCLK (R454) -/

/-- The rate word of the internal oscillator: within 5 % of nominal. -/
def oscillatorRate (n : Nat) : Nat := 8 * 2 ^ 32 * 95 / 100 + Config.oscillator n % (8 * 2 ^ 32 / 10 + 1)

/-- REFCLK_LOSS: FS13; HGT stays on the AON copy, which runs from the internal oscillator; UNLOCKED. -/
def execRefclkLoss (s : State) : Result :=
  ok s (if s.m.tim.osc.isSome then s.m
    else
      let (n, m) := s.m.fresh
      let m := { m with tim := { m.tim with osc := some (oscillatorRate n), everLocked := false, goodRun := 0 } }
      (m.put Reg.TIM.STATE 0).raise 13 .none 0 4)

/-- REFCLK_RETURN: FS13 clears, and the quadrants count on from the AON copy. -/
def execRefclkReturn (s : State) : Result :=
  ok s (if s.m.tim.osc.isNone then s.m
    else
      let h := s.m.tim.aon
      { s.m with tim := { s.m.tim with osc := none, hgt := { q0 := h, q1 := h, q2 := h, q3 := h } } }.endCondition 13 .none)

end Sys2Proof.Machine
end

