-- ==== Sys2Proof/Machine/Pmc.lean ====
section
/-!
DEFINITION. The commands of the counters (file 19): snapshots (R445), clearing, overflow interrupts (R443), streams (R446).
-/

namespace Sys2Proof.Machine

/-- A snapshot of a bank: CYC, PC0 to PC7 and the HGT of its quadrant (R445, Table 2-3). -/
def Mach.snapBank (m : Mach) (b : Nat) : Mach :=
  (List.range 8).foldl (fun (a : Mach) k => a.put64 (Reg.PMC.SNAP_PC_LO k) (Reg.PMC.SNAP_PC_HI k) (m.pc b k) b)
    ((m.put64 Reg.PMC.SNAP_CYC_LO Reg.PMC.SNAP_CYC_HI (m.get64 Reg.PMC.CYC_LO Reg.PMC.CYC_HI b) b).put64
      Reg.PMC.SNAP_TS_LO Reg.PMC.SNAP_TS_HI (m.hgt (bankQuad b)) b)

/-- A snapshot of every bank at one edge. -/
def Mach.snapAll (m : Mach) : Mach := (List.range 36).foldl Mach.snapBank m

/-- SNAP. -/
def execSnap (r : Requester) (s : State) : Result := ok s (s.m.action r Reg.PMC.SNAP 1 Mach.snapBank)

/-- SNAP_ALL. -/
def execSnapAll (r : Requester) (s : State) : Result := ok s (s.m.action r Reg.PMC.SNAP_ALL 1 (fun m _ => m.snapAll))

/-- SNAP_ARM: a new arm replaces a pending one. -/
def execSnapArm (r : Requester) (s : State) : Result :=
  ok s (s.m.action r Reg.PMC.SNAP_ARM 1 (fun m _ =>
    { m with pmc := { m.pmc with snapAt := some (m.get64 Reg.PMC.SNAP_TIME_LO Reg.PMC.SNAP_TIME_HI) } }.put
      Reg.PMC.SNAP_PENDING 1))

/-- ARMED_SNAPSHOT: at the first edge at or after SNAP_TIME. -/
def execArmedSnapshot (s : State) : Result :=
  ok s (match s.m.pmc.snapAt with
    | none => s.m
    | some t =>
      let q := s.m.refQuad
      let m := if s.m.hgt q < t then s.m.elapseHgt q (t - s.m.hgt q) else s.m
      { m.snapAll with pmc := { m.pmc with snapAt := none } }.put Reg.PMC.SNAP_PENDING 0)

/-- PMC_CLR: CYC, PC0 to PC7 and OVF of the indexed bank. -/
def execPmcClr (r : Requester) (s : State) : Result :=
  ok s (s.m.action r Reg.PMC.CLR 1 (fun m b =>
    (List.range 8).foldl (fun (a : Mach) k => a.setPc b k 0)
      ((m.put64 Reg.PMC.CYC_LO Reg.PMC.CYC_HI 0 b).put Reg.PMC.OVF 0 b)))

/-- The interrupt of a bank's overflows (R443): one for all of one cycle. -/
def Mach.postPmi (m : Mach) (b k : Nat) : Mach :=
  match m.pmc.due.find? (fun d => d.1 == b && d.2.1 == k) with
  | none => m
  | some d =>
    let m := { m with pmc := { m.pmc with due := m.pmc.due.filter (fun e => !(e.1 == b && e.2.2 == d.2.2)) } }
    let slot := m.get Reg.PMC.PMI_SLOT
    let vec := m.get Reg.PMC.PMI_VEC
    if vec < vectorsOf 0 && m.slotPresent slot then m.interrupt slot 0 vec else m

/-- COUNTER_OVERFLOW: the interrupt of a wrap that counting has brought about, or the wrap of a counter that stands at its last
value in a bank that counts. -/
def execCounterOverflow (bank : Nat) (n : Fin 8) (s : State) : Result :=
  let m := s.m
  if m.pmc.due.any (fun d => d.1 == bank && d.2.1 == n.val) then ok s (m.postPmi bank n)
  else if m.pmc.on.contains bank && !m.pcChained bank n && m.pc bank n = 2 ^ 48 - 1 then
    ok s ((m.pcAdd bank n 1 m.clk).postPmi bank n)
  else ok s m

/-! ### Streams -/

/-- STR_PERIOD as it acts, in cycles. -/
def Mach.streamCycles (m : Mach) (n : Nat) : Nat := clamp 10 1000000 (m.get Reg.PMC.STR_PERIOD n) * Config.usCycles

/-- The PD of a stream belongs to its slot and is enabled. -/
def Mach.streamPd (m : Mach) (n slot : Nat) : Option Pd :=
  (Tbl.find m.xlt.pds (m.get Reg.PMC.STR_PD n)).filter (fun p => p.slot == slot)

/-- A stream ends with a code in STR_ERR. -/
def Mach.streamEnd (m : Mach) (n err : Nat) : Mach :=
  ({ m with pmc := { m.pmc with streams := Tbl.del m.pmc.streams n } }.put Reg.PMC.STR_EN 0 n).put Reg.PMC.STR_ERR err n

/-- STR_EN changes to 1: the stream starts at SEQ 0. -/
def Mach.streamStart (m : Mach) (slot n : Nat) : Mach :=
  if (m.streamPd n slot).isNone then m.streamEnd n 3
  else
    let x : Stream := { slot := slot, seq := 0, due := m.clk + m.streamCycles n }
    { m with pmc := { m.pmc with streams := Tbl.set m.pmc.streams n x } }.put Reg.PMC.STR_ERR 0 n

/-- The record of a stream (Table 19-5), after its snapshot. -/
def Mach.streamRecord (m : Mach) (n seq : Nat) : List Byte :=
  let b := m.get Reg.PMC.STR_BANK n
  leBytes 8 seq ++ leBytes 8 (m.get64 Reg.PMC.SNAP_TS_LO Reg.PMC.SNAP_TS_HI b) ++
  leBytes 8 (m.get64 Reg.PMC.SNAP_CYC_LO Reg.PMC.SNAP_CYC_HI b) ++
  (List.range 8).flatMap (fun k => leBytes 6 (m.get64 (Reg.PMC.SNAP_PC_LO k) (Reg.PMC.SNAP_PC_HI k) b)) ++
  leBytes 1 b ++ leBytes 1 (m.get Reg.PMC.OVF b) ++ zeros 46 ++ leBytes 8 seq

/-- A write of a stream's record: `from_` on, to `upTo`. -/
def Mach.streamOp (m : Mach) (n : Nat) (x : Stream) (p : Pd) (from_ upTo : Nat) : HostOp :=
  let va := m.get64 Reg.PMC.STR_VA_LO Reg.PMC.STR_VA_HI n / 256 * 256 + 128 * (x.seq % 2)
  { slot := x.slot, func := p.func, pd := m.get Reg.PMC.STR_PD n, va := va + from_, len := upTo - from_, kind := 1
    data := some (((m.streamRecord n x.seq).drop from_).take (upTo - from_)), purpose := .stream n }

/-- STREAM_PERIOD: the next record of a stream that runs: bytes 8 to 127 first, bytes 0 to 7 last (R446). -/
def execStreamPeriod (n : Nat) (s : State) : Result :=
  ok s (match Tbl.find s.m.pmc.streams n with
    | none => s.m
    | some x =>
      let m := s.m.elapseTo x.due
      match m.streamPd n x.slot with
      | none => m.streamEnd n 3
      | some p =>
        let b := m.get Reg.PMC.STR_BANK n
        let m := if b < 36 then m.snapBank b else m
        let body := m.streamOp n x p 8 128
        let head := m.streamOp n x p 0 8
        let next : Stream := { x with seq := x.seq + 1, due := x.due + m.streamCycles n }
        let m := { m with pmc := { m.pmc with streams := Tbl.set m.pmc.streams n next } }
        match m.hostAccess body with
        | (m, .fault _) => m.streamEnd n 1
        | (m, _) =>
          match m.hostAccess head with
          | (m, .fault _) => m.streamEnd n 1
          | (m, _) => m)

end Sys2Proof.Machine
end

