-- ==== Sys2Proof/Machine/Xlat.lean ====
section
/-!
DEFINITION. The commands of translation (file 07): loading and disabling PDs and VMIDs (R195), invalidations (R192,
R193), and Ladybird's audit (R196, R197).
-/

namespace Sys2Proof.Machine

/-! ### Invalidations (R192, R193) -/

/-- The slot and the VMID of a PD as loaded. -/
def Mach.pdSlot (m : Mach) (pd : Nat) : Option Nat := (Tbl.find m.xlt.pds pd).map (·.slot)
/-- A PD names a VMID. -/
def Mach.pdNames (m : Mach) (pd vmid : Nat) : Bool :=
  match Tbl.find m.xlt.pds pd with
  | some p => p.vmid == vmid
  | none => false

/-- Two spans, given by start and length, overlap. -/
def overlaps (a la b lb : Nat) : Bool := a < b + lb && b < a + la

/-- Bytes an invalidation's range covers. -/
def Inval.bytes (i : Inval) : Nat := 4096 * max 1 i.pages

/-- A translation is covered by an invalidation. -/
def Mach.covered (m : Mach) (i : Inval) (t : Trans) : Bool :=
  match i.scope with
  | 0 => t.pd == i.target
  | 1 => t.pd == i.target && overlaps t.va t.size i.addr i.bytes
  | 2 => m.pdNames t.pd i.target
  | 3 => m.pdNames t.pd i.target && overlaps t.ipa t.size i.addr i.bytes
  | _ => m.pdSlot t.pd == some i.slot

/-- A walk-cache entry is covered by an invalidation. -/
def Mach.coveredWalk (m : Mach) (i : Inval) (e : WalkEntry) : Bool :=
  match i.scope with
  | 0 => !e.stage2 && e.owner == i.target
  | 1 => !e.stage2 && e.owner == i.target
  | 2 => if e.stage2 then e.owner == i.target else m.pdNames e.owner i.target
  | 3 => e.stage2 && e.owner == i.target &&
      overlaps (e.tag * 2 ^ (39 - 9 * e.lvl)) (2 ^ (39 - 9 * e.lvl)) i.addr i.bytes
  | _ => e.slot == i.slot

/-- An outstanding host read may have used a covered entry. -/
def Mach.coveredRead (m : Mach) (i : Inval) (r : HostRead) : Bool :=
  r.walk.isNone && quadOfSlot r.op.slot == quadOfSlot i.slot &&
  match i.scope with
  | 0 => r.op.pd == i.target
  | 1 => r.op.pd == i.target && overlaps r.op.va r.op.len i.addr i.bytes
  | 2 => m.pdNames r.op.pd i.target
  | 3 => m.pdNames r.op.pd i.target
  | _ => m.pdSlot r.op.pd == some i.slot

/-- An invalidation starts: every covered entry leaves every cache; walks in flight serve only the access that started
them, and are waited for with the reads that used a covered entry (R193). An audit walk of a covered translation is
dropped (R196). -/
def Mach.invalidate (m : Mach) (i : Inval) : Mach :=
  let q := quadOfSlot i.slot
  let live := m.liveWalks q
  let mark := fun (w : Walk) =>
    if w.quad == q && w.result.isNone then
      { w with nocache := match w.audit with | some t => w.nocache || m.covered i t | none => true }
    else match w.audit with | some t => { w with nocache := w.nocache || m.covered i t } | none => w
  let reads := (m.hif.reads.filter (fun r => m.coveredRead i r)).map (·.id)
  let waits := live.map (·.id)
  let j := { i with walks := waits, reads := reads }
  let m' := m.purge (m.covered i)
  { m' with xlt := { m'.xlt with
      walkCache := m'.xlt.walkCache.map (fun c => (c.1, c.2.filter (fun e => !m.coveredWalk i e)))
      badWalk := m'.xlt.badWalk.filter (fun c => !m.coveredWalk i c.2)
      walks := m'.xlt.walks.map mark
      invs := Tbl.set m'.xlt.invs i.id j } }

/-- INV_ERR of an INV_GO (Table 7-6); 0 where the invalidation starts. -/
def Mach.invErr (m : Mach) (slot fn scope target : Nat) : Nat :=
  if m.xlt.invs.vals.any (fun i => i.fn == fn && !i.implicit) then 1
  else if 4 < scope then 3
  else if scope = 4 then 0
  else
    let owner := if scope < 2 then m.pdSlot target else (Tbl.find m.xlt.vmids target).map (·.slot)
    match owner with
    | none => 2
    | some s => if s = slot then 0 else 4

/-- INV_GO. -/
def execInvGo (r : Requester) (s : State) : Result :=
  ok s (s.m.action r Reg.XLT.INV_GO 1 (fun m k =>
    let scope := m.get Reg.XLT.INV_SCOPE k
    let target := m.get Reg.XLT.INV_TARGET k
    let err := m.invErr r.slotOf r.fnKey scope target
    let m := m.put Reg.XLT.INV_ERR err k
    if err != 0 then m
    else
      let (id, m) := m.newId
      let addr := m.get64 Reg.XLT.INV_ADDR_LO Reg.XLT.INV_ADDR_HI k / 4096 * 4096
      let pages := max 1 (m.get Reg.XLT.INV_PAGES k)
      m.invalidate { id := id, slot := r.slotOf, fn := r.fnKey, scope := scope, target := target, addr := addr
                     pages := pages, walks := [], reads := [], implicit := false }))

/-- A waiting access still holds a translation that an invalidation covers, or one of a walk that it waited for (R193). -/
def Mach.stillHolds (m : Mach) (i : Inval) : Bool :=
  (m.xlt.waiting ++ m.xlt.walks.flatMap (fun w => w.waiters)).any (fun o =>
    o.got.any (fun t => m.covered i t || i.took.contains t))

/-- What an invalidation waits for has ended (R193). -/
def Mach.invEnded (m : Mach) (i : Inval) : Bool :=
  !m.stillHolds i &&
  i.walks.all (fun w => !m.xlt.walks.any (fun (x : Walk) => x.id == w && x.result.isNone)) &&
  i.reads.all (fun r => !m.hif.reads.any (fun (x : HostRead) => x.id == r))

/-- INVALIDATION_COMPLETE. -/
def execInvalidationComplete (slot : Slot) (id : Nat) (s : State) : Result :=
  ok s (match Tbl.find s.m.xlt.invs id with
    | none => s.m
    | some i =>
      if i.slot == slot.val && s.m.invEnded i then
        { s.m with xlt := { s.m.xlt with invs := Tbl.del s.m.xlt.invs id } }.bump Reg.XLT.INVS 1 slot
      else s.m)

/-! ### PDs and VMIDs (R178, R179, R195) -/

/-- PD_BUSY: the PD's implicit invalidation is in progress. -/
def Mach.pdBusy (m : Mach) (pd : Nat) : Bool := m.xlt.invs.vals.any (fun i => i.implicit && i.target == pd)

/-- PD_ERR of a PD command that both have in common: another slot's PD, or PD_BUSY. -/
def Mach.pdErr (m : Mach) (slot pd : Nat) : Nat :=
  match m.pdSlot pd with
  | some s => if s != slot then 4 else if m.pdBusy pd then 5 else 0
  | none => if m.pdBusy pd then 5 else 0

/-- PD_ERR of a LOAD: besides, the root's alignment, the VMID, the function. -/
def Mach.pdLoadErr (m : Mach) (slot pd : Nat) : Nat :=
  let e := m.pdErr slot pd
  if e != 0 then e
  else if m.get Reg.XLT.S1_ROOT_LO pd % 4096 != 0 then 1
  else if (Tbl.find m.xlt.vmids (m.get Reg.XLT.PD_VMID pd)).map (·.slot) != some slot then 2
  else if !m.slotPresent slot then 3
  else 0

/-- PD_LOAD: the staged values apply to walks that begin after it. -/
def execPdLoad (r : Requester) (s : State) : Result :=
  ok s (s.m.action r Reg.XLT.PD_CMD 1 (fun m n =>
    let err := m.pdLoadErr r.slotOf n
    let m := m.put Reg.XLT.PD_ERR err n
    if err != 0 then m
    else
      let p : Pd :=
        { slot := r.slotOf, s1En := m.isSet Reg.XLT.S1_EN n
          s1Root := m.get64 Reg.XLT.S1_ROOT_LO Reg.XLT.S1_ROOT_HI n, vmid := m.get Reg.XLT.PD_VMID n
          func := m.get Reg.XLT.PD_FUNC n, super_ := m.isSet Reg.XLT.PD_SUPER n
          wxExcl := m.isSet Reg.XLT.W_X_EXCL n }
      { m with xlt := { m.xlt with pds := Tbl.set m.xlt.pds n p } }))

/-- PD_DISABLE: later translations fault, and an implicit PD_ALL invalidation starts. -/
def execPdDisable (r : Requester) (s : State) : Result :=
  ok s (s.m.action r Reg.XLT.PD_CMD 2 (fun m n =>
    let err := m.pdErr r.slotOf n
    let m := m.put Reg.XLT.PD_ERR err n
    if err != 0 then m
    else
      let (id, m) := m.newId
      let m := m.invalidate { id := id, slot := r.slotOf, fn := r.fnKey, scope := 0, target := n, addr := 0, pages := 0
                              walks := [], reads := [], implicit := true }
      { m with xlt := { m.xlt with pds := Tbl.del m.xlt.pds n } }))

/-- VMID_LOAD. -/
def execVmidLoad (r : Requester) (s : State) : Result :=
  ok s (s.m.action r Reg.XLT.VMID_CMD 1 (fun m n =>
    let other := match Tbl.find m.xlt.vmids n with | some v => v.slot != r.slotOf | none => false
    let err := if other then 4 else if m.get Reg.XLT.S2_ROOT_LO n % 4096 != 0 then 1 else 0
    let m := m.put Reg.XLT.VMID_ERR err n
    if err != 0 then m
    else
      let v : Vmid := { slot := r.slotOf, s2En := m.isSet Reg.XLT.S2_EN n
                        s2Root := m.get64 Reg.XLT.S2_ROOT_LO Reg.XLT.S2_ROOT_HI n }
      { m with xlt := { m.xlt with vmids := Tbl.set m.xlt.vmids n v } }))

/-- VMID_DISABLE: refused while an enabled PD names the VMID. -/
def execVmidDisable (r : Requester) (s : State) : Result :=
  ok s (s.m.action r Reg.XLT.VMID_CMD 2 (fun m n =>
    let other := match Tbl.find m.xlt.vmids n with | some v => v.slot != r.slotOf | none => false
    let err := if other then 4 else if m.xlt.pds.vals.any (fun p => p.vmid == n) then 2 else 0
    let m := m.put Reg.XLT.VMID_ERR err n
    if err != 0 then m else { m with xlt := { m.xlt with vmids := Tbl.del m.xlt.vmids n } }))

/-! ### Ladybird (R196, R197) -/

/-- Positions of a quadrant's cache (R191). -/
def cacheSize : Nat := 131072

/-- The next listed position of a quadrant's cache at or after a position, and how far it is. -/
def nextListed (c : Tbl Trans) (pos : Nat) : Option (Nat × Trans) :=
  match c.find? (fun x => pos ≤ x.1) with
  | some (k, t) => some (k - pos, t)
  | none => (c.head?).map (fun (k, t) => (k + cacheSize - pos, t))

/-- An audit walk ends in a read error or at a device region: the source and the event of Table 7-5, without the capture and the count
of a slot's own faults, since no access has faulted (DESIGN CHOICE, log entry 60). -/
def Mach.auditFault (m : Mach) (slot pd : Nat) (f : XFault) : Mach :=
  let q := quadOfSlot slot
  match f.kind with
  | 2 => (m.raise 69 (.slot slot) f.detail q).record 0x6103 q [slot, pd, f.addr]
  | 3 => ((m.bump Reg.XLT.DEV_ABORTS 1 slot).raise 71 (.slot slot) f.detail q).record 0x6104 q [slot, pd, f.addr]
  | _ => m

/-- A fresh walk of a cached translation starts, past every cache. -/
def Mach.auditWalk (m : Mach) (q : Nat) (t : Trans) : Mach :=
  match Tbl.find m.xlt.pds t.pd with
  | none => m
  | some pd =>
    let vm := Tbl.get m.xlt.vmids pd.vmid { slot := pd.slot, s2En := false, s2Root := 0 }
    let (id, m) := m.newId
    let w : Walk := { id := id, quad := q, pdNum := t.pd, pd := pd, vm := vm, va := t.va, kind := 2, atc := .stage1 0
                      table := 0, ipa := 0, leaf1 := none, waiters := [], audit := some t }
    let m := m.bump Reg.XLT.WALKS 1 pd.slot
    match m.walkStart w with
    | .read a w => m.issueWalkRead w a
    | .done t' => { m with xlt := { m.xlt with walks := m.xlt.walks ++ [{ w with result := some (some t', none) }] } }
    | .fault f =>
      let m := m.auditFault pd.slot t.pd f
      { m with xlt := { m.xlt with walks := m.xlt.walks ++ [{ w with result := some (none, some f) }] } }

/-- Audit walks of a quadrant that occupy a slot. -/
def Mach.auditLive (m : Mach) (q : Nat) : Nat :=
  (m.xlt.walks.filter (fun w => w.quad == q && w.audit.isSome)).length

/-- Ladybird takes positions it owes while it has walk slots: 8 of a quadrant's 64. -/
def Mach.auditPump (q : Nat) : Nat → Mach → Mach
  | 0, m => m
  | fuel + 1, m =>
    let owed := Tbl.get m.xlt.auditing q 0
    let pos := Tbl.get m.xlt.auditPos q 0
    if owed = 0 || 8 ≤ m.auditLive q || 64 ≤ (m.liveWalks q).length then m
    else
      let skip := fun (n : Nat) => { m with xlt := { m.xlt with
        auditPos := Tbl.set m.xlt.auditPos q ((pos + n) % cacheSize)
        auditing := Tbl.set m.xlt.auditing q (owed - n) } }
      match nextListed (Tbl.get m.xlt.cache q []) pos with
      | none => skip owed
      | some (d, t) => if owed ≤ d then skip owed else Mach.auditPump q fuel ((skip (d + 1)).auditWalk q t)

/-- A quadrant's audit goes on. -/
def Mach.auditMore (m : Mach) (q : Nat) : Mach := Mach.auditPump q 9 m

/-- AUDIT_PERIOD as it acts, in cycles: above 1,000 ms it acts as 1,000 (Table 7-6). -/
def Mach.auditPeriod (m : Mach) : Nat := min 1000 (m.get Reg.XLT.AUDIT_PERIOD) * Config.msCycles

/-- LADYBIRD_PERIOD (R196): a period ends, and as the next begins each quadrant owes the next batch. AUDIT_PERIOD, as it then
stands, is the new period's length; 0 stops Ladybird. -/
def execLadybirdPeriod (s : State) : Result :=
  let m := s.m.elapseTo s.m.xlt.auditDue
  ok s (if m.get Reg.XLT.AUDIT_PERIOD = 0 then m
    else
      let batch := max 16 (m.get Reg.XLT.AUDIT_BATCH)
      let m := { m with xlt := { m.xlt with auditDue := m.clk + m.auditPeriod } }
      (List.range 4).foldl (fun m q =>
        { m with xlt := { m.xlt with auditing := Tbl.modify m.xlt.auditing q 0 (· + batch) } }.auditMore q) m)

/-- A fresh walk's outcome differs from the cached translation (R196). -/
def auditDiffers (t : Trans) (r : Option Trans × Option XFault) : Bool :=
  match r with
  | (some u, _) =>
    t.pa != u.pa || t.size != u.size || t.r1 != u.r1 || t.w1 != u.w1 || t.u1 != u.u1 || t.s1 != u.s1 || t.x1 != u.x1 ||
    t.r2 != u.r2 || t.w2 != u.w2 || t.dev1 != u.dev1 || t.dev2 != u.dev2
  | (none, _) => true

/-- A difference is reported once for a cached translation: event 0x6102 and FS70. -/
def Mach.auditReport (m : Mach) (q : Nat) (slot : Nat) (t : Trans) (r : Option Trans × Option XFault) : Mach :=
  if m.xlt.reported.contains (q, t) then m
  else
    let pa := match r.1 with | some u => u.pa | none => 0
    let m := { m with xlt := { m.xlt with reported := (q, t) :: m.xlt.reported } }
    ((m.bump Reg.XLT.MISMATCHES 1 slot).raise 70 (.slot slot) t.pd q).record 0x6102 q [t.pd, t.va, t.pa, pa]

/-- AUDIT_COMPARISON: dropped where the entry was removed or a covering invalidation was issued during the walk. -/
def execAuditComparison (id : Nat) (s : State) : Result :=
  ok s (match s.m.xlt.walks.find? (fun w => w.id == id && w.audit.isSome && w.result.isSome) with
    | none => s.m
    | some w =>
      let ws := s.m.xlt.walks.filter (fun (x : Walk) => x.id != id)
      let m := { s.m with xlt := { s.m.xlt with walks := ws } }
      match w.audit, w.result with
      | some t, some r =>
        let here := (Tbl.get m.xlt.cache w.quad []).any (fun c => c.2 == t)
        let m := if w.nocache || !here then m
          else
            let m := m.bump Reg.XLT.AUDITED 1 w.pd.slot
            if auditDiffers t r then m.auditReport w.quad w.pd.slot t r else m
        m.auditMore w.quad
      | _, _ => m.auditMore w.quad)

/-- XLT_CNT_CLR: the counters at 0x00A8 to 0x00E0. -/
def execXltCntClr (r : Requester) (s : State) : Result :=
  ok s (s.m.action r Reg.XLT.CNT_CLR 1 (fun m _i =>
    m.clear [Reg.XLT.FC_MISSED, Reg.XLT.WALKS, Reg.XLT.WALK_READS, Reg.XLT.UTLB_HITS, Reg.XLT.QC_HITS,
      Reg.XLT.XLT_FAULTS, Reg.XLT.INVS, Reg.XLT.AUDITED, Reg.XLT.MISMATCHES, Reg.XLT.DEV_ABORTS] r.slotOf))

end Sys2Proof.Machine
end

