-- ==== Sys2Proof/Machine/Resume.lean ====
section
/-!
DEFINITION. What host reads come back to (R185, R186, R193, R466, R467): walks go on and end, the accesses that waited on them
go out or fault, and data reads hand their data to the operation that asked.
-/

namespace Sys2Proof.Machine

/-! ### Accesses that waited for a translation -/

/-- A waiting access has gone out on PCIe: what it was for goes on. -/
def Mach.opIssued (m : Mach) (op : HostOp) : Mach :=
  match op.purpose with
  | .range cx uid => m.rangeGood cx uid
  | .payload cx uid off => m.payloadIssued cx uid off
  | .place cx inst psn => m.finPsn cx inst psn
  | .flagWrite cx inst psn => m.finPsn cx inst psn
  | .matPlace mid n fin cx inst psn => m.matTook mid n op.len fin cx inst psn
  | .collDest g r seq _ => m.collDestIssued g r seq
  | .atomicAddr slot _ _ => m.pumpAtoms (quadOfSlot slot)
  | .atomicResult ring seq v => m.atomicEnd ring seq v none
  | .eventWord l => m.recordIssued l
  | .exporting i => m.exportIssued i op.len
  | _ => m

/-- A waiting access has faulted, and the fault is counted: what it was for fails as it would have at once. -/
def Mach.opFaulted (m : Mach) (op : HostOp) (f : XFault) : Mach :=
  match op.purpose with
  | .ringHeader ring db _ => m.ringReadFailed ring db []
  | .ringBody ring db _ header => m.ringReadFailed ring db header
  | .range cx uid => (m.sourceFault cx uid 0 f).pumpSend cx
  | .payload cx uid off => (m.sourceFault cx uid off f).pumpSend cx
  | .place cx inst psn => m.placeFault cx inst psn f
  | .flagWrite cx inst psn => m.placeFault cx inst psn f
  | .matPlace mid n fin cx inst psn =>
    match m.firstPage op with
    | some part =>
      ((m.hostAccess part).1.updMat mid (fun x => { x with placed := x.placed + part.len })).matFault mid n fin cx inst psn f
    | none => m.matFault mid n fin cx inst psn f
  | .collSource g r seq _ => m.collSourceFailed g r seq 0x02 f.detail
  | .collDest g r seq _ => m.collSourceFailed g r seq 0x02 f.detail
  | .rankTable g => m.tableFailed g
  | .atomicAddr slot src tag => m.atomFault slot src tag f
  | .atomicResult ring seq v => m.atomicEnd ring seq v (some f)
  | .eventWord l =>
    let m := m.recordSkipped l
    Mach.pumpRecords l (m.lock l).records.length m
  | .exporting i => m.exportEnd i 1
  | .stream n => m.streamEnd n 1
  | _ => m

/-- The completion at the head of a ring's queue no longer waits for its translation; `got` is what a walk fetched for it. -/
def Mach.resumeCr (m : Mach) (n : Nat) (got : List Trans) : Mach :=
  let m := (m.updCr n (fun c => { c with xwait := false })).drainCr n got
  match m.cr n with
  | some c => m.evalFn c.slot c.func
  | none => m

/-- An access is tried again after a walk. -/
def Mach.retryOp (m : Mach) (op : HostOp) : Mach :=
  match op.purpose with
  | .completion n => m.resumeCr n op.got
  | _ =>
    match m.hostAccess op with
    | (m, .issued) => m.opIssued op
    | (m, .waiting) => m
    | (m, .fault f) => m.opFaulted op f

/-- A walk's fault reaches an access that waited on it. -/
def Mach.walkFaulted (m : Mach) (w : Walk) (op : HostOp) (f : XFault) : Mach :=
  let m := (m.xltFlag op 6).noteFault op.slot op.pd w.pd.vmid op.kind op.va f
  match op.purpose with
  | .completion n => (m.updCr n ComplRing.behead).resumeCr n []
  | _ => m.opFaulted op f

/-- A list without its first element that satisfies a test. -/
def removeFirst (p : α → Bool) : List α → List α
  | [] => []
  | a :: r => if p a then r else a :: removeFirst p r

/-- Accesses that found all walk slots of a quadrant busy go on, in order, while slots are free. -/
def Mach.pumpWaiting (q : Nat) : Nat → Mach → Mach
  | 0, m => m
  | fuel + 1, m =>
    if 64 ≤ (m.liveWalks q).length then m
    else match m.xlt.waiting.find? (fun o => quadOfSlot o.slot == q) with
      | none => m
      | some op =>
        let ws := removeFirst (fun (o : HostOp) => quadOfSlot o.slot == q) m.xlt.waiting
        Mach.pumpWaiting q fuel ({ m with xlt := { m.xlt with waiting := ws } }.retryOp op)

/-- A walk slot of a quadrant is free. -/
def Mach.walkFreed (m : Mach) (q : Nat) : Mach := ((Mach.pumpWaiting q m.xlt.waiting.length m).auditMore q).retryHeld

/-- A walk leaves its slot. -/
def Mach.dropWalk (m : Mach) (w : Walk) : Mach :=
  { m with xlt := { m.xlt with walks := m.xlt.walks.filter (fun (x : Walk) => x.id != w.id) } }

/-- An audit walk has its outcome, which AUDIT_COMPARISON compares, and leaves its slot to the next request. -/
def Mach.auditEnd (m : Mach) (w : Walk) (r : Option Trans × Option XFault) : Mach :=
  ({ m with xlt := { m.xlt with
      walks := modifyFirst (fun (x : Walk) => x.id == w.id) (fun x => { x with result := some r }) m.xlt.walks } }).walkFreed
    w.quad

/-- The reads that an access issued with the result of a walk in flight at an invalidation are waited for with it (R193), and the
access, while it waits for more with that result in hand. -/
def Mach.watchReads (before after : Mach) (w : Walk) (t : Trans) : Mach :=
  let ids := (after.hif.reads.filter (fun (r : HostRead) => before.nextId ≤ r.id && r.walk.isNone)).map (fun (r : HostRead) => r.id)
  { after with xlt := { after.xlt with
      invs := after.xlt.invs.map (fun (c : Nat × Inval) =>
        if c.2.walks.contains w.id then (c.1, { c.2 with reads := c.2.reads ++ ids, took := t :: c.2.took }) else c) } }

/-- A walk has found its translation: it is cached and serves all who wait; one in flight at an invalidation serves only the
access that started it (R193). -/
def Mach.walkDone (m : Mach) (w : Walk) (t : Trans) : Mach :=
  if w.audit.isSome then m.auditEnd w (some t, none)
  else
    let m := m.dropWalk w
    let m := if w.nocache then
        match w.waiters with
        | [] => m
        | op :: rest => rest.foldl Mach.retryOp (Mach.watchReads m (m.retryOp { op with got := t :: op.got }) w t)
      else w.waiters.foldl Mach.retryOp (m.fill w.quad t)
    m.walkFreed w.quad

/-- A walk has faulted: every access that waited on it faults, but for one of another kind where the fault is of rights at
stage 1, and one that may not use the walk; these are tried again. -/
def Mach.walkFault (m : Mach) (w : Walk) (f : XFault) : Mach :=
  if w.audit.isSome then (m.auditFault w.pd.slot w.pdNum f).auditEnd w (none, some f)
  else
    let m := m.dropWalk w
    let shares := fun (op : HostOp) => !(f.stage == 1 && f.kind == 1 && op.kind != w.kind)
    let m := match w.waiters with
      | [] => m
      | op :: rest => rest.foldl (fun (a : Mach) o => if w.nocache || !shares o then a.retryOp o else a.walkFaulted w o f)
          (m.walkFaulted w op f)
    m.walkFreed w.quad

/-- A walk goes on to what comes next. -/
def Mach.walkOn (m : Mach) (w : Walk) (n : WalkNext) : Mach :=
  match n with
  | .read a w => m.issueWalkRead w a
  | .done t => m.walkDone w t
  | .fault f => m.walkFault w f

/-- Exports whose record has just gone out go on (R401). -/
def State.goExports (s : State) : State :=
  (s.m.evr.exports.filter (fun (c : Nat × Export) => c.2.busy && !c.2.wait && 0 < c.2.bytes)).foldl
    (fun (a : State) c => a.goExport c.1) s

/-- WALK_READ_COMPLETION. -/
def execWalkReadCompletion (id : Nat) (entry : BitVec 64) (s : State) : Result :=
  match s.m.hif.reads.find? (fun r => r.id == id && r.sent) with
  | none => ok s s.m
  | some r =>
    match r.walk.bind (fun wid => s.m.xlt.walks.find? (fun w => w.id == wid)) with
    | none => ok s s.m
    | some w =>
      let (m, n) := (s.m.dropRead id).walkEntry w entry
      .next { s with m := m.walkOn w n }.goExports

/-! ### Data reads -/

/-- The data of a read goes to what asked for it. -/
def Mach.readData (m : Mach) (op : HostOp) (data : List Byte) : Mach :=
  match op.purpose with
  | .payload cx uid off => m.payloadRead cx uid off data
  | .collSource g r seq i => m.collSourceRead g r seq i data
  | .rankTable g => m.tableRead g data
  | .atomicOperand slot src tag => m.operandRead slot src tag data
  | _ => m

/-- A read that a ring's scan issued. -/
def ringPurpose (p : Purpose) : Bool :=
  match p with
  | .ringHeader .. => true
  | .ringBody .. => true
  | _ => false

/-- DATA_READ_COMPLETION. Ring reads and walk reads have commands of their own. -/
def execDataReadCompletion (id : Nat) (data : List Byte) (s : State) : Result :=
  ok s (match s.m.hif.reads.find? (fun r => r.id == id && r.sent && r.walk.isNone && !ringPurpose r.op.purpose) with
    | none => s.m
    | some r => (s.m.dropRead id).readData r.op (slice data 0 r.op.len))

/-- What a failed read was for fails (R158, R185, R467). -/
def Mach.readFailed (m : Mach) (op : HostOp) : Mach :=
  match op.purpose with
  | .ringHeader ring db _ => m.ringReadFailed ring db []
  | .ringBody ring db _ header => m.ringReadFailed ring db header
  | .payload cx uid off => m.payloadFailed cx uid off
  | .collSource g r seq _ => m.collSourceFailed g r seq 0x0E 0
  | .rankTable g => m.tableFailed g
  | .atomicOperand slot src tag => m.operandFailed slot src tag
  | _ => m

/-- The code of a read's failure in FS66's DETAIL and event 0x6010. -/
def failureCode (why : ReadFailure) : Nat :=
  match why with
  | .timeout => 0 | .poisoned => 1 | .unsupported => 2 | .abort => 3

/-- The bounds of a read's timeout in µs by the function's Completion Timeout Value (R466): for the default from 45 to 50 ms, for another
the upper bound of the range that PCIe gives the value (PRESUMED, log entry 61), less at most a tenth. -/
def timeoutRange (ctv : Nat) : Nat × Nat :=
  let upTo := fun (us : Nat) => (us - us / 10, us)
  match ctv with
  | 1 => upTo 100 | 2 => upTo 10000 | 5 => upTo 55000 | 6 => upTo 210000 | 9 => upTo 900000 | 10 => upTo 3500000
  | 13 => upTo 13000000 | 14 => upTo 64000000 | _ => (45000, 50000)

/-- The cycle in which a read that is not answered times out: within its range, at a free value. -/
def Mach.timesOut (m : Mach) (r : HostRead) : Nat :=
  let (lo, hi) := timeoutRange (m.func r.op.slot r.op.func).ctv
  r.atc + lo * Config.usCycles + Config.readTimeout r.id % ((hi - lo) * Config.usCycles + 1)

/-- HOST_READ_FAILURE (R466): FS66, event 0x6010, and the operation fails at once; a timeout when its time has come. -/
def execHostReadFailure (id : Nat) (why : ReadFailure) (s : State) : Result :=
  match s.m.hif.reads.find? (fun r => r.id == id && r.sent) with
  | none => ok s s.m
  | some r =>
    let q := quadOfSlot r.op.slot
    let m := if why = .timeout then s.m.elapseTo (s.m.timesOut r) else s.m
    let m := ((m.dropRead id).raise 66 (.slot r.op.slot) (failureCode why) q).record 0x6010 q [r.op.slot, r.op.func, failureCode why]
    match r.walk with
    | none => ok s (m.readFailed r.op)
    | some wid =>
      match m.xlt.walks.find? (fun w => w.id == wid) with
      | none => ok s m
      | some w => .next { s with m := m.walkFault w (Walk.readFault w) }.goExports

end Sys2Proof.Machine
end

