-- ==== Sys2Proof/Machine/Late.lean ====
section
/-!
DEFINITION. Commands that need much of the rest: the Yarrow's step (R20 to R22), the switch of a table (R321), deferred
activities (R329), PGOOD (R345, R346) and the power cycle of both feeds (R344).
-/

namespace Sys2Proof.Machine

/-! ### The Yarrow -/

/-- A Yarrow runs now: it exists, its clock and its quadrant's run, and it has not stopped. -/
def Mach.engRuns (m : Mach) (e : Engine) : Bool :=
  let x := m.eng e
  let q := Tbl.get m.quads e.q {}
  !x.gated && !x.stopped && x.usableAt ≤ m.clk && q.park = 0 && q.usableAt ≤ m.clk

/-- YARROW_STEP: at most one step a cycle; a Yarrow that does not run issues none. -/
def execYarrowStep (e : Engine) (w : StepWord) (s : State) : Result :=
  if !engExists e then .fault .noSuchEngine
  else if !s.m.engRuns e then ok s s.m
  else
    let m := if (s.m.eng e).lastStep = some s.m.clk then s.m.elapse 1 else s.m
    if w.parity then ok s ((m.stepParity e).dropWork e)
    else
      let old := m.eng e
      let x := Eng.slot old w
      let m := m.setEng e { x with lastStep := some m.clk }
      let b := engBank e.q e.cls
      let m := (List.range 32).foldl (fun (a : Mach) k =>
        if x.flags.getLsbD k then a.pmcEvent b 0x0C 1 (fun arg => arg % 32 == k) else a) m
      ok s (if x.waiting then m else m.pmcEvent b 0x0D 1 (fun arg => arg == old.step))

/-! ### Tables and Hive -/

/-- Every engine of a class has finished its work and is gated, or has stopped (R22). -/
def Mach.classQuiet (m : Mach) (c : EngClass) : Bool :=
  (List.range 4).all (fun q => (enginesIn c (Fin.ofNat 4 q)).all (fun e => (m.eng e).gated || (m.eng e).stopped))

/-- TABLE_SWITCH (R321): the banks are exchanged, event 0x8002, the ledger entry with measurement 10 after it
(Table 17-6), and the selection is stored. -/
def execTableSwitch (c : EngClass) (s : State) : Result :=
  match Tbl.find s.m.seqr.swaps c.code with
  | none => ok s s.m
  | some w =>
    match w.loaded with
    | none => ok s s.m
    | some t =>
      if !s.m.classQuiet c then ok s s.m
      else
        let k := c.code
        let old := (s.m.table k).variant
        let m := { s.m with seqr := { s.m.seqr with
          tables := Tbl.set s.m.seqr.tables k t, swaps := Tbl.del s.m.seqr.swaps k } }
        let m : Mach := m.record 0x8002 5 [k, old, t.variant]
        let s := { s with m := m }.ledgerWrite 3 0 (k + 256 * old + 65536 * t.variant + 16777216 * w.role)
          (component 2 m.boot.mgcVersion) m.digestSet
        let s : State := if 65536 ≤ m.evr.ledger then s else { s with m := s.m.measured 10 s.ledgerHead }
        let m := { s.m with seqr := { s.m.seqr with stored := Tbl.set s.m.seqr.stored k t.variant } }.put Reg.SEQ.SWAP_STATUS 3 k
        ok s (if k = 1 then m.rescanAll else m)

/-- What a deferred request waits for has ended (Table 13-4). -/
def Mach.mayStart (m : Mach) (d : Nat × Nat) : Bool :=
  let st := fun (p : Nat) => m.linkState p
  match d.1 with
  | 2 => (Tbl.find m.seqr.repairs (d.2 / 65536)).isNone
  | 4 => !(st (portOfLane d.2) = 1 || st (portOfLane d.2) = 3 || st (portOfLane d.2) = 4) &&
      !m.scanning (quadOfLane d.2)
  | 8 => st d.2 = 2
  | _ => !m.seqr.swaps.any (fun (c : Nat × Swap) => c.2.started)

/-- A deferred activity starts: event 0x8011. -/
def Mach.startDeferred (m : Mach) (d : Nat × Nat) : Mach :=
  match d.1 with
  | 2 =>
    let m := m.undefer d.1 d.2 (d.2 / 65536)
    match m.seqr.repairQ.find? (fun a => bankKey a == d.2) with
    | none => m
    | some a =>
      { m with seqr := { m.seqr with repairQ := m.seqr.repairQ.filter (fun b => bankKey b != d.2) } }.startRepair a
  | 4 =>
    (m.undefer d.1 d.2 (quadOfLane d.2)).beginScan d.2
  | 8 => ((m.undefer d.1 d.2 (quadOfPort d.2)).put Reg.LNK.AUDIT_DEFERRED 0 d.2).queueCtrl d.2 .audit
  | _ =>
    let m := m.undefer d.1 d.2 5
    match Tbl.find m.seqr.swaps d.2 with
    | some w => m.swapStart w.role d.2 w.variant
    | none => m

/-- DEFERRED_ACTIVITY_START: the first deferred request, in the order they were made, whose conflict has ended. -/
def execDeferredActivityStart (s : State) : Result :=
  ok s (match s.m.hive.deferred.find? s.m.mayStart with
    | some d => s.m.startDeferred d
    | none => s.m)

/-! ### PGOOD -/

/-- PGOOD_RISE (R345, R347): 100 µs after the conditions began to hold, with every rail down; group 1 starts, and with it the
power-on (R366). -/
def execPgoodRise (b : BootIn) (s : State) : Result :=
  match s.m.pwr.goodAt with
  | none => ok s s.m
  | some t =>
    if s.m.isSet Reg.PWR.PGOOD || s.m.pwr.groups != 0 then ok s s.m
    else
      let m := s.m.elapseTo (t + 100 * Config.usCycles)
      let m := ((m.put Reg.PWR.PGOOD 1).put Reg.PWR.RAILS_UP 0).put Reg.PWR.RAIL_OK 0
      let m := { m with pwr := { m.pwr with groups := 1, groupAt := m.clk, falling := false, stuck := false } }
      .next ({ s with m := m }.boots b 0)

/-- A fault record (codes 0x2000 to 0x2FFF). -/
def faultRec (r : Rec) : Bool := r.code / 4096 == 2

/-- The records of the queue with 0x1101 among them: each number goes to the fault record that holds it, the others in order to
0x1101 and the other records (R394). -/
def renumber : Nat → Nat → List Rec → List Rec → List Rec
  | 0, _, _, _ => []
  | n + 1, seq, faults, others =>
    match faults with
    | f :: fs =>
      if f.seq = seq then f :: renumber n (seq + 1) fs others
      else match others with
        | o :: os => o :: renumber n (seq + 1) faults os
        | [] => f :: renumber n (seq + 1) fs []
    | [] =>
      match others with
      | o :: os => o :: renumber n (seq + 1) [] os
      | [] => []

/-- PGOOD falls: the recorder numbers 0x1101 in, and writes the fault records and then 0x1101 at once (R346, R348, R394). -/
def State.flushFall (s : State) : State :=
  let e := s.m.evr
  let q := e.queue
  let r := { s.m.mkRec 0x1101 4 (.plain []) with boot := s.m.get Reg.GLB.BOOT_COUNT }
  let order := renumber (q.length + 1) (e.nextSeq - q.length) (q.filter faultRec) (r :: q.filter (fun x => !faultRec x))
  let base := { e.afterPowerLoss with nextSeq := e.nextSeq - q.length }
  let laid := order.foldl Evr.put { e with
    nextSeq := base.nextSeq, queue := [], where_ := base.where_, keepNext := base.keepNext, keepFull := base.keepFull
    ringNext := base.ringNext, openRec := base.openRec }
  let urgent := fun (x : Rec) => faultRec x || x.code == 0x1101
  { s with
    m := { s.m with evr := { laid with queue := laid.queue.filter (fun x => !urgent x) } }
    mram := (laid.queue.filter urgent).foldl (fun a x => Memory.writeRec a x.place x.toBytes) s.mram }

/-- PGOOD_FALL: FS8; the rails go down from the highest group that has begun (R346, R348). -/
def execPgoodFall (s : State) : Result :=
  if !s.m.isSet Reg.PWR.PGOOD then ok s s.m
  else
    let m := ((s.m.put Reg.PWR.PGOOD 0).put Reg.PWR.RAILS_UP 0).bump Reg.PWR.PGOOD_FALLS
    let m := { m with pwr := { m.pwr with falling := m.pwr.groups != 0, goodAt := none } }.regood
    let s := { s with m := m }.flushFall
    ok s (s.m.raise 8 .none 0 4)

/-- The readings and counters that a power cycle of both feeds clears (R354). -/
def Mach.clearPower (m : Mach) : Mach :=
  let feed := [Reg.PWR.VIN, Reg.PWR.IIN, Reg.PWR.TRIPS, Reg.PWR.RETRIES]
  let m := ((m.clear feed 0).clear feed 1).clear
    [Reg.PWR.VBUS, Reg.PWR.PIN, Reg.PWR.SHARE_A, Reg.PWR.PGOOD_FALLS, Reg.PWR.ENERGY_LO, Reg.PWR.ENERGY_HI]
  let m := (List.range 26).foldl (fun (a : Mach) i => a.clear [Reg.PWR.RAIL_I, Reg.PWR.RAIL_V] i) m
  { m with pwr := { m.pwr with nj := 0, powers := [] } }

/-- POWER_CYCLE_BOTH (R344): both feeds down for 100 ms together: latches of CAUSE 4 clear, and the LOCKOUT marker goes. -/
def execPowerCycleBoth (s : State) : Result :=
  ok s (match s.m.pwr.bothAt with
    | none => s.m
    | some t =>
      let m := s.m.elapseTo (t + 100 * Config.msCycles)
      let m := [0, 1].foldl (fun (a : Mach) f => if a.feedState f = 6 && a.get Reg.PWR.CAUSE f = 4 then a.clearLatch f else a) m
      { m with boot := { m.boot with lockMarker := false } }.clearPower)

end Sys2Proof.Machine
end

