-- ==== Sys2Proof/Machine/Mode.lean ====
section
/-!
DEFINITION. The commands of the mode logic (file 15): mode requests and their refusals (R359, R372), the end of ATTEST (R370,
R371), readiness (R361), draining (R363), the warm and the module reset (R366, R367).
-/

namespace Sys2Proof.Machine

/-! ### What the modes wait for -/

/-- Every work ring has WR_INFLIGHT 0. -/
def Mach.ringsIdle (m : Mach) : Bool := m.hif.work.isEmpty
/-- Every TX half is acknowledged, and no rendezvous SEND is pending. -/
def Mach.txIdle (m : Mach) : Bool :=
  m.cxn.ctxs.vals.all (fun c => match c.tx with | some t => t.una == t.nextPsn | none => true) && m.mat.sends.isEmpty
/-- No LKU request of a local function awaits its answer. -/
def Mach.lkuIdle (m : Mach) : Bool := m.lka.reqs.isEmpty
/-- No local rank has a COLL outstanding. -/
def Mach.collIdle (m : Mach) : Bool := m.groups.vals.all (fun g => g.ranks.all (fun k => k.ops.isEmpty))
/-- DRAINED (R363). -/
def Mach.isDrained (m : Mach) : Bool := m.ringsIdle && m.txIdle && m.lkuIdle && m.collIdle

/-- A port is MAPPED: a valid member of an entry (Table 5-8). -/
def Mach.mapped (m : Mach) (p : Nat) : Bool := pmEntries.any (fun e => (m.namedMembers e).contains p)

/-- The ports that RUN waits for (R361): enabled and mapped, not UP, never failed in training, not in LOOPBACK. -/
def Mach.notReady (m : Mach) : List Nat :=
  (List.range 128).filter (fun p => m.isSet Reg.LNK.PORT_EN p && m.linkState p != 2 && m.linkState p != 5 &&
    !(m.link p).trainFailed && m.mapped p)

/-- The readiness rule of R361. -/
def Mach.ready (m : Mach) : Bool :=
  let st := m.get Reg.TIM.STATE
  m.notReady.isEmpty && (!m.isSet Reg.GLB.REQ_TIME_LOCK || st = 1 || st = 3 || st = 4)

/-- What leaving SAFE asks (Table 15-2, R385): FLT_ACK since the reaction, and no SEV3 or SEV4 source still active. -/
def Mach.mayLeaveSafe (m : Mach) : Bool := m.flt.acked && m.flt.active.all (fun a => m.sevOf a.1 < 3)

/-! ### Mode requests -/

/-- The configuration check that every request to leave CONFIG makes again (R118): a request of any mode but CONFIG itself. -/
def Mach.leaveCheck (m : Mach) (req : Nat) : Mach :=
  if m.mode = .config && Mode.ofCode req != .config then m.runCfgCheck else m

/-- A request of a mode that is not refused as busy: the transitions of Table 15-2, each with its condition. -/
def Mach.changeMode (m : Mach) (role : Role) (req : Nat) : Mach :=
  let m := m.leaveCheck req
  let no := m.refuseMode role req 1
  match Mode.ofCode req, m.mode with
  | .dormant, .config => m.enterMode .dormant 0
  | .config, .dormant => m.wakeAll.measureSettings.enterConfig 0
  | .config, .drain => if m.isDrained then m.measureSettings.enterConfig 0 else m.refuseMode role req 4
  | .config, .safe => if m.mayLeaveSafe then m.warmReset 0 else m.refuseMode role req 5
  | .train, .config => if m.isSet Reg.RTE.CFG_OK then m.enterMode .train 0 else m.refuseMode role req 3
  | .run, .train => m.enterMode .run 0
  | .run, .drain => m.enterMode .run 0
  | .drain, .run => m.enterMode .drain 0
  | .safe, .dormant => m.reactSafe 0 0
  | .safe, .config => m.reactSafe 0 0
  | .safe, .train => m.reactSafe 0 0
  | .safe, .run => m.reactSafe 0 0
  | .safe, .drain => m.reactSafe 0 0
  | .lockout, .lockout => no
  | .lockout, _ => m.reactLockout 0 0 false
  | _, _ => no

/-- A mode request with the rights it needs. -/
def Mach.modeRequest (m : Mach) (role : Role) (req : Nat) (meet : ModeMeet) : Mach :=
  if m.modeBusy req meet then m.refuseMode role req 2 else m.changeMode role req

/-- MODE_REQ of a value: value 7 needs INSTALLER (Table 15-7). -/
def Mach.modeReq (m : Mach) (r : Requester) (req : Nat) (meet : ModeMeet) : Mach :=
  let f := if req = 7 then { Reg.GLB.MODE_REQ with rights := Role.installer } else Reg.GLB.MODE_REQ
  m.action r f req (fun m _ => m.modeRequest (m.roleOf r) req meet)

/-- MODE_REQ_DORMANT. -/
def execModeReqDormant (r : Requester) (meet : ModeMeet) (s : State) : Result := ok s (s.m.modeReq r 0 meet)
/-- MODE_REQ_CONFIG. -/
def execModeReqConfig (r : Requester) (meet : ModeMeet) (s : State) : Result := okFlt s (s.m.modeReq r 2 meet)
/-- MODE_REQ_TRAIN. -/
def execModeReqTrain (r : Requester) (meet : ModeMeet) (s : State) : Result := ok s (s.m.modeReq r 3 meet)
/-- MODE_REQ_RUN. -/
def execModeReqRun (r : Requester) (meet : ModeMeet) (s : State) : Result := ok s (s.m.modeReq r 4 meet)
/-- MODE_REQ_DRAIN. -/
def execModeReqDrain (r : Requester) (meet : ModeMeet) (s : State) : Result := ok s (s.m.modeReq r 5 meet)
/-- MODE_REQ_SAFE. -/
def execModeReqSafe (r : Requester) (meet : ModeMeet) (s : State) : Result := okFlt s (s.m.modeReq r 6 meet)
/-- MODE_REQ_LOCKOUT. -/
def execModeReqLockout (r : Requester) (meet : ModeMeet) (s : State) : Result := okFlt s (s.m.modeReq r 7 meet)

/-! ### Start-up, readiness, draining -/

/-- ATTEST_COMPLETE (R370, R371, R381): with firmware, tables and ledger entry in place, CONFIG, measurement 9 taken; with the
LOCKOUT marker still there, LOCKOUT. -/
def execAttestComplete (s : State) : Result :=
  if s.m.mode != .attest || !s.m.boot.attestOk then ok s s.m
  else if s.m.boot.lockMarker then okFlt s (s.m.reactLockout 3 0 false)
  else okFlt s (s.m.measureSettings.enterConfig 1)

/-- RUN_READINESS (R361). -/
def execRunReadiness (s : State) : Result :=
  ok s (if s.m.mode = .train && s.m.ready then s.m.enterMode .run 1 else s.m)

/-- TRAIN_TIMEOUT (R361, Table 15-5): readiness in the same cycle goes first. -/
def execTrainTimeout (ready : Bool) (s : State) : Result :=
  if s.m.mode != .train then ok s s.m
  else
    let m := s.m.elapseTo (s.m.boot.trainAt + clamp 10 60000 (s.m.get Reg.GLB.TRAIN_TIMEOUT) * Config.msCycles)
    if ready || m.ready then ok s (m.enterMode .run 1)
    else
      let n := m.notReady.length
      let m := m.enterMode .run 1
      ok s ((m.raise 10 .none n 5).record 0x0010 5 [n, m.get Reg.TIM.STATE])

/-- DRAINED (R363): event 0x0003, the first time since entry to DRAIN. -/
def execDrained (s : State) : Result :=
  ok s (if s.m.mode = .drain && s.m.isDrained && !s.m.boot.drainSeen then
    { s.m with boot := { s.m.boot with drainSeen := true } }.record 0x0003 5 []
  else s.m)

/-! ### Resets -/

/-- WARM_RESET (R366, R367). A reaction that comes during the reset that leaves SAFE leaves the module in SAFE. -/
def Mach.warmRequest (m : Mach) (role : Role) (meet : ModeMeet) : Mach :=
  match m.mode with
  | .safe => if m.mayLeaveSafe then m.warmReset 0 (decide (meet = .reaction)) else m.refuseMode role 2 5
  | .config => m.warmReset 3
  | .drain => m.warmReset 3
  | _ => m.refuseMode role 2 1

/-- WARM_RESET. -/
def execWarmReset (r : Requester) (meet : ModeMeet) (s : State) : Result :=
  okFlt s (s.m.action r Reg.GLB.WARM_RESET 1 (fun m _ => m.warmRequest (m.roleOf r) meet))

/-- MODULE_RESET (R366, R367): acts in every mode but LOCKOUT. -/
def execModuleReset (r : Requester) (b : BootIn) (s : State) : Result :=
  let m := s.m.action r Reg.GLB.MODULE_RESET 1 (fun m _ => m)
  if s.m.mayAct r Reg.GLB.MODULE_RESET then .next ({ s with m := m }.moduleResets b 1) else ok s m

/-- MGC_WATCHDOG_EXPIRY (R366): the module reset of a watchdog, with FS11 raised by the AON logic that remains. -/
def execMgcWatchdogExpiry (b : BootIn) (s : State) : Result :=
  let s' := s.moduleResets b 3
  .next { s' with m := s'.m.raise 11 .none 0 4 }

end Sys2Proof.Machine
end

