-- ==== Sys2Proof/Machine/View.lean ====
section
/-!
DEFINITION. What registers read as (R5 to R8, R429 to R433): the fields that report the state of a block, computed when they
are read, and the value of a whole register.
-/

namespace Sys2Proof.Machine

/-- A count that a field of `w` bits shows, saturated. -/
def shown (w n : Nat) : Nat := min n (2 ^ w - 1)

/-- GLB (Table 15-7). No command leaves a change of mode half done, so TRANSITION reads 0. -/
def Mach.viewGlb (m : Mach) (f : Field) : Option Nat :=
  match f.off, f.lo with
  | 0x0, 3 => some 0
  | 0x24, 4 => some (b2n m.collIdle)
  | 0x24, 3 => some (b2n m.lkuIdle)
  | 0x24, 2 => some (b2n m.txIdle)
  | 0x24, 1 => some (b2n m.ringsIdle)
  | 0x24, 0 => some (b2n (m.mode = .drain && m.isDrained))
  | 0x30, _ => some m.qstate
  | 0x38, _ => some (Config.serial % 4294967296)
  | 0x3C, _ => some (Config.serial / 4294967296)
  | _, _ => none

/-- HGT of the function's quadrant (Table 2-5). -/
def Mach.viewTim (m : Mach) (r : Requester) (f : Field) (i : Nat) : Option Nat :=
  let h := m.hgt (quadOfSlot r.slotOf)
  match f.off, f.lo with
  | 0x10008, _ => some (h % 4294967296)
  | 0x1000C, _ => some (h / 4294967296)
  | 0x1006C, 0 => some (b2n ((m.timPort i).accepted.any (fun t => decide (m.clk ≤ t + m.lossTimeout))))
  | _, _ => none

/-- C_MAIN (R64), and the equaliser as it stands (R65 to R67, Table 3-5a). -/
def Mach.viewLan (m : Mach) (f : Field) (i : Nat) : Option Nat :=
  match f.off, f.lo with
  | 0x20008, 0 => some (64 - min 16 (m.get Reg.LAN.C_PRE i) - min 16 (m.get Reg.LAN.C_POST i))
  | 0x2000C, 24 => some (m.ctleNow i)
  | 0x2000C, 16 => some (ofSigned 7 (m.dfeNow i 1))
  | _, _ => none

/-- The packets that a port's replay buffer holds: frames for its own replay, and re-injected packets that it still serves as input buffer
for (R94, R112). -/
def Link.buffered (l : Link) : List Packet :=
  let own := l.replay.map (·.pkt)
  own ++ l.reinject.filter (fun k => !own.contains k)

/-- The pools and the replay buffer of a port (Table 4-12). -/
def Mach.viewLnk (m : Mach) (r : Requester) (f : Field) (p : Nat) : Option Nat :=
  let l := m.link p
  let k := min 8 (m.idx r Reg.LNK.VC_IDX)
  match f.off, f.lo with
  | 0x300B8, _ => some (shown 14 (pool l.avail k))
  | 0x300BC, _ => some (shown 14 (pool l.occupied k))
  | 0x300C0, 16 => some l.buffered.length
  | 0x300C0, 0 => some (shown 14 (l.buffered.map (fun k => cellsOf (pktLen k))).sum)
  | _, _ => none

/-- What routing knows of a port (Table 5-8). -/
def Mach.viewRte (m : Mach) (f : Field) (p : Nat) : Option Nat :=
  match f.off, f.lo with
  | 0x40044, 20 => some (b2n (m.usable p))
  | 0x40044, 17 => some (b2n (m.entryOf p).isSome)
  | 0x40044, 12 => some ((m.entryOf p).elim 0 (· / 64))
  | 0x40044, 0 => some ((m.entryOf p).elim 0 (· % 64))
  | 0x40048, _ => some (m.beaconAgeNow p)
  | 0x4004C, _ => some (shown 16 (m.queued p))
  | _, _ => none

/-- A host half in L1 or a substate: its quadrant is parked outside DORMANT (R25; log entry 41). -/
def Mach.inL1 (m : Mach) (hp : Nat) : Bool := m.mode != .dormant && (Tbl.get m.quads (hp / 2) {}).park != 0

/-- WR_STATE of a work ring: an ACTIVE one reads PAUSED while its function does not run (R174, Table 16-3), and where its TXE has
stopped and no other runs (Table 16-4). -/
def Mach.ringState (m : Mach) (w : WorkRing) : Nat :=
  if w.st = 1 && (!m.awake w.slot w.func || m.txeStopped w) then 4 else w.st

/-- Rings and host ports (Table 6-18). -/
def Mach.viewHif (m : Mach) (f : Field) (i : Nat) : Option Nat :=
  match f.off, f.lo with
  | 0x50028, 16 => some ((m.wr i).elim 0 (fun w => w.pos))
  | 0x50028, 15 => some ((m.wr i).elim 1 (fun w => b2n w.phase))
  | 0x50028, 12 => some ((m.wr i).elim 0 m.ringState)
  | 0x5002C, _ => some (m.inflight i)
  | 0x50060, 16 => some ((m.cr i).elim 0 (fun c => c.tail % 2 ^ c.sizeLog2))
  | 0x50060, 15 => some ((m.cr i).elim 1 (fun c => b2n (c.tail < 2 ^ c.sizeLog2)))
  | 0x50060, 12 => some ((m.cr i).elim 0 (fun c => if c.overflow then 2 else 1))
  | 0x50060, 9 => some ((m.cr i).elim 0 (fun c => b2n c.armed))
  | 0x50060, 8 => some ((m.cr i).elim 0 (fun c => b2n ((m.func c.slot c.func).held.contains c.vector && !c.polled)))
  | 0x50064, 16 => some ((m.cr i).elim 0 (fun c => c.head / 2 ^ c.sizeLog2 % 2))
  | 0x50064, 0 => some ((m.cr i).elim 0 (fun c => c.head % 2 ^ c.sizeLog2))
  | 0x50068, _ => some ((m.cr i).elim 0 (fun c => c.held.length))
  | 0x5008C, 17 => some (b2n (m.inL1 i))
  | 0x5008C, 16 => some (b2n (m.inL1 i))
  | _, _ => none

/-- Protection domains, VMIDs, invalidations and the audit (Table 7-6). -/
def Mach.viewXlt (m : Mach) (r : Requester) (f : Field) (i : Nat) : Option Nat :=
  match f.off, f.lo with
  | 0x60014, 31 => some (b2n (Tbl.find m.xlt.pds i).isSome)
  | 0x60014, 30 => some (b2n (m.pdBusy i))
  | 0x60034, 31 => some (b2n (Tbl.find m.xlt.vmids i).isSome)
  | 0x60054, 4 => some (b2n (m.xlt.invs.vals.any (fun (v : Inval) => v.fn == r.fnKey && !v.implicit)))
  | 0x60088, _ => some (Tbl.get m.xlt.auditPos (quadOfSlot i) 0)
  | _, _ => none

/-- Windows (Table 8-9). -/
def Mach.viewCxn (m : Mach) (f : Field) (i : Nat) : Option Nat :=
  match f.off, f.lo with
  | 0x70060, 31 => some ((Tbl.find m.cxn.windows i).elim 0 (fun (w : Window) => b2n w.valid))
  | 0x70060, 30 => some ((Tbl.find m.cxn.windows i).elim 0 (fun (w : Window) => b2n (!w.valid)))
  | _, _ => none

/-- Domains (Table 9-7). A held message is counted with the unexpected ones. -/
def Mach.viewMat (m : Mach) (f : Field) (d : Nat) : Option Nat :=
  let posted := m.mat.posted.filter (fun r => r.domain == d)
  match f.off, f.lo with
  | 0x80010, 31 => some ((m.domain d).elim 0 (fun x => b2n x.active))
  | 0x80010, 30 => some ((m.domain d).elim 0 (fun x => b2n (!x.active)))
  | 0x80014, _ => some (shown 23 posted.length)
  | 0x80018, _ => some (shown 23 (posted.filter (fun r => !Recv.exact r)).length)
  | 0x8001C, _ => some (shown 24 (m.mat.msgs.filter (fun x => x.domain == d && MatMsg.stored x)).length)
  | 0x80020, _ => some (shown 14 ((m.storeUsed (fun x => x.domain == d) + 1048575) / 1048576))
  | _, _ => none

/-- Groups (Table 10-9): the lowest local rank stands first. -/
def Mach.viewCol (m : Mach) (f : Field) (g : Nat) : Option Nat :=
  let grp := if m.grpFree g then none else Tbl.find m.groups g
  match f.off, f.lo with
  | 0x90020, 31 => some (grp.elim 0 (fun (x : CollGroup) => b2n (!x.reading && x.aborted.isNone && x.dying.isNone)))
  | 0x90020, 30 => some (grp.elim 0 (fun (x : CollGroup) => b2n x.aborted.isSome))
  | 0x90020, 29 => some (b2n (m.grpBusy g))
  | 0x90020, 16 => some (grp.elim 0 (fun (x : CollGroup) => x.aborted.getD 0))
  | 0x90024, _ => some (grp.elim 0 (fun (x : CollGroup) => x.ranks.length))
  | 0x90028, _ => some (grp.elim 0 (fun (x : CollGroup) => x.ranks.head?.elim 0 (fun (k : CollRank) => k.nextSeq)))
  | 0x9002C, _ => some (grp.elim 65535 (fun (x : CollGroup) => x.ranks.head?.elim 65535 (fun (k : CollRank) => k.doneSeq)))
  | _, _ => none

/-- Locks (Table 11-8). -/
def Mach.viewLka (m : Mach) (f : Field) (l : Nat) : Option Nat :=
  let x := m.lock l
  match f.off, f.lo with
  | 0xA0010, 31 => some (b2n x.held.isSome)
  | 0xA0010, 30 => some (b2n (x.orphan || x.carried))
  | 0xA0010, 0 => some (x.held.elim 0 (·.1))
  | 0xA0014, _ => some x.gen
  | 0xA0018, _ => some (shown 24 x.waiters.length)
  | _, _ => none

/-- Queues, groups and gates (Table 12-3): queue instance `i` is 16,384 × quadrant + queue, group instance 256 × quadrant +
group. -/
def Mach.viewSch (m : Mach) (r : Requester) (f : Field) (i : Nat) : Option Nat :=
  let q := quadOfSlot r.slotOf
  let member := memberId q (some (i % 16384))
  let inGroup := fun (n : Nat) => (m.drr (queueList q n (i % 256))) != []
  match f.off, f.lo with
  | 0xB0010, 31 => some (b2n (m.backlog member != 0))
  | 0xB0010, 30 => some (b2n (m.isParked q member))
  | 0xB0010, 0 => some (shown 20 (m.backlog member))
  | 0xB0030, 31 => some (b2n ((List.range 4).any inGroup))
  | 0xB0030, 30 => some (b2n (m.isParked q (groupId q (i % 256))))
  | 0xB008C, 31 => some (b2n m.sch.swapAt.isSome)
  | 0xB008C, 8 => some (m.gateNow m.refQuad).1
  | 0xB008C, 0 => some (m.gateNow m.refQuad).2
  | _, _ => none

/-- The engine of the class in CLS_IDX that ENG_IDX names, numbered through the quadrants; none beyond the count. -/
def Mach.engIndexed (m : Mach) (r : Requester) : Option Engine :=
  let c := m.idx r Reg.SEQ.CLS_IDX
  let cls := EngClass.ofCode (if 1 ≤ c ∧ c ≤ 5 then c else 1)
  let n := m.idx r Reg.SEQ.ENG_IDX
  if n < 4 * cls.perQuad then some { cls := cls, q := Fin.ofNat 4 (n / cls.perQuad), n := Fin.ofNat 16 (n % cls.perQuad) }
  else none

/-- Instances of an activity of Table 13-2 that run. Telemetry, beacons and step-by-step patrol reads begin and end within a
command; a patrol counts as running while its period is not 0. -/
def Mach.actRunning (m : Mach) (a : Nat) : Nat :=
  match a with
  | 0 => if m.get Reg.SEQ.SCRUB_HBM_PERIOD = 0 then 0 else 4
  | 1 => if m.get Reg.SEQ.SCRUB_SRAM_PERIOD = 0 then 0 else 4
  | 2 => m.seqr.repairs.length
  | 3 => ((List.range 512).filter (fun l => m.trained (portOfLane l) && m.laneActive l && m.adapts l)).length
  | 4 => m.scans.length
  | 6 => ((List.range 4).filter (fun q => Tbl.get m.xlt.auditing q 0 != 0 || m.auditLive q != 0)).length
  | 8 => ((List.range 128).filter (fun p => (m.link p).ctrl.contains .audit)).length
  | 9 => ((List.range 128).filter (fun p => m.linkState p = 1 || m.linkState p = 3 || m.linkState p = 4)).length
  | 10 => (m.seqr.swaps.vals.filter (fun (x : Swap) => x.started)).length
  | _ => 0

/-- Tables, engines and activities (Table 13-6). -/
def Mach.viewSeq (m : Mach) (r : Requester) (f : Field) (i : Nat) : Option Nat :=
  let eng := (m.engIndexed r).map (fun e => m.eng e)
  let act := m.idx r Reg.SEQ.ACT_IDX
  match f.off, f.lo with
  | 0xC0008, 24 => some i
  | 0xC0008, 16 => some (m.table i).variant
  | 0xC0008, 0 => some ((m.table i).version % 65536)
  | 0xC000C, _ => some ((m.table i).steps % 16384)
  | 0xC0040, _ => some (Tbl.get m.seqr.avail i 0 % 65536)
  | 0xC0054, 31 => some (eng.elim 0 (fun x => b2n (!x.gated && !x.stopped)))
  | 0xC0054, 30 => some (eng.elim 0 (fun x => b2n x.stopped))
  | 0xC0054, 29 => some (eng.elim 0 (fun x => b2n x.gated))
  | 0xC0054, 0 => some (eng.elim 0 (fun x => x.step % 8192))
  | 0xC0058, _ => some (eng.elim 0 (fun x => x.flags.toNat))
  | 0xC0084, 16 => some (if act ≤ 10 then m.actRunning act else 0)
  | 0xC0084, 0 => some (if act ≤ 10 then (m.hive.deferred.filter (fun d => d.1 == act)).length else 0)
  | 0xC0088, _ => some (if act ≤ 10 then Tbl.get m.hive.deferrals act 0 else 0)
  | o, _ => if 0xC0010 ≤ o && o < 0xC0040 then some (field (m.tableDigest i) (o - 0xC0010) 4) else none

/-- FAULT_N as the power-entry controller drives it (R458). -/
def Mach.faultNOn (m : Mach) : Bool :=
  if m.pwr.groups = 0 then
    (List.range 2).any (fun x => m.isSet Reg.PWR.LATCHED x && m.get Reg.PWR.CAUSE x = 4)
  else m.faultN

/-- Active bits of 32 sources. -/
def Mach.activeBank (m : Mach) (k : Nat) : Nat :=
  (List.range 32).foldl (fun a n => if m.flt.active.any (fun x => x.1 == 32 * k + n) then a + 2 ^ n else a) 0

/-- Sticky bits of 32 sources. -/
def Mach.stickyBank (m : Mach) (k : Nat) : Nat :=
  (List.range 32).foldl (fun a n => if m.isSet Reg.FLT.STICKY (32 * k + n) then a + 2 ^ n else a) 0

/-- The collector (Table 16-5): the open handling, or the captures of the last one. An injection bit clears when it is
taken, within its write. -/
def Mach.viewFlt (m : Mach) (f : Field) (i : Nat) : Option Nat :=
  let h := m.flt.handling.or m.flt.last
  let seq := match m.evr.openRec with
    | some o => o.seq
    | none => m.get64 Reg.FLT.CAP_SEQ_LO Reg.FLT.CAP_SEQ_HI
  match f.off, f.lo with
  | 0xE0008, 30 => some (b2n (m.flt.active.any (fun x => x.1 == i)))
  | 0xE0040, 31 => some (b2n m.flt.handling.isSome)
  | 0xE0040, 28 => some (h.elim 0 (fun x => x.sev))
  | 0xE0040, 16 => some (h.elim 0 (fun x => x.first))
  | 0xE0040, 0 => some (h.elim 0 (fun x => shown 16 x.merged))
  | 0xE0048, _ => some (h.elim 0 (fun x => x.hgt % 4294967296))
  | 0xE004C, _ => some (h.elim 0 (fun x => x.hgt / 4294967296))
  | 0xE0050, _ => some (h.elim 0 (fun x => unitWord x.unit))
  | 0xE0054, _ => some (h.elim 0 (fun x => x.detail % 4294967296))
  | 0xE0058, _ => some (seq % 4294967296)
  | 0xE005C, _ => some (seq / 4294967296)
  | 0xE0094, 4 => some (b2n m.faultNOn)
  | o, _ =>
    if 0xE0010 ≤ o && o < 0xE0020 then some (m.stickyBank ((o - 0xE0010) / 4))
    else if 0xE0020 ≤ o && o < 0xE0030 then some (m.activeBank ((o - 0xE0020) / 4))
    else if 0xE0030 ≤ o && o < 0xE0040 then some 0
    else if 0xE0060 ≤ o && o < 0xE0070 then
      some (h.elim 4294967295 (fun x =>
        field ((x.list.take 16).map (BitVec.ofNat 8) ++ List.replicate (16 - x.list.length) 0xFF#8) (o - 0xE0060) 4))
    else none

/-- The recorder and the ledger (Table 17-10). -/
def Mach.viewEvr (m : Mach) (f : Field) (i : Nat) : Option Nat :=
  let e := m.evr
  match f.off, f.lo with
  | 0xF0000, _ => some (e.nextSeq % 4294967296)
  | 0xF0004, _ => some (e.nextSeq / 4294967296)
  | 0xF0008, _ => some (e.ringFirst % 4294967296)
  | 0xF000C, _ => some (e.ringFirst / 4294967296)
  | 0xF0010, _ => some (e.keepLast % 4294967296)
  | 0xF0014, _ => some (e.keepLast / 4294967296)
  | 0xF0018, 31 => some (b2n e.keepFull)
  | 0xF0018, 30 => some (b2n (65536 ≤ e.ledger))
  | 0xF0018, 0 => some e.queue.length
  | 0xF004C, 31 => some (b2n (m.rdBuf i).done)
  | 0xF004C, 30 => some (b2n (m.rdBuf i).open_)
  | 0xF004C, 16 => some (m.rdBuf i).len
  | 0xF004C, 0 => some (m.rdBuf i).result
  | 0xF006C, 31 => some (b2n (m.export_ i).busy)
  | 0xF006C, 30 => some (b2n (m.export_ i).gap)
  | 0xF006C, 0 => some (m.export_ i).err
  | 0xF0070, _ => some ((m.export_ i).next % 4294967296)
  | 0xF0074, _ => some ((m.export_ i).next / 4294967296)
  | 0xF0078, _ => some ((m.export_ i).bytes)
  | 0xF0080, _ => some e.ledger
  | 0xF0090, 31 => some (b2n e.verBusy)
  | 0xF0090, 30 => some (b2n e.verBad)
  | 0xF0090, 0 =>
    some (if e.verBusy then min (max e.verFrom e.ledger) (e.verFrom + (m.clk - e.verAt) / verifyCycles) else e.verPos)
  | o, _ => if 0xF0400 ≤ o && o < 0xF0800 then some (field (m.rdBuf i).bytes (o - 0xF0400) 4) else none

/-- Roles, keys and sessions (Table 18-8). -/
def Mach.viewRol (m : Mach) (r : Requester) (f : Field) : Option Nat :=
  let grant := Tbl.find m.rol.grants r.slotOf
  let key := m.idx r Reg.ROL.KEY_IDX
  let sess := Tbl.find m.rol.sessions (m.idx r Reg.ROL.SESS_IDX)
  match f.off, f.lo with
  | 0x100000, 16 => some (grant.elim 0 (fun (g : Grant) => shown 16 ((g.ends - m.clk) / Config.secCycles)))
  | 0x100000, 8 => some (grant.elim 15 (fun (g : Grant) => g.sess))
  | 0x100000, 0 => some (m.roleOf r).code
  | 0x10000C, 31 => some (b2n m.rol.claimed)
  | 0x10000C, 30 => some (b2n m.rol.jtag.isSome)
  | 0x10000C, 12 => some (m.rol.keys.keys.filter (fun k => decide (k < 4))).length
  | 0x10000C, 8 => some (m.rol.keys.keys.filter (fun k => decide (4 ≤ k))).length
  | 0x10000C, 0 => some m.rol.sessions.length
  | 0x100034, _ => some (b2n (key < 12 && (Tbl.find m.rol.keys key).isSome))
  | 0x100084, 31 => some (b2n sess.isSome)
  | 0x100084, 28 => some (sess.elim 0 (fun (x : Session) => x.role.code))
  | 0x100084, 24 => some (sess.elim 0 (fun (x : Session) =>
      match x.via with | Transport.i3c => 0 | Transport.smbus => 1 | Transport.doe _ => 2))
  | 0x100084, 16 => some (sess.elim 0 (fun (x : Session) => match x.via with | Transport.doe s => s.val | _ => 0))
  | 0x100084, 0 => some (sess.elim 0 (fun (x : Session) => shown 12 ((m.clk - x.last) / Config.secCycles)))
  | o, _ =>
    if 0x100040 ≤ o && o < 0x100070 then
      some (if key < 12 then (Tbl.find m.rol.keys key).elim 0 (fun (h : List Byte) => field h (o - 0x100040) 4) else 0)
    else none

/-- What a bank counts (Table 19-1). -/
def viewPmc (f : Field) (b : Nat) : Option Nat :=
  match f.off, f.lo with
  | 0x11000C, 16 => some (bankEngines b)
  | 0x11000C, 8 => some (if b < 20 then 1 else 2)
  | 0x11000C, 4 => some (bankQuad b)
  | 0x11000C, 0 => some (if b < 20 then (bankClass b).code else 0)
  | _, _ => none

/-- The value of a field that is computed when it is read; none for one that is held. -/
def Mach.view (m : Mach) (r : Requester) (f : Field) (i : Nat) : Option Nat :=
  match f.block with
  | 0 => m.viewGlb f
  | 1 => m.viewTim r f i
  | 2 => m.viewLan f i
  | 3 => m.viewLnk r f i
  | 4 => m.viewRte f i
  | 5 => m.viewHif f i
  | 6 => m.viewXlt r f i
  | 7 => m.viewCxn f i
  | 8 => m.viewMat f i
  | 9 => m.viewCol f i
  | 10 => m.viewLka f i
  | 11 => m.viewSch r f i
  | 12 => m.viewSeq r f i
  | 14 => m.viewFlt f i
  | 15 => m.viewEvr f i
  | 16 => m.viewRol r f
  | 17 => viewPmc f i
  | _ => none

/-- What a field reads as (R8): a WO field reads 0. -/
def Mach.readField (m : Mach) (r : Requester) (f : Field) (i : Nat) : Nat :=
  if f.acc = .wo then 0 else ((m.view r f i).getD (m.get f i)) % 2 ^ f.width

/-- The value of the register at a decoded offset, as a requester reads it: 0 where no field map lists the offset (R431), and
in a field reached with an index beyond its range (R433). Reserved bits read 0 (R7). -/
def Mach.readWord (m : Mach) (r : Requester) (off : Nat) : Nat :=
  (regFields off).foldl (fun a f => match m.inst r f with
    | some i => a + m.readField r f i * 2 ^ f.lo
    | none => a) 0

/-- The offsets of the low words of 64-bit quantities (R6); the high word stands 4 above. -/
def lowWords : List Nat :=
  [0x10, 0x38, 0x10008, 0x10010, 0x10020, 0x10048, 0x10050, 0x2001C, 0x30014, 0x50004, 0x5001C, 0x50044, 0x60004, 0x60024,
   0x60040, 0x60064, 0x6006C, 0x60098, 0x600A0, 0x70044, 0x7004C, 0x90004, 0xA0008, 0xB0064, 0xB0084, 0xC00B0, 0xD0068] ++
  [0xE0048, 0xE0058, 0xF0000, 0xF0008, 0xF0010, 0xF0040, 0xF0050, 0xF0060, 0xF0070, 0x100020, 0x110010, 0x110080,
   0x110088, 0x1100D0, 0x1100E8] ++
  (List.range 8).map (fun k => 0x110020 + 8 * k) ++ (List.range 8).map (fun k => 0x110090 + 8 * k)

/-- Where the holding copy of a high word is kept, for each function. -/
def holdKey (r : Requester) (off : Nat) : Nat := r.fnKey * 16777216 + off

/-- A register key of the PWR, FLT or EVR window that the AON die holds, or the AON_ASEQ that follows it. -/
def shadowKey (k : Nat) : Bool :=
  (aonBlock (keyOff k / 65536) && !indexKey k) || keyOff k == keyOff (Reg.ROL.AON_ASEQ.key 0)

/-- The machine as reads of the AON windows see it (R8, R429): the AON die's part as the last AONCLK edge showed it. -/
def Mach.seen (m : Mach) : Mach :=
  { m with
    regs := (m.shadow.regs.filter (fun c => shadowKey c.1)).foldl (fun t c => Tbl.set t c.1 c.2)
      (m.regs.filter (fun c => !shadowKey c.1))
    pwr := m.shadow.pwr, flt := m.shadow.flt, evr := m.shadow.evr }

/-- The register at a decoded offset as a read returns it: one of an AON window, and AON_ASEQ, from the shadow (RS of Table 0-3,
R429); any other as it stands. -/
def Mach.readShown (m : Mach) (r : Requester) (off : Nat) : Nat :=
  if aonBlock (off / 65536) || off = Reg.ROL.AON_ASEQ.off then m.seen.readWord r off else m.readWord r off

/-- A register read by a requester (R5, R6, R11, R356, R416, R431), over the die-to-die link where its block stands in another quadrant (Table 1-3): reading the low word of a 64-bit quantity latches the high
word, and the next read of the high word by the same function returns that copy. -/
def Mach.regRead (m : Mach) (r : Requester) (off : Nat) (whole : Bool) : Nat × Mach :=
  let m := m.wakeFor r
  let d := decoded off
  if !whole || 0x120000 ≤ off || !m.mode.decodes (d / 65536) then (0, m)
  else
    let m := match regFields d with | f :: _ => if aonBlock f.block then m else m.reach r f | [] => m
    let (_, m1) := if d = 0x2000C then m.fresh else (0, m)
    if lowWords.contains d then
      (m.readShown r d, { m1 with hold := Tbl.set m1.hold (holdKey r (d + 4)) (m.readShown r (d + 4)) })
    else match Tbl.find m.hold (holdKey r d) with
    | some v => (v, { m1 with hold := Tbl.del m1.hold (holdKey r d) })
    | none => (m.readShown r d, m1)

/-- The AON writes of a function that wait (R428): a read of an AON window returns only after them (R429). -/
def Mach.aonWaits (m : Mach) (r : Requester) : Bool :=
  m.evr.stalled.any (fun w => !w.read && w.req.fnKey == r.fnKey && aonBlock (w.off / 65536))

/-- A register read and its answer. -/
def Mach.registerRead (m : Mach) (r : Requester) (off : Nat) (whole : Bool) : Mach :=
  let (v, m) := m.regRead r off whole
  m.emit (.readValue r off (BitVec.ofNat 32 v))

/-- REGISTER_READ. -/
def execRegisterRead (r : Requester) (off : Nat) (whole : Bool) (s : State) : Result :=
  if whole && off < 0x120000 && aonBlock (decoded off / 65536) && s.m.aonWaits r then
    let m := s.m.wakeFor r
    ok s { m with evr := { m.evr with stalled := m.evr.stalled ++ [{ req := r, off := off, val := 0, read := true }] } }
  else ok s (s.m.registerRead r off whole)

end Sys2Proof.Machine
end

