-- ==== Sys2Proof/Machine/Regs.lean ====
section
/-!
DEFINITION. Register writes (R5 to R11, R426 to R434), by a function, over MCTP or by JTAG; register commands over MCTP
(R435); and the completion of a record's write, with which the register writes that waited for the recorder go on (R394, R428).
-/

namespace Sys2Proof.Machine

/-- The role a field asks for, for a value: R378 asks MAKER for five severities below their defaults. -/
def roleNeeded (f : Field) (i v : Nat) : Role :=
  if f.off = 0xE0004 && f.lo = 8 && [0, 13, 115, 117, 124].contains i && min 4 v < fsDefault i then .maker else f.rights

/-- The value a permitted write gives a field (Table 0-3). -/
def newValue (f : Field) (old v : Nat) : Nat :=
  let x := v / 2 ^ f.lo % 2 ^ f.width
  let sel := v / 65536 % 65536
  match f.acc with
  | .rw => x
  | .rs => x
  | .wm => old - (old &&& sel) + (x &&& sel)
  | .w1c => old - (old &&& x)
  | .w1s => old
  | .wo => old
  | .ro => old

/-- A write reaches a field: it is writable, and for WM the mask selects some bit. -/
def Field.reached (f : Field) (v : Nat) : Bool :=
  match f.acc with
  | .ro => false
  | .wm => v / 65536 % 65536 != 0
  | .wo => v / 2 ^ f.lo % 2 ^ f.width != 0
  | .w1s => v / 2 ^ f.lo % 2 ^ f.width != 0
  | _ => true

/-- The bits of a write that a field's refusal leaves without effect: those that would have changed it, or asked for its action
(R426). -/
def refusedBits (f : Field) (old v : Nat) : Nat :=
  (match f.acc with
    | .wo => v / 2 ^ f.lo % 2 ^ f.width
    | .w1s => v / 2 ^ f.lo % 2 ^ f.width
    | _ => old ^^^ newValue f old v) * 2 ^ f.lo

/-! ### What a live write does beside storing the value -/

/-- The holdover estimate already stands above HOLD_LIMIT (Table 2-5, R42). -/
def Mach.holdCheck (m : Mach) : Mach :=
  if m.get Reg.TIM.STATE = 2 && !m.tim.limitHit &&
      2 * m.get Reg.TIM.HOLD_LIMIT * 1000000000 < (m.clk - m.tim.lastGood) * m.get Reg.TIM.HOLD_DRIFT then
    { (m.raise 105 .none 0 m.refQuad).record 0x5012 m.refQuad [] with tim := { m.tim with limitHit := true } }
  else m

/-- LANE_EN is cleared (Table 3-8): the lane is idle at once, and the link treats it as lost. -/
def Mach.laneOff (m : Mach) (l : Nat) : Mach :=
  (m.loseLane (Fin.ofNat 512 l)).setEi l true

/-- The lane control register of a lane is written (Table 3-8): the generator restarts and the checker seeds itself anew; EQ_MODE comes
into force at once, but for ADAPT_FULL, which waits for the next training. -/
def Mach.laneControl (m : Mach) (l : Nat) : Mach :=
  let m := (m.put Reg.LAN.PRBS_LOCK 0 l).updLane l (fun x => { x with gen := [], prbsHist := [], prbsErrs := [], prbsRun := 0 })
  if m.get Reg.LAN.EQ_MODE l = 2 then m else m.takeEqMode l

/-- EI_DELAY of a port is written (Table 3-8): 0 brings the port out of idle at once, and cancels a notice. -/
def Mach.delaySet (m : Mach) (p : Nat) : Mach :=
  if m.get Reg.LAN.EI_DELAY p = 0 then (m.updEi p (fun e => { e with sentNotice := false, rcvdNotice := false })).exitIdle p else m

/-- The port map is written (Table 5-8): a port that becomes usable by it is usable from now on (R135). -/
def Mach.mapSet (m0 m : Mach) (e : Nat) : Mach :=
  (m.namedMembers e).foldl (fun a p =>
    if m.usable p && !m0.usable p then a.updRp p (fun x => { x with freshFrom := m.clk }) else a) m

/-- AUDIT_EN is cleared: an audit in progress is abandoned. -/
def Mach.auditOff (m : Mach) (p : Nat) : Mach := m.updLink p (fun l => { l with ctrl := l.ctrl.filter (· != .audit) })

/-- Bits of RAIL_FAULT are cleared, but for one set anew (R430). -/
def Mach.clearRails (m : Mach) (bits : Nat) : Mach :=
  (List.range 26).foldl (fun a n =>
    if bit bits n && !a.setAnew (2000 + n) then a.put Reg.PWR.RAIL_FAULT (clearBit (a.get Reg.PWR.RAIL_FAULT) n) else a) m

/-- BANK_EN changes: the bank counts or stands still from the next edge (R439). -/
def Mach.bankEnable (m : Mach) (b : Nat) (on : Bool) : Mach :=
  let rest := m.pmc.on.filter (· != b)
  { m with pmc := { m.pmc with on := if on then rest ++ [b] else rest } }

/-- What a write of `v` to the register at `d`, instance `i`, does beside storing values: `m0` is the block before it. -/
def Mach.liveWrite (m0 m : Mach) (r : Requester) (d i v : Nat) : Mach :=
  let rose := fun (f : Field) => !m0.isSet f i && m.isSet f i
  let fell := fun (f : Field) => m0.isSet f i && !m.isSet f i
  match d with
  | 0x10000 =>
    let m := if rose Reg.TIM.PPS_IN_EN then { m with tim := { m.tim with ppsArmed := true } } else m
    let m := if fell Reg.TIM.PPS_IN_EN then { m with tim := { m.tim with ppsArmed := false } } else m
    if fell Reg.TIM.CLKOUT_EN then m.clkDisable else m
  | 0x10034 => m.holdCheck
  | 0x10038 => m.holdCheck
  | 0x20004 =>
    let m := m.laneControl i
    if fell Reg.LAN.LANE_EN then m.laneOff i else m
  | 0x20040 => (List.range 4).foldl (fun (a : Mach) k => a.put Reg.LAN.LOGICAL (a.logicalOf (4 * i + k)) (4 * i + k)) m
  | 0x20044 => m.delaySet i
  | 0x20054 => m.redwell i
  | 0x30004 =>
    let on := m.isSet Reg.LNK.PORT_EN i
    let m := if fell Reg.LNK.AUDIT_EN then m.auditOff i else m
    let m := if rose Reg.LNK.PORT_EN || fell Reg.LNK.PORT_EN || (on && bit (m.get (Reg.FLT.PORT_CONT (i / 32 % 4))) (i % 32))
      then m.portEnable i on else m
    m.widthMaxSet i
  | 0x40024 => m.discardSecond (m0.get Reg.RTE.DISCARD_LIMIT)
  | 0x40034 => Mach.mapSet m0 m i
  | 0x40040 =>
    if rose Reg.RTE.ROUTE_EN || fell Reg.RTE.ROUTE_EN then m.routeEnable i (m.isSet Reg.RTE.ROUTE_EN i) else m
  | 0x60080 =>
    if m0.get Reg.XLT.AUDIT_PERIOD = 0 && m.get Reg.XLT.AUDIT_PERIOD != 0 then
      { m with xlt := { m.xlt with auditDue := max m.xlt.auditDue (m.clk + m.auditPeriod) } }
    else m
  | 0x60090 => if bit v 31 then m.put Reg.XLT.FC_VALID 0 i else m
  | 0xC00A8 => m.corrSet (m0.get Reg.SEQ.CORR_LIMIT)
  | 0xD0004 => m.swOff i (m0.isSet Reg.PWR.SW_OFF i) (m.isSet Reg.PWR.SW_OFF i)
  | 0xD0048 => m.limitSet (m0.get Reg.PWR.PWR_LIMIT)
  | 0xD0064 => m.clearRails v
  | 0x110004 => m.bankEnable i (m.isSet Reg.PMC.BANK_EN i)
  | 0x110018 => m.clearOvf i v
  | 0x1100E4 =>
    if rose Reg.PMC.STR_EN then m.streamStart r.slotOf i
    else if fell Reg.PMC.STR_EN then { m with pmc := { m.pmc with streams := Tbl.del m.pmc.streams i } }
    else m
  | _ => m

/-- The register belongs to a stream that runs for another slot: the write is ignored (R446). -/
def Mach.streamTaken (m : Mach) (r : Requester) (d : Nat) : Option Nat :=
  if 0x1100E4 ≤ d && d ≤ 0x1100F0 then
    let n := m.idx r Reg.PMC.STR_IDX
    if (Tbl.find m.pmc.streams n).any (fun (x : Stream) => x.slot != r.slotOf) then some n else none
  else none

/-- A write of `v` to a register without action bits, in a mode that takes it: the block after it and the refused bits. `fs` are
its fields with the instances that the requester reaches. -/
def Mach.writeSettings (m : Mach) (r : Requester) (d v : Nat) (fs : List (Field × Nat)) (f0 : Field) (i0 : Nat) :
    Mach × Nat :=
  if m.behindWrite r (d / 65536) then (m.stall r d v 0xFFFFFFFF, 0) else
  let old := fun (x : Field × Nat) => m.readField r x.1 x.2
  let new := fun (x : Field × Nat) => newValue x.1 (old x) v
  let may := fun (x : Field × Nat) => (m.roleOf r).covers (roleNeeded x.1 x.2 (new x))
  let refused := ((fs.filter (fun x => x.1.reached v && !may x)).map (fun x => refusedBits x.1 (old x) v)).sum
  let applied := fs.filter (fun x => x.1.reached v && may x)
  let priv := applied.any (fun x => (Role.installer).code ≤ x.1.rights.code)
  if m.mustWait r f0 priv then (m.stall r d v 0xFFFFFFFF, 0)
  else
    let store := fun (a : Mach) => applied.foldl (fun (a : Mach) x =>
      if x.1.acc = .w1c then a else a.put x.1 (new x) x.2) a
    let m1 := if priv then m.recordPriv r f0 (m.readWord r d) v ((store m).readWord r d) else m
    let m2 := m1.crossAon r f0
    let m3 := if refused != 0 then m2.refuseWrite r d v refused else m2
    let m4 := if d = 0xF0024 || d = 0xF002C || d = 0xF0030 then m3.settleBuckets else m3
    if applied.isEmpty then (m4, refused)
    else
      let seen := applied.foldl (fun a x => a + v / 2 ^ x.1.lo % 2 ^ x.1.width * 2 ^ x.1.lo) 0
      (Mach.liveWrite m4 (store m4) r d i0 seen, refused)

/-! ### Registers of action bits -/

/-- One more command of a write, where its bit is set. -/
def State.also (s : State) (c : Bool) (act : State → Result) : State :=
  if c then (match act s with | .next t => t | .fault _ => s | .refused _ => s) else s

/-- The actions of a write of `v` to a register whose bits have rows of their own. What such a row's command carries from outside
is, on this path: no coincidence, an MRAM that may be uncorrectable, a boot that finds what Config says. -/
def State.act (s : State) (r : Requester) (d v : Nat) : State :=
  let b := bit v
  let bad := (Config.mramBad s.m.free)
  let drew := { s with m := { s.m with free := s.m.free + 1 } }
  match d with
  | 0x4 => s.also true (fun s => okFlt s (s.m.modeReq r (v % 8) .alone))
  | 0x28 => (drew.also (b 0) (execWarmReset r .alone)).also (b 1) (execModuleReset r (Config.bootFinds s.m.free))
  | 0x10058 => s.also (b 0) (execStep r)
  | 0x20030 => s.also (b 0) (execLaneCntClr r)
  | 0x20050 => s.also (b 0) (execScanStart r)
  | 0x30008 =>
    (((s.also (b 0) (execRetrain r)).also (b 1) (execWidthChange r)).also (b 2) (execAuditNow r)).also (b 3) (execLinkCntClr r)
  | 0x40028 => (s.also (b 0) (execCfgCheck r)).also (b 1) (execRouteCntClr r)
  | 0x50024 => ((s.also (v % 4 == 1) (execWrCreate r)).also (v % 4 == 2) (execWrDestroy r)).also (v % 4 == 3) (execWrReset r)
  | 0x5005C =>
    (((s.also (v % 8 == 1) (execCrCreate r)).also (v % 8 == 2) (execCrDestroy r)).also (v % 8 == 3) (execCrModify r)).also
      (v % 8 == 4) (execCrReset r)
  | 0x500DC => s.also (b 0) (execHifCntClr r)
  | 0x60010 => (s.also (v % 4 == 1) (execPdLoad r)).also (v % 4 == 2) (execPdDisable r)
  | 0x60030 => (s.also (v % 4 == 1) (execVmidLoad r)).also (v % 4 == 2) (execVmidDisable r)
  | 0x60050 => s.also (b 0) (execInvGo r)
  | 0x600E4 => s.also (b 0) (execXltCntClr r)
  | 0x7005C => (s.also (v % 4 == 1) (execWinCreate r)).also (v % 4 == 2) (execWinDisable r)
  | 0x70074 => s.also (b 0) (execCtxLookup r)
  | 0x700F8 => s.also (b 0) (execCxnCntClr r)
  | 0x8000C => (s.also (v % 4 == 1) (execDomCreate r)).also (v % 4 == 2) (execDomDisable r)
  | 0x800F0 => s.also (b 0) (execMatCntClr r)
  | 0x9001C => ((s.also (v % 4 == 1) (execGrpCreate r)).also (v % 4 == 2) (execGrpDestroy r)).also (v % 4 == 3) (execGrpAbort r)
  | 0x900F0 => s.also (b 0) (execColCntClr r)
  | 0xA0020 => s.also (b 0) (execLockCmdForce r)
  | 0xA00F0 => s.also (b 0) (execLkaCntClr r)
  | 0xB0080 => s.also (b 0) (execGateSwap r)
  | 0xB00F0 => s.also (b 0) (execSchCntClr r)
  | 0xC0044 => s.also (b 0) (execSwap r)
  | 0xC00B8 => s.also (b 0) (execRepairGo r)
  | 0xC00FC => s.also (b 0) (execSeqCntClr r)
  | 0xD0008 => s.also (b 0) (execFeedClr r)
  | 0xD0078 => s.also (b 0) (execPwrCntClr r)
  | 0xE0008 => s.also (b 31) (execStickyClear r .indexed)
  | 0xE0044 => s.also (b 0) (execFltAck r)
  | 0xE0080 => s.also (v % 65536 != 0) (execSlotContRelease r (BitVec.ofNat 16 v))
  | 0xE00F0 => s.also (b 0) (execFltCntClr r)
  | 0xF0048 =>
    if b 0 && b 1 then
      drew.also true (fun t => ok t (t.m.action r Reg.EVR.RD_GO 3 (fun m i => Mach.ledgerGo s bad (Mach.rdGo s.mram bad m i) i)))
    else (drew.also (b 0) (execRdGo r bad)).also (b 1) (execLedgerGo r bad)
  | 0xF0068 => s.also (b 0) (execExpGo r)
  | 0xF008C => s.also (b 0) (execVerifyGo r)
  | 0xF00A0 => s.also (b 0) (execEvrCntClr r)
  | 0x100004 => s.also (b 0) (execRoleDrop (.register r))
  | 0x1000F0 => s.also (b 0) (execRolCntClr r)
  | 0x110008 => (((s.also (b 2) (execSnap r)).also (b 3) (execSnapAll r)).also (b 4) (execSnapArm r)).also (b 1) (execPmcClr r)
  | _ =>
    let k : Fin 4 := Fin.ofNat 4 (d / 4)
    if 0xE0010 ≤ d && d < 0xE0020 then s.also (v != 0) (execStickyClear r (.bank k (BitVec.ofNat 32 v)))
    else if 0xE0030 ≤ d && d < 0xE0040 then s.also (v != 0) (execFaultForce r k (BitVec.ofNat 32 v))
    else s

/-- A register whose bits have rows of their own: WO bits, and the sticky, injection and containment bits of FLT. -/
def actsAt (d : Nat) : Bool :=
  (regFields d).any (fun f => f.acc = .wo) || d = 0xE0008 || d = 0xE0080 || (0xE0010 ≤ d && d < 0xE0020) ||
  (0xE0030 ≤ d && d < 0xE0040)

/-- A write of `v` to a register of action bits: refused bits do nothing and are recorded together (R426). -/
def State.writeActions (s : State) (r : Requester) (d v : Nat) (fs : List (Field × Nat)) (f0 : Field) : State × Nat :=
  let no := fs.filter (fun x => x.1.reached v && !(s.m.roleOf r).covers x.1.rights)
  if s.m.behindWrite r (d / 65536) then ({ s with m := s.m.stall r d v 0xFFFFFFFF }, 0)
  else if d = 0x4 then
    let need : Role := if v % 8 = 7 then .installer else .operator
    (s.act r d v, if (s.m.roleOf r).covers need then 0 else 7)
  else
    let refused := (no.map (fun x => refusedBits x.1 (s.m.readField r x.1 x.2) v)).sum
    let done := fs.filter (fun x => x.1.reached v && (s.m.roleOf r).covers x.1.rights)
    let w := done.foldl (fun a x => a + v / 2 ^ x.1.lo % 2 ^ x.1.width * 2 ^ x.1.lo) 0
    let m := if done.isEmpty || w = 0 then s.m.crossAon r f0 else s.m
    let m := if refused != 0 then m.refuseWrite r d v refused else m
    ({ s with m := m }.act r d w, refused)

/-- A register write of a whole aligned word (R8 to R11, R356, R426 to R431): the state after it and the refused bits. -/
def State.regWrite (s : State) (r : Requester) (off v : Nat) : State × Nat :=
  let m := s.m.wakeFor r
  let d := decoded off
  if m.mode = .lockout then ({ s with m := m.ignoreAt r (if off < 0x120000 then d else off) v }, 0)
  else if 0x120000 ≤ off || !m.mode.decodes (d / 65536) then ({ s with m := m }, 0)
  else
    let fs := (regFields d).filterMap (fun f => if f.acc = .ro then none else (m.inst r f).map (fun i => (f, i)))
    match fs, m.streamTaken r d with
    | [], _ => ({ s with m := m }, 0)
    | (f, i) :: _, taken =>
      if actsAt d then { s with m := m }.writeActions r d v fs f
      else match taken with
      | some n =>
        if (m.roleOf r).covers .operator then ({ s with m := (m.ignoreWrite r f v).put Reg.PMC.STR_ERR 4 n }, 0)
        else
          let (m, refused) := m.writeSettings r d v fs f i
          ({ s with m := m }, refused)
      | none =>
        let (m, refused) := m.writeSettings r d v fs f i
        ({ s with m := m }, refused)

/-- REGISTER_WRITE: a write of another width or alignment has no effect (R5); in LOCKOUT every write is recorded (R356). -/
def execRegisterWrite (r : Requester) (off : Nat) (whole : Bool) (v : Word) (s : State) : Result :=
  if whole || (s.m.wakeFor r).mode = .lockout then .next (s.regWrite r off v.toNat).1 else ok s (s.m.wakeFor r)

/-! ### Over MCTP (R435) -/

/-- `n` registers from an offset up, read in turn. -/
def Mach.readMany (r : Requester) : Nat → Nat → Mach → List Word × Mach
  | 0, _, m => ([], m)
  | n + 1, off, m =>
    let (v, m) := m.regRead r off true
    let (vs, m) := Mach.readMany r n (off + 4) m
    (BitVec.ofNat 32 v :: vs, m)

/-- The requester of a register command. -/
def viewer (p : Path) (view : Nat) : Requester := .session p.sess (Fin.ofNat 16 view)

/-- REG_READ. -/
def execRegRead (p : Path) (view : Nat) (count off : Nat) (s : State) : Result :=
  ok s (s.m.mgmt p (fun m =>
    if !(m.pathRole p).covers .operator then m.refuseCmd p 0x20 1
    else if 16 ≤ view || count < 1 || 16 < count || off % 4 != 0 || 0x120000 < off + 4 * count then m.refuseCmd p 0x20 2
    else
      let (vs, m) := Mach.readMany (viewer p view) count off m
      m.say p (.values vs)))

/-- A management message is taken up at all: what `Mach.mgmt` asks. -/
def Mach.mgmtHeard (m : Mach) (p : Path) : Bool :=
  !(m.boot.recovery || (decide (p.via = .smbus) && m.rol.i3cAddr.isSome)) &&
  (match p.sess with
    | none => true
    | some k => (Tbl.find m.rol.sessions k).any (fun (x : Session) => x.via == p.via))

/-- REG_WRITE: PARTIAL where a field was refused. -/
def execRegWrite (p : Path) (view : Nat) (off : Nat) (v : Word) (s : State) : Result :=
  let m := s.m.mgmt p (fun m => m)
  if !s.m.mgmtHeard p then ok s m
  else if !(m.pathRole p).covers .operator then ok s (m.refuseCmd p 0x21 1)
  else if 16 ≤ view || off % 4 != 0 || 0x120000 ≤ off then ok s (m.refuseCmd p 0x21 2)
  else if m.mode = .lockout then ok s (m.refuseCmd p 0x21 3)
  else
    let (t, refused) := { s with m := m }.regWrite (viewer p view) off v.toNat
    ok t (t.m.say p (.partial_ 0 (refused != 0)))

/-- VENDOR_DEFINED_REQUEST (R412, R435): the command it carries. -/
def execVendorDefinedRequest (p : Path) (c : VendorCommand) (s : State) : Result :=
  match c with
  | .ledgerRead first count => execLedgerRead p first count s
  | .evrRead maxBytes fromSeq => execEvrRead p maxBytes fromSeq s
  | .regRead view count off => execRegRead p view count off s
  | .regWrite view off v => execRegWrite p view off v s
  | .wake => execWake p .alone s
  | .roleGrant slot minutes => execRoleGrant p slot minutes s
  | .roleDrop slot => execRoleDrop (.message p slot) s
  | .keyEnrol slot hash => execKeyEnrol p slot hash s
  | .keyRemove slot => execKeyRemove p slot s
  | .claim => execClaim p s
  | .release => execRelease p s
  | .jtagUnlock unlock => execJtagUnlock p unlock s
  | .timeQuery => execTimeQuery p s
  | .unknown code => ok s (s.m.mgmt p (fun m => m.refuseCmd p code 2))

/-! ### The recorder's space returns -/

/-- The word that a write that waited lays on its register: its own bits, and the others as the RW fields stand now. -/
def Mach.laidWord (m : Mach) (w : StalledWrite) : Nat :=
  if w.mask = 0xFFFFFFFF#32 then w.val.toNat
  else (regFields w.off).foldl (fun a f =>
    if f.mask &&& w.mask.toNat != 0 then a + w.val.toNat / 2 ^ f.lo % 2 ^ f.width * 2 ^ f.lo
    else if f.acc = .rw then a + ((m.inst w.req f).elim 0 (fun i => m.get f i)) * 2 ^ f.lo
    else a) 0

/-- A write that waited goes on, or a read behind one returns (R429). -/
def State.goOn (s : State) (w : StalledWrite) : State :=
  if w.read then { s with m := s.m.registerRead w.req w.off true }
  else (s.regWrite w.req w.off (s.m.laidWord w)).1

/-- RECORD_WRITE_COMPLETE (R394): the record at the head of the queue is written; the records and the register writes (R428) that
waited for space go on in their order. -/
def execRecordWriteComplete (s : State) : Result :=
  let s := s.writeHead
  let ws := s.m.evr.stalled
  .next (ws.foldl State.goOn { s with m := { s.m with evr := { s.m.evr with stalled := [] } } })

end Sys2Proof.Machine
end

