-- ==== Sys2Proof/Machine/Dispatch.lean ====
section
/-!
DEFINITION. The dispatch: one arm for each constructor of `Instr`, each one direct call of the command's meaning.
-/

namespace Sys2Proof.Machine

/-- The effect of a command on everything but the queue. -/
def exec (i : Instr) (s : State) : Host.Outcome State Fault Refusal :=
  match i with
  | .registerWrite r off whole v => Sys2Proof.Machine.execRegisterWrite r off whole v s
  | .dieLinkDown a b => Sys2Proof.Machine.execDieLinkDown a b s
  | .yarrowStep e w => Sys2Proof.Machine.execYarrowStep e w s
  | .engineGateClose e => Sys2Proof.Machine.execEngineGateClose e s
  | .engineWake e => Sys2Proof.Machine.execEngineWake e s
  | .quadrantPark q => Sys2Proof.Machine.execQuadrantPark q s
  | .quadrantWake q => Sys2Proof.Machine.execQuadrantWake q s
  | .timeExchangeStart p => Sys2Proof.Machine.execTimeExchangeStart p s
  | .timeReq p f => Sys2Proof.Machine.execTimeReq p f s
  | .timeRsp p f => Sys2Proof.Machine.execTimeRsp p f s
  | .parentSelection => Sys2Proof.Machine.execParentSelection s
  | .rootSeqIncrement => Sys2Proof.Machine.execRootSeqIncrement s
  | .rootLost prio serial => Sys2Proof.Machine.execRootLost prio serial s
  | .parentLossTimeout => Sys2Proof.Machine.execParentLossTimeout s
  | .holdoverLimitPassed => Sys2Proof.Machine.execHoldoverLimitPassed s
  | .ppsInEdge => Sys2Proof.Machine.execPpsInEdge s
  | .ppsInMissing => Sys2Proof.Machine.execPpsInMissing s
  | .ppsOutPulse => Sys2Proof.Machine.execPpsOutPulse s
  | .ptmRequest slot roundTrip => Sys2Proof.Machine.execPtmRequest slot roundTrip s
  | .timeQuery p => Sys2Proof.Machine.execTimeQuery p s
  | .step r => Sys2Proof.Machine.execStep r s
  | .codewordReceive l c => Sys2Proof.Machine.execCodewordReceive l c s
  | .laneLost l => Sys2Proof.Machine.execLaneLost l s
  | .cdrLockLoss l => Sys2Proof.Machine.execCdrLockLoss l s
  | .alignBlock l b => Sys2Proof.Machine.execAlignBlock l b s
  | .idleNoticeSend p => Sys2Proof.Machine.execIdleNoticeSend p s
  | .idleNoticeReceive p => Sys2Proof.Machine.execIdleNoticeReceive p s
  | .eiExitRequest p => Sys2Proof.Machine.execEiExitRequest p s
  | .wakeBurstReceive p skew => Sys2Proof.Machine.execWakeBurstReceive p skew s
  | .wakeAnswerTimeout p => Sys2Proof.Machine.execWakeAnswerTimeout p s
  | .fecIntervalEnd l => Sys2Proof.Machine.execFecIntervalEnd l s
  | .scanStart r => Sys2Proof.Machine.execScanStart r s
  | .scanPeriodDue q => Sys2Proof.Machine.execScanPeriodDue q s
  | .scanComplete l upper middle lower => Sys2Proof.Machine.execScanComplete l upper middle lower s
  | .laneCntClr r => Sys2Proof.Machine.execLaneCntClr r s
  | .dataFrame p f rx => Sys2Proof.Machine.execDataFrame p f rx s
  | .creditFrame p f rx => Sys2Proof.Machine.execCreditFrame p f rx s
  | .nakFrame p f rx => Sys2Proof.Machine.execNakFrame p f rx s
  | .auditFrame p f rx => Sys2Proof.Machine.execAuditFrame p f rx s
  | .unknownControlFrame p bytes rx => Sys2Proof.Machine.execUnknownControlFrame p bytes rx s
  | .trainFrame p f rx => Sys2Proof.Machine.execTrainFrame p f rx s
  | .creditSend p => Sys2Proof.Machine.execCreditSend p s
  | .nakResendExpiry p => Sys2Proof.Machine.execNakResendExpiry p s
  | .replayTimeout p => Sys2Proof.Machine.execReplayTimeout p s
  | .frameBoundary p => Sys2Proof.Machine.execFrameBoundary p s
  | .auditTick p => Sys2Proof.Machine.execAuditTick p s
  | .scheduledRetrainStart p => Sys2Proof.Machine.execScheduledRetrainStart p s
  | .retrain r => Sys2Proof.Machine.execRetrain r s
  | .doneTimeout p => Sys2Proof.Machine.execDoneTimeout p s
  | .trainReqResend p => Sys2Proof.Machine.execTrainReqResend p s
  | .fullTraining p lanes => Sys2Proof.Machine.execFullTraining p lanes s
  | .trainRetryExpiry p lanes => Sys2Proof.Machine.execTrainRetryExpiry p lanes s
  | .widthChange r => Sys2Proof.Machine.execWidthChange r s
  | .autoWidthTrial p => Sys2Proof.Machine.execAutoWidthTrial p s
  | .laneAddTimeout p locked => Sys2Proof.Machine.execLaneAddTimeout p locked s
  | .reinjectionComplete p => Sys2Proof.Machine.execReinjectionComplete p s
  | .auditNow r => Sys2Proof.Machine.execAuditNow r s
  | .portEn r on => Sys2Proof.Machine.execPortEn r on s
  | .widthMax r v => Sys2Proof.Machine.execWidthMax r v s
  | .linkCntClr r => Sys2Proof.Machine.execLinkCntClr r s
  | .cfgCheck r => Sys2Proof.Machine.execCfgCheck r s
  | .routeSelect from_ => Sys2Proof.Machine.execRouteSelect from_ s
  | .escWaitExpiry p id => Sys2Proof.Machine.execEscWaitExpiry p id s
  | .localDelivery q tc => Sys2Proof.Machine.execLocalDelivery q tc s
  | .beaconSend p => Sys2Proof.Machine.execBeaconSend p s
  | .beaconReceive p b rx => Sys2Proof.Machine.execBeaconReceive p b rx s
  | .beaconStale p => Sys2Proof.Machine.execBeaconStale p s
  | .portUnusable p => Sys2Proof.Machine.execPortUnusable p s
  | .routeEn r on => Sys2Proof.Machine.execRouteEn r on s
  | .routeCntClr r => Sys2Proof.Machine.execRouteCntClr r s
  | .wrDoorbell slot fn page => Sys2Proof.Machine.execWrDoorbell slot fn page s
  | .crHead slot fn page v => Sys2Proof.Machine.execCrHead slot fn page v s
  | .crArm slot fn page => Sys2Proof.Machine.execCrArm slot fn page s
  | .sleepNoticeDoorbell slot fn page => Sys2Proof.Machine.execSleepNoticeDoorbell slot fn page s
  | .ringReadCompletion id data => Sys2Proof.Machine.execRingReadCompletion id data s
  | .ringResume ring => Sys2Proof.Machine.execRingResume ring s
  | .nop ring e => Sys2Proof.Machine.execNop ring e s
  | .pad ring e => Sys2Proof.Machine.execPad ring e s
  | .put ring e => Sys2Proof.Machine.execPut ring e s
  | .putFlag ring e => Sys2Proof.Machine.execPutFlag ring e s
  | .get ring e => Sys2Proof.Machine.execGet ring e s
  | .atomic ring e => Sys2Proof.Machine.execAtomic ring e s
  | .send ring e => Sys2Proof.Machine.execSend ring e s
  | .recv ring e => Sys2Proof.Machine.execRecv ring e s
  | .recvCancel ring e => Sys2Proof.Machine.execRecvCancel ring e s
  | .coll ring e => Sys2Proof.Machine.execColl ring e s
  | .lockAcquire ring e => Sys2Proof.Machine.execLockAcquire ring e s
  | .lockRelease ring e => Sys2Proof.Machine.execLockRelease ring e s
  | .lockForce ring e => Sys2Proof.Machine.execLockForce ring e s
  | .fence ring e => Sys2Proof.Machine.execFence ring e s
  | .sleepNotice ring e => Sys2Proof.Machine.execSleepNotice ring e s
  | .moderationTimerExpiry cr => Sys2Proof.Machine.execModerationTimerExpiry cr s
  | .msixUnmask slot fn vec => Sys2Proof.Machine.execMsixUnmask slot fn vec s
  | .hostReadFailure id why => Sys2Proof.Machine.execHostReadFailure id why s
  | .functionD3hotEntry slot fn => Sys2Proof.Machine.execFunctionD3hotEntry slot fn s
  | .functionD0Return slot fn => Sys2Proof.Machine.execFunctionD0Return slot fn s
  | .busMasterEnableSet slot fn => Sys2Proof.Machine.execBusMasterEnableSet slot fn s
  | .busMasterEnableClear slot fn => Sys2Proof.Machine.execBusMasterEnableClear slot fn s
  | .flr slot fn => Sys2Proof.Machine.execFlr slot fn s
  | .vfEnableClear slot => Sys2Proof.Machine.execVfEnableClear slot s
  | .hostPortReset hp kind => Sys2Proof.Machine.execHostPortReset hp kind s
  | .hostPortLinkUp hp h0 h1 => Sys2Proof.Machine.execHostPortLinkUp hp h0 h1 s
  | .wrCreate r => Sys2Proof.Machine.execWrCreate r s
  | .wrDestroy r => Sys2Proof.Machine.execWrDestroy r s
  | .wrDrainDone ring => Sys2Proof.Machine.execWrDrainDone ring s
  | .wrReset r => Sys2Proof.Machine.execWrReset r s
  | .crCreate r => Sys2Proof.Machine.execCrCreate r s
  | .crDestroy r => Sys2Proof.Machine.execCrDestroy r s
  | .crModify r => Sys2Proof.Machine.execCrModify r s
  | .crReset r => Sys2Proof.Machine.execCrReset r s
  | .hifCntClr r => Sys2Proof.Machine.execHifCntClr r s
  | .walkReadCompletion id entry => Sys2Proof.Machine.execWalkReadCompletion id entry s
  | .invGo r => Sys2Proof.Machine.execInvGo r s
  | .invalidationComplete slot id => Sys2Proof.Machine.execInvalidationComplete slot id s
  | .pdLoad r => Sys2Proof.Machine.execPdLoad r s
  | .pdDisable r => Sys2Proof.Machine.execPdDisable r s
  | .vmidLoad r => Sys2Proof.Machine.execVmidLoad r s
  | .vmidDisable r => Sys2Proof.Machine.execVmidDisable r s
  | .ladybirdPeriod => Sys2Proof.Machine.execLadybirdPeriod s
  | .auditComparison id => Sys2Proof.Machine.execAuditComparison id s
  | .xltCntClr r => Sys2Proof.Machine.execXltCntClr r s
  | .writePacket k => Sys2Proof.Machine.execWritePacket k s
  | .writeFlagPacket k => Sys2Proof.Machine.execWriteFlagPacket k s
  | .flagRelease cx msn => Sys2Proof.Machine.execFlagRelease cx msn s
  | .readReqPacket k => Sys2Proof.Machine.execReadReqPacket k s
  | .readRspPacket k => Sys2Proof.Machine.execReadRspPacket k s
  | .resultPacket k => Sys2Proof.Machine.execResultPacket k s
  | .ackPacket k => Sys2Proof.Machine.execAckPacket k s
  | .nakPacket k => Sys2Proof.Machine.execNakPacket k s
  | .epochNakPacket k => Sys2Proof.Machine.execEpochNakPacket k s
  | .lossCheck cx => Sys2Proof.Machine.execLossCheck cx s
  | .rsxAckTimer cx => Sys2Proof.Machine.execRsxAckTimer cx s
  | .rtoExpiry cx => Sys2Proof.Machine.execRtoExpiry cx s
  | .rnrDelayExpiry cx => Sys2Proof.Machine.execRnrDelayExpiry cx s
  | .rnrTimeout cx => Sys2Proof.Machine.execRnrTimeout cx s
  | .winCreate r => Sys2Proof.Machine.execWinCreate r s
  | .winDisable r => Sys2Proof.Machine.execWinDisable r s
  | .ctxLookup r => Sys2Proof.Machine.execCtxLookup r s
  | .cxnCntClr r => Sys2Proof.Machine.execCxnCntClr r s
  | .eagerPacket k => Sys2Proof.Machine.execEagerPacket k s
  | .rtsPacket k => Sys2Proof.Machine.execRtsPacket k s
  | .pullReqPacket k => Sys2Proof.Machine.execPullReqPacket k s
  | .pullRspPacket k => Sys2Proof.Machine.execPullRspPacket k s
  | .messageReady cx msn => Sys2Proof.Machine.execMessageReady cx msn s
  | .recvResume q => Sys2Proof.Machine.execRecvResume q s
  | .domCreate r => Sys2Proof.Machine.execDomCreate r s
  | .domDisable r => Sys2Proof.Machine.execDomDisable r s
  | .matCntClr r => Sys2Proof.Machine.execMatCntClr r s
  | .collUp k => Sys2Proof.Machine.execCollUp k s
  | .collDown k => Sys2Proof.Machine.execCollDown k s
  | .collCredit k => Sys2Proof.Machine.execCollCredit k s
  | .collNak k => Sys2Proof.Machine.execCollNak k s
  | .collAbort k => Sys2Proof.Machine.execCollAbort k s
  | .collCreditSend grp rank edge => Sys2Proof.Machine.execCollCreditSend grp rank edge s
  | .collNakTimer grp rank edge => Sys2Proof.Machine.execCollNakTimer grp rank edge s
  | .collRto grp rank edge => Sys2Proof.Machine.execCollRto grp rank edge s
  | .opTimeout grp => Sys2Proof.Machine.execOpTimeout grp s
  | .abortResend grp rank edge => Sys2Proof.Machine.execAbortResend grp rank edge s
  | .grpCreate r => Sys2Proof.Machine.execGrpCreate r s
  | .grpDestroy r => Sys2Proof.Machine.execGrpDestroy r s
  | .grpAbort r => Sys2Proof.Machine.execGrpAbort r s
  | .colCntClr r => Sys2Proof.Machine.execColCntClr r s
  | .lkAcq k => Sys2Proof.Machine.execLkAcq k s
  | .lkRel k => Sys2Proof.Machine.execLkRel k s
  | .lkForce k => Sys2Proof.Machine.execLkForce k s
  | .lkRenew k => Sys2Proof.Machine.execLkRenew k s
  | .lkWithdraw k => Sys2Proof.Machine.execLkWithdraw k s
  | .lkRsp k => Sys2Proof.Machine.execLkRsp k s
  | .lkGrantAck k => Sys2Proof.Machine.execLkGrantAck k s
  | .atReq k => Sys2Proof.Machine.execAtReq k s
  | .atRsp k => Sys2Proof.Machine.execAtRsp k s
  | .atAck k => Sys2Proof.Machine.execAtAck k s
  | .lockTimeout q tag => Sys2Proof.Machine.execLockTimeout q tag s
  | .lkuRequestResend q tag => Sys2Proof.Machine.execLkuRequestResend q tag s
  | .lockProbe q tag => Sys2Proof.Machine.execLockProbe q tag s
  | .lockBusyRetry q tag => Sys2Proof.Machine.execLockBusyRetry q tag s
  | .grantResend lock => Sys2Proof.Machine.execGrantResend lock s
  | .leaseRenewal => Sys2Proof.Machine.execLeaseRenewal s
  | .leaseExpiry lock => Sys2Proof.Machine.execLeaseExpiry lock s
  | .resultTableExpiry slot src tag => Sys2Proof.Machine.execResultTableExpiry slot src tag s
  | .lockCmdForce r => Sys2Proof.Machine.execLockCmdForce r s
  | .lkaCntClr r => Sys2Proof.Machine.execLkaCntClr r s
  | .injectionGrant q => Sys2Proof.Machine.execInjectionGrant q s
  | .wheelSlot q => Sys2Proof.Machine.execWheelSlot q s
  | .gateChange => Sys2Proof.Machine.execGateChange s
  | .gateSwap r => Sys2Proof.Machine.execGateSwap r s
  | .gateSwapInstant => Sys2Proof.Machine.execGateSwapInstant s
  | .gateEn r on => Sys2Proof.Machine.execGateEn r on s
  | .schCntClr r => Sys2Proof.Machine.execSchCntClr r s
  | .swap r => Sys2Proof.Machine.execSwap r s
  | .swapLoaded c v => Sys2Proof.Machine.execSwapLoaded c v s
  | .tableSwitch c => Sys2Proof.Machine.execTableSwitch c s
  | .hbmPatrolRead q found => Sys2Proof.Machine.execHbmPatrolRead q found s
  | .sramPatrolRead q found => Sys2Proof.Machine.execSramPatrolRead q found s
  | .patrolOverrun q => Sys2Proof.Machine.execPatrolOverrun q s
  | .repairGo r => Sys2Proof.Machine.execRepairGo r s
  | .rowRepairComplete q => Sys2Proof.Machine.execRowRepairComplete q s
  | .cicadaSample c => Sys2Proof.Machine.execCicadaSample c s
  | .deferredActivityStart => Sys2Proof.Machine.execDeferredActivityStart s
  | .seqCntClr r => Sys2Proof.Machine.execSeqCntClr r s
  | .feedInRange f => Sys2Proof.Machine.execFeedInRange f s
  | .debounceComplete f => Sys2Proof.Machine.execDebounceComplete f s
  | .prechargeComplete f => Sys2Proof.Machine.execPrechargeComplete f s
  | .prechargeTimeout f => Sys2Proof.Machine.execPrechargeTimeout f s
  | .rampComplete f => Sys2Proof.Machine.execRampComplete f s
  | .feedOutOfRange f high => Sys2Proof.Machine.execFeedOutOfRange f high s
  | .feedDisable f => Sys2Proof.Machine.execFeedDisable f s
  | .reverseCurrent f => Sys2Proof.Machine.execReverseCurrent f s
  | .limitEntry f => Sys2Proof.Machine.execLimitEntry f s
  | .limitClear f => Sys2Proof.Machine.execLimitClear f s
  | .faultTimerExpiry f => Sys2Proof.Machine.execFaultTimerExpiry f s
  | .fastTrip f => Sys2Proof.Machine.execFastTrip f s
  | .backoffExpiry f => Sys2Proof.Machine.execBackoffExpiry f s
  | .retryCountReset f => Sys2Proof.Machine.execRetryCountReset f s
  | .latchClear f => Sys2Proof.Machine.execLatchClear f s
  | .feedClr r => Sys2Proof.Machine.execFeedClr r s
  | .powerCycleBoth => Sys2Proof.Machine.execPowerCycleBoth s
  | .pgoodRise b => Sys2Proof.Machine.execPgoodRise b s
  | .pgoodFall => Sys2Proof.Machine.execPgoodFall s
  | .railGroupStart g => Sys2Proof.Machine.execRailGroupStart g s
  | .railGroupDischarge g => Sys2Proof.Machine.execRailGroupDischarge g s
  | .railFault rail => Sys2Proof.Machine.execRailFault rail s
  | .sharingFault => Sys2Proof.Machine.execSharingFault s
  | .powerLimitExceeded => Sys2Proof.Machine.execPowerLimitExceeded s
  | .pwrCntClr r => Sys2Proof.Machine.execPwrCntClr r s
  | .modeReqDormant r meet => Sys2Proof.Machine.execModeReqDormant r meet s
  | .modeReqConfig r meet => Sys2Proof.Machine.execModeReqConfig r meet s
  | .modeReqTrain r meet => Sys2Proof.Machine.execModeReqTrain r meet s
  | .modeReqRun r meet => Sys2Proof.Machine.execModeReqRun r meet s
  | .modeReqDrain r meet => Sys2Proof.Machine.execModeReqDrain r meet s
  | .modeReqSafe r meet => Sys2Proof.Machine.execModeReqSafe r meet s
  | .modeReqLockout r meet => Sys2Proof.Machine.execModeReqLockout r meet s
  | .attestComplete => Sys2Proof.Machine.execAttestComplete s
  | .runReadiness => Sys2Proof.Machine.execRunReadiness s
  | .trainTimeout ready => Sys2Proof.Machine.execTrainTimeout ready s
  | .drained => Sys2Proof.Machine.execDrained s
  | .warmReset r meet => Sys2Proof.Machine.execWarmReset r meet s
  | .moduleReset r b => Sys2Proof.Machine.execModuleReset r b s
  | .mgcWatchdogExpiry b => Sys2Proof.Machine.execMgcWatchdogExpiry b s
  | .faultDetection ext => Sys2Proof.Machine.execFaultDetection ext s
  | .faultSelfCheck bad => Sys2Proof.Machine.execFaultSelfCheck bad s
  | .fltAck r => Sys2Proof.Machine.execFltAck r s
  | .faultForce r bank bits => Sys2Proof.Machine.execFaultForce r bank bits s
  | .stickyClear r t => Sys2Proof.Machine.execStickyClear r t s
  | .slotContRelease r bits => Sys2Proof.Machine.execSlotContRelease r bits s
  | .fltCntClr r => Sys2Proof.Machine.execFltCntClr r s
  | .recordWriteComplete => Sys2Proof.Machine.execRecordWriteComplete s
  | .lostRecord => Sys2Proof.Machine.execLostRecord s
  | .suppressedRecord => Sys2Proof.Machine.execSuppressedRecord s
  | .rdGo r uncorrectable => Sys2Proof.Machine.execRdGo r uncorrectable s
  | .ledgerGo r uncorrectable => Sys2Proof.Machine.execLedgerGo r uncorrectable s
  | .expGo r => Sys2Proof.Machine.execExpGo r s
  | .exportComplete r => Sys2Proof.Machine.execExportComplete r s
  | .verifyGo r => Sys2Proof.Machine.execVerifyGo r s
  | .verifyComplete bad => Sys2Proof.Machine.execVerifyComplete bad s
  | .ledgerRead p first count => Sys2Proof.Machine.execLedgerRead p first count s
  | .evrRead p maxBytes fromSeq => Sys2Proof.Machine.execEvrRead p maxBytes fromSeq s
  | .evrCntClr r => Sys2Proof.Machine.execEvrCntClr r s
  | .getVersion p => Sys2Proof.Machine.execGetVersion p s
  | .getCapabilities p => Sys2Proof.Machine.execGetCapabilities p s
  | .negotiateAlgorithms p offer => Sys2Proof.Machine.execNegotiateAlgorithms p offer s
  | .getDigests p => Sys2Proof.Machine.execGetDigests p s
  | .getCertificate p slot offset length => Sys2Proof.Machine.execGetCertificate p slot offset length s
  | .challenge p slot nonce => Sys2Proof.Machine.execChallenge p slot nonce s
  | .getMeasurements p index signed nonce => Sys2Proof.Machine.execGetMeasurements p index signed nonce s
  | .keyExchange p x => Sys2Proof.Machine.execKeyExchange p x s
  | .finish p k signatureOk => Sys2Proof.Machine.execFinish p k signatureOk s
  | .authBusyEnd t => Sys2Proof.Machine.execAuthBusyEnd t s
  | .heartbeat p => Sys2Proof.Machine.execHeartbeat p s
  | .keyUpdate p => Sys2Proof.Machine.execKeyUpdate p s
  | .endSession p => Sys2Proof.Machine.execEndSession p s
  | .sessionIdleTimeout k => Sys2Proof.Machine.execSessionIdleTimeout k s
  | .vendorDefinedRequest p c => Sys2Proof.Machine.execVendorDefinedRequest p c s
  | .regRead p view count off => Sys2Proof.Machine.execRegRead p view count off s
  | .regWrite p view off v => Sys2Proof.Machine.execRegWrite p view off v s
  | .wake p meet => Sys2Proof.Machine.execWake p meet s
  | .roleGrant p slot minutes => Sys2Proof.Machine.execRoleGrant p slot minutes s
  | .roleDrop by_ => Sys2Proof.Machine.execRoleDrop by_ s
  | .grantExpiry slot => Sys2Proof.Machine.execGrantExpiry slot s
  | .keyEnrol p slot hash => Sys2Proof.Machine.execKeyEnrol p slot hash s
  | .keyRemove p slot => Sys2Proof.Machine.execKeyRemove p slot s
  | .claim p => Sys2Proof.Machine.execClaim p s
  | .release p => Sys2Proof.Machine.execRelease p s
  | .jtagUnlock p unlock => Sys2Proof.Machine.execJtagUnlock p unlock s
  | .jtagInstruction ir => Sys2Proof.Machine.execJtagInstruction ir s
  | .rolCntClr r => Sys2Proof.Machine.execRolCntClr r s
  | .snap r => Sys2Proof.Machine.execSnap r s
  | .snapAll r => Sys2Proof.Machine.execSnapAll r s
  | .snapArm r => Sys2Proof.Machine.execSnapArm r s
  | .armedSnapshot => Sys2Proof.Machine.execArmedSnapshot s
  | .pmcClr r => Sys2Proof.Machine.execPmcClr r s
  | .counterOverflow bank n => Sys2Proof.Machine.execCounterOverflow bank n s
  | .streamPeriod n => Sys2Proof.Machine.execStreamPeriod n s
  | .refclkLoss => Sys2Proof.Machine.execRefclkLoss s
  | .refclkReturn => Sys2Proof.Machine.execRefclkReturn s
  | .perstDeassert hp refClock => Sys2Proof.Machine.execPerstDeassert hp refClock s
  | .pcieRefclkStop hp => Sys2Proof.Machine.execPcieRefclkStop hp s
  | .dataReadCompletion id data => Sys2Proof.Machine.execDataReadCompletion id data s
  | .conditionEnd fs unit => Sys2Proof.Machine.execConditionEnd fs unit s
  | .registerRead r off whole => Sys2Proof.Machine.execRegisterRead r off whole s
  | .pldmFirmwareUpdate p u b => Sys2Proof.Machine.execPldmFirmwareUpdate p u b s
  | .dynamicAddressAssignment addr => Sys2Proof.Machine.execDynamicAddressAssignment addr s
  | .dieLinkGate a b => Sys2Proof.Machine.execDieLinkGate a b s
  | .prbsLock l symbols => Sys2Proof.Machine.execPrbsLock l symbols s

end Sys2Proof.Machine
end

