-- ==== Sys2Proof/Safety.lean ====
section
/-!
DEFINITION. The terms the statements are made in: what it takes for a register action to be carried out (R9, R356, R425,
R426, R428), the machine at which it then acts, and the invariant that every step keeps.
-/

namespace Sys2Proof.Machine

/-- The quadrant that a requester's access comes through is not parked (R25); a session and the TAP come through none. -/
def Mach.pathAwake (m : Mach) (r : Requester) : Bool :=
  match r with
  | .pf0 s => (Tbl.get m.quads (quadOfSlot s) {}).park == 0
  | _ => true

/-- A field's change is privileged: only INSTALLER and MAKER may make it (R427). -/
def Field.priv (f : Field) : Bool := decide (Role.code .installer ≤ f.rights.code)

/-- An action on field `f` by `r` is carried out, and reaches instance `i`: the window is decoded (R356), the mode is not
LOCKOUT (R425), the index is in range (R433), the role covers the field's rights (R9), and the write need not wait
for the recorder (R428). -/
def Mach.passes (m : Mach) (r : Requester) (f : Field) (i : Nat) : Bool :=
  m.pathAwake r && m.mode.decodes f.block && m.mode != .lockout && m.inst r f == some i && (m.roleOf r).covers f.rights &&
  !m.mustWait r f f.priv

/-- The machine at which an action that is carried out acts: after the record of a privileged change (R427) and the crossing
to the AON die (R429). `before`, `written` and `after` are the register's words of that record (Table 18-3). -/
def Mach.taken (m : Mach) (r : Requester) (f : Field) (before written after : Nat) : Mach :=
  (if f.priv then m.recordPriv r f before written after else m).crossAon r f

/-- The machine at which the action of writing `v` to a field with no stored value acts. -/
def Mach.acted (m : Mach) (r : Requester) (f : Field) (v : Nat) : Mach := m.taken r f 0 (v * 2 ^ f.lo) 0

/-- The machine at which a stored field that takes value `v` has its own effect: the field is already `v`. -/
def Mach.stored (m : Mach) (r : Requester) (f : Field) (v i : Nat) : Mach :=
  (m.taken r f (m.storedWord f.off i) ((m.put f (v % 2 ^ f.width) i).storedWord f.off i)
    ((m.put f (v % 2 ^ f.width) i).storedWord f.off i)).put f (v % 2 ^ f.width) i

/-- The command completes: exec answers the next state in which the block is `m`, and the MRAM array and the queue are as they
were. -/
def Completes (i : Instr) (s : State) (m : Mach) : Prop := exec i s = .next { s with m := m }

/-- A control frame of the bytes `body` comes in on port `p` with a good CRC (R81, R86, R91), and is taken up at machine `u`: the port
receives, and the receiver is not resynchronising. -/
def Mach.hears (m : Mach) (p : PortId) (body : List Byte) (rx : Rx) (u : Mach) : Prop :=
  m.receives p = true ∧ m.checkFrame p body false rx = .good ∧ u = (m.frameIn p).pmcReceived p (body.length + 4) false

/-- A control frame comes in whose CRC is not good, and is counted as received at machine `u`. -/
def Mach.garbled (m : Mach) (p : PortId) (body : List Byte) (rx : Rx) (u : Mach) : Prop :=
  m.receives p = true ∧ (m.checkFrame p body false rx = .bad ∨ m.checkFrame p body false rx = .stomp) ∧
  u = (m.frameIn p).pmcReceived p (body.length + 4) false

/-- A control frame is not seen: the port receives nothing, or discards it in RESYNC. -/
def Mach.missed (m : Mach) (p : PortId) (body : List Byte) (rx : Rx) : Prop :=
  m.receives p = false ∨ m.checkFrame p body false rx = .discarded

/-- The machine once a management message has been taken up: a session it is inside has had its latest message now (R418). -/
def Mach.heard (m : Mach) (p : Path) : Mach :=
  match p.sess with
  | none => m
  | some k =>
    match Tbl.find m.rol.sessions k with
    | some x => { m with rol := { m.rol with sessions := Tbl.set m.rol.sessions k { x with last := m.clk } } }
    | none => m

/-- The machine where a management message is not taken up: in recovery, and over SMBus once the dynamic address is assigned, it has no
answer (R368, R459); inside a session that is not open on its transport it has an SPDM error. -/
def Mach.unheard (m : Mach) (p : Path) : Mach :=
  if m.boot.recovery || (decide (p.via = .smbus) && m.rol.i3cAddr.isSome) then m else m.say p .spdmError

/-- A management command that changes state is carried out: it is taken up, its session's role covers what it needs (Table 18-5),
and the mode is not LOCKOUT (R425). -/
def Mach.commands (m : Mach) (p : Path) (need : Role) : Bool :=
  m.mgmtHeard p && ((m.heard p).pathRole p).covers need && (m.heard p).mode != .lockout

/-- Entry `e` of a ring is handed to its engine as an entry of opcode `op`: the engines take it (R157, R159, R321), and it
starts as the `seq`-th entry of ring `w` on machine `u`. -/
def Mach.starts (m : Mach) (ring : Nat) (e : Entry) (op seq : Nat) (w : WorkRing) (u : Mach) : Prop :=
  e.opcode = op ∧ m.opHeld op = false ∧ m.enginesRun = true ∧ m.behindRecv ring op = false ∧ m.takeWork ring e = some (seq, w, u)

/-- Entry `e` is not taken now as an entry of opcode `op`: it is of another opcode, its quadrant's engines are being swapped, a RECV of
its ring is held before it, or no engine runs in this mode. -/
def Mach.keeps (m : Mach) (ring : Nat) (e : Entry) (op : Nat) : Prop :=
  e.opcode ≠ op ∨ m.opHeld op = true ∨ m.behindRecv ring op = true ∨ m.enginesRun = false

/-- Entry `e` could be taken as an entry of opcode `op`, and its ring does not hand it over. -/
def Mach.refuses (m : Mach) (ring : Nat) (e : Entry) (op : Nat) : Prop :=
  e.opcode = op ∧ m.opHeld op = false ∧ m.behindRecv ring op = false ∧ m.enginesRun = true ∧ m.takeWork ring e = none

/-- The machine at which a sequenced packet that is admitted acts, its message, and whether it opens it (R207, R216): the packet is
delivered, and its bit, times and message slot are set. -/
def Mach.admitted (m : Mach) (k : Packet) (h : RsxHdr) : Option (Mach × RxMsg × Bool) :=
  match m.delivered k with
  | none => none
  | some u =>
    match u.takeIn k h with
    | (_, false) => none
    | (u, true) =>
      let v := (u.markRx k h).pmcEngine (quadOfSlot (pktSlot k)) .rxe 0x0B 1
      let first := !(match v.rxOf (pktCx k) with | some r => r.msgs.any (fun (y : RxMsg) => y.msn == h.msn) | none => false)
      let v := if first then v.openRxMsg k h else v
      match (v.rxOf (pktCx k)).bind (fun r => r.msgs.find? (fun (y : RxMsg) => y.msn == h.msn)) with
      | none => none
      | some x => some (v, x, first)

/-- An admitted packet whose fields are as the tables say and agree with its message's, and whose message goes on: it is not faulted,
or receives with matching (R212, R216). -/
def Mach.accepted (m : Mach) (k : Packet) (h : RsxHdr) : Option (Mach × RxMsg × Bool) :=
  (m.admitted k h).filter (fun c => pktSound k h && pktAgrees c.2.1 k h && !(c.2.1.fault.isSome && c.2.1.mat.isNone))

/-- A sequenced packet does to the block what `m` says, whichever of the nine kinds it is (Table 5-3). -/
def Sequenced (k : Packet) (s : State) (m : Mach) : Prop :=
  (k.hdr.kind = 1 → Completes (.writePacket k) s m) ∧ (k.hdr.kind = 2 → Completes (.writeFlagPacket k) s m) ∧
  (k.hdr.kind = 3 → Completes (.readReqPacket k) s m) ∧ (k.hdr.kind = 4 → Completes (.readRspPacket k) s m) ∧
  (k.hdr.kind = 8 → Completes (.resultPacket k) s m) ∧ (k.hdr.kind = 9 → Completes (.eagerPacket k) s m) ∧
  (k.hdr.kind = 10 → Completes (.rtsPacket k) s m) ∧ (k.hdr.kind = 11 → Completes (.pullReqPacket k) s m) ∧
  (k.hdr.kind = 12 → Completes (.pullRspPacket k) s m)

/-- As `Sequenced`, for the unsequenced kinds. -/
def Unsequenced (k : Packet) (s : State) (m : Mach) : Prop :=
  (k.hdr.kind = 5 → Completes (.ackPacket k) s m) ∧ (k.hdr.kind = 6 → Completes (.nakPacket k) s m) ∧
  (k.hdr.kind = 7 → Completes (.epochNakPacket k) s m)

/-- As `Sequenced`, for the collective kinds; those that Table 10-6 does not name come with COLL_UP's command. -/
def Collective (k : Packet) (s : State) (m : Mach) : Prop :=
  (k.hdr.kind = 0x10 ∨ (0x15 ≤ k.hdr.kind ∧ k.hdr.kind ≤ 0x1F) → Completes (.collUp k) s m) ∧
  (k.hdr.kind = 0x11 → Completes (.collDown k) s m) ∧ (k.hdr.kind = 0x12 → Completes (.collCredit k) s m) ∧
  (k.hdr.kind = 0x13 → Completes (.collNak k) s m) ∧ (k.hdr.kind = 0x14 → Completes (.collAbort k) s m)

/-- As `Sequenced`, for the lock and atomic kinds; those that Table 11-1 does not name come with LK_ACQ's command. -/
def LockKind (k : Packet) (s : State) (m : Mach) : Prop :=
  (k.hdr.kind = 0x20 ∨ k.hdr.kind = 0x27 ∨ (0x2B ≤ k.hdr.kind ∧ k.hdr.kind ≤ 0x2F) → Completes (.lkAcq k) s m) ∧
  (k.hdr.kind = 0x21 → Completes (.lkRel k) s m) ∧ (k.hdr.kind = 0x22 → Completes (.lkForce k) s m) ∧
  (k.hdr.kind = 0x23 → Completes (.lkRenew k) s m) ∧ (k.hdr.kind = 0x24 → Completes (.lkWithdraw k) s m) ∧
  (k.hdr.kind = 0x25 → Completes (.lkRsp k) s m) ∧ (k.hdr.kind = 0x26 → Completes (.lkGrantAck k) s m) ∧
  (k.hdr.kind = 0x28 → Completes (.atReq k) s m) ∧ (k.hdr.kind = 0x29 → Completes (.atRsp k) s m) ∧
  (k.hdr.kind = 0x2A → Completes (.atAck k) s m)

/-- What follows an accepted packet's own effect: matching order, EPSN, the ACK rule, the loss check (R216, R221, R223), and work
that waited for a context entry (R205). -/
def Mach.settled (m : Mach) (k : Packet) (h : RsxHdr) : Mach :=
  ((((m.passOrder (pktCx k)).advanceRx (pktCx k)).ackRule (pktCx k) h.ackReq).lossCheck (pktCx k)).retryHeld

/-- A collective packet reaches its group: it is delivered, its fields are as Table 10-5 says, its GEN is the group's, and it comes
by an edge of the local rank it is for. The answer is the machine, the group's number, the group, and the edge. -/
def Mach.reaches (m : Mach) (k : Packet) (h : CollHdr) : Option (Mach × Nat × CollGroup × Nat) :=
  match m.delivered k with
  | none => none
  | some u =>
    match u.grp (h.group % 4096) with
    | none => none
    | some g =>
      if g.reading || (0x14 < k.hdr.kind || !h.zero k.hdr.kind || !k.hdr.zero) || h.gen != g.gen then none
      else match g.ranks.find? (fun r => g.eids.getD r.rank 0 == k.hdr.dst) with
        | none => none
        | some r =>
          if g.hasEdge r k.hdr.kind h && g.eids.getD h.srcRank 0 == k.hdr.src then
            some (u, h.group % 4096, g, edgeKey r.rank h.srcRank h.x)
          else none

/-- A lock or atomic packet of a kind comes to this module's LKU on machine `u`, with every zero field zero (R287). -/
def Mach.lkuComes (m : Mach) (k : Packet) (kind : Nat) (h : LkuHdr) (u : Mach) : Prop :=
  k.hdr.kind = kind ∧ k.body = .lku h ∧ m.delivered k = some u ∧ h.zero kind = true ∧ k.hdr.zero = true

/-- An unsequenced packet of a kind comes and names the current TX instance of its connection, half `t`; `v` is the machine once
the connection has been used. -/
def Mach.answered (m : Mach) (k : Packet) (kind : Nat) (h : RsxHdr) (t : TxHalf) (v : Mach) : Prop :=
  k.hdr.kind = kind ∧ k.body = .rsx h ∧ ∃ u, m.delivered k = some u ∧ u.txOf (pktCx k) = some t ∧ t.epoch = h.epoch ∧
    t.openTs = h.openTs ∧ (u.useCtx (u.rxeFor (pktCx k)) (pktCx k)).ctxGone (pktCx k) = false ∧
    v = (u.useCtx (u.rxeFor (pktCx k)) (pktCx k)).touch (pktCx k)

/-- The MRAM array is in its canonical form: addresses strictly rising, and no entry that reads as an unlisted address does. -/
def State.wf (s : State) : Prop := Memory.wf s.mram = true

end Sys2Proof.Machine
end

