-- ==== Sys2Proof/Certificates/Slice0/Obligations.lean ====
section
/-! DEFINITION. The statements for the provers. Each is about commands, from the rules of spec/ that its entry of
OBLIGATIONS.json cites; together they cover every command. -/

open Sys2Proof Sys2Proof.Machine

/-- For every state whose queue starts with a command c, step answers what exec answers for c on the same state with the
rest of the queue. -/
def Obligations.StepRunsTheFrontCommand : Prop :=
  ∀ (s : State) (c : Instr) (rest : List Instr), s.pending = c :: rest → step s = exec c { s with pending := rest }

/-- With an empty queue, step answers the state one CORECLK cycle later: the cycle count is one higher, the counters of
the quadrants that run have advanced by the rate word, and where no counter bank counts, every register, the MRAM
array and the queue are as before. That an empty queue stands for a passing cycle is the model's choice (log entry 2). -/
def Obligations.IdleStepLetsOneCyclePass : Prop :=
  ∀ s : State, s.pending = [] →
    ∃ t, step s = .next t ∧ t.m.clk = s.m.clk + 1 ∧ t.mram = s.mram ∧ t.pending = [] ∧
      (s.m.pmc.on = [] → t.m.regs = s.m.regs ∧
        ∀ q, q < 4 → t.m.tim.hgt.acc q =
          if s.m.running q then (s.m.tim.hgt.acc q + s.m.tim.rateWord) % 2 ^ 96 else s.m.tim.hgt.acc q)

/-- From every state whose MRAM array has strictly rising addresses and lists no byte that reads as a blank one does,
whatever command a step carries out (a record written, an amended record, a ledger entry written at a boot or a table
switch, the writes of a falling PGOOD, an export, or any other), the state it answers has an array of that form too.
Equal arrays are therefore equal data in every run. -/
def Obligations.EveryStepKeepsMramCanonical : Prop :=
  ∀ s t : State, s.wf → step s = .next t → t.wf

/-- State.reset is in ATTEST (GLB_MODE resets to 1). Every field of every register, in every instance, reads the reset
value of its table; fields without one there hold the value that the assumption log names. No command waits, the MRAM
array lists nothing and is canonical, no record is queued, and NEXT_SEQ is 0. -/
def Obligations.ResetStateIsAttestWithResetValues : Prop :=
  State.reset.m.mode = .attest ∧ (∀ (f : Field) (i : Nat), State.reset.m.get f i = f.reset i) ∧
  State.reset.pending = [] ∧ State.reset.mram = [] ∧ State.reset.wf ∧
  State.reset.m.evr.queue = [] ∧ State.reset.m.evr.nextSeq = 0

/-- Where the two quadrants differ, DIE_LINK_DOWN of a link that is up marks it down, raises FS56 and records 0x4050, and
of one that is down it does nothing; DIE_LINK_GATE gates a link that has been quiet for 1 µs, in that cycle, and does
nothing to another. For an engine that exists: ENGINE_GATE_CLOSE, with GATE_EN set, closes the open gate of an engine
without work, and does nothing to an engine with work; ENGINE_WAKE, in a mode other than SAFE and LOCKOUT, opens a
closed gate and counts the wake, the engine being usable after 20 ns (40 cycles), or at once where the gate is closing
in this very cycle, and never before the cycle it was held until; in SAFE and LOCKOUT it does nothing. YARROW_STEP of
a running Yarrow, at most one a cycle, with its bank not counting: a step word with good parity branches on the flag
as it stood before the step, stores the flag vector raised with bits 23 to 30 zero, and, where it tests flag 0 while
its command is outstanding and flag 0 is clear, holds its slot; a Yarrow that does not run issues nothing.
QUADRANT_PARK, outside DORMANT, parks a running quadrant that may park, cold where PARK_COLD says so and warm
otherwise; QUADRANT_WAKE of one parked warm starts its PLL, usable after 2 µs, and of one that runs it does nothing.
Every one of these leaves all else of the machine as it was. The die-to-die commands fault where they name one
quadrant twice, and the engine commands where they name an engine its class does not have. -/
def Obligations.QuadrantsEnginesAndDieLinksDoAsFileOneSays : Prop :=
  (∀ (s : State) (a b : Quad), a ≠ b → (s.m.dieLink a b).down = false →
    Completes (.dieLinkDown a b) s ((({ s.m with die := Tbl.set s.m.die (dieKey a b) { s.m.dieLink a b with down := true } }).raise 56 .none (dieKey a b) a).record
        0x4050 a [a, b]) ) ∧
  (∀ (s : State) (a b : Quad), a ≠ b → (s.m.dieLink a b).down = true → Completes (.dieLinkDown a b) s s.m) ∧
  (∀ (s : State) (a b : Quad), a ≠ b → (s.m.dieLink a b).lastTraffic + 2000 ≤ s.m.clk →
    Completes (.dieLinkGate a b) s
      ({ s.m with die := Tbl.set s.m.die (dieKey a b) { s.m.dieLink a b with gated := true, gateAt := s.m.clk } })) ∧
  (∀ (s : State) (a b : Quad), a ≠ b → s.m.clk < (s.m.dieLink a b).lastTraffic + 2000 → Completes (.dieLinkGate a b) s s.m) ∧
  (∀ (s : State) (a : Quad), exec (.dieLinkDown a a) s = .fault .noSuchDieLink ∧ exec (.dieLinkGate a a) s = .fault .noSuchDieLink) ∧
  (∀ (s : State) (e : Engine), engExists e = true → s.m.isSet Reg.GLB.GATE_EN = true → s.m.engBusy e = false →
    (s.m.eng e).gated = false →
    Completes (.engineGateClose e) s (s.m.setEng e { s.m.eng e with gated := true, gateAt := s.m.clk }) ) ∧
  (∀ (s : State) (e : Engine), engExists e = true → s.m.engBusy e = true → Completes (.engineGateClose e) s s.m) ∧
  (∀ (s : State) (e : Engine), engExists e = true → (s.m.eng e).gated = true → 0 < s.m.clk →
    s.m.mode ≠ .safe → s.m.mode ≠ .lockout →
    Completes (.engineWake e) s ((s.m.setEng e { s.m.eng e with
      gated := false
      usableAt := max (s.m.eng e).usableAt (if (s.m.eng e).gateAt = s.m.clk then s.m.clk else s.m.clk + 40) }).pmcEngine
        e.q e.cls 0x0A 1) ) ∧
  (∀ (s : State) (e : Engine), engExists e = true → s.m.mode = .safe ∨ s.m.mode = .lockout → Completes (.engineWake e) s s.m) ∧
  (∀ (s : State) (e : Engine) (w : StepWord), engExists e = true → s.m.engRuns e = true → w.parity = false →
    (s.m.eng e).lastStep ≠ some s.m.clk → s.m.pmc.on.contains (engBank e.q e.cls) = false →
    Completes (.yarrowStep e w) s (s.m.setEng e
      (if w.flag = 0 ∧ (s.m.eng e).outstanding ≠ none ∧ (s.m.eng e).flags.getLsbD 0 = false then
        { s.m.eng e with flags := w.raised &&& 0x807FFFFF#32, waiting := true, lastStep := some s.m.clk }
      else { s.m.eng e with
        step := if (s.m.eng e).flags.getLsbD w.flag then w.onSet else w.onClear
        flags := w.raised &&& 0x807FFFFF#32
        outstanding := w.command.or (if (s.m.eng e).flags.getLsbD 0 then none else (s.m.eng e).outstanding)
        waiting := false, lastStep := some s.m.clk })) ) ∧
  (∀ (s : State) (e : Engine) (w : StepWord), engExists e = true → s.m.engRuns e = false → Completes (.yarrowStep e w) s s.m) ∧
  (∀ (s : State) (e : Engine) (w : StepWord), engExists e = false →
    exec (.engineGateClose e) s = .fault .noSuchEngine ∧ exec (.engineWake e) s = .fault .noSuchEngine ∧
    exec (.yarrowStep e w) s = .fault .noSuchEngine) ∧
  (∀ (s : State) (q : Quad), s.m.mode ≠ .dormant → (Tbl.get s.m.quads q {}).park = 0 → s.m.mayPark q = true →
    Completes (.quadrantPark q) s { s.m with quads :=
      (Tbl.set s.m.quads q { park := if s.m.isSet Reg.GLB.PARK_COLD then 2 else 1, parkedAt := s.m.clk, usableAt := 0 }) }) ∧
  (∀ (s : State) (q : Quad), (Tbl.get s.m.quads q {}).park = 1 → (Tbl.get s.m.quads q {}).parkedAt ≠ s.m.clk →
    Completes (.quadrantWake q) s { s.m with quads :=
      (Tbl.set s.m.quads q { park := 0, parkedAt := 0, usableAt := s.m.clk + 4000 }) }) ∧
  (∀ (s : State) (q : Quad), (Tbl.get s.m.quads q {}).park = 0 → Completes (.quadrantWake q) s s.m)

/-- On an UP port with exchanges enabled, TIME_EXCHANGE_START queues a TIME_REQ, and on any other port it does nothing. A
TIME_REQ heard with a good CRC notes the sender's view and queues a TIME_RSP stamped t2 with the quadrant's HGT where
exchanges run on the port, and only counts as received where they do not. A TIME_RSP heard with a good CRC, on a port
where exchanges run, whose EXCH_ID and t1 match the last request uses that request up. Its delay is half of (t4 − t1)
− (t3 − t2), and its offset is half of (t2 − t1) + (t3 − t4) less ASYM as the port's last request took it, in HGT
LSBs. It is accepted where no delay stands yet or its delay is within 8 LSB of the median of the last eight: it joins
them, DELAY becomes their median, and from the parent port of a module that is neither root nor in HOLDOVER the offset
is followed (R38, R42). Otherwise it is discarded, and the eighth discard in a row empties the delays. A response
whose t1 or EXCH_ID does not match changes nothing but the counters. -/
def Obligations.TimeExchangesMeasureDelayAndOffset : Prop :=
  (∀ (s : State) (p : PortId), s.m.exchanges p = true → Completes (.timeExchangeStart p) s (s.m.queueCtrl p .timeReq)) ∧
  (∀ (s : State) (p : PortId), s.m.exchanges p = false → Completes (.timeExchangeStart p) s s.m) ∧
  (∀ (s : State) (p : PortId) (f : TimeFrame) (rx : Rx) (u : Mach), s.m.hears p (TimeFrame.wire 0x20 f) rx u →
    (u.exchanges p = true → Completes (.timeReq p ⟨f, rx⟩) s
      ((u.seeNeighbour p f).queueCtrl p (.timeRsp f (u.hgt (quadOfPort p))))) ∧
    (u.exchanges p = false → Completes (.timeReq p ⟨f, rx⟩) s u)) ∧
  (∀ (s : State) (p : PortId) (f : TimeFrame) (rx : Rx) (m : Mach) (x : TimPort) (delay offset : Int) (ds : List Int),
    s.m.hears p (TimeFrame.wire 0x21 f) rx m → m.exchanges p = true → x = m.timPort p → x.t1 = some f.t1 → x.exch = f.exch →
    delay = (toSigned 64 (m.hgt (quadOfPort p) + 2 ^ 64 - f.t1 % 2 ^ 64) - toSigned 64 (f.t3 + 2 ^ 64 - f.t2 % 2 ^ 64)).fdiv 2 →
    offset = (toSigned 64 (f.t2 + 2 ^ 64 - f.t1 % 2 ^ 64) - toSigned 64 (m.hgt (quadOfPort p) + 2 ^ 64 - f.t3 % 2 ^ 64)).fdiv 2
      - toSigned 16 x.asym →
    ds = (delay :: x.delays).take 8 →
    (x.delays = [] ∨ (delay - medianInt x.delays).natAbs ≤ 8 →
      ∀ u : Mach, u = ((((m.seeNeighbour p f).updTim p (fun x => { x with t1 := none })).updTim p (fun x =>
          { x with delays := ds, discards := 0, accepted := some (m.seeNeighbour p f).clk })).put
          Reg.TIM.DELAY (ofSigned 32 (medianInt ds)) p) →
        Completes (.timeRsp p ⟨f, rx⟩) s
          (if u.get Reg.TIM.PARENT = p ∧ u.isRoot = false ∧ u.get Reg.TIM.STATE ≠ 2 then u.followParent offset else u)) ∧
    (x.delays ≠ [] → 8 < (delay - medianInt x.delays).natAbs →
      Completes (.timeRsp p ⟨f, rx⟩) s (((m.seeNeighbour p f).updTim p (fun x => { x with t1 := none })).updTim p (fun x =>
        if 8 ≤ x.discards + 1 then { x with delays := [], discards := 0 } else { x with discards := x.discards + 1 })))) ∧
  (∀ (s : State) (p : PortId) (f : TimeFrame) (rx : Rx) (u : Mach), s.m.hears p (TimeFrame.wire 0x21 f) rx u →
    (u.timPort p).t1 ≠ some f.t1 ∨ (u.timPort p).exch ≠ f.exch ∨ u.exchanges p = false →
    Completes (.timeRsp p ⟨f, rx⟩) s u)

/-- PARENT_SELECTION brings LOSS_TIMEOUT and PPS_IN_EN into force and compares the candidates. With none, the module
leaves PPS_IN, and enters HOLDOVER (STATE 2, FS104, event 0x5010) unless it is in it already. Otherwise holdover ends
and the smallest candidate's root and port are taken. Where that is the module itself, it is root with its own
ROOT_SEQ, leaves PPS_IN where PPS_IN_EN is not in force, and its STATE reads ROOT unless it was ROOT or ROOT_PPS; that
a root counts as locked, so that it slews to a later parent, is read from R35 and R43 (log entry 28). Where it is a
port, the module leaves PPS_IN, takes the ROOT_SEQ kept for that root where one is kept, and keeps STATE where it was
UNLOCKED or LOCKED; that STATE is UNLOCKED with no good exchange counted otherwise is the model's choice (log entry
28). PARENT_LOSS_TIMEOUT, where the parent is a port with an accepted exchange, lets time pass to that exchange's
timeout, forgets the exchange, and selects in the same way; otherwise it does nothing. -/
def Obligations.ParentSelectionFollowsTheBestCandidate : Prop :=
  (∀ (s : State) (u : Mach), u = s.m.takeTimSettings → u.candidates = [] →
    (u.leavePps.get Reg.TIM.STATE = 2 → Completes .parentSelection s u.leavePps) ∧
    (u.leavePps.get Reg.TIM.STATE ≠ 2 → Completes .parentSelection s
      (((u.leavePps.put Reg.TIM.STATE 2).raise 104 .none 0 u.leavePps.refQuad).record 0x5010 u.leavePps.refQuad []))) ∧
  (∀ (s : State) (u : Mach) (c : Cand) (cs : List Cand) (best : Cand), u = s.m.takeTimSettings → u.candidates = c :: cs →
    best = cs.foldl (fun a b => if b.less a then b else a) c →
    (best.port = 255 → ∀ v w : Mach,
      v = { u.endHoldover.takeRoot best with tim := { (u.endHoldover.takeRoot best).tim with everLocked := true } }.put
        Reg.TIM.ROOT_SEQ (u.endHoldover.takeRoot best).tim.ownSeq →
      w = (if v.tim.ppsEn then v else v.leavePps) →
      (u.get Reg.TIM.STATE = 3 ∨ u.get Reg.TIM.STATE = 4 → Completes .parentSelection s w) ∧
      (u.get Reg.TIM.STATE ≠ 3 → u.get Reg.TIM.STATE ≠ 4 → Completes .parentSelection s (w.put Reg.TIM.STATE 3))) ∧
    (best.port ≠ 255 → ∀ v w : Mach, v = (u.endHoldover.takeRoot best).leavePps →
      w = (match (v.tim.roots.find? (fun x => x.prio == best.prio && x.serial == best.serial)).bind (fun x => x.seq) with
        | some q => v.put Reg.TIM.ROOT_SEQ q
        | none => v) →
      (u.get Reg.TIM.STATE = 0 ∨ u.get Reg.TIM.STATE = 1 → Completes .parentSelection s w) ∧
      (u.get Reg.TIM.STATE ≠ 0 → u.get Reg.TIM.STATE ≠ 1 → Completes .parentSelection s
        { w.put Reg.TIM.STATE 0 with tim := { w.tim with goodRun := 0 } }))) ∧
  (∀ (s t : State) (at_ : Nat), s.m.get Reg.TIM.PARENT < 128 → (s.m.timPort (s.m.get Reg.TIM.PARENT)).accepted = some at_ →
    t = { s with m := (s.m.elapseTo (at_ + s.m.lossTimeout)).updTim (s.m.get Reg.TIM.PARENT) (fun x => { x with accepted := none }) } →
    exec .parentLossTimeout s = exec .parentSelection t) ∧
  (∀ s : State, 128 ≤ s.m.get Reg.TIM.PARENT ∨ (s.m.timPort (s.m.get Reg.TIM.PARENT)).accepted = none →
    Completes .parentLossTimeout s s.m)

/-- ROOT_SEQ_INCREMENT of a root adds 1 modulo 65,536, and does nothing elsewhere. ROOT_LOST, once the timeout since the
root's ROOT_SEQ last changed has passed, discards the value kept for a root not marked lost and ignores the root for
twice the timeout; it does nothing for any other. HOLDOVER_LIMIT_PASSED in HOLDOVER, where HOLD_DRIFT is not 0 and the
limit has not been passed yet, raises FS105 with 0x5012 and marks it passed. PPS_IN_EDGE stamps PPS_IN, and does no
more on a module that is not root or without PPS_IN_EN in force; on another, an armed edge off the second steps HGT
onto it where R35 lets it and locks to PPS_IN; an edge within 1 µs locks and is slewed to; one farther off on a module
locked to PPS_IN makes it ROOT with PPS_IN_OK 0, FS108 and 0x5030; that one farther off on a module not locked is
slewed to without more is the model's choice (log entry 28). PPS_IN_MISSING as ROOT_PPS, two seconds and 1 µs after
the last edge, makes the module ROOT with PPS_IN_OK 0, FS108 and 0x5030. PPS_OUT_PULSE, at the next whole second,
gives CLK_OUT the frequency set, and drives PPS_OUT high for WIDTH ms where it is to be driven, and leaves it low
otherwise. A PTM request of a half that is present is answered with floor(HGT / 16) and half the round trip, and one
of an absent half is not. STEP in CONFIG, TRAIN or DRAIN loads SET into the four counters and the AON copy with
0x5020, and in RUN and SAFE it is ignored and recorded as 0x9802. -/
def Obligations.RootHoldoverPpsAndStepDoAsFileTwoSays : Prop :=
  (∀ s : State, s.m.isRoot = true → Completes .rootSeqIncrement s
    ({ s.m with tim := { s.m.tim with ownSeq := (s.m.tim.ownSeq + 1) % 65536 } }.put Reg.TIM.ROOT_SEQ ((s.m.tim.ownSeq + 1) % 65536))) ∧
  (∀ s : State, s.m.isRoot = false → Completes .rootSeqIncrement s s.m) ∧
  (∀ (s : State) (prio serial : Nat) (x : RootSeen) (u : Mach),
    s.m.tim.roots.find? (fun x => x.prio == prio && x.serial == serial && x.lostUntil.isNone) = some x →
    u = s.m.elapseTo (x.changedAt + s.m.lossTimeout) →
    Completes (.rootLost prio serial) s { u with tim := { u.tim with roots :=
      (modifyFirst (fun x => x.prio == prio && x.serial == serial && x.lostUntil.isNone)
        (fun x => { x with seq := none, lostUntil := some (u.clk + 2 * u.lossTimeout) }) u.tim.roots) } }) ∧
  (∀ (s : State) (prio serial : Nat),
    s.m.tim.roots.find? (fun x => x.prio == prio && x.serial == serial && x.lostUntil.isNone) = none →
    Completes (.rootLost prio serial) s s.m) ∧
  (∀ (s : State) (u : Mach), s.m.get Reg.TIM.STATE = 2 → s.m.tim.limitHit = false → 0 < s.m.get Reg.TIM.HOLD_DRIFT →
    u = s.m.elapseTo (s.m.tim.lastGood + 2 * s.m.get Reg.TIM.HOLD_LIMIT * 1000000000 / s.m.get Reg.TIM.HOLD_DRIFT + 1) →
    Completes .holdoverLimitPassed s
      { (u.raise 105 .none 0 u.refQuad).record 0x5012 u.refQuad [] with tim := { u.tim with limitHit := true } }) ∧
  (∀ (s : State) (u v : Mach), u = s.m.put64 Reg.TIM.PPS_IN_LO Reg.TIM.PPS_IN_HI s.m.hgtRef →
    v = { u with tim := { u.tim with ppsLast := some u.clk, ppsArmed := false } } →
    (u.isRoot = false ∨ u.tim.ppsEn = false → Completes .ppsInEdge s u) ∧
    (u.isRoot = true → u.tim.ppsEn = true →
      (u.tim.ppsArmed = true → u.secondError ≠ 0 → u.mode ≠ .run ∨ u.secondError < 0 →
        Completes .ppsInEdge s (v.stepBy (-u.secondError)).ppsLocked) ∧
      (u.tim.ppsArmed = false ∨ u.secondError = 0 ∨ u.mode = .run ∧ 0 ≤ u.secondError →
        (u.secondError.natAbs ≤ 16000 → Completes .ppsInEdge s (v.ppsLocked.drive (-u.secondError))) ∧
        (16000 < u.secondError.natAbs → v.get Reg.TIM.STATE = 4 → Completes .ppsInEdge s
          ((((v.put Reg.TIM.STATE 3).put Reg.TIM.PPS_IN_OK 0).raise 108 .none 0 v.refQuad).record 0x5030 v.refQuad [])) ∧
        (16000 < u.secondError.natAbs → v.get Reg.TIM.STATE ≠ 4 → Completes .ppsInEdge s (v.drive (-u.secondError)))))) ∧
  (∀ (s : State) (t : Nat) (u : Mach), s.m.tim.ppsLast = some t → s.m.get Reg.TIM.STATE = 4 →
    u = s.m.elapseTo (t + 2 * 2000000000 + 2000) →
    Completes .ppsInMissing s
      ((((u.put Reg.TIM.STATE 3).put Reg.TIM.PPS_IN_OK 0).raise 108 .none 0 u.refQuad).record 0x5030 u.refQuad [])) ∧
  (∀ (s : State) (e u : Mach), e = s.m.elapseTo s.m.nextSecondAt →
    u = { e with tim := { e.tim with clkHz := e.clkSetting, clkStop := none } } →
    (u.ppsDrives = true → Completes .ppsOutPulse s ({ u with tim := { u.tim with
      ppsHigh := true, ppsOut := some (u.clk + clamp 1 500 (u.get Reg.TIM.WIDTH) * 2000000) } }.emit (.ppsEdge u.hgtRef))) ∧
    (u.ppsDrives = false → Completes .ppsOutPulse s { u with tim := { u.tim with ppsHigh := false, ppsOut := none } })) ∧
  (∀ (s : State) (slot : Slot) (rt : Nat),
    (s.m.slotPresent slot = true → Completes (.ptmRequest slot rt) s
      (s.m.emit (.ptm slot (s.m.hgt (quadOfSlot slot) / 16) (rt / 2)))) ∧
    (s.m.slotPresent slot = false → Completes (.ptmRequest slot rt) s s.m)) ∧
  (∀ (s : State) (r : Requester) (i : Nat), s.m.passes r Reg.TIM.STEP i = true →
    (s.m.mode = .config ∨ s.m.mode = .train ∨ s.m.mode = .drain → ∀ (u : Mach) (v : Nat), u = s.m.acted r Reg.TIM.STEP 1 →
      v = u.get64 Reg.TIM.SET_LO Reg.TIM.SET_HI * 2 ^ 32 →
      Completes (.step r) s ({ u with tim := { u.tim with hgt := { q0 := v, q1 := v, q2 := v, q3 := v }, aon := v } }.record
        0x5020 4 [v / 2 ^ 32])) ∧
    (s.m.mode = .run ∨ s.m.mode = .safe → Completes (.step r) s ((s.m.crossAon r Reg.TIM.STEP).ignoreWrite r Reg.TIM.STEP 1)))

/-- A lane in electrical idle ignores a codeword. Any other lane decodes its symbols and descrambles its blocks, counts
the codeword where FEC is on and CW_LOCK set, and tracks its lock: a codeword is good where it decodes with FEC on, or
where its fill is there with FEC off. With lock, 1 to 15 symbols corrected count once as corrected and as so many
symbols, none corrected counts nothing, and an undecodable codeword counts as uncorrectable. Four good codewords in a
row lock a lane: SIG_DET, CDR_LOCK and CW_LOCK are set, with event 0x3002 if it was lost; a good one clears the count
of bad ones; eight bad in a row clear CW_LOCK. No width change goes on from it where none waits for added lanes.
LANE_LOST on an active lane of a trained port acts 1 µs after lock was lost, or at once where the signal is lost, with
SIG_DET and CDR_LOCK cleared; CDR_LOCK_LOSS clears CDR_LOCK; each then loses the lane (that CDR_LOCK has no time to be
regained is DEDUCED, log entry 59): an active lane of a trained port not lost before is marked lost with FS16, 0x3001
and CW_LOCK cleared; with no good lanes left the link goes down, an UP port starts a width change to the widest good
set, and another adds that set to the action that runs. LANE_CNT_CLR clears the lane's six counters and nothing else.
PRBS_LOCK under PRBS_CHK_EN out of electrical idle feeds the checker the symbols, turned upright and decoded;
otherwise the lane takes none. FEC_INTERVAL_END starts a new count under FEC_LIMIT as it stands, and raises FS18 with
0x3030 where the old count passed a nonzero limit of its own. -/
def Obligations.CodewordsLockAndLoseALane : Prop :=
  (∀ (s : State) (l : LaneId) (c : Codeword), s.m.isSet Reg.LAN.EI l = true → Completes (.codewordReceive l c) s s.m) ∧
  (∀ (s : State) (l : LaneId) (c : Codeword) (fec : Bool) (g : List Nat) (u v : Mach) (d : Decoded) (b : List Block × List Bool),
    s.m.isSet Reg.LAN.EI l = false → fec = s.m.isSet Reg.LAN.FEC (portOfLane l) → (g, u) = s.m.laneIn l c.symbols →
    d = decodeCodeword fec g →
    v = (if fec = true ∧ u.isSet Reg.LAN.CW_LOCK l = true then u.countCodeword l d.errors else u) →
    b = descrambleBlocks (v.lane l).rxHist d.blocks →
    Completes (.codewordReceive l c) s
      (((v.updLane l (fun x => { x with rxBlocks := b.1, rxHist := b.2, rxErr := fec && d.errors.isNone })).trackLock l
        (if fec then d.errors.isSome else d.fillOk)).tryAdd (portOfLane l))) ∧
  (∀ (m : Mach) (l : LaneId),
    (∀ n, 0 < n → m.countCodeword l (some n) =
      ((m.bump Reg.LAN.CW_CORR 1 l).bump Reg.LAN.SYM_CORR n l).pmcPort (portOfLane l) 0x28 1) ∧
    m.countCodeword l (some 0) = m ∧
    m.countCodeword l none =
      ((m.bump Reg.LAN.CW_UNCORR 1 l).pmcPort (portOfLane l) 0x29 1).updLane l (fun x => { x with uncorrSec := x.uncorrSec + 1 }) ∧
    (∀ u : Mach, u = (((m.put Reg.LAN.SIG_DET 1 l).put Reg.LAN.CDR_LOCK 1 l).put Reg.LAN.CW_LOCK 1 l).updLane l (fun x =>
        { x with lost := false, goodRun := 0, badRun := 0, seekSince := none }) →
      m.isSet Reg.LAN.CW_LOCK l = false → (m.lane l).goodRun = 3 →
      ((m.lane l).lost = true → m.trackLock l true = u.record 0x3002 (quadOfLane l) [l.val]) ∧
      ((m.lane l).lost = false → m.trackLock l true = u)) ∧
    (m.isSet Reg.LAN.CW_LOCK l = false → (m.lane l).goodRun < 3 →
      m.trackLock l true = m.updLane l (fun x => { x with goodRun := x.goodRun + 1 })) ∧
    (m.isSet Reg.LAN.CW_LOCK l = true → m.trackLock l true = m.updLane l (fun x => { x with badRun := 0 })) ∧
    (m.isSet Reg.LAN.CW_LOCK l = true → (m.lane l).badRun < 7 →
      m.trackLock l false = m.updLane l (fun x => { x with badRun := x.badRun + 1 })) ∧
    (m.isSet Reg.LAN.CW_LOCK l = true → (m.lane l).badRun = 7 → m.trackLock l false =
      (m.put Reg.LAN.CW_LOCK 0 l).updLane l (fun x => { x with badRun := 0, goodRun := 0, seekSince := some m.clk }))) ∧
  (∀ (m : Mach) (p : Nat), m.adding p = false → m.tryAdd p = m) ∧
  (∀ (s : State) (l : LaneId), s.m.laneActive l = true → s.m.trained (portOfLane l) = true →
    (∀ t, (s.m.lane l).seekSince = some t → Completes (.laneLost ⟨l, false⟩) s ((s.m.elapseTo (t + 2000)).loseLane l)) ∧
    ((s.m.lane l).seekSince = none → Completes (.laneLost ⟨l, false⟩) s s.m) ∧
    Completes (.laneLost ⟨l, true⟩) s (((s.m.put Reg.LAN.SIG_DET 0 l).put Reg.LAN.CDR_LOCK 0 l).loseLane l)) ∧
  (∀ (s : State) (l : LaneId), Completes (.cdrLockLoss l) s ((s.m.put Reg.LAN.CDR_LOCK 0 l).loseLane l)) ∧
  (∀ (m u : Mach) (l : LaneId) (p : PortId), p = Fin.ofNat 128 (portOfLane l) → m.laneActive l = true → (m.lane l).lost = false →
    m.trained p = true →
    u = ((((m.updLane l (fun x => { x with lost := true, goodRun := 0, seekSince := none })).raise 16 (.port p) l
      (quadOfLane l)).record 0x3001 (quadOfLane l) [l.val]).put Reg.LAN.CW_LOCK 0 l) →
    (chooseLanes (u.widthMax p) (u.goodLanes p) = 0 → m.loseLane l = u.linkDown p 3) ∧
    (chooseLanes (u.widthMax p) (u.goodLanes p) ≠ 0 → u.linkState p = 2 →
      m.loseLane l = u.startAction p .width 3 (chooseLanes (u.widthMax p) (u.goodLanes p))) ∧
    (chooseLanes (u.widthMax p) (u.goodLanes p) ≠ 0 → u.linkState p ≠ 2 →
      m.loseLane l = u.updLink p (fun k => { k with train := k.train.map (fun t =>
        { t with lanes := chooseLanes (u.widthMax p) (u.goodLanes p), good := u.goodLanes p }) }))) ∧
  (∀ (s : State) (r : Requester) (i : Nat), s.m.passes r Reg.LAN.CNT_CLR i = true →
    Completes (.laneCntClr r) s (((((((s.m.reach r Reg.LAN.CNT_CLR).put Reg.LAN.PRBS_ERR 0 i).put Reg.LAN.PRBS_BITS_LO 0 i).put
      Reg.LAN.PRBS_BITS_HI 0 i).put Reg.LAN.CW_CORR 0 i).put Reg.LAN.CW_UNCORR 0 i).put Reg.LAN.SYM_CORR 0 i)) ∧
  (∀ (s : State) (l : LaneId) (syms g : List Nat) (u : Mach), (g, u) = s.m.laneIn l syms →
    (s.m.isSet Reg.LAN.PRBS_CHK_EN l = true → s.m.isSet Reg.LAN.EI l = false → Completes (.prbsLock l syms) s
      (g.foldl (fun (a : Mach) y => a.prbsSymbol l (ungray y)) u)) ∧
    (s.m.isSet Reg.LAN.PRBS_CHK_EN l = false ∨ s.m.isSet Reg.LAN.EI l = true → Completes (.prbsLock l syms) s s.m)) ∧
  (∀ (s : State) (l : LaneId) (u : Mach),
    u = s.m.updLane l (fun x => { x with uncorrSec := 0, fecLim := s.m.get Reg.LAN.FEC_LIMIT }) →
    (0 < (s.m.lane l).fecLim → (s.m.lane l).fecLim < (s.m.lane l).uncorrSec → Completes (.fecIntervalEnd l) s
      ((u.raise 18 (.port (portOfLane l)) l (quadOfLane l)).record 0x3030 (quadOfLane l) [l.val, (s.m.lane l).uncorrSec])) ∧
    ((s.m.lane l).fecLim = 0 ∨ (s.m.lane l).uncorrSec ≤ (s.m.lane l).fecLim → Completes (.fecIntervalEnd l) s u))

/-- An ALIGN block on an awake lane ends RESYNC, sets the polarity seen, sets the lane order seen where the block's lane
is the lane's own or its mirror, gives the lane its logical number, notes the skew where it is larger, and keeps the
far end's settings; a lane in electrical idle sees none. IDLE_NOTICE_SEND with EI_DELAY 0 or on a port that is not
ready (R69) sends none; on a ready port that has sent none it acts EI_DELAY after the port was last busy.
IDLE_NOTICE_RECEIVE on an UP port with its drivers on notes the notice and ends RESYNC, and does nothing elsewhere.
With both notices, EI_DELAY not 0 and no scan on the port, the drivers turn off, and otherwise not. EI_EXIT_REQUEST
begins the exit only where something is to be sent or scanned: on a trained port with its drivers off that has sent no
burst, the drivers turn on again where they are turning off in this very cycle, and otherwise a wake burst goes out
with the quadrant awake. A wake burst received at a trained port with its drivers off is answered where the end has
sent none, with its quadrant awake; in both cases the precoders restart from 0, the drivers turn on and the skew is
checked. WAKE_ANSWER_TIMEOUT, 25 µs after the burst, repeats it once; after the second FS19, 0x3004 and the link goes
down. SCAN_START of a lane not under scan asks for a scan: deferred (SCAN_STATUS 2, 0x3021) behind a link action of
the port or another scan of the quadrant, else started, or waiting for the lane's exit from idle. SCAN_PERIOD_DUE asks
for the next active lane in turn, where SCAN_PERIOD is not 0 and the lane is not under scan. SCAN_COMPLETE of a scan
that runs stores six results, ends the scan (SCAN_STATUS 3), and a result below MARGIN_MIN raises FS17 with 0x3020; it
does nothing to a lane without one. -/
def Obligations.AlignIdleAndMarginScansDoAsFileThreeSays : Prop :=
  (∀ (s : State) (l : LaneId) (b : AlignBlock) (p : Nat) (u v w x : Mach), p = portOfLane l →
    u = (s.m.put Reg.LAN.RX_INV_DET (b2n b.inverted) l).frameIn p →
    v = (if b.lane.val = l.val % 4 then u.put Reg.LAN.RX_ORDER_REV_DET 0 p
      else if b.lane.val + l.val % 4 = 3 then u.put Reg.LAN.RX_ORDER_REV_DET 1 p else u) →
    w = v.put Reg.LAN.LOGICAL (v.logicalOf l) l →
    x = w.put Reg.LAN.SKEW (min 65535 (max (w.get Reg.LAN.SKEW p) b.skew)) p →
    (s.m.isSet Reg.LAN.EI l = true → Completes (.alignBlock l b) s s.m) ∧
    (s.m.isSet Reg.LAN.EI l = false → Completes (.alignBlock l b) s (x.updLane l (fun y => { y with
      farFec := b.fecEn, farPrec := b.precode, farReady := b.ready, cwIndex := b.index, skew := b.skew })))) ∧
  (∀ (s : State) (p : PortId),
    (s.m.get Reg.LAN.EI_DELAY p = 0 ∨ s.m.idleReady p = false ∨ (s.m.ei p).sentNotice = true → Completes (.idleNoticeSend p) s s.m) ∧
    (s.m.get Reg.LAN.EI_DELAY p ≠ 0 → s.m.idleReady p = true → (s.m.ei p).sentNotice = false →
      Completes (.idleNoticeSend p) s ((((s.m.elapseTo ((s.m.ei p).quietSince +
        clamp 100 1000000 (s.m.get Reg.LAN.EI_DELAY p) * 2)).updEi p (fun e => { e with sentNotice := true })).sendNotice
        p).idleIfBoth p)) ∧
    (s.m.linkState p = 2 → (s.m.ei p).driversOff = false →
      Completes (.idleNoticeReceive p) s (((s.m.frameIn p).updEi p (fun e => { e with rcvdNotice := true })).idleIfBoth p)) ∧
    (s.m.linkState p ≠ 2 ∨ (s.m.ei p).driversOff = true → Completes (.idleNoticeReceive p) s s.m) ∧
    (s.m.exitWanted p = true → Completes (.eiExitRequest p) s (s.m.exitIdle p)) ∧
    (s.m.exitWanted p = false → Completes (.eiExitRequest p) s s.m) ∧
    (∀ (skew : List Nat) (u : Mach), s.m.trained p = true → (s.m.ei p).driversOff = true →
      u = (if (s.m.ei p).bursts = 0 then (s.m.wakeForPort p).sendWake p else s.m) →
      Completes (.wakeBurstReceive p skew) s ((((List.range 4).foldl (fun (a : Mach) k =>
        a.updLane (4 * p.val + k) (fun x => { x with rxPrev := 0 })) u).driversOn p).skewCheck p skew)) ∧
    (∀ skew : List Nat, s.m.trained p = false ∨ (s.m.ei p).driversOff = false → Completes (.wakeBurstReceive p skew) s s.m) ∧
    (∀ u : Mach, u = s.m.elapseTo ((s.m.ei p).burstAt + 25 * 2000) → (s.m.ei p).driversOff = true → s.m.trained p = true →
      ((s.m.ei p).bursts = 1 → Completes (.wakeAnswerTimeout p) s
        ((u.updEi p (fun e => { e with bursts := 2, burstAt := u.clk })).sendBurst p (u.txLanes p))) ∧
      (1 < (s.m.ei p).bursts → Completes (.wakeAnswerTimeout p) s
        (((u.raise 19 (.port p) 0 (quadOfPort p)).record 0x3004 (quadOfPort p) [p.val]).linkDown p 1)))) ∧
  (∀ (m : Mach) (p : PortId),
    ((m.ei p).sentNotice = true → (m.ei p).rcvdNotice = true → m.get Reg.LAN.EI_DELAY p ≠ 0 → m.scanOn p = false →
      m.idleIfBoth p = m.driversOff p) ∧
    ((m.ei p).sentNotice = false ∨ (m.ei p).rcvdNotice = false ∨ m.get Reg.LAN.EI_DELAY p = 0 ∨ m.scanOn p = true →
      m.idleIfBoth p = m) ∧
    (m.trained p = true → (m.ei p).driversOff = true → (m.ei p).bursts = 0 → 0 < m.clk →
      ((m.ei p).offAt = m.clk → m.exitIdle p = m.driversOn p) ∧
      ((m.ei p).offAt ≠ m.clk → m.exitIdle p =
        ((m.wakeForPort p).updEi p (fun e => { e with bursts := 1, burstAt := (m.wakeForPort p).clk })).sendWake p))) ∧
  (∀ (s : State) (r : Requester) (i : Nat) (u : Mach), s.m.passes r Reg.LAN.SCAN_START i = true → u = s.m.reach r Reg.LAN.SCAN_START →
    (s.m.scans ++ s.m.scanWait).contains (s.m.idx r Reg.LAN.LANE_IDX) = false →
    Completes (.scanStart r) s (u.askScan (Fin.ofNat 512 (u.idx r Reg.LAN.LANE_IDX)))) ∧
  (∀ (m : Mach) (l : LaneId),
    (m.linkState (portOfLane l) = 2 → m.scanning (quadOfLane l) = false → m.isSet Reg.LAN.EI l = false →
      m.askScan l = m.startScan l) ∧
    (m.linkState (portOfLane l) = 2 → m.scanning (quadOfLane l) = false → m.isSet Reg.LAN.EI l = true → m.askScan l =
      { m with scanWait := m.scanWait.filter (· != l.val) ++ [l.val] }.exitIdle (portOfLane l)) ∧
    (m.linkState (portOfLane l) = 1 ∨ m.linkState (portOfLane l) = 3 ∨ m.linkState (portOfLane l) = 4 ∨
        m.scanning (quadOfLane l) = true → m.askScan l =
      ((m.put Reg.LAN.SCAN_STATUS 2 (portOfLane l)).defer 4 l (quadOfLane l)).record 0x3021 (quadOfLane l) [l.val])) ∧
  (∀ (s : State) (q : Quad) (k n : Nat) (u : Mach),
    (List.range 128).find? (fun k => s.m.trained (portOfLane (128 * q.val + (Tbl.get s.m.hive.scanTurn q 0 + k) % 128)) &&
      s.m.laneActive (128 * q.val + (Tbl.get s.m.hive.scanTurn q 0 + k) % 128)) = some k →
    n = (Tbl.get s.m.hive.scanTurn q 0 + k) % 128 →
    u = { s.m with hive := { s.m.hive with scanTurn := Tbl.set s.m.hive.scanTurn q ((n + 1) % 128) } } →
    (s.m.get Reg.LAN.SCAN_PERIOD ≠ 0 → (u.scans ++ u.scanWait).contains (128 * q.val + n) = false →
      Completes (.scanPeriodDue q) s (u.askScan (Fin.ofNat 512 (128 * q.val + n)))) ∧
    (s.m.get Reg.LAN.SCAN_PERIOD = 0 → Completes (.scanPeriodDue q) s s.m)) ∧
  (∀ (s : State) (l : LaneId) (a b c : EyeScan), s.m.scans.contains l.val = false → Completes (.scanComplete l a b c) s s.m) ∧
  (∀ (s : State) (l : LaneId) (a b c : EyeScan) (run : List (Nat × Nat × Nat)) (x y z : Nat × Nat) (u : Mach),
    s.m.scans.contains l.val = true → run = Tbl.get s.m.scanRuns l [] →
    x = EyeScan.size run 0 a → y = EyeScan.size run 1 b → z = EyeScan.size run 2 c →
    u = (((((({ s.m with scans := s.m.scans.filter (· != l.val), scanRuns := Tbl.del s.m.scanRuns l }.put Reg.LAN.EYE_U_W x.1 l).put
      Reg.LAN.EYE_U_H x.2 l).put Reg.LAN.EYE_M_W y.1 l).put Reg.LAN.EYE_M_H y.2 l).put Reg.LAN.EYE_L_W z.1 l).put
      Reg.LAN.EYE_L_H z.2 l) →
    ∀ w v : Mach, w = (u.put Reg.LAN.SCAN_STATUS 3 (portOfLane l)).refreeze l →
    v = w.updEi (portOfLane l) (fun e => { e with quietSince := w.clk }) →
    ((∀ t ∈ [x, y, z], v.get Reg.LAN.W_MIN ≤ t.1 ∧ v.get Reg.LAN.H_MIN ≤ t.2) → Completes (.scanComplete l a b c) s v) ∧
    ((∃ t ∈ [x, y, z], t.1 < v.get Reg.LAN.W_MIN ∨ t.2 < v.get Reg.LAN.H_MIN) → Completes (.scanComplete l a b c) s
      ((v.raise 17 (.port (portOfLane l)) l (quadOfLane l)).record 0x3020 (quadOfLane l) [l.val])))

/-- A receiver in RESYNC discards what comes up to a non-frame block; otherwise a framing error is taken first (that it
comes before the CRC is DEDUCED, log entry 59), a frame that shares an errored codeword has a bad CRC, and else the
CRC decides. A port that receives nothing and one that discards ignore a data frame. Any other data frame ends RESYNC,
restarts the port's idle count and is counted. A good one, on a port then trained, at EXPECTED whose pool has room is
accepted (EXPECTED + 1, the packet queued for routing); one without room is a credit overrun (FS23, 0x3130,
RX_MISMATCH, and a retrain on an UP port); one behind EXPECTED is dropped as a duplicate, one ahead is dropped and
NAKed with reason 2, and any after an overrun is dropped. A frame with a stomp CRC at EXPECTED is accepted and its
packet dropped. A framing error counts CRC_ERR and a NAK with reason 3 goes out unless one is outstanding; a bad CRC
so with reason 1, and a frame at EXPECTED with room on a trained port may first have begun to leave. The port then is
in RESYNC. -/
def Obligations.DataFramesAreAcceptedDroppedOrNaked : Prop :=
  (∀ (m : Mach) (p : Nat) (body : List Byte) (fr : Bool) (rx : Rx),
    ((m.link p).resync = true → rx.before = false → rx.within = 0 → m.checkFrame p body fr rx = .discarded) ∧
    ((m.link p).resync = true → rx.before = false → rx.within ≠ 0 → m.checkFrame p body fr rx = .bad) ∧
    ((m.link p).resync = false ∨ rx.before = true →
      (fr = true → m.checkFrame p body fr rx = .framing) ∧
      (fr = false → rx.inLast = true → m.anyErrored p = true → m.checkFrame p body fr rx = .bad) ∧
      (fr = false → rx.inLast = false ∨ m.anyErrored p = false →
        (rx.crc = (crc32c body).toNat → m.checkFrame p body fr rx = .good) ∧
        (rx.crc ≠ (crc32c body).toNat → rx.crc = (stompCrc body).toNat → m.checkFrame p body fr rx = .stomp) ∧
        (rx.crc ≠ (crc32c body).toNat → rx.crc ≠ (stompCrc body).toNat → m.checkFrame p body fr rx = .bad)))) ∧
  (∀ (s : State) (p : PortId) (f : DataFrame) (rx : Rx),
    s.m.receives p = false ∨ s.m.checkFrame p f.wire f.framingError rx = .discarded → Completes (.dataFrame p f rx) s s.m) ∧
  (∀ (s : State) (p : PortId) (f : DataFrame) (rx : Rx) (u : Mach), s.m.receives p = true →
    u = (((s.m.frameIn p).busyPort p).updLink p (fun l => { l with lastData := s.m.clk })).pmcReceived p
      (Frame.bytes (.data f false)) true →
    (s.m.checkFrame p f.wire f.framingError rx = .good →
      ((u.hear p).trained p = true → Completes (.dataFrame p f rx) s ((u.hear p).dataIn p f false)) ∧
      ((u.hear p).trained p = false → Completes (.dataFrame p f rx) s (u.hear p))) ∧
    (s.m.checkFrame p f.wire f.framingError rx = .stomp →
      ((u.hear p).trained p = true → Completes (.dataFrame p f rx) s ((u.hear p).dataIn p f true)) ∧
      ((u.hear p).trained p = false → Completes (.dataFrame p f rx) s (u.hear p))) ∧
    (s.m.checkFrame p f.wire f.framingError rx = .framing → Completes (.dataFrame p f rx) s (u.frameBad p 3)) ∧
    (s.m.checkFrame p f.wire f.framingError rx = .bad →
      (u.trained p = true → f.fsn = u.get Reg.LNK.EXPECTED p → (u.link p).overrun = false →
        pool (u.link p).occupied (poolOf f.vc f.shared) + cellsOf f.pktLen ≤ pool (u.link p).size (poolOf f.vc f.shared) →
        Completes (.dataFrame p f rx) s ((u.stompThrough p f).frameBad p 1)) ∧
      (u.trained p = false ∨ f.fsn ≠ u.get Reg.LNK.EXPECTED p ∨ (u.link p).overrun = true ∨
        pool (u.link p).size (poolOf f.vc f.shared) < pool (u.link p).occupied (poolOf f.vc f.shared) + cellsOf f.pktLen →
        Completes (.dataFrame p f rx) s (u.frameBad p 1)))) ∧
  (∀ (m : Mach) (p : PortId) (f : DataFrame) (k n : Nat), k = poolOf f.vc f.shared → n = cellsOf f.pktLen →
    ((m.link p).overrun = true → ∀ st, m.dataIn p f st = m.bump Reg.LNK.GAP_DROP 1 p) ∧
    ((m.link p).overrun = false → f.fsn = m.get Reg.LNK.EXPECTED p →
      m.dataIn p f true = m.acceptFrame p f false ∧
      (pool (m.link p).occupied k + n ≤ pool (m.link p).size k → m.dataIn p f false = m.acceptFrame p f true) ∧
      (pool (m.link p).size k < pool (m.link p).occupied k + n → m.dataIn p f false = m.creditOverrun p)) ∧
    ((m.link p).overrun = false → f.fsn ≠ m.get Reg.LNK.EXPECTED p → ∀ st,
      (behind16 f.fsn (m.get Reg.LNK.EXPECTED p) = true → m.dataIn p f st = m.bump Reg.LNK.DUP_DROP 1 p) ∧
      (behind16 f.fsn (m.get Reg.LNK.EXPECTED p) = false →
        m.dataIn p f st = (m.bump Reg.LNK.GAP_DROP 1 p).nak p 2)) ∧
    (m.acceptFrame p f true).get Reg.LNK.EXPECTED p = (m.get Reg.LNK.EXPECTED p + 1) % 65536 ∧
    (m.acceptFrame p f true).rte.arrivals = m.rte.arrivals ++
      [{ id := m.nextId, pkt := f.pkt, from_ := .port p, vc := f.vc, shared := f.shared, atc := m.clk, len := f.pktLen }] ∧
    (m.acceptFrame p f false).get Reg.LNK.EXPECTED p = (m.get Reg.LNK.EXPECTED p + 1) % 65536 ∧
    (m.acceptFrame p f false).rte = m.rte ∧
    (∀ u : Mach, u = ((m.raise 23 (.port p) 1 (quadOfPort p)).record 0x3130 (quadOfPort p) [p.val]).updLink p (fun l =>
        { l with overrun := true, rxMismatch := true }) →
      m.creditOverrun p = if u.linkState p = 2 then u.startAction p .retrain 1 0 else u) ∧
    (∀ r, (m.link p).nakAt = none →
      m.nak p r = (m.queueCtrl p (.nak r)).updLink p (fun l => { l with nakAt := some m.clk })) ∧
    (∀ r, (m.link p).nakAt ≠ none → m.nak p r = m) ∧
    (∀ r, m.frameBad p r = (((m.bump Reg.LNK.CRC_ERR 1 p).pmcPort p 0x24 1).nak p r).updLink p (fun l => { l with resync := true })))

/-- A control frame on a port that receives none, or that discards it in RESYNC, is not seen; one whose CRC is not good is
handled as R91 says, also a TIME_REQ and a TIME_RSP. With a good CRC, after a responder that waited has heard the far
end: on a trained port, a CREDIT adds each return that fits to its pool and to the cumulative counts and takes its
acknowledgement where ACK_VALID is set, a NAK is counted, acknowledges everything before NAK_FSN and makes a replay
pending, and an AUDIT without loss or mismatch stores LEAK_CELLS, one above LEAK_LIMIT alone raises FS24 with 0x3131,
and one with a mismatch alone raises FS23 with 0x3130, the last two with a retrain scheduled. An unlisted control
frame is discarded and counted; one listed, or shorter than its BLOCKS say, is none. A TRAIN frame restarts the port's
idle count; of the module's own with LOOP_OK clear it takes the port to LOOPBACK with FS28 and 0x3111; of another
neighbour than before it raises FS27 with 0x3142, notes the neighbour, and acts by its phase in a full training and
starts one otherwise; of the known neighbour it acts by its phase. A REQ of retrain on an UP port with no action is
answered. An acknowledgement not behind UNA and behind NEXT_FSN is kept, and another is not. -/
def Obligations.ControlFramesActOnThePortAsFileFourSays : Prop :=
  (∀ (s : State) (p : PortId) (rx : Rx),
    (∀ f, s.m.missed p (CreditFrame.wire f) rx → Completes (.creditFrame p f rx) s s.m) ∧
    (∀ f, s.m.missed p (NakFrame.wire f) rx → Completes (.nakFrame p f rx) s s.m) ∧
    (∀ f, s.m.missed p (AuditFrame.wire f) rx → Completes (.auditFrame p f rx) s s.m) ∧
    (∀ f, s.m.missed p (TrainFrame.wire f) rx → Completes (.trainFrame p f rx) s s.m) ∧
    (∀ b body, unlistedFrame b = some body → s.m.missed p body rx → Completes (.unknownControlFrame p b rx) s s.m) ∧
    (∀ f, s.m.missed p (TimeFrame.wire 0x20 f) rx → Completes (.timeReq p ⟨f, rx⟩) s s.m) ∧
    (∀ f, s.m.missed p (TimeFrame.wire 0x21 f) rx → Completes (.timeRsp p ⟨f, rx⟩) s s.m)) ∧
  (∀ (s : State) (p : PortId) (rx : Rx) (u : Mach),
    (∀ f, s.m.garbled p (CreditFrame.wire f) rx u → Completes (.creditFrame p f rx) s (u.frameBad p 1)) ∧
    (∀ f, s.m.garbled p (NakFrame.wire f) rx u → Completes (.nakFrame p f rx) s (u.frameBad p 1)) ∧
    (∀ f, s.m.garbled p (AuditFrame.wire f) rx u → Completes (.auditFrame p f rx) s (u.frameBad p 1)) ∧
    (∀ f, s.m.garbled p (TrainFrame.wire f) rx u → Completes (.trainFrame p f rx) s (u.frameBad p 1)) ∧
    (∀ b body, unlistedFrame b = some body → s.m.garbled p body rx u → Completes (.unknownControlFrame p b rx) s (u.frameBad p 1)) ∧
    (∀ f, s.m.garbled p (TimeFrame.wire 0x20 f) rx u → Completes (.timeReq p ⟨f, rx⟩) s (u.frameBad p 1)) ∧
    (∀ f, s.m.garbled p (TimeFrame.wire 0x21 f) rx u → Completes (.timeRsp p ⟨f, rx⟩) s (u.frameBad p 1))) ∧
  (∀ (s : State) (p : PortId) (rx : Rx) (u : Mach),
    (∀ f, s.m.hears p (CreditFrame.wire f) rx u →
      ((u.hear p).trained p = true → Completes (.creditFrame p f rx) s ((u.hear p).creditIn p f)) ∧
      ((u.hear p).trained p = false → Completes (.creditFrame p f rx) s u)) ∧
    (∀ f v, s.m.hears p (NakFrame.wire f) rx u → v = (u.busyPort p).hear p →
      (v.trained p = true → Completes (.nakFrame p f rx) s
        (((v.bump Reg.LNK.NAK_RX 1 p).ackIn p ((f.fsn + 65535) % 65536)).updLink p (fun l => { l with pendingNak := some f.fsn }))) ∧
      (v.trained p = false → Completes (.nakFrame p f rx) s v)) ∧
    (∀ f, s.m.hears p (AuditFrame.wire f) rx u →
      (u.trained p = true → Completes (.auditFrame p f rx) s (u.auditIn p f)) ∧
      (u.trained p = false → Completes (.auditFrame p f rx) s u)) ∧
    (∀ b body, unlistedFrame b = some body → s.m.hears p body rx u →
      Completes (.unknownControlFrame p b rx) s (u.bump Reg.LNK.CTRL_DROP 1 p)) ∧
    (∀ b, unlistedFrame b = none → Completes (.unknownControlFrame p b rx) s s.m)) ∧
  (∀ (m u : Mach) (p : Nat) (f : CreditFrame) (ret : Nat → Nat), ret = (fun k => if k = 8 then f.shared else f.cells.getD k 0) →
    (∀ k, k < 9 → pool (m.link p).avail k + ret k ≤ pool (m.link p).farSize k) →
    u = m.updLink p (fun l => { l with
      avail := (List.range 9).foldl (fun t k => addPool t k (ret k)) l.avail
      rcvdRet := (List.range 9).foldl (fun t k => Tbl.set t k ((pool t k + ret k) % 4294967296)) l.rcvdRet }) →
    (f.ackValid = true → m.creditIn p f = u.ackIn p f.ackFsn) ∧ (f.ackValid = false → m.creditIn p f = u)) ∧
  (∀ (m u : Mach) (p : Nat) (f : AuditFrame) (ds : List Int) (leak : Nat),
    ds = (List.range 9).map (fun k => toSigned 32 (sub32 (if k = 8 then f.shared else f.cells.getD k 0) (pool (m.link p).rcvdRet k))) →
    leak = (ds.map (fun d => d.toNat)).sum → u = m.put Reg.LNK.LEAK_CELLS (min 16383 leak) p →
    (f.rxMismatch = false → (∀ d ∈ ds, 0 ≤ d) →
      (leak ≤ u.get Reg.LNK.LEAK_LIMIT p → m.auditIn p f = u) ∧
      (u.get Reg.LNK.LEAK_LIMIT p < leak → m.auditIn p f =
        ((u.raise 24 (.port p) leak (quadOfPort p)).record 0x3131 (quadOfPort p) [p, leak]).scheduleRetrain p)) ∧
    (f.rxMismatch = true ∨ (∃ d ∈ ds, d < 0) → ∀ v : Mach,
      v = ((u.raise 23 (.port p) 0 (quadOfPort p)).record 0x3130 (quadOfPort p) [p]).scheduleRetrain p →
      leak ≤ v.get Reg.LNK.LEAK_LIMIT p → m.auditIn p f = v)) ∧
  (∀ (s : State) (p : PortId) (f : TrainFrame) (rx : Rx) (u w : Mach), s.m.hears p (TrainFrame.wire f) rx u → w = u.busyPort p →
    (f.serial = Config.serial → w.isSet Reg.LNK.LOOP_OK p = false → Completes (.trainFrame p f rx) s
      (((w.linkClear p 5).raise 28 (.port p) 0 (quadOfPort p)).record 0x3111 (quadOfPort p) [p.val])) ∧
    (f.serial ≠ Config.serial → w.otherNeighbour p f = false →
      (f.action = .full → Completes (.trainFrame p f rx) s ((w.setNeighbour p f.serial f.port).trainPhase p f)) ∧
      (f.action ≠ .full → Completes (.trainFrame p f rx) s (w.trainPhase p f))) ∧
    (f.serial ≠ Config.serial → w.otherNeighbour p f = true → ∀ v : Mach,
      v = ((w.raise 27 (.port p) f.port (quadOfPort p)).record 0x3142 (quadOfPort p) [p.val, f.serial, f.port]).setNeighbour
        p f.serial f.port →
      (f.action = .full → Completes (.trainFrame p f rx) s (v.trainPhase p f)) ∧
      (f.action ≠ .full → Completes (.trainFrame p f rx) s ((v.linkDown p 6).startFull p)))) ∧
  (∀ (m : Mach) (p : PortId) (f : TrainFrame),
    (f.phase = .req → m.trainPhase p f = m.trainReq p f) ∧ (f.phase = .ack → m.trainPhase p f = m.trainAck p f) ∧
    (f.phase = .done → m.trainPhase p f = m.trainDone p f) ∧ (f.phase = .eq → m.trainPhase p f = m.trainEq p f) ∧
    ((m.link p).train = none → f.action ≠ .full → m.linkState p = 2 → m.trainReq p f = m.respond p f none)) ∧
  (∀ (m : Mach) (p a : Nat),
    ((m.link p).pendingAck = none → behind16 a (m.get Reg.LNK.UNA p) = false → behind16 a (m.get Reg.LNK.NEXT_FSN p) = true →
      m.ackIn p a = m.updLink p (fun l => { l with pendingAck := some a })) ∧
    (behind16 a (m.get Reg.LNK.UNA p) = true ∨ behind16 a (m.get Reg.LNK.NEXT_FSN p) = false → m.ackIn p a = m))

/-- FRAME_BOUNDARY sends nothing on a port that is down, looped back or asleep; on an UP port a pending ACK and a pending
NAK act first; then, once control frames that may no longer go are dropped, one frame goes: the control frame of least
rank, else, on an UP port that no scheduled retrain holds after its exit from idle, a replayed copy, else a new packet
that is not past LIFETIME. CREDIT_SEND on an UP port queues a CREDIT frame at once for a full batch, else when the
oldest accepted frame or freed cell that waits falls due, and does nothing where nothing waits. NAK_RESEND_EXPIRY,
NAK_RESEND after the NAK that is outstanding, queues it again with reason 4, and REPLAY_TIMEOUT makes a replay from
UNA pending where the timer runs; neither does anything otherwise. AUDIT_TICK under AUDIT_EN, and AUDIT_NOW, queue an
AUDIT on an UP port, defer it (AUDIT_DEFERRED, 0x3133) during a retrain or width change, and do nothing in another
state of the link. SCHEDULED_RETRAIN_START on an UP port that is awake starts the retrain at once after an exit from
idle, and otherwise 2 µs after the last data frame or 10 ms after it was scheduled, whichever is first; without one
scheduled it does nothing. DONE_TIMEOUT, 10 µs after the responder's ACK, starts its own retrain with reason 7, in a
full training once the port has been taken as trained. TRAIN_REQ_RESEND, 10 µs after a REQ that was sent, sends it
again, or takes the link down after three of a retrain or width change. REINJECTION_COMPLETE records the end of a
reinjection as 0x3141. -/
def Obligations.LinkSenderTimersAndAuditsDoAsFileFourSays : Prop :=
  (∀ (s : State) (p : PortId),
    ((s.m.ei p).driversOff = true ∨ s.m.linkState p = 0 ∨ s.m.linkState p = 5 → Completes (.frameBoundary p) s s.m) ∧
    ((s.m.ei p).driversOff = false → s.m.linkState p = 2 →
      Completes (.frameBoundary p) s (((s.m.applyAck p).applyNak p).sendNext p)) ∧
    ((s.m.ei p).driversOff = false → s.m.linkState p = 1 ∨ s.m.linkState p = 3 ∨ s.m.linkState p = 4 →
      Completes (.frameBoundary p) s (s.m.sendNext p))) ∧
  (∀ (m u : Mach) (p : PortId), u = m.dropCtrl p → u.linkState p = 2 → (u.link p).train = none →
    (∀ c, nextCtrl (u.link p).ctrl = some c →
      m.sendNext p = (u.updLink p (fun l => { l with ctrl := l.ctrl.erase c })).sendCtrl p c) ∧
    ((u.link p).ctrl = [] → (u.link p).schedExit = true → m.sendNext p = u) ∧
    (∀ r, (u.link p).ctrl = [] → (u.link p).schedExit = false → (u.link p).rp = some r → m.sendNext p = u.sendCopy p r) ∧
    (∀ x, (u.link p).ctrl = [] → (u.link p).schedExit = false → (u.link p).rp = none → u.offers p = [x] → ∀ v : Mach,
      v = u.updRp x.home (fun y => { y with sel := y.sel.filter (fun z => z.arr.id != x.sel.arr.id) }) →
      v.expired (quadOfPort p) x.sel.arr.pkt = false → m.sendNext p = v.sendNew p x)) ∧
  (∀ (s : State) (p : PortId), s.m.linkState p = 2 →
    ((s.m.link p).toReturn.any (fun c => max 1 (s.m.get Reg.LNK.CREDIT_BATCH p) ≤ c.2) = true →
      Completes (.creditSend p) s (s.m.queueCtrl p .credit)) ∧
    ((s.m.link p).toReturn.any (fun c => max 1 (s.m.get Reg.LNK.CREDIT_BATCH p) ≤ c.2) = false →
      (∀ a, (s.m.link p).ackDue = some a → (s.m.link p).freeDue = none →
        Completes (.creditSend p) s ((s.m.elapseTo a).queueCtrl p .credit)) ∧
      (∀ b, (s.m.link p).ackDue = none → (s.m.link p).freeDue = some b →
        Completes (.creditSend p) s ((s.m.elapseTo b).queueCtrl p .credit)) ∧
      (∀ a b, (s.m.link p).ackDue = some a → (s.m.link p).freeDue = some b →
        Completes (.creditSend p) s ((s.m.elapseTo (min a b)).queueCtrl p .credit)) ∧
      ((s.m.link p).ackDue = none → (s.m.link p).freeDue = none → Completes (.creditSend p) s s.m))) ∧
  (∀ (s : State) (p : PortId), s.m.linkState p ≠ 2 → Completes (.creditSend p) s s.m) ∧
  (∀ (s : State) (p : PortId),
    (∀ (t : Nat) (u : Mach), (s.m.link p).nakAt = some t → u = s.m.elapseTo (t + 2 * max 100 (s.m.get Reg.LNK.NAK_RESEND p)) →
      Completes (.nakResendExpiry p) s ((u.updLink p (fun l => { l with nakAt := some u.clk })).queueCtrl p (.nak 4))) ∧
    ((s.m.link p).nakAt = none → Completes (.nakResendExpiry p) s s.m) ∧
    (∀ t, (s.m.link p).timer = some t → Completes (.replayTimeout p) s
      ((s.m.elapseTo t).updLink p (fun l => { l with timer := none, pendingNak := some (s.m.get Reg.LNK.UNA p) }))) ∧
    ((s.m.link p).timer = none → Completes (.replayTimeout p) s s.m) ∧
    (s.m.isSet Reg.LNK.AUDIT_EN p = true → Completes (.auditTick p) s (s.m.audit p)) ∧
    (s.m.isSet Reg.LNK.AUDIT_EN p = false → Completes (.auditTick p) s s.m)) ∧
  (∀ (s : State) (r : Requester) (i : Nat), s.m.passes r Reg.LNK.AUDIT_NOW i = true →
    Completes (.auditNow r) s ((s.m.reach r Reg.LNK.AUDIT_NOW).audit i)) ∧
  (∀ (m : Mach) (p : Nat), (m.linkState p = 2 → m.audit p = m.queueCtrl p .audit) ∧
    (m.linkState p = 3 ∨ m.linkState p = 4 → m.audit p =
      ((m.put Reg.LNK.AUDIT_DEFERRED 1 p).defer 8 p (quadOfPort p)).record 0x3133 (quadOfPort p) [p]) ∧
    (m.linkState p < 2 ∨ 4 < m.linkState p → m.audit p = m)) ∧
  (∀ (s : State) (p : PortId),
    (∀ t, (s.m.link p).schedAt = some t → s.m.linkState p = 2 → (s.m.ei p).driversOff = false →
      ((s.m.link p).schedExit = true → Completes (.scheduledRetrainStart p) s (s.m.startAction p .retrain 1 0)) ∧
      ((s.m.link p).schedExit = false → Completes (.scheduledRetrainStart p) s
        ((s.m.elapseTo (min ((s.m.link p).lastData + 2 * 2000) (t + 10 * 2000000))).startAction p .retrain 1 0))) ∧
    ((s.m.link p).schedAt = none → Completes (.scheduledRetrainStart p) s s.m)) ∧
  (∀ (s : State) (p : PortId) (t : TrainSt), (s.m.link p).train = some t →
    (t.requester = false → t.acked = true → ∀ u : Mach, u = s.m.elapseTo (t.atc + 10 * 2000) →
      (t.action ≠ .full → Completes (.doneTimeout p) s (u.startAction p .retrain 7 0)) ∧
      (t.action = .full → Completes (.doneTimeout p) s ((u.finishFull p t.rate t.lanes).startAction p .retrain 7 0))) ∧
    (t.requester = true ∨ t.acked = false → Completes (.doneTimeout p) s s.m) ∧
    (t.requester = true → t.acked = false → 0 < t.sends → ∀ u : Mach, u = s.m.elapseTo (t.atc + 10 * 2000) →
      (3 ≤ t.sends → t.action ≠ .full → Completes (.trainReqResend p) s (u.linkDown p 6)) ∧
      (t.sends < 3 ∨ t.action = .full → ∀ v : Mach, v = u.updLink p (fun l => { l with
          ctrl := l.ctrl.filter (fun c => c.rank != 1), train := some { t with atc := u.clk } }) →
        Completes (.trainReqResend p) s
          (v.queueCtrl p (.train (v.mkTrain p .req t.action t.reason t.good t.lanes t.rate))))) ∧
    (t.requester = false ∨ t.acked = true ∨ t.sends = 0 → Completes (.trainReqResend p) s s.m)) ∧
  (∀ (s : State) (p : PortId),
    (0 < (s.m.link p).reinjTotal → (s.m.link p).reinject = [] → Completes (.reinjectionComplete p) s
      ((s.m.updLink p (fun l => { l with reinjTotal := 0 })).record 0x3141 (quadOfPort p) [p.val, (s.m.link p).reinjTotal])) ∧
    ((s.m.link p).reinjTotal = 0 ∨ (s.m.link p).reinject ≠ [] → Completes (.reinjectionComplete p) s s.m))

/-- FULL_TRAINING of an enabled port in a mode whose ports train, which is DOWN or TRAINING with no action in progress,
begins a full training unless one has begun: pool sizes above 8,192 cells fail it with reason 2; otherwise a wake
burst and ALIGN codewords go out, the lanes are woken, no good lane fails it with reason 1, and with one its REQ is
queued. TRAIN_RETRY_EXPIRY does so TRAIN_RETRY after a port that is DOWN or in LOOPBACK went down. Each does nothing
elsewhere. RETRAIN of an UP port starts a retrain; WIDTH_CHANGE of an UP port with a possible TARGET_LANES starts a
width change to it; otherwise each is ignored and recorded. AUTO_WIDTH_TRIAL on an UP port below WIDTH_MAX under
AUTO_WIDTH_UP starts a width change to the wider set it could have, and without AUTO_WIDTH_UP does nothing.
LANE_ADD_TIMEOUT, 1 µs after the ALIGN of a width change whose added lanes are waited for, first locks the lanes that
its operand names, and goes on to its DONE: where none of them is skewed too far, with the set asked for where all
have locked, and otherwise with the widest set among the active lanes and those that have; it does nothing where none
is waited for. PORT_EN stores its value: 1 releases a contained port and starts a full training of a port that is DOWN
where ports train; 0 ends LOOPBACK and FS28, or takes the link down with failover. WIDTH_MAX stores its value, a
trained port is judged narrow by it, and an UP port wider than it starts a width change. LINK_CNT_CLR clears the
port's thirteen counters. -/
def Obligations.TrainingWidthChangesAndPortCommandsDoAsFileFourSays : Prop :=
  (∀ (s : State) (p : PortId) (x : LanesIn),
    (s.m.mayTrain p = true → s.m.linkState p ≤ 1 → (s.m.link p).train = none →
      Completes (.fullTraining p x) s (s.m.fullTraining p x)) ∧
    (s.m.mayTrain p = false ∨ 1 < s.m.linkState p ∨ (s.m.link p).train ≠ none → Completes (.fullTraining p x) s s.m) ∧
    (s.m.mayTrain p = true → s.m.linkState p = 0 ∨ s.m.linkState p = 5 →
      Completes (.trainRetryExpiry p x) s ((s.m.elapseTo ((s.m.link p).downAt +
        2000000 * clamp 10 60000 (s.m.get Reg.LNK.TRAIN_RETRY p))).fullTraining p x)) ∧
    (s.m.mayTrain p = false ∨ (s.m.linkState p ≠ 0 ∧ s.m.linkState p ≠ 5) → Completes (.trainRetryExpiry p x) s s.m)) ∧
  (∀ (m : Mach) (p : PortId) (x : LanesIn) (u v w : Mach) (on ls : List Nat) (y : Mach) (good : Nat),
    u = (if m.linkState p = 1 then m else m.startFull p) → v = u.updEi p (fun _ => { driversOff := false, quietSince := u.clk }) →
    on = (List.range 4).filter (fun k => v.isSet Reg.LAN.LANE_EN (v.physTx p k)) →
    w = (v.sendBurst p on).sendAlign p on false → (y, ls) = w.wakeLanes p x → good = y.lanesWith p ls (fun _ => true) →
    (8192 < u.vcSum p → m.fullTraining p x = u.trainFail p 2) ∧
    (u.vcSum p ≤ 8192 → good = 0 → m.fullTraining p x = y.trainFail p 1) ∧
    (u.vcSum p ≤ 8192 → good ≠ 0 → ∀ z : Mach, z = y.updLink p (fun l => { l with
        train := some { action := .full, requester := true, reason := 6, lanes := good, sends := 0, atc := y.clk, acked := false, good := good,
                        goodAt := [y.lanesWith p ls (fun i => x.lock0.getLsbD i), y.lanesWith p ls (fun i => x.lock1.getLsbD i), good] } }) →
      m.fullTraining p x = z.queueCtrl p (.train (z.mkTrain p .req .full 6 good good 0))) ∧
    (∀ r, m.trainFail p r = ((((m.raise 25 (.port p) r (quadOfPort p)).record 0x3102 (quadOfPort p) [p.val, r]).put
      Reg.LNK.LINK_STATE 0 p).updLink p (fun l => { l with
        train := none, ctrl := [], trainFailed := true, downAt := ((m.raise 25 (.port p) r (quadOfPort p)).record 0x3102 (quadOfPort p) [p.val, r]).clk })).driversOff p)) ∧
  (∀ (s : State) (r : Requester) (i : Nat), s.m.passes r Reg.LNK.RETRAIN i = true →
    (s.m.linkState i = 2 → Completes (.retrain r) s ((s.m.reach r Reg.LNK.RETRAIN).startAction i .retrain 0 0)) ∧
    (s.m.linkState i ≠ 2 → Completes (.retrain r) s ((s.m.reach r Reg.LNK.RETRAIN).ignoreWrite r Reg.LNK.RETRAIN 1))) ∧
  (∀ (s : State) (r : Requester) (i : Nat) (u : Mach), s.m.passes r Reg.LNK.WIDTH_CHANGE i = true → u = s.m.reach r Reg.LNK.WIDTH_CHANGE →
    (s.m.linkState i = 2 → targetOk (s.m.get Reg.LNK.TARGET_LANES i) = true →
      Completes (.widthChange r) s (u.startAction i .width 5 (u.get Reg.LNK.TARGET_LANES i))) ∧
    (s.m.linkState i ≠ 2 ∨ targetOk (s.m.get Reg.LNK.TARGET_LANES i) = false →
      Completes (.widthChange r) s (u.ignoreWrite r Reg.LNK.WIDTH_CHANGE 1))) ∧
  (∀ (s : State) (p : PortId) (want : Nat),
    want = chooseLanes (s.m.widthMax p) ((List.range 4).foldl (fun a k =>
      if s.m.isSet Reg.LAN.LANE_EN (s.m.physOf p k) then a + 2 ^ k else a) 0) →
    (s.m.linkState p = 2 → s.m.isSet Reg.LNK.AUTO_WIDTH_UP p = true → s.m.get Reg.LNK.WIDTH p < s.m.widthMax p →
      s.m.get Reg.LNK.WIDTH p < popCount want → Completes (.autoWidthTrial p) s (s.m.startAction p .width 4 want)) ∧
    (s.m.isSet Reg.LNK.AUTO_WIDTH_UP p = false → Completes (.autoWidthTrial p) s s.m)) ∧
  (∀ (s : State) (p : PortId) (t : TrainSt), (s.m.link p).train = some t →
    (∀ a locked, t.alignAt = some a → s.m.adding p = true →
      Completes (.laneAddTimeout p locked) s (((s.m.lockAdded p locked).elapseTo (a + 2000)).addDone p)) ∧
    (∀ locked, t.alignAt = none → Completes (.laneAddTimeout p locked) s s.m)) ∧
  (∀ (m : Mach) (p : Nat), m.lockAdded p 0 = m) ∧
  (∀ (m : Mach) (p k : Nat) (locked : BitVec 4), m.toAdd p = [k] → (locked.getLsbD (m.physOf p k % 4) = true →
      m.isSet Reg.LAN.CW_LOCK (m.physOf p k) = false → m.lockAdded p locked = m.regain (m.physOf p k)) ∧
    (m.isSet Reg.LAN.CW_LOCK (m.physOf p k) = true → m.lockAdded p locked = m)) ∧
  (∀ (m : Mach) (p : Nat) (t : TrainSt) (good : Nat), (m.link p).train = some t → m.lateAdded p = [] →
    good = ((m.toAdd p).filter (fun k => m.isSet Reg.LAN.CW_LOCK (m.physOf p k))).foldl (fun a k => a + 2 ^ k)
      (m.get Reg.LNK.ACTIVE p) →
    ((m.toAdd p).all (bit good) = true → m.addDone p = m.queueDone p t.lanes 0) ∧
    ((m.toAdd p).all (bit good) = false → m.addDone p = m.queueDone p (chooseLanes (m.widthMax p) good) 0)) ∧
  (∀ (s : State) (r : Requester) (on : Bool) (i : Nat), s.m.passes r Reg.LNK.PORT_EN i = true →
    Completes (.portEn r on) s ((s.m.stored r Reg.LNK.PORT_EN (b2n on) i).portEnable i on)) ∧
  (∀ (m : Mach) (i : Nat),
    ((m.uncontainPort i).mayTrain i = true → (m.uncontainPort i).linkState i = 0 →
      m.portEnable i true = (m.uncontainPort i).startFull i) ∧
    ((m.uncontainPort i).mayTrain i = false ∨ (m.uncontainPort i).linkState i ≠ 0 → m.portEnable i true = m.uncontainPort i) ∧
    (m.linkState i = 5 → m.portEnable i false =
      (m.put Reg.LNK.LINK_STATE 0 i).endCondition 28 (.port (Fin.ofNat 128 i).val)) ∧
    (m.linkState i ≠ 5 → m.portEnable i false = m.linkDown (Fin.ofNat 128 i) 0)) ∧
  (∀ (s : State) (r : Requester) (v : Fin 8) (i : Nat) (u w : Mach), s.m.passes r Reg.LNK.WIDTH_MAX i = true →
    u = s.m.stored r Reg.LNK.WIDTH_MAX v i → w = (if u.trained i then u.judgeWidth i else u) →
    (w.linkState i = 2 → w.widthMax i < w.get Reg.LNK.WIDTH i → Completes (.widthMax r v) s
      (w.startAction i .width 5 (chooseLanes (w.widthMax i) (w.goodLanes i)))) ∧
    (w.linkState i ≠ 2 ∨ w.get Reg.LNK.WIDTH i ≤ w.widthMax i → Completes (.widthMax r v) s w)) ∧
  (∀ (s : State) (r : Requester) (i : Nat), s.m.passes r Reg.LNK.CNT_CLR i = true → Completes (.linkCntClr r) s
    ((s.m.reach r Reg.LNK.CNT_CLR).clear [Reg.LNK.CRC_ERR, Reg.LNK.NAK_TX, Reg.LNK.NAK_RX, Reg.LNK.REPLAYS, Reg.LNK.REPLAY_FRAMES,
      Reg.LNK.DUP_DROP, Reg.LNK.GAP_DROP, Reg.LNK.CTRL_DROP, Reg.LNK.RETRAINS, Reg.LNK.WIDTH_CHANGES, Reg.LNK.COLLISIONS,
      Reg.LNK.STOMPS, Reg.LNK.REINJECTED] i))

/-- ROUTE_SELECT takes the oldest waiting header from an ingress, and does nothing where none waits. An invalid one is
discarded (DISC_HDR, 0x4022, FS54). One past LIFETIME is discarded as R140 says. One for this module goes to the queue
of its quadrant and TC over the die links to it. One from a port with HOPS at the larger of 8 and HOP_MAX is discarded
(DISC_HOPS, 0x4021, FS52). Otherwise the chosen hop is taken, the packet selected on that port; with none, it is
discarded (DISC_NOROUTE, 0x4030, FS50). A packet re-injected from a port's replay buffer takes its partner's hop, or
is discarded with none. ESC_WAIT_EXPIRY, at the time the packet set as it was selected, makes a packet on an adaptive
VC eligible on its escape hop too, and does nothing where there is none. LOCAL_DELIVERY takes the oldest of a
quadrant's TC as it comes over the die links: past LIFETIME it is discarded, else its cells are freed and the engines
have it; it does nothing on an empty queue. PORT_UNUSABLE selects the packets of a port that is out of use afresh, and
does nothing to a port in use. ROUTE_EN stores its value: 1 makes the port fresh; 0 takes it out of use, and where
CABLE_ERR had done so already selects its packets afresh. ROUTE_CNT_CLR clears the nine counters. -/
def Obligations.PacketsAreCheckedRoutedAndDelivered : Prop :=
  (∀ (s : State) (g : Ingress) (a : Arrival) (rest : List Arrival) (u : Mach),
    takeFirst (fun (a : Arrival) => a.from_ == g) s.m.rte.arrivals = some (a, rest) →
    u = { s.m with rte := { s.m.rte with arrivals := rest } } →
    (a.replayOf = none → u.headerValid a = false → Completes (.routeSelect g) s
      (((((u.bump Reg.RTE.DISC_HDR).pmcDiscard a.from_).freeArrival a).record 0x4022 (ingQuad a.from_)
        [a.pkt.hdr.src, a.pkt.hdr.dst]).raise 54 (ingUnit a.from_) a.pkt.hdr.dst (ingQuad a.from_))) ∧
    (a.replayOf ≠ none ∨ u.headerValid a = true → Completes (.routeSelect g) s (u.route a))) ∧
  (∀ (s : State) (g : Ingress), takeFirst (fun (a : Arrival) => a.from_ == g) s.m.rte.arrivals = none →
    Completes (.routeSelect g) s s.m) ∧
  (∀ (m : Mach) (a : Arrival) (q : Nat), q = ingQuad a.from_ →
    (m.expired q a.pkt = true → m.route a = m.discardLifetime a) ∧
    (∀ p, m.expired q a.pkt = false → a.replayOf = some p →
      (∀ h, m.partnerOfPort p a.pkt a.vc = some h → m.route a = m.select_ a h) ∧
      (m.partnerOfPort p a.pkt a.vc = none → m.route a = ((m.pmcDiscard a.from_).freeArrival a).noRoute q a.pkt)) ∧
    (∀ path, m.expired q a.pkt = false → a.replayOf = none → (m.unaligned a.pkt.hdr.dst).isEmpty = true →
      path = m.diePath q (a.pkt.hdr.dst % 16 / 4) a.vc → m.route a = { m.crossDies q path with rte := { (m.crossDies q path).rte with
        local_ := Tbl.modify (m.crossDies q path).rte.local_ (4 * (a.pkt.hdr.dst % 16 / 4) + a.pkt.hdr.tc) []
          (· ++ [{ a with path := path }]) } }) ∧
    (∀ p, a.from_ = .port p → m.expired q a.pkt = false → a.replayOf = none → (m.unaligned a.pkt.hdr.dst).isEmpty = false →
      max 8 (m.get Reg.RTE.HOP_MAX) ≤ a.pkt.hdr.hops → m.route a =
        ((((m.bump Reg.RTE.DISC_HOPS).pmcDiscard a.from_).freeArrival a).record 0x4021 q
          [a.pkt.hdr.src, a.pkt.hdr.dst]).raise 52 (.port p) a.pkt.hdr.dst q) ∧
    (m.expired q a.pkt = false → a.replayOf = none → (m.unaligned a.pkt.hdr.dst).isEmpty = false →
      (∃ x, a.from_ = .engines x) ∨ a.pkt.hdr.hops < max 8 (m.get Reg.RTE.HOP_MAX) →
      (∀ h, m.chooseHop q a.pkt = some h → m.route a = (m.select_ a h).spendDraws) ∧
      (m.chooseHop q a.pkt = none → m.route a = ((m.pmcDiscard a.from_).freeArrival a).noRoute q a.pkt)) ∧
    (∀ k, m.noRoute q k = ((m.bump Reg.RTE.DISC_NOROUTE).record 0x4030 q [k.hdr.src, k.hdr.dst]).raise 50 .none k.hdr.dst q)) ∧
  (∀ (s : State) (p : PortId) (id : Nat),
    (∀ (x : Selected) (u : Mach), (s.m.rp p).sel.find? (fun x => x.arr.id == id && x.alsoOn.isNone && x.vc % 2 == 1) = some x →
      u = s.m.elapseTo x.escAt →
      (u.escapeHop x.arr.pkt = none → Completes (.escWaitExpiry p id) s u) ∧
      (∀ h, u.escapeHop x.arr.pkt = some h → Completes (.escWaitExpiry p id) s (u.updRp p (fun y => { y with
        sel := modifyFirst (fun x => x.arr.id == id && x.alsoOn.isNone && x.vc % 2 == 1)
          (fun x => { x with alsoOn := some (h.port, h.kind, h.dim, h.vc) }) y.sel })))) ∧
    ((s.m.rp p).sel.find? (fun x => x.arr.id == id && x.alsoOn.isNone && x.vc % 2 == 1) = none → Completes (.escWaitExpiry p id) s s.m)) ∧
  (∀ (s : State) (q : Quad) (tc : Fin 4),
    (∀ (a : Arrival) (r : List Arrival) (t u v : Mach), Tbl.get s.m.rte.local_ (4 * q.val + tc.val) [] = a :: r →
      t = s.m.elapseTo (s.m.pathReady (ingQuad a.from_) a.path) →
      u = ({ t with rte := { t.rte with local_ := (if r.isEmpty then Tbl.del t.rte.local_ (4 * q.val + tc.val)
        else Tbl.set t.rte.local_ (4 * q.val + tc.val) r) } } : Mach).ageFlag q a.pkt →
      v = u.freeArrival a →
      (u.expired q a.pkt = true → Completes (.localDelivery q tc) s (u.discardLifetime a)) ∧
      (u.expired q a.pkt = false → Completes (.localDelivery q tc) s (({ v with
        rte := { v.rte with inbox := v.rte.inbox ++ [a.pkt] } } : Mach).callEngine q a.pkt))) ∧
    (Tbl.get s.m.rte.local_ (4 * q.val + tc.val) [] = [] → Completes (.localDelivery q tc) s s.m)) ∧
  (∀ (s : State) (p : PortId), (s.m.inUse p = true → Completes (.portUnusable p) s s.m) ∧
    (s.m.inUse p = false → Completes (.portUnusable p) s (s.m.reselect p))) ∧
  (∀ (s : State) (r : Requester) (i : Nat), s.m.passes r Reg.RTE.ROUTE_EN i = true →
    (∀ u : Mach, u = s.m.stored r Reg.RTE.ROUTE_EN 1 i →
      Completes (.routeEn r true) s (u.updRp i (fun x => { x with freshFrom := u.clk }))) ∧
    (∀ u : Mach, u = s.m.stored r Reg.RTE.ROUTE_EN 0 i →
      (u.isSet Reg.RTE.CABLE_ERR i = true → Completes (.routeEn r false) s (u.reselect i)) ∧
      (u.isSet Reg.RTE.CABLE_ERR i = false → Completes (.routeEn r false) s (u.leaveUse (Fin.ofNat 128 i))))) ∧
  (∀ (s : State) (r : Requester) (i : Nat), s.m.passes r Reg.RTE.CNT_CLR i = true → Completes (.routeCntClr r) s
    ((s.m.reach r Reg.RTE.CNT_CLR).clear [Reg.RTE.DISC_LIFETIME, Reg.RTE.DISC_HOPS, Reg.RTE.DISC_HDR, Reg.RTE.DISC_NOROUTE,
      Reg.RTE.HOPS_MIN, Reg.RTE.HOPS_NONMIN, Reg.RTE.HOPS_ESC, Reg.RTE.HOPS_DETOUR, Reg.RTE.ESC_FALLBACK]))

/-- BEACON_SEND queues a beacon on a trained, awake port under FF_EN, and otherwise does nothing. A beacon with a bad CRC
is handled as R91 says; one that is not seen changes nothing; a good one is kept as the port's latest, clears STALE
with FS53's condition, and its DA is checked: an unexpected one on a mapped port sets CABLE_ERR with FS48 and 0x4001,
and takes a port that was in use out of it; the expected one clears CABLE_ERR with 0x4004 only after a full training
begun since; on an unmapped port nothing is checked. BEACON_STALE on a usable, awake port that is not STALE acts when
the age (of the beacon, or since the port became usable where that is less) reaches FF_STALE periods: STALE, FS53,
0x4010; elsewhere it does nothing. CFG_CHECK stores CFG_OK and CFG_ERR; a failure raises FS49 with 0x4002, and a
success records 0x4003 for each entry of the geometry without a valid member. -/
def Obligations.BeaconsAndTheConfigurationCheckDoAsFileFiveSays : Prop :=
  (∀ (s : State) (p : PortId),
    (s.m.isSet Reg.RTE.FF_EN = true → s.m.trained p = true → (s.m.ei p).driversOff = false →
      Completes (.beaconSend p) s (s.m.queueCtrl p .beacon)) ∧
    (s.m.isSet Reg.RTE.FF_EN = false ∨ s.m.trained p = false ∨ (s.m.ei p).driversOff = true → Completes (.beaconSend p) s s.m)) ∧
  (∀ (s : State) (p : PortId) (b : Beacon) (rx : Rx),
    (∀ u : Mach, s.m.hears p b.wire rx u → ∀ v : Mach, v = u.updRp p (fun x => { x with
        beacon := some b, beaconAt := u.clk,
        sentAt := (u.hgt (quadOfPort p) / 16 : Nat) - (sub32 (u.stamp (quadOfPort p)) b.stamp : Nat) }) →
      Completes (.beaconReceive p b rx) s (((v.put Reg.RTE.STALE 0 p).endCondition 53 (.port p)).checkDa p b.da)) ∧
    (∀ u, s.m.garbled p b.wire rx u → Completes (.beaconReceive p b rx) s (u.frameBad p 1)) ∧
    (s.m.missed p b.wire rx → Completes (.beaconReceive p b rx) s s.m)) ∧
  (∀ (m u : Mach) (p : PortId) (e da : Nat), m.entryOf p = some e →
    (da ≠ m.expectedDa e →
      u = ((((m.updRp p (fun x => { x with trainedSinceErr := false })).put Reg.RTE.CABLE_ERR 1 p).raise 48 (.port p) da
        (quadOfPort p)).record 0x4001 (quadOfPort p) [p.val, da]) →
      (m.inUse p = true → m.checkDa p da = u.leaveUse p) ∧ (m.inUse p = false → m.checkDa p da = u)) ∧
    (da = m.expectedDa e → m.isSet Reg.RTE.CABLE_ERR p = true → (m.rp p).trainedSinceErr = true → m.checkDa p da =
      (((m.put Reg.RTE.CABLE_ERR 0 p).updRp p (fun x => { x with trainedSinceErr := false, freshFrom := m.clk })).endCondition 48
        (.port p)).record 0x4004 (quadOfPort p) [p.val]) ∧
    (da = m.expectedDa e → m.isSet Reg.RTE.CABLE_ERR p = false ∨ (m.rp p).trainedSinceErr = false → m.checkDa p da = m)) ∧
  (∀ (m : Mach) (p : PortId) (da : Nat), m.entryOf p = none → m.checkDa p da = m) ∧
  (∀ (s : State) (p : PortId) (fresh age : Nat) (u : Mach), fresh = (s.m.clk - (s.m.rp p).freshFrom) / 2 →
    age = (s.m.beaconAge p).elim fresh (min · fresh) →
    u = s.m.elapse ((s.m.ffStale * s.m.ffPeriod - age) * 2) →
    (s.m.usable p = true → (s.m.ei p).driversOff = false → s.m.isSet Reg.RTE.STALE p = false → Completes (.beaconStale p) s
      (((u.put Reg.RTE.STALE 1 p).raise 53 (.port p) 0 (quadOfPort p)).record 0x4010 (quadOfPort p) [p.val])) ∧
    (s.m.usable p = false ∨ (s.m.ei p).driversOff = true ∨ s.m.isSet Reg.RTE.STALE p = true → Completes (.beaconStale p) s s.m)) ∧
  (∀ (s : State) (r : Requester) (i : Nat) (u v : Mach), s.m.passes r Reg.RTE.CFG_CHECK i = true → u = s.m.acted r Reg.RTE.CFG_CHECK 1 →
    v = (u.put Reg.RTE.CFG_OK (b2n (u.cfgErr = 0))).put Reg.RTE.CFG_ERR u.cfgErr →
    (u.cfgErr ≠ 0 → Completes (.cfgCheck r) s ((v.raise 49 .none u.cfgErr 0).record 0x4002 0 [u.cfgErr])) ∧
    (u.cfgErr = 0 → Completes (.cfgCheck r) s ((pmEntries.filter (fun e => e / 64 < v.dims && e % 64 < v.cs (e / 64) &&
      e % 64 != v.coord v.ownDa (e / 64) && (v.namedMembers e).isEmpty)).foldl (fun (a : Mach) e => a.record 0x4003 0 [e]) v)))

/-- An entry of another opcode, or that its engines do not take now (a swap of their quadrant, the mode, a RECV of its
ring held before it), changes nothing; one that its ring does not hand over changes nothing either, unless its LEN
makes it a ring error. Take any other, which starts as the seq-th of its ring. A malformed one completes with
PROTECTION and its DETAIL, whatever its opcode. A good NOP completes with OK. PUT, PUT_FLAG, GET and SEND start on
their connection. An ATOMIC with a known AOP and a valid destination sends an AT_REQ with a fresh tag; an unknown AOP
is PROTECTION, an invalid destination BAD_ROUTE. A RECV is taken by its domain. A RECV_CANCEL of nothing posted
completes with DATA 0, and of a posted RECV cancels it and completes with DATA 1. A COLL goes to its group.
LOCK_ACQUIRE goes to the held list. LOCK_RELEASE of a lock the function holds sends LK_REL with its generation; of one
it has lost it forgets it, and of that and of one it does not hold it completes with status 1. LOCK_FORCE outside a
supervisor ring is PROTECTION, an invalid destination is BAD_ROUTE, else it sends LK_FORCE. A FENCE stops the scan
until every earlier entry has completed. SLEEP_NOTICE flushes the named completion ring where it is of its own
function. A PAD with its phase moves the scan position past it and completes nothing; any other changes nothing. -/
def Obligations.WorkEntriesStartTheirOperation : Prop :=
  (∀ (s : State) (ring : Nat) (e : Entry),
    (s.m.keeps ring e 0x00 → Completes (.nop ring e) s s.m) ∧
    (s.m.keeps ring e 0x10 → Completes (.put ring e) s s.m) ∧
    (s.m.keeps ring e 0x11 → Completes (.putFlag ring e) s s.m) ∧
    (s.m.keeps ring e 0x12 → Completes (.get ring e) s s.m) ∧
    (s.m.keeps ring e 0x13 → Completes (.atomic ring e) s s.m) ∧
    (s.m.keeps ring e 0x20 → Completes (.send ring e) s s.m) ∧
    (s.m.keeps ring e 0x21 → Completes (.recv ring e) s s.m) ∧
    (s.m.keeps ring e 0x22 → Completes (.recvCancel ring e) s s.m) ∧
    (s.m.keeps ring e 0x30 → Completes (.coll ring e) s s.m) ∧
    (s.m.keeps ring e 0x40 → Completes (.lockAcquire ring e) s s.m) ∧
    (s.m.keeps ring e 0x41 → Completes (.lockRelease ring e) s s.m) ∧
    (s.m.keeps ring e 0x42 → Completes (.lockForce ring e) s s.m) ∧
    (s.m.keeps ring e 0x50 → Completes (.fence ring e) s s.m) ∧
    (s.m.keeps ring e 0x51 → Completes (.sleepNotice ring e) s s.m)) ∧
  (∀ (s : State) (ring : Nat) (e : Entry),
    (s.m.refuses ring e 0x00 → Completes (.nop ring e) s (s.m.badLen ring e)) ∧
    (s.m.refuses ring e 0x10 → Completes (.put ring e) s (s.m.badLen ring e)) ∧
    (s.m.refuses ring e 0x11 → Completes (.putFlag ring e) s (s.m.badLen ring e)) ∧
    (s.m.refuses ring e 0x12 → Completes (.get ring e) s (s.m.badLen ring e)) ∧
    (s.m.refuses ring e 0x13 → Completes (.atomic ring e) s (s.m.badLen ring e)) ∧
    (s.m.refuses ring e 0x20 → Completes (.send ring e) s (s.m.badLen ring e)) ∧
    (s.m.refuses ring e 0x21 → Completes (.recv ring e) s (s.m.badLen ring e)) ∧
    (s.m.refuses ring e 0x22 → Completes (.recvCancel ring e) s (s.m.badLen ring e)) ∧
    (s.m.refuses ring e 0x30 → Completes (.coll ring e) s (s.m.badLen ring e)) ∧
    (s.m.refuses ring e 0x40 → Completes (.lockAcquire ring e) s (s.m.badLen ring e)) ∧
    (s.m.refuses ring e 0x41 → Completes (.lockRelease ring e) s (s.m.badLen ring e)) ∧
    (s.m.refuses ring e 0x42 → Completes (.lockForce ring e) s (s.m.badLen ring e)) ∧
    (s.m.refuses ring e 0x50 → Completes (.fence ring e) s (s.m.badLen ring e)) ∧
    (s.m.refuses ring e 0x51 → Completes (.sleepNotice ring e) s (s.m.badLen ring e))) ∧
  (∀ (m : Mach) (ring : Nat) (e : Entry),
    (∀ w d, m.wr ring = some w → lenError w e = some d → m.takes w e = true →
      m.hif.work.any (fun x => x.ring == ring && !x.started) = false →
      m.badLen ring e = (m.ringError ring w d (entryHeader e)).pumpTxe w.slot w.txe) ∧
    (∀ w, m.wr ring = some w → lenError w e = none ∨ m.takes w e = false ∨
      m.hif.work.any (fun x => x.ring == ring && !x.started) = true → m.badLen ring e = m) ∧
    (m.wr ring = none → m.badLen ring e = m)) ∧
  (∀ (s : State) (ring seq : Nat) (e : Entry) (w : WorkRing) (u : Mach) (d : Nat), entryBad e = some d →
    (s.m.starts ring e 0x00 seq w u → Completes (.nop ring e) s (u.finishWork ring seq 0x0B d)) ∧
    (s.m.starts ring e 0x10 seq w u → Completes (.put ring e) s (u.finishWork ring seq 0x0B d)) ∧
    (s.m.starts ring e 0x11 seq w u → Completes (.putFlag ring e) s (u.finishWork ring seq 0x0B d)) ∧
    (s.m.starts ring e 0x12 seq w u → Completes (.get ring e) s (u.finishWork ring seq 0x0B d)) ∧
    (s.m.starts ring e 0x13 seq w u → Completes (.atomic ring e) s (u.finishWork ring seq 0x0B d)) ∧
    (s.m.starts ring e 0x20 seq w u → Completes (.send ring e) s (u.finishWork ring seq 0x0B d)) ∧
    (s.m.starts ring e 0x21 seq w u → Completes (.recv ring e) s (u.finishWork ring seq 0x0B d)) ∧
    (s.m.starts ring e 0x22 seq w u → Completes (.recvCancel ring e) s (u.finishWork ring seq 0x0B d)) ∧
    (s.m.starts ring e 0x30 seq w u → Completes (.coll ring e) s (u.finishWork ring seq 0x0B d)) ∧
    (s.m.starts ring e 0x40 seq w u → Completes (.lockAcquire ring e) s (u.finishWork ring seq 0x0B d)) ∧
    (s.m.starts ring e 0x41 seq w u → Completes (.lockRelease ring e) s (u.finishWork ring seq 0x0B d)) ∧
    (s.m.starts ring e 0x42 seq w u → Completes (.lockForce ring e) s (u.finishWork ring seq 0x0B d)) ∧
    (s.m.starts ring e 0x50 seq w u → Completes (.fence ring e) s (u.finishWork ring seq 0x0B d)) ∧
    (s.m.starts ring e 0x51 seq w u → Completes (.sleepNotice ring e) s (u.finishWork ring seq 0x0B d))) ∧
  (∀ (s : State) (ring seq : Nat) (e : Entry) (w : WorkRing) (u : Mach), entryBad e = none →
    (s.m.starts ring e 0x00 seq w u → Completes (.nop ring e) s (u.finishWork ring seq 0 0)) ∧
    (s.m.starts ring e 0x10 seq w u → Completes (.put ring e) s (u.startRsx ring seq w e)) ∧
    (s.m.starts ring e 0x11 seq w u → Completes (.putFlag ring e) s (u.startRsx ring seq w e)) ∧
    (s.m.starts ring e 0x12 seq w u → Completes (.get ring e) s (u.startRsx ring seq w e)) ∧
    (s.m.starts ring e 0x20 seq w u → Completes (.send ring e) s (u.startRsx ring seq w e)) ∧
    (s.m.starts ring e 0x13 seq w u → ∀ dst win off ra a b, e.body = .atomic dst win off ra a b →
      (10 < e.arg % 256 → Completes (.atomic ring e) s (u.finishWork ring seq 0x0B 3)) ∧
      (e.arg % 256 ≤ 10 → u.eidValid dst = false → Completes (.atomic ring e) s (u.finishWork ring seq 0x03 0)) ∧
      (e.arg % 256 ≤ 10 → u.eidValid dst = true → Completes (.atomic ring e) s ((u.newTag (quadOfSlot w.slot)).2.startReq
        { reqOf (quadOfSlot w.slot) (u.newTag (quadOfSlot w.slot)).1 ring seq w e 0x28
            { lkuHdr 0 (u.newTag (quadOfSlot w.slot)).1 with
              code := e.arg % 256, b25 := e.arg / 256 % 256, queued := win, offset := off, op1 := a, op2 := b } with
          resultAddr := ra }))) ∧
    (s.m.starts ring e 0x21 seq w u → ∀ r, recvOf ring seq w e = some r → Completes (.recv ring e) s (u.takeRecv r w)) ∧
    (s.m.starts ring e 0x22 seq w u → ∀ workId target fn, e.body = .cancel workId target →
      fn = (u.wr target).map (fun t => (t.slot, t.func)) →
      (∀ r, u.mat.posted.find? (fun r => r.workId == workId && r.ring == target &&
          (u.domain r.domain).map (fun d => (d.slot, d.func)) == fn) = some r →
        Completes (.recvCancel ring e) s ((((u.unpost r).bump Reg.MAT.CANCELS 1 ((fn.map (·.1)).getD 0)).finishWork r.ring r.seq
          0x08 0).finishWork ring seq 0 0 1)) ∧
      (u.mat.posted.find? (fun r => r.workId == workId && r.ring == target &&
          (u.domain r.domain).map (fun d => (d.slot, d.func)) == fn) = none →
        Completes (.recvCancel ring e) s (u.finishWork ring seq 0 0 0))) ∧
    (s.m.starts ring e 0x30 seq w u → Completes (.coll ring e) s (u.startColl ring seq w e)) ∧
    (s.m.starts ring e 0x40 seq w u → Completes (.lockAcquire ring e) s (u.startAcquire ring seq w e)) ∧
    (s.m.starts ring e 0x41 seq w u → ∀ dst lock z q, e.body = .lock dst lock z → q = quadOfSlot w.slot →
      (∀ h, u.heldBy w.slot w.func (dst / 16) lock .held = some h → Completes (.lockRelease ring e) s
        ((((u.newTag q).2.updHeld q h.tag (fun h => { h with st := .releasing, renew := none })).startReq
          (reqOf q (u.newTag q).1 ring seq w e 0x21 { lkuHdr lock (u.newTag q).1 with gen := h.gen })).resumeAcquires)) ∧
      (∀ h, u.heldBy w.slot w.func (dst / 16) lock .held = none → u.heldBy w.slot w.func (dst / 16) lock .lost = some h →
        Completes (.lockRelease ring e) s (((u.dropHeld q h.tag).finishWork ring seq 0x01 1).resumeAcquires)) ∧
      (u.heldBy w.slot w.func (dst / 16) lock .held = none → u.heldBy w.slot w.func (dst / 16) lock .lost = none →
        Completes (.lockRelease ring e) s (u.finishWork ring seq 0x01 1))) ∧
    (s.m.starts ring e 0x42 seq w u → ∀ dst lock z q, e.body = .lock dst lock z → q = quadOfSlot w.slot →
      (w.super_ = false → Completes (.lockForce ring e) s (u.finishWork ring seq 0x0B 5)) ∧
      (w.super_ = true → u.eidValid dst = false → Completes (.lockForce ring e) s (u.finishWork ring seq 0x03 0)) ∧
      (w.super_ = true → u.eidValid dst = true → Completes (.lockForce ring e) s
        (((u.newTag q).2.startReq (reqOf q (u.newTag q).1 ring seq w e 0x22 (lkuHdr lock (u.newTag q).1))).resumeAcquires))) ∧
    (s.m.starts ring e 0x50 seq w u → Completes (.fence ring e) s
      ((((u.updWr ring (fun x => { x with fenceAt := some seq })).stopScan ring w).pumpTxe w.slot w.txe).fenceDone ring)) ∧
    (s.m.starts ring e 0x51 seq w u → u.cr e.cr = none → Completes (.sleepNotice ring e) s (u.finishWork ring seq 0 0)) ∧
    (s.m.starts ring e 0x51 seq w u → ∀ c, u.cr e.cr = some c →
      (c.slot = w.slot → c.func = w.func → Completes (.sleepNotice ring e) s ((u.flushCr e.cr).finishWork ring seq 0 0)) ∧
      (c.slot ≠ w.slot ∨ c.func ≠ w.func → Completes (.sleepNotice ring e) s (u.finishWork ring seq 0 0)))) ∧
  (∀ (s : State) (ring : Nat) (e : Entry),
    (∀ w, s.m.wr ring = some w → e.opcode = 1 → e.own = w.phase → s.m.mayScan w = true → w.reading = false → 1 ≤ e.len →
      e.len ≤ 16 → w.pos + e.len ≤ 2 ^ w.sizeLog2 → Completes (.pad ring e) s (s.m.updWr ring (fun w => w.advance e.len))) ∧
    (∀ w, s.m.wr ring = some w → e.opcode ≠ 1 ∨ e.own ≠ w.phase ∨ s.m.mayScan w = false ∨ w.reading = true ∨ e.len = 0 ∨
      16 < e.len ∨ 2 ^ w.sizeLog2 < w.pos + e.len → Completes (.pad ring e) s s.m) ∧
    (s.m.wr ring = none → Completes (.pad ring e) s s.m))

/-- A doorbell of an absent slot does nothing, one of a page with no such ring counts in DB_BAD, and another wakes the
slot's quadrant and acts: WR counts the doorbell and makes the ring ready to scan, CR_HEAD with a possible head frees
the space before it and writes held completions (an impossible one counts in DB_BAD), CR_ARM arms, SLEEP_NOTICE
flushes a moderated interrupt. An armed ring with none unsignalled waits, with MOD_COUNT of them or more sends, and
with fewer starts its timer; a send disarms it and sends its vector's message unless it is polled. The granule read of
a scan goes on with the header or body it read. RING_RESUME of a paused ring below 4,096 entries in flight makes it
ready again, and of another does nothing. MODERATION_TIMER_EXPIRY at its time sends the ring's interrupt if it is
armed with unsignalled completions, and does nothing where no timer runs. MSIX_UNMASK of a vector that exists clears
its PBA bit and sends its message if it was set. A data read's completion hands its bytes to the operation that asked.
HOST_READ_FAILURE, a timeout at its own time, raises FS66 with 0x6010 and fails the operation, or ends the walk, at
once; a read that is not outstanding is ignored. -/
def Obligations.DoorbellsScansAndInterruptsDoAsFileSixSays : Prop :=
  (∀ (s : State) (slot : Slot) (fn : Fin 256) (page : Nat) (v : Word), s.m.slotPresent slot = false →
    Completes (.wrDoorbell slot fn page) s s.m ∧ Completes (.crHead slot fn page v) s s.m ∧
    Completes (.crArm slot fn page) s s.m ∧ Completes (.sleepNoticeDoorbell slot fn page) s s.m) ∧
  (∀ (s : State) (slot : Slot) (fn : Fin 256) (page : Nat) (v : Word), s.m.slotPresent slot = true →
    (s.m.wrOfPage slot fn page = none → Completes (.wrDoorbell slot fn page) s (s.m.bump Reg.HIF.DB_BAD 1 slot)) ∧
    (s.m.crOfPage slot fn page = none → Completes (.crHead slot fn page v) s (s.m.bump Reg.HIF.DB_BAD 1 slot) ∧
      Completes (.crArm slot fn page) s (s.m.bump Reg.HIF.DB_BAD 1 slot) ∧
      Completes (.sleepNoticeDoorbell slot fn page) s (s.m.bump Reg.HIF.DB_BAD 1 slot)) ∧
    (∀ n u, s.m.wrOfPage slot fn page = some n → u = s.m.wakeQuad (quadOfSlot slot) → Completes (.wrDoorbell slot fn page) s
      (((u.bump Reg.HIF.DOORBELLS 1 slot).updWr n (fun w => { w with db := w.db + 1 })).readyScan n)) ∧
    (∀ n u, s.m.crOfPage slot fn page = some n → u = s.m.wakeQuad (quadOfSlot slot) →
      (∀ c h, u.cr n = some c → headCount c v = some h →
        Completes (.crHead slot fn page v) s ((u.updCr n (fun c => { c with head := h })).drainCr n)) ∧
      (∀ c, u.cr n = some c → headCount c v = none → Completes (.crHead slot fn page v) s (u.bump Reg.HIF.DB_BAD 1 slot)) ∧
      Completes (.crArm slot fn page) s (u.arm n) ∧ Completes (.sleepNoticeDoorbell slot fn page) s (u.flushCr n)) ∧
    (∀ n u, s.m.crOfPage slot fn page = some n → u = s.m.wakeQuad (quadOfSlot slot) → u.cr n = none →
      Completes (.crHead slot fn page v) s (u.bump Reg.HIF.DB_BAD 1 slot))) ∧
  (∀ (m : Mach) (n : Nat) (c : ComplRing), m.cr n = some c →
    (c.armed = true → 0 < c.unsig → m.flushCr n = m.crSend n) ∧ (c.armed = false ∨ c.unsig = 0 → m.flushCr n = m) ∧
    (c.unsig = 0 → 0 < c.modCount → m.arm n = m.updCr n (fun c => { c with armed := true })) ∧
    (0 < c.unsig → c.unsig < c.modCount → m.arm n = (m.updCr n (fun c => { c with armed := true })).crTimer n c) ∧
    (max 1 c.modCount ≤ c.unsig → m.arm n = (m.updCr n (fun c => { c with armed := true })).crSend n) ∧
    (∀ u : Mach, u = m.updCr n (fun c => { c with timer := none, armed := false, unsig := 0 }) →
      (c.polled = true → m.crSend n = u) ∧ (c.polled = false → m.crSend n = u.interrupt c.slot c.func c.vector))) ∧
  (∀ (s : State) (id : Nat) (data : List Byte),
    (∀ r ring db pos, s.m.hif.reads.find? (fun r => r.id == id && r.sent && r.walk.isNone) = some r →
      r.op.purpose = .ringHeader ring db pos →
      Completes (.ringReadCompletion id data) s ((s.m.dropRead id).ringHeader ring db pos (slice data 0 64))) ∧
    (∀ r ring db pos header, s.m.hif.reads.find? (fun r => r.id == id && r.sent && r.walk.isNone) = some r →
      r.op.purpose = .ringBody ring db pos header →
      Completes (.ringReadCompletion id data) s ((s.m.dropRead id).ringBody ring db pos header (slice data 0 r.op.len))) ∧
    (∀ r, s.m.hif.reads.find? (fun r => r.id == id && r.sent && r.walk.isNone) = some r → ringPurpose r.op.purpose = false →
      Completes (.ringReadCompletion id data) s s.m) ∧
    (s.m.hif.reads.find? (fun r => r.id == id && r.sent && r.walk.isNone) = none → Completes (.ringReadCompletion id data) s s.m)) ∧
  (∀ (s : State) (ring : Nat),
    (∀ w, s.m.wr ring = some w → w.paused = true → s.m.inflight ring < 4096 → Completes (.ringResume ring) s
      ((s.m.updWr ring (fun w => { w with paused := false })).readyScan ring)) ∧
    (∀ w, s.m.wr ring = some w → w.paused = false ∨ 4096 ≤ s.m.inflight ring → Completes (.ringResume ring) s s.m) ∧
    (s.m.wr ring = none → Completes (.ringResume ring) s s.m)) ∧
  (∀ (s : State) (cr : Nat),
    (∀ t, (s.m.cr cr).bind (·.timer) = some t → Completes (.moderationTimerExpiry cr) s
      (((s.m.elapseTo t).updCr cr (fun c => { c with timer := none })).flushCr cr)) ∧
    ((s.m.cr cr).bind (·.timer) = none → Completes (.moderationTimerExpiry cr) s s.m)) ∧
  (∀ (s : State) (slot : Slot) (fn : Fin 256) (vec : Nat) (u : Mach), vec < vectorsOf fn → s.m.slotPresent slot = true →
    u = s.m.updFunc slot fn (fun f => { f with unmasked := if f.unmasked.contains vec then f.unmasked else f.unmasked ++ [vec],
                                               pba := f.pba.filter (· != vec) }) →
    ((s.m.func slot fn).pba.contains vec = true → Completes (.msixUnmask slot fn vec) s (u.interrupt slot fn vec)) ∧
    ((s.m.func slot fn).pba.contains vec = false → Completes (.msixUnmask slot fn vec) s u)) ∧
  (∀ (s : State) (slot : Slot) (fn : Fin 256) (vec : Nat), vectorsOf fn ≤ vec ∨ s.m.slotPresent slot = false →
    Completes (.msixUnmask slot fn vec) s s.m) ∧
  (∀ (s : State) (id : Nat) (data : List Byte),
    (∀ r, s.m.hif.reads.find? (fun r => r.id == id && r.sent && r.walk.isNone && !ringPurpose r.op.purpose) = some r →
      Completes (.dataReadCompletion id data) s ((s.m.dropRead id).readData r.op (slice data 0 r.op.len))) ∧
    (s.m.hif.reads.find? (fun r => r.id == id && r.sent && r.walk.isNone && !ringPurpose r.op.purpose) = none →
      Completes (.dataReadCompletion id data) s s.m)) ∧
  (∀ (s : State) (id : Nat) (why : ReadFailure),
    (s.m.hif.reads.find? (fun r => r.id == id && r.sent) = none → Completes (.hostReadFailure id why) s s.m) ∧
    (∀ r q t u, s.m.hif.reads.find? (fun r => r.id == id && r.sent) = some r → q = quadOfSlot r.op.slot →
      t = (if why = .timeout then s.m.elapseTo (s.m.timesOut r) else s.m) →
      u = (((t.dropRead id).raise 66 (.slot r.op.slot) (failureCode why) q).record 0x6010 q
        [r.op.slot, r.op.func, failureCode why]) →
      (r.walk = none → Completes (.hostReadFailure id why) s (u.readFailed r.op)) ∧
      (∀ wid, r.walk = some wid →
        (∀ w, u.xlt.walks.find? (fun w => w.id == wid) = some w →
          exec (.hostReadFailure id why) s = .next (State.goExports { s with m := u.walkFault w (Walk.readFault w) })) ∧
        (u.xlt.walks.find? (fun w => w.id == wid) = none → Completes (.hostReadFailure id why) s u))))

/-- WR_CREATE and CR_CREATE store in ERR what stops them; with 0 the ring is created from the staging fields, a work ring
scanned once, a completion ring armed. Every other command on a FREE ring stores 8 and on a ring of another slot 7,
and changes nothing else. On its own ring: WR_DESTROY stops the scan, makes the ring DRAINING, and ends with CANCELLED
its acquires that wait for the held list; those already sent are withdrawn. WR_RESET stops the scan at position 0 with
phase 1 and leaves ERROR. CR_DESTROY frees the ring at once. CR_MODIFY stores the staged moderation, vector and
POLLED, or 3 for a vector beyond the table. CR_RESET puts head and tail at 0, clears the overflow and discards held
completions. WR_DRAIN_DONE frees a DRAINING ring with nothing in flight or held. HIF_CNT_CLR clears the slot's seven
counters. -/
def Obligations.RingsAreCreatedModifiedAndTornDown : Prop :=
  (∀ (s : State) (r : Requester) (n : Nat) (u v : Mach), s.m.passes r Reg.HIF.WR_CMD n = true → u = s.m.acted r Reg.HIF.WR_CMD 1 →
    v = u.put Reg.HIF.WR_ERR (u.wrCreateErr r.slotOf n) n →
    (u.wrCreateErr r.slotOf n ≠ 0 → Completes (.wrCreate r) s v) ∧
    (u.wrCreateErr r.slotOf n = 0 → Completes (.wrCreate r) s
      (({ v with hif := { v.hif with wrs := Tbl.set v.hif.wrs n (v.stagedWr r.slotOf n) } }.unbar r.slotOf
        (v.stagedWr r.slotOf n).func).readyScan n))) ∧
  (∀ (s : State) (r : Requester) (n : Nat) (u v : Mach), s.m.passes r Reg.HIF.CR_CMD n = true → u = s.m.acted r Reg.HIF.CR_CMD 1 →
    v = u.put Reg.HIF.CR_ERR (u.crCreateErr r.slotOf n) n →
    (u.crCreateErr r.slotOf n ≠ 0 → Completes (.crCreate r) s v) ∧
    (u.crCreateErr r.slotOf n = 0 → Completes (.crCreate r) s ({ v with hif := { v.hif with crs := (Tbl.set v.hif.crs n
      { slot := r.slotOf, func := v.get Reg.HIF.CR_FUNC n, base := v.get64 Reg.HIF.CR_BASE_LO Reg.HIF.CR_BASE_HI n,
        sizeLog2 := v.get Reg.HIF.CR_SIZE_LOG2 n, twoWrite := v.isSet Reg.HIF.TWO_WRITE n, polled := v.isSet Reg.HIF.POLLED n,
        vector := v.get Reg.HIF.VECTOR n, page := v.get Reg.HIF.CR_DB_PAGE n, modTime := v.get Reg.HIF.MOD_TIME n,
        modCount := v.get Reg.HIF.MOD_COUNT n }) } }.unbar r.slotOf (v.get Reg.HIF.CR_FUNC n)))) ∧
  (∀ (s : State) (r : Requester) (n : Nat), s.m.passes r Reg.HIF.WR_CMD n = true → ∀ u v : Mach, u = s.m.acted r Reg.HIF.WR_CMD 2 →
    v = s.m.acted r Reg.HIF.WR_CMD 3 →
    (u.wr n = none → Completes (.wrDestroy r) s (u.put Reg.HIF.WR_ERR 8 n)) ∧
    (v.wr n = none → Completes (.wrReset r) s (v.put Reg.HIF.WR_ERR 8 n)) ∧
    (∀ w, u.wr n = some w → w.slot ≠ r.slotOf → Completes (.wrDestroy r) s (u.put Reg.HIF.WR_ERR 7 n)) ∧
    (∀ w, v.wr n = some w → w.slot ≠ r.slotOf → Completes (.wrReset r) s (v.put Reg.HIF.WR_ERR 7 n)) ∧
    (∀ w x y z, u.wr n = some w → w.slot = r.slotOf →
      x = ((((u.put Reg.HIF.WR_ERR 0 n).stopScan n w).updWr n (fun w => { w with st := 2, drainStop := false })).pumpTxe w.slot w.txe) →
      y = { x with lka := { x.lka with waiting := x.lka.waiting.filter (fun x => x.1 != n) } } →
      z = (x.lka.waiting.filter (fun x => x.1 == n)).foldl (fun (a : Mach) x => a.finishWork x.1 x.2 8 0) y →
      Completes (.wrDestroy r) s ((z.lka.reqs.filter (fun (x : LkReq) => x.ring == n && x.kind == 0x20)).foldl
        (fun (a : Mach) x => a.withdrawReq x.q x.tag 8) z)) ∧
    (∀ w, v.wr n = some w → w.slot = r.slotOf → Completes (.wrReset r) s
      ((((v.put Reg.HIF.WR_ERR 0 n).stopScan n w).pumpTxe w.slot w.txe).updWr n (fun w =>
        { w with pos := 0, phase := true, st := if w.st = 3 then 1 else w.st, drainStop := false,
                  db := w.db + 1, rdDb := w.db + 1 })))) ∧
  (∀ (s : State) (r : Requester) (n : Nat), s.m.passes r Reg.HIF.CR_CMD n = true → ∀ u v w : Mach, u = s.m.acted r Reg.HIF.CR_CMD 2 →
    v = s.m.acted r Reg.HIF.CR_CMD 3 → w = s.m.acted r Reg.HIF.CR_CMD 4 →
    (u.cr n = none → Completes (.crDestroy r) s (u.put Reg.HIF.CR_ERR 8 n)) ∧
    (v.cr n = none → Completes (.crModify r) s (v.put Reg.HIF.CR_ERR 8 n)) ∧
    (w.cr n = none → Completes (.crReset r) s (w.put Reg.HIF.CR_ERR 8 n)) ∧
    (∀ c, u.cr n = some c → c.slot ≠ r.slotOf → Completes (.crDestroy r) s (u.put Reg.HIF.CR_ERR 7 n)) ∧
    (∀ c, v.cr n = some c → c.slot ≠ r.slotOf → Completes (.crModify r) s (v.put Reg.HIF.CR_ERR 7 n)) ∧
    (∀ c, w.cr n = some c → c.slot ≠ r.slotOf → Completes (.crReset r) s (w.put Reg.HIF.CR_ERR 7 n)) ∧
    (∀ c, u.cr n = some c → c.slot = r.slotOf → Completes (.crDestroy r) s
      { u.put Reg.HIF.CR_ERR 0 n with hif := { u.hif with crs := Tbl.del u.hif.crs n } }) ∧
    (∀ c x, v.cr n = some c → c.slot = r.slotOf → x = v.put Reg.HIF.CR_ERR 0 n →
      (x.isSet Reg.HIF.POLLED n = false → vectorsOf c.func ≤ x.get Reg.HIF.VECTOR n →
        Completes (.crModify r) s (x.put Reg.HIF.CR_ERR 3 n)) ∧
      (x.isSet Reg.HIF.POLLED n = true ∨ x.get Reg.HIF.VECTOR n < vectorsOf c.func → Completes (.crModify r) s
        (x.updCr n (fun c => { c with polled := x.isSet Reg.HIF.POLLED n, vector := x.get Reg.HIF.VECTOR n,
                                      modTime := x.get Reg.HIF.MOD_TIME n, modCount := x.get Reg.HIF.MOD_COUNT n })))) ∧
    (∀ c, w.cr n = some c → c.slot = r.slotOf → Completes (.crReset r) s ((w.put Reg.HIF.CR_ERR 0 n).updCr n (fun c =>
      { c with head := 0, tail := 0, overflow := false, held := [], xq := [], xwait := false })))) ∧
  (∀ (s : State) (ring : Nat),
    (∀ w, s.m.wr ring = some w → w.st = 2 → s.m.inflight ring = 0 → s.m.heldOf ring = false → Completes (.wrDrainDone ring) s
      { s.m with hif := { s.m.hif with
        wrs := Tbl.del s.m.hif.wrs ring, seqBase := max s.m.hif.seqBase (w.seq + 1), dbBase := max s.m.hif.dbBase w.db } }) ∧
    (∀ w, s.m.wr ring = some w → w.st ≠ 2 ∨ s.m.inflight ring ≠ 0 ∨ s.m.heldOf ring = true → Completes (.wrDrainDone ring) s s.m) ∧
    (s.m.wr ring = none → Completes (.wrDrainDone ring) s s.m)) ∧
  (∀ (s : State) (r : Requester) (i : Nat), s.m.passes r Reg.HIF.CNT_CLR i = true → Completes (.hifCntClr r) s
    ((s.m.reach r Reg.HIF.CNT_CLR).clear [Reg.HIF.DOORBELLS, Reg.HIF.ENTRIES, Reg.HIF.COMPLETIONS, Reg.HIF.IRQS, Reg.HIF.OVF_DROP, Reg.HIF.DB_BAD,
      Reg.HIF.PME_SENT] i))

/-- D3hot entry and clearing Bus Master Enable of a present slot's function pause its scans; returning to D0 (with
PME_Status cleared, log entry 31) and setting Bus Master Enable let it run again where it is awake: held completions
first, then, once none of them waits for its translation, its interrupts are evaluated and those held are sent, and
its rings are scanned as by a doorbell. FLR resets the function, PF0 also every VF and the slot's sessions;
VF_ENABLE_CLEAR resets every VF; each records 0x6030. An absent slot has nothing to reset. A host-port reset resets
both slots, clears its speeds and widths and records 0x6001; PERST and a hot reset also end sessions and containment,
a hot reset lets BIFURC and GEN_MAX act, PERST leaves the port in reset until PERST_DEASSERT. HOST_PORT_LINK_UP
outside reset stores speeds and widths with 0x6002 (of a port that is not bifurcated, one half of 16 lanes), and a
half below GEN_MAX or full width raises FS65 with 0x6003, one at both ends that condition; a port in reset does not
come up. PCIE_REFCLK_STOP takes down a port that is up in common-clock mode, and no other. REFCLK_LOSS raises FS13,
sets UNLOCKED and runs the AON copy at a free rate; REFCLK_RETURN ends FS13 and every quadrant counts on from the AON
copy. -/
def Obligations.FunctionsPortsAndClocksDoAsTheSpecSays : Prop :=
  (∀ (s : State) (slot : Slot) (fn : Fin 256), s.m.slotPresent slot = true →
    Completes (.functionD3hotEntry slot fn) s ((s.m.updFunc slot fn (fun f => { f with d3 := true })).pauseScans slot fn) ∧
    Completes (.busMasterEnableClear slot fn) s ((s.m.updFunc slot fn (fun f => { f with bme := false })).pauseScans slot fn) ∧
    ((s.m.func slot fn).bme = false → Completes (.busMasterEnableSet slot fn) s
      ((((s.m.vfSeen slot fn).updFunc slot fn (fun f => { f with bme := true })).unbar slot fn).releaseFn slot fn)) ∧
    ((s.m.func slot fn).bme = true → Completes (.busMasterEnableSet slot fn) s s.m) ∧
    (fn ≠ 0 → Completes (.flr slot fn) s ((s.m.resetFn slot fn).record 0x6030 (quadOfSlot slot) [slot.val, fn.val])) ∧
    Completes (.flr slot 0) s ((((s.m.resetFn slot 0).resetVfs slot).slotSessions slot).record 0x6030 (quadOfSlot slot) [slot.val, 0]) ∧
    Completes (.vfEnableClear slot) s ((s.m.resetVfs slot).record 0x6030 (quadOfSlot slot) [slot.val, 256])) ∧
  (∀ (s : State) (slot : Slot) (fn : Fin 256),
    ((s.m.func slot fn).d3 = true → Completes (.functionD0Return slot fn) s
      ((s.m.updFunc slot fn (fun f => { f with d3 := false, pmeSts := false })).releaseFn slot fn)) ∧
    ((s.m.func slot fn).d3 = false → Completes (.functionD0Return slot fn) s s.m)) ∧
  (∀ (m u v w : Mach) (slot fn : Nat), m.awake slot fn = true → u = m.updFunc slot fn (fun f => { f with late := true }) →
    v = (u.crsOf slot fn).foldl (fun (a : Mach) n => a.updCr n (fun c => { c with late := true })) u →
    w = ((u.crsOf slot fn).foldl (fun (a : Mach) n => a.drainCr n) v).evalFn slot fn →
    m.releaseFn slot fn = (w.wrsOf slot fn).foldl (fun (a : Mach) n => (a.updWr n (fun x => { x with db := x.db + 1 })).readyScan n) w) ∧
  (∀ (m u v : Mach) (slot fn : Nat), (m.func slot fn).late = true → m.awake slot fn = true →
    u = m.updFunc slot fn (fun f => { f with held := [], late := false }) → v = (m.crsOf slot fn).foldl Mach.evalCr u →
    ((m.crsOf slot fn).any (fun n => (m.cr n).any (fun c => c.late && c.xwait)) = true → m.evalFn slot fn = m) ∧
    ((m.crsOf slot fn).any (fun n => (m.cr n).any (fun c => c.late && c.xwait)) = false →
      m.evalFn slot fn = (m.func slot fn).held.foldl (fun (a : Mach) x => a.interrupt slot fn x) v)) ∧
  (∀ (m : Mach) (slot fn : Nat), m.awake slot fn = false → m.releaseFn slot fn = m) ∧
  (∀ (s : State) (slot : Slot) (fn : Fin 256), s.m.slotPresent slot = false →
    Completes (.functionD3hotEntry slot fn) s s.m ∧ Completes (.busMasterEnableSet slot fn) s s.m ∧
    Completes (.busMasterEnableClear slot fn) s s.m ∧ Completes (.flr slot fn) s s.m ∧ Completes (.vfEnableClear slot) s s.m) ∧
  (∀ (s : State) (hp : HostPort) (u v : Mach), u = ((s.m.resetSlot (2 * hp)).resetSlot (2 * hp + 1)) →
    v = ((((u.put Reg.HIF.SPEED_H0 0 hp).put Reg.HIF.WIDTH_H0 0 hp).put Reg.HIF.SPEED_H1 0 hp).put Reg.HIF.WIDTH_H1 0 hp).record
      0x6001 (hp.val / 2) [hp.val] →
    Completes (.hostPortReset hp .linkDown) s v ∧
    (∀ w : Mach, w = ((((v.slotSessions (2 * hp)).releaseSlot (2 * hp)).slotSessions (2 * hp + 1)).releaseSlot (2 * hp + 1)) →
      Completes (.hostPortReset hp .hot) s (w.applyBifurc hp) ∧
      Completes (.hostPortReset hp .perst) s { w with hif := { w.hif with perst := Tbl.set w.hif.perst hp true } })) ∧
  (∀ (s : State) (hp : HostPort) (ref : Bool), Completes (.perstDeassert hp ref) s ({ s.m with hif := { s.m.hif with
    perst := Tbl.set s.m.hif.perst hp false, common := Tbl.set s.m.hif.common hp ref } }.applyBifurc hp)) ∧
  (∀ (s : State) (hp : HostPort) (h0 h1 : HalfLink), Tbl.get s.m.hif.perst hp false = true →
    Completes (.hostPortLinkUp hp h0 h1) s s.m) ∧
  (∀ (s : State) (hp : HostPort) (h0 h1 : HalfLink), Tbl.get s.m.hif.perst hp false = false → s.m.isSet Reg.HIF.BIFURCATED hp = false →
    Completes (.hostPortLinkUp hp h0 h1) s ((((((((s.m.put Reg.HIF.SPEED_H0 h0.speed hp).put Reg.HIF.WIDTH_H0 h0.width hp).put
      Reg.HIF.SPEED_H1 0 hp).put Reg.HIF.WIDTH_H1 0 hp).record 0x6002 (hp.val / 2) [hp.val]).halfUp (2 * hp) h0
        (genOf (Tbl.get s.m.hif.gens hp 0)) 16).halfUp (2 * hp + 1) { speed := 0, width := 0 }
        (genOf (Tbl.get s.m.hif.gens hp 0)) 16))) ∧
  (∀ (s : State) (hp : HostPort) (h0 h1 : HalfLink), Tbl.get s.m.hif.perst hp false = false → s.m.isSet Reg.HIF.BIFURCATED hp = true →
    Completes (.hostPortLinkUp hp h0 h1) s ((((((((s.m.put Reg.HIF.SPEED_H0 h0.speed hp).put Reg.HIF.WIDTH_H0 h0.width hp).put
      Reg.HIF.SPEED_H1 h1.speed hp).put Reg.HIF.WIDTH_H1 h1.width hp).record 0x6002 (hp.val / 2) [hp.val]).halfUp (2 * hp) h0
        (genOf (Tbl.get s.m.hif.gens hp 0)) 8).halfUp (2 * hp + 1) h1 (genOf (Tbl.get s.m.hif.gens hp 0)) 8))) ∧
  (∀ (m : Mach) (slot gen full : Nat) (h : HalfLink), h.speed = 0 → m.halfUp slot h gen full = m) ∧
  (∀ (m : Mach) (slot gen full : Nat) (h : HalfLink), h.speed ≠ 0 →
    (h.speed < gen ∨ h.width < full → m.halfUp slot h gen full = (m.raise 65 (.slot slot) (16 * h.speed + h.width)
      (quadOfSlot slot)).record 0x6003 (quadOfSlot slot) [slot, h.speed, h.width]) ∧
    (gen ≤ h.speed → full ≤ h.width → m.halfUp slot h gen full = m.endCondition 65 (.slot slot))) ∧
  (∀ (s : State) (hp : HostPort),
    (Tbl.get s.m.hif.common hp false = true → s.m.get Reg.HIF.SPEED_H0 hp ≠ 0 ∨ s.m.get Reg.HIF.SPEED_H1 hp ≠ 0 →
      Completes (.pcieRefclkStop hp) s (s.m.resetPort hp .linkDown)) ∧
    (Tbl.get s.m.hif.common hp false = false ∨ s.m.get Reg.HIF.SPEED_H0 hp = 0 ∧ s.m.get Reg.HIF.SPEED_H1 hp = 0 →
      Completes (.pcieRefclkStop hp) s s.m)) ∧
  (∀ s : State,
    (s.m.tim.osc = none → Completes .refclkLoss s (({ s.m with free := s.m.free + 1, tim := { s.m.tim with
      osc := some (oscillatorRate s.m.free), everLocked := false, goodRun := 0 } }.put Reg.TIM.STATE 0).raise 13 .none 0 4)) ∧
    (s.m.tim.osc ≠ none → Completes .refclkLoss s s.m ∧ Completes .refclkReturn s ({ s.m with tim := { s.m.tim with
      osc := none, hgt := { q0 := s.m.tim.aon, q1 := s.m.tim.aon, q2 := s.m.tim.aon, q3 := s.m.tim.aon } } }.endCondition 13 .none)) ∧
    (s.m.tim.osc = none → Completes .refclkReturn s s.m))

/-- PD_LOAD, PD_DISABLE, VMID_LOAD, VMID_DISABLE and INV_GO store their ERR; where it is not 0 nothing else changes.
PD_LOAD then loads the PD from the staging fields; PD_DISABLE, of a PD loaded or not, starts an implicit PD_ALL
invalidation and takes the PD out; VMID_LOAD loads, VMID_DISABLE removes. INV_GO starts an invalidation of the scope
and target: every covered entry leaves every cache, walks in flight stop being cacheable, and the walks and reads it
waits for are those in flight. INVALIDATION_COMPLETE, once these have ended and no waiting access still holds a
covered translation, removes it and counts it, and before that does nothing. A walk read's completion goes on with the
entry it read: next read, translation or fault; one that is not outstanding is ignored. As Ladybird's period ends
LADYBIRD_PERIOD does nothing with AUDIT_PERIOD 0, else each quadrant owes another batch, and the next period is
AUDIT_PERIOD, at most 1,000 ms. AUDIT_COMPARISON compares a fresh walk with a still cached translation, and reports a
difference once (MISMATCHES, FS70, 0x6102). XLT_CNT_CLR clears the slot's ten counters. -/
def Obligations.TranslationCommandsWalksAndAuditsDoAsFileSevenSays : Prop :=
  (∀ (s : State) (r : Requester) (n : Nat) (u v : Mach), s.m.passes r Reg.XLT.PD_CMD n = true → u = s.m.acted r Reg.XLT.PD_CMD 1 →
    v = u.put Reg.XLT.PD_ERR (u.pdLoadErr r.slotOf n) n →
    (u.pdLoadErr r.slotOf n ≠ 0 → Completes (.pdLoad r) s v) ∧
    (u.pdLoadErr r.slotOf n = 0 → Completes (.pdLoad r) s { v with xlt := { v.xlt with pds := (Tbl.set v.xlt.pds n
      { slot := r.slotOf, s1En := v.isSet Reg.XLT.S1_EN n, s1Root := v.get64 Reg.XLT.S1_ROOT_LO Reg.XLT.S1_ROOT_HI n,
        vmid := v.get Reg.XLT.PD_VMID n, func := v.get Reg.XLT.PD_FUNC n, super_ := v.isSet Reg.XLT.PD_SUPER n,
        wxExcl := v.isSet Reg.XLT.W_X_EXCL n }) } })) ∧
  (∀ (s : State) (r : Requester) (n : Nat) (u v : Mach), s.m.passes r Reg.XLT.PD_CMD n = true → u = s.m.acted r Reg.XLT.PD_CMD 2 →
    v = u.put Reg.XLT.PD_ERR (u.pdErr r.slotOf n) n →
    (u.pdErr r.slotOf n ≠ 0 → Completes (.pdDisable r) s v) ∧
    (u.pdErr r.slotOf n = 0 → ∀ w : Mach, w = v.newId.2.invalidate
        { id := v.newId.1, slot := r.slotOf, fn := r.fnKey, scope := 0, target := n, addr := 0, pages := 0, walks := [], reads := [], implicit := true } →
      Completes (.pdDisable r) s { w with xlt := { w.xlt with pds := Tbl.del w.xlt.pds n } })) ∧
  (∀ (s : State) (r : Requester) (n : Nat) (u : Mach), s.m.passes r Reg.XLT.VMID_CMD n = true → u = s.m.acted r Reg.XLT.VMID_CMD 1 →
    (∀ v, Tbl.find u.xlt.vmids n = some v → v.slot ≠ r.slotOf → Completes (.vmidLoad r) s (u.put Reg.XLT.VMID_ERR 4 n)) ∧
    ((Tbl.find u.xlt.vmids n).all (fun v => v.slot == r.slotOf) = true →
      (u.get Reg.XLT.S2_ROOT_LO n % 4096 ≠ 0 → Completes (.vmidLoad r) s (u.put Reg.XLT.VMID_ERR 1 n)) ∧
      (∀ v : Mach, u.get Reg.XLT.S2_ROOT_LO n % 4096 = 0 → v = u.put Reg.XLT.VMID_ERR 0 n →
        Completes (.vmidLoad r) s { v with xlt := { v.xlt with vmids := (Tbl.set v.xlt.vmids n
          { slot := r.slotOf, s2En := v.isSet Reg.XLT.S2_EN n, s2Root := v.get64 Reg.XLT.S2_ROOT_LO Reg.XLT.S2_ROOT_HI n }) } }))) ∧
  (∀ (s : State) (r : Requester) (n : Nat) (u : Mach), s.m.passes r Reg.XLT.VMID_CMD n = true →
    u = s.m.acted r Reg.XLT.VMID_CMD 2 →
    (∀ v, Tbl.find u.xlt.vmids n = some v → v.slot ≠ r.slotOf → Completes (.vmidDisable r) s (u.put Reg.XLT.VMID_ERR 4 n)) ∧
    ((Tbl.find u.xlt.vmids n).all (fun v => v.slot == r.slotOf) = true →
      (u.xlt.pds.vals.any (fun p => p.vmid == n) = true → Completes (.vmidDisable r) s (u.put Reg.XLT.VMID_ERR 2 n)) ∧
      (u.xlt.pds.vals.any (fun p => p.vmid == n) = false → Completes (.vmidDisable r) s
        { u.put Reg.XLT.VMID_ERR 0 n with xlt := { u.xlt with vmids := Tbl.del u.xlt.vmids n } }))) ∧
  (∀ (s : State) (r : Requester) (k e : Nat) (u v : Mach), s.m.passes r Reg.XLT.INV_GO k = true → u = s.m.acted r Reg.XLT.INV_GO 1 →
    e = u.invErr r.slotOf r.fnKey (u.get Reg.XLT.INV_SCOPE k) (u.get Reg.XLT.INV_TARGET k) → v = u.put Reg.XLT.INV_ERR e k →
    (e ≠ 0 → Completes (.invGo r) s v) ∧
    (e = 0 → Completes (.invGo r) s (v.newId.2.invalidate
      { id := v.newId.1, slot := r.slotOf, fn := r.fnKey, scope := u.get Reg.XLT.INV_SCOPE k, target := u.get Reg.XLT.INV_TARGET k
        addr := v.newId.2.get64 Reg.XLT.INV_ADDR_LO Reg.XLT.INV_ADDR_HI k / 4096 * 4096
        pages := max 1 (v.newId.2.get Reg.XLT.INV_PAGES k), walks := [], reads := [], implicit := false }))) ∧
  (∀ (m : Mach) (i : Inval) (j : Nat × List WalkEntry),
    (m.invalidate i).xlt.walks = (m.purge (m.covered i)).xlt.walks.map (fun (w : Walk) =>
      if w.quad == quadOfSlot i.slot && w.result.isNone then
        { w with nocache := match w.audit with | some t => w.nocache || m.covered i t | none => true }
      else match w.audit with | some t => { w with nocache := w.nocache || m.covered i t } | none => w) ∧
    (j ∈ (m.invalidate i).xlt.walkCache → ∀ e ∈ j.2, m.coveredWalk i e = false)) ∧
  (∀ (s : State) (slot : Slot) (id : Nat),
    (∀ i, Tbl.find s.m.xlt.invs id = some i → i.slot = slot.val → s.m.invEnded i = true → Completes (.invalidationComplete slot id) s
      ({ s.m with xlt := { s.m.xlt with invs := Tbl.del s.m.xlt.invs id } }.bump Reg.XLT.INVS 1 slot)) ∧
    (∀ i, Tbl.find s.m.xlt.invs id = some i → i.slot ≠ slot.val ∨ s.m.invEnded i = false →
      Completes (.invalidationComplete slot id) s s.m) ∧
    (Tbl.find s.m.xlt.invs id = none → Completes (.invalidationComplete slot id) s s.m)) ∧
  (∀ (m : Mach) (i : Inval), m.invEnded i = true ↔
    m.stillHolds i = false ∧ (∀ w ∈ i.walks, m.xlt.walks.any (fun (x : Walk) => x.id == w && x.result.isNone) = false) ∧
    (∀ r ∈ i.reads, m.hif.reads.any (fun (x : HostRead) => x.id == r) = false)) ∧
  (∀ (s : State) (id : Nat) (e : BitVec 64),
    (∀ r wid w, s.m.hif.reads.find? (fun r => r.id == id && r.sent) = some r → r.walk = some wid →
      s.m.xlt.walks.find? (fun w => w.id == wid) = some w →
      exec (.walkReadCompletion id e) s = .next (State.goExports { s with
        m := ((s.m.dropRead id).walkEntry w e).1.walkOn w ((s.m.dropRead id).walkEntry w e).2 })) ∧
    (∀ r, s.m.hif.reads.find? (fun r => r.id == id && r.sent) = some r →
      (r.walk.bind fun wid => s.m.xlt.walks.find? (fun w => w.id == wid)) = none → Completes (.walkReadCompletion id e) s s.m) ∧
    (s.m.hif.reads.find? (fun r => r.id == id && r.sent) = none → Completes (.walkReadCompletion id e) s s.m)) ∧
  (∀ (s : State) (u : Mach), u = s.m.elapseTo s.m.xlt.auditDue →
    (u.get Reg.XLT.AUDIT_PERIOD = 0 → Completes .ladybirdPeriod s u) ∧
    (u.get Reg.XLT.AUDIT_PERIOD ≠ 0 → Completes .ladybirdPeriod s ((List.range 4).foldl (fun (m : Mach) q =>
      { m with xlt := { m.xlt with
        auditing := Tbl.modify m.xlt.auditing q 0 (· + max 16 (u.get Reg.XLT.AUDIT_BATCH)) } }.auditMore q)
      { u with xlt := { u.xlt with auditDue := u.clk + min 1000 (u.get Reg.XLT.AUDIT_PERIOD) * 2000000 } }))) ∧
  (∀ (s : State) (id : Nat), s.m.xlt.walks.find? (fun w => w.id == id && w.audit.isSome && w.result.isSome) = none →
    Completes (.auditComparison id) s s.m) ∧
  (∀ (s : State) (id : Nat) (w : Walk) (t : Trans) (x : Option Trans × Option XFault) (u v : Mach),
    s.m.xlt.walks.find? (fun w => w.id == id && w.audit.isSome && w.result.isSome) = some w → w.audit = some t → w.result = some x →
    u = { s.m with xlt := { s.m.xlt with walks := s.m.xlt.walks.filter (fun (x : Walk) => x.id != id) } } →
    v = u.bump Reg.XLT.AUDITED 1 w.pd.slot →
    (w.nocache = true ∨ (Tbl.get u.xlt.cache w.quad []).any (fun c => c.2 == t) = false →
      Completes (.auditComparison id) s (u.auditMore w.quad)) ∧
    (w.nocache = false → (Tbl.get u.xlt.cache w.quad []).any (fun c => c.2 == t) = true →
      (auditDiffers t x = false → Completes (.auditComparison id) s (v.auditMore w.quad)) ∧
      (auditDiffers t x = true → Completes (.auditComparison id) s ((v.auditReport w.quad w.pd.slot t x).auditMore w.quad)))) ∧
  (∀ (s : State) (r : Requester) (i : Nat), s.m.passes r Reg.XLT.CNT_CLR i = true → Completes (.xltCntClr r) s
    ((s.m.reach r Reg.XLT.CNT_CLR).clear [Reg.XLT.FC_MISSED, Reg.XLT.WALKS, Reg.XLT.WALK_READS, Reg.XLT.UTLB_HITS, Reg.XLT.QC_HITS, Reg.XLT.XLT_FAULTS,
      Reg.XLT.INVS, Reg.XLT.AUDITED, Reg.XLT.MISMATCHES, Reg.XLT.DEV_ABORTS] r.slotOf))

/-- With no live RX half, a packet without OPEN is dropped with an EPOCH_NAK, and one with OPEN creates the half, or is
refused with NAK reason 3 where no context entry is free. With an RX half of the same EPOCH and OPEN_TS the packet
passes and nothing changes. Of another instance, one whose INJ_TS is not ahead of LAST_RX_TS is dropped and counted in
STALE_DROP; one ahead without OPEN is dropped with an EPOCH_NAK; one ahead with OPEN abandons the old half, records
event 0x7001, counts a replacement and creates the new. A packet that passed is a duplicate behind EPSN or with its
bit set (DUP_DROP), is dropped uncounted at or beyond EPSN + 2,048, and otherwise goes on; its engine's SEQ_AHEAD and
SEQ_DUP show how it stands. A target function that has been reset discards it, and one that is not awake answers NAK
reason 2, in D3hot after PME. The first packet of a message needs a message slot, or is refused with NAK reason 3
(FS81, 0x7003), and a WRITE_FLAG that would wait needs a place to be held, or is dropped (FS81, 0x7003). One that its
RX half drops is answered by an ACK at once for ACK_REQ. A window admits a message exactly if it is VALID, of the
slot, its peer filter admits the source, it grants the right, the range ends within it, and a flag is 8 aligned bytes.
A message failing this with its first packet is faulted with WINDOW_INVALID. An absent slot answers NAK reason 4. An
admitted packet whose fields are not as its table says, or do not agree with its message's, is a protocol error (FS82,
0x7030) and faults its message; one of a faulted message only finishes. A packet for a module whose engines take none
waits at local delivery, one for another module or while links do not run does nothing, and one that is not admitted
leaves the state that its checks left. -/
def Obligations.PacketsAreCheckedAgainstTheirInstance : Prop :=
  (∀ (m : Mach) (k : Packet) (h : RsxHdr),
    (m.liveRx (pktCx k) = none → h.opn = false → m.instanceCheck k h = ((m.epochNak k h).touch (pktCx k), false)) ∧
    (∀ u, m.liveRx (pktCx k) = none → h.opn = true → m.getCtx (pktSlot k) k.hdr.src = (u, true) →
      m.instanceCheck k h = (u.createRx k h, true)) ∧
    (∀ u, m.liveRx (pktCx k) = none → h.opn = true → m.getCtx (pktSlot k) k.hdr.src = (u, false) →
      m.instanceCheck k h = (u.sendNak (pktSlot k) k.hdr.src h.epoch h.openTs h.psn 3, false)) ∧
    (∀ r, m.liveRx (pktCx k) = some r →
      (r.epoch = h.epoch → r.openTs = h.openTs → m.instanceCheck k h = (m, true)) ∧
      (¬ (r.epoch = h.epoch ∧ r.openTs = h.openTs) → ahead32 k.hdr.injTs r.lastTs = false →
        m.instanceCheck k h = (m.bump Reg.CXN.STALE_DROP 1 (pktSlot k), false)) ∧
      (¬ (r.epoch = h.epoch ∧ r.openTs = h.openTs) → ahead32 k.hdr.injTs r.lastTs = true →
        (h.opn = false → m.instanceCheck k h = ((m.epochNak k h).touch (pktCx k), false)) ∧
        (h.opn = true → m.instanceCheck k h = ((((m.abandonRx (pktCx k)).record 0x7001 (quadOfSlot (pktSlot k))
          [pktSlot k, k.hdr.src]).bump Reg.CXN.REPLACES 1 (pktSlot k)).createRx k h, true))))) ∧
  (∀ (m : Mach) (k : Packet) (h : RsxHdr) (r : RxHalf) (u : Mach), u = m.flag (m.rxeFor (pktCx k))
      (if behind32 h.psn r.epsn then [18] else if h.psn = r.epsn then [] else [17]) [17, 18] →
    (behind32 h.psn r.epsn = true ∨ (Tbl.find r.bits h.psn).isSome = true →
      m.bitmapCheck k h r = (u.bump Reg.CXN.DUP_DROP 1 (pktSlot k), false)) ∧
    (behind32 h.psn r.epsn = false → Tbl.find r.bits h.psn = none →
      (2048 ≤ sub32 h.psn r.epsn → m.bitmapCheck k h r = (u, false)) ∧
      (sub32 h.psn r.epsn < 2048 → m.bitmapCheck k h r = (u, true)))) ∧
  (∀ (m : Mach) (k : Packet) (h : RsxHdr),
    (m.target k h = none → m.targetCheck k h = (m, true)) ∧
    (∀ t f, m.target k h = some (t, f) → (m.func t f).barred = true → m.targetCheck k h = (m, false)) ∧
    (∀ t f, m.target k h = some (t, f) → (m.func t f).barred = false →
      (m.awake t f = true → m.targetCheck k h = (m, true)) ∧
      (m.awake t f = false → m.targetCheck k h =
        ((if (m.func t f).d3 then m.pme t f else m).sendNak (pktSlot k) k.hdr.src h.epoch h.openTs h.psn 2, false)))) ∧
  (∀ (m : Mach) (k : Packet) (h : RsxHdr) (win off : Nat), m.windowGood k h win off = true ↔
    ∃ w, Tbl.find m.cxn.windows win = some w ∧ w.valid = true ∧ w.slot = k.hdr.dst % 16 ∧
      (w.peer = none ∨ w.peer = some k.hdr.src) ∧ (k.hdr.kind = 3 → w.rd = true) ∧ (k.hdr.kind ≠ 3 → w.wr = true) ∧
      off + h.totalLen ≤ w.len ∧ (k.hdr.kind = 2 → h.totalLen = 8 ∧ (w.base + off) % 8 = 0)) ∧
  (∀ (m : Mach) (k : Packet) (h : RsxHdr) (win off : Nat), h.op = .window win off →
    (m.windowGood k h win off = false → m.validate k h true = (m.faultRx (pktCx k) h.msn 0x0D 0 true, none)) ∧
    (∀ w u, u = m.updRxMsg (pktCx k) h.msn (fun x => { x with win := some win }) → m.windowGood k h win off = true →
      Tbl.find u.cxn.windows win = some w → m.validate k h true = (u, some (w, off)))) ∧
  (∀ (m : Mach) (k : Packet) (h : RsxHdr),
    (m.slotPresent (pktSlot k) = false →
      m.takeIn k h = (m.sendNak (pktSlot k) k.hdr.src h.epoch h.openTs h.psn 4, false)) ∧
    (∀ u, m.slotPresent (pktSlot k) = true → (m.useCtx (m.rxeFor (pktCx k)) (pktCx k)).instanceCheck k h = (u, false) →
      m.takeIn k h = (u, false)) ∧
    (∀ u r v, m.slotPresent (pktSlot k) = true → (m.useCtx (m.rxeFor (pktCx k)) (pktCx k)).instanceCheck k h = (u, true) →
      u.rxOf (pktCx k) = some r →
      (u.takeRx k h r = (v, false) → m.takeIn k h = (if h.ackReq then v.sendAck (pktCx k) else v, false)) ∧
      (u.takeRx k h r = (v, true) → m.takeIn k h = (v, true)))) ∧
  (∀ (m : Mach) (k : Packet) (h : RsxHdr) (r : RxHalf) (u v : Mach),
    (m.bitmapCheck k h r = (u, false) → m.takeRx k h r = (u, false)) ∧
    (m.bitmapCheck k h r = (u, true) → u.targetCheck k h = (v, false) → m.takeRx k h r = (v, false)) ∧
    (m.bitmapCheck k h r = (u, true) → u.targetCheck k h = (v, true) → m.takeRx k h r = v.slotCheck k h r)) ∧
  (∀ (m : Mach) (k : Packet) (h : RsxHdr) (r : RxHalf) (s q : Nat), s = pktSlot k → q = quadOfSlot s →
    (r.msgs.any (fun (y : RxMsg) => y.msn == h.msn) = true → m.slotCheck k h r = (m, true)) ∧
    (r.msgs.any (fun (y : RxMsg) => y.msn == h.msn) = false → rxSlots ≤ r.msgs.length → m.slotCheck k h r =
      (((m.raise 81 .none 2 q).record 0x7003 q [s, k.hdr.src]).sendNak s k.hdr.src h.epoch h.openTs h.psn 3, false)) ∧
    (r.msgs.any (fun (y : RxMsg) => y.msn == h.msn) = false → r.msgs.length < rxSlots → k.hdr.kind = 2 →
      (r.finMsn ≠ h.msn → flagSlots ≤ m.flagsHeld q →
        m.slotCheck k h r = ((m.raise 81 .none 3 q).record 0x7003 q [s, k.hdr.src], false)) ∧
      (r.finMsn = h.msn ∨ m.flagsHeld q < flagSlots → m.slotCheck k h r = (m, true))) ∧
    (∀ u, r.msgs.any (fun (y : RxMsg) => y.msn == h.msn) = false → r.msgs.length < rxSlots → k.hdr.kind = 9 ∨ k.hdr.kind = 10 →
      u = m.passOrder (pktCx k) →
      (pktSound k h = false → m.slotCheck k h r = (m, true)) ∧
      (pktSound k h = true → u.rxOf (pktCx k) = none → m.slotCheck k h r = (u, false)) ∧
      (∀ x, pktSound k h = true → u.rxOf (pktCx k) = some x → m.slotCheck k h r = u.matCheck k h x)) ∧
    (r.msgs.any (fun (y : RxMsg) => y.msn == h.msn) = false → r.msgs.length < rxSlots →
      k.hdr.kind ≠ 2 → k.hdr.kind ≠ 9 → k.hdr.kind ≠ 10 → m.slotCheck k h r = (m, true))) ∧
  (∀ (s : State) (k : Packet) (h : RsxHdr) (u w : Mach), k.body = .rsx h → s.m.delivered k = some u → u.takeIn k h = (w, false) →
    Sequenced k s w.retryHeld) ∧
  (∀ (s : State) (k : Packet) (h : RsxHdr) (v : Mach) (x : RxMsg) (first : Bool) (cx i : Nat), k.body = .rsx h →
    s.m.admitted k h = some (v, x, first) → cx = pktCx k → i = v.rxInst cx →
    (pktSound k h = false ∨ pktAgrees x k h = false → ∀ u : Mach, u = ((v.raise 82 .none h.msn (quadOfSlot (pktSlot k))).record 0x7030
        (quadOfSlot (pktSlot k)) [pktSlot k, k.hdr.src, h.msn, h.psn]).faultRx cx h.msn 0x0B 3 true →
      (∀ mid, x.mat = some mid → Sequenced k s (((u.breakMat mid 0x0B 3).finPsn cx i h.psn).settled k h) ∧
        (0x0D ≤ k.hdr.kind → k.hdr.kind ≤ 0x0F → Completes (.writePacket k) s (((u.breakMat mid 0x0B 3).finPsn cx i h.psn).settled k h))) ∧
      (x.mat = none → Sequenced k s ((u.finPsn cx i h.psn).settled k h) ∧
        (0x0D ≤ k.hdr.kind → k.hdr.kind ≤ 0x0F → Completes (.writePacket k) s ((u.finPsn cx i h.psn).settled k h)))) ∧
    (pktSound k h = true → pktAgrees x k h = true → x.fault ≠ none → x.mat = none →
      Sequenced k s ((v.finPsn cx i h.psn).settled k h))) ∧
  (∀ (s : State) (k : Packet) (h : RsxHdr), k.body = .rsx h → s.m.netModes = true → k.hdr.dst / 16 = s.m.ownDa →
    s.m.kindHeld k.hdr.kind = true →
    (k ∉ s.m.rte.inbox → ∀ u, u = { s.m with rte := { s.m.rte with inbox := s.m.rte.inbox ++ [k] } } →
      Sequenced k s u ∧ Unsequenced k s u) ∧
    (k ∈ s.m.rte.inbox → Sequenced k s s.m ∧ Unsequenced k s s.m)) ∧
  (∀ (s : State) (k : Packet), s.m.netModes = false ∨ k.hdr.dst / 16 ≠ s.m.ownDa → Sequenced k s s.m ∧ Unsequenced k s s.m)

/-- Take an accepted packet. A WRITE whose message its window admits is placed at base + WIN_OFFSET + OFFSET under the
window's PD, a WRITE_FLAG is written if every lower MSN has finished and is held otherwise, and a READ_REQ is answered
by one READ_RSP message of its length whose data is read from the window. A READ_RSP is placed at the GET's LOCAL_ADDR
+ OFFSET, or discarded where no GET awaits it. A RESULT is counted and kept for its message, and a GET, or a receive
that pulls, ends with it at once. With POISON the message faults with HOST_DATA_ERROR and nothing is placed; a message
whose window does not allow it places nothing. In each case the packet's order, EPSN, ACK and loss check follow.
Placing nothing finishes the packet; issued writes finish it; a translation that must wait leaves it; a translation
fault ends a GET with LOCAL_XLT_FAULT, or the message with REMOTE_ACCESS_FAULT. A held flag is written once its last
predecessor has finished, and not before; where the message before it faulted, the flag ends with the same status. -/
def Obligations.OneSidedPacketsArePlacedOnAcceptance : Prop :=
  (∀ (s : State) (k : Packet) (h : RsxHdr) (v : Mach) (x : RxMsg) (first : Bool) (cx i : Nat), k.body = .rsx h →
    s.m.accepted k h = some (v, x, first) → cx = pktCx k → i = v.rxInst cx →
    (∀ u, v.validate k h first = (u, none) →
      (k.hdr.kind = 1 → Completes (.writePacket k) s ((u.finPsn cx i h.psn).settled k h)) ∧
      (k.hdr.kind = 2 → Completes (.writeFlagPacket k) s ((u.finPsn cx i h.psn).settled k h)) ∧
      (k.hdr.kind = 3 → Completes (.readReqPacket k) s ((u.finPsn cx i h.psn).settled k h))) ∧
    (∀ u w off, v.validate k h first = (u, some (w, off)) →
      (k.hdr.kind = 1 →
        (h.poison = true → Completes (.writePacket k) s ((u.poisonRx cx i h.msn h.psn 1).settled k h)) ∧
        (h.poison = false → Completes (.writePacket k) s ((u.place cx i h.psn
          { slot := pktSlot k, func := w.func, pd := w.pd, va := w.base + off + h.offset, len := k.payload.length, kind := 5
            data := some k.payload, purpose := .place cx i h.psn }).settled k h))) ∧
      (k.hdr.kind = 2 →
        (h.poison = true → Completes (.writeFlagPacket k) s ((u.poisonRx cx i h.msn h.psn 2).settled k h)) ∧
        (∀ r y, h.poison = false → u.rxOf cx = some r → r.finMsn = h.msn →
          r.msgs.find? (fun (y : RxMsg) => y.msn == h.msn) = some y →
          Completes (.writeFlagPacket k) s ((u.writeFlag cx r y k.payload).settled k h)) ∧
        (∀ r, h.poison = false → u.rxOf cx = some r → r.finMsn ≠ h.msn → Completes (.writeFlagPacket k) s
          ((u.updRxMsg cx h.msn (fun x => { x with flag := some k.payload })).settled k h))) ∧
      (k.hdr.kind = 3 →
        (h.poison = true → Completes (.readReqPacket k) s ((u.poisonRx cx i h.msn h.psn 3).settled k h)) ∧
        (∀ z, h.poison = false → z = (u.needTx (pktSlot k) k.hdr.src).1 → Completes (.readReqPacket k) s
          (((z.newId.2.addMsg cx
            { uid := z.newId.1, kind := 4, total := h.totalLen, count := pktCount 4 h.totalLen, tc := 1,
              flow := z.newId.2.respFlow (pktSlot k) k.hdr.src, minOnly := false, op := .readRsp h.msn, queue := none,
              owner := .none, src := .host w.pd w.func (w.base + off) 6 false }).finPsn cx i h.psn).settled k h)))) ∧
    (∀ req, k.hdr.kind = 4 → h.op = .readRsp req →
      (h.poison = true → Completes (.readRspPacket k) s ((v.poisonRx cx i h.msn h.psn 4).settled k h)) ∧
      (h.poison = false → v.getOf cx req = none → Completes (.readRspPacket k) s ((v.finPsn cx i h.psn).settled k h)) ∧
      (∀ g, h.poison = false → v.getOf cx req = some g → Completes (.readRspPacket k) s ((v.place cx i h.psn
        { slot := pktSlot k, func := g.func, pd := g.pd, va := g.addr + h.offset, len := k.payload.length, kind := 3
          data := some k.payload, purpose := .place cx i h.psn }).settled k h))) ∧
    (∀ n st dt c u, k.hdr.kind = 8 → h.op = .result n st dt c →
      u = v.updTx cx (fun t => { t with faults := (t.faults + 1) % 65536 }) →
      ((v.txOf cx).bind (fun t => t.byMsn n) = none → Completes (.resultPacket k) s (((u.settleAcks cx).finPsn cx i h.psn).settled k h)) ∧
      (∀ y w, (v.txOf cx).bind (fun t => t.byMsn n) = some y → w = u.updMsg cx y.uid (fun x => { x with result := some (st, dt) }) →
        (∀ g, y.owner = .get g → Completes (.resultPacket k) s ((((w.endGet g st dt).settleAcks cx).finPsn cx i h.psn).settled k h)) ∧
        (∀ mid, y.owner = .recv mid → Completes (.resultPacket k) s
          (((((w.closeRecv mid st dt 0).dropMat mid).settleAcks cx).finPsn cx i h.psn).settled k h)) ∧
        (∀ ring seq, y.owner = .work ring seq → Completes (.resultPacket k) s (((w.settleAcks cx).finPsn cx i h.psn).settled k h)) ∧
        (y.owner = .none → Completes (.resultPacket k) s (((w.settleAcks cx).finPsn cx i h.psn).settled k h))))) ∧
  (∀ (m : Mach) (cx i psn : Nat) (op : HostOp),
    (op.len = 0 → m.place cx i psn op = m.finPsn cx i psn) ∧
    (∀ u, op.len ≠ 0 → m.hostAccess op = (u, .issued) → m.place cx i psn op = u.finPsn cx i psn) ∧
    (∀ u, op.len ≠ 0 → m.hostAccess op = (u, .waiting) → m.place cx i psn op = u) ∧
    (∀ u f, op.len ≠ 0 → m.hostAccess op = (u, .fault f) → u.rxOf cx = none → m.place cx i psn op = u) ∧
    (∀ u f r, op.len ≠ 0 → m.hostAccess op = (u, .fault f) → u.rxOf cx = some r →
      (r.inst ≠ i → m.place cx i psn op = u) ∧ (r.inst = i → r.byPsn psn = none → m.place cx i psn op = u.finPsn cx i psn)) ∧
    (∀ u f r x, op.len ≠ 0 → m.hostAccess op = (u, .fault f) → u.rxOf cx = some r → r.inst = i → r.byPsn psn = some x →
      (∀ req, x.op = .readRsp req → u.getOf cx req = none → m.place cx i psn op = u.finPsn cx i psn) ∧
      (∀ req g, x.op = .readRsp req → u.getOf cx req = some g →
        m.place cx i psn op = (u.endGet g.uid 0x02 f.detail).finPsn cx i psn) ∧
      (∀ win off, x.op = .window win off → m.place cx i psn op = (u.faultRx cx x.msn 0x01 f.detail true).finPsn cx i psn))) ∧
  (∀ (s : State) (cx msn : Nat),
    (s.m.rxOf cx = none → Completes (.flagRelease cx msn) s s.m) ∧
    (∀ r, s.m.rxOf cx = some r →
      (r.msgs.find? (fun (y : RxMsg) => y.msn == msn) = none → Completes (.flagRelease cx msn) s s.m) ∧
      (∀ x, r.msgs.find? (fun (y : RxMsg) => y.msn == msn) = some x →
        (x.flag = none ∨ r.finMsn ≠ msn → Completes (.flagRelease cx msn) s s.m) ∧
        (∀ b, x.flag = some b → r.finMsn = msn → Completes (.flagRelease cx msn) s (s.m.writeFlag cx r x b).retryHeld)))) ∧
  (∀ (m u : Mach) (cx : Nat) (r : RxHalf) (x : RxMsg) (data : List Byte), u = m.updRxMsg cx x.msn (fun x => { x with flag := none }) →
    (∀ st dt, Tbl.find r.faulted (sub32 x.msn 1) = some (st, dt) →
      m.writeFlag cx r x data = (u.faultRx cx x.msn st dt true).finPsn cx r.inst x.psn0) ∧
    (∀ win off w, Tbl.find r.faulted (sub32 x.msn 1) = none → x.op = .window win off → x.win.bind (Tbl.find u.cxn.windows) = some w →
      m.writeFlag cx r x data = u.place cx r.inst x.psn0
        { slot := cxSlot cx, func := w.func, pd := w.pd, va := w.base + off, len := data.length, kind := 5
          data := some data, purpose := .flagWrite cx r.inst x.psn0 }))

/-- Take an unsequenced packet that names the current TX instance. An ACK clears OPENING; one whose ACK_PSN is an
outstanding PSN sets UNA to ACK_PSN + 1, ROUNDS to 0 and the timer anew (or stops it with nothing outstanding), moves
the window, and settles what it covers; another only brings FAULT_CNT (where it names UNA - 1) and the window's
bounds. NAK reason 4 ends every message with BAD_ROUTE and closes the half; reason 1 of an outstanding PSN halves
CWND, not below 4,160, and starts a counted round there; reasons 2 and 3 of an outstanding PSN start an RNR delay of
RNR_DELAY for it and keep since when it has been refused; a NAK of no outstanding PSN changes nothing. An unsequenced
packet of another instance, or of an expired context, changes no connection. An EPOCH_NAK ends what has outlived
LIFETIME and resends the rest on a new instance, or past RETRY_MAX ends the work with RETRY_EXCEEDED, FS80 and event
0x7020. RTO_EXPIRY counts a timer round, records 0x7011, sets CWND to 4,160 under congestion control and goes back to
UNA. RNR_DELAY_EXPIRY goes back uncounted to the refused PSN. RNR_TIMEOUT, once a PSN has been refused for that long,
ends the work with RNR_TIMEOUT and records 0x7022. A timer that does not run does nothing. RSX_ACK_TIMER sends the ACK
that is due. LOSS_CHECK sends NAK reason 1 for EPSN once the packet above the hole is older than LAT_MAX and no NAK
for it is that young. -/
def Obligations.AcknowledgementsRefusalsAndTimersGovernASender : Prop :=
  (∀ (s : State) (k : Packet) (h : RsxHdr) (t : TxHalf) (v : Mach) (cx a d c : Nat) (u : Mach), s.m.answered k 5 h t v → cx = pktCx k →
    h.op = .ack a d c → u = v.updTx cx (fun t => { t with opening := false }) →
    (behind32 a t.una = true ∨ behind32 a t.nextPsn = false → Completes (.ackPacket k) s
      (((u.updTx cx (fun t' => { u.reclamp t' with
        lastCnt := if sub32 ((a + 1) % 4294967296) t.una = 0 && later16 c t'.lastCnt then c else t'.lastCnt })).settleAcks
        cx).pumpSend cx).retryHeld) ∧
    (behind32 a t.una = false → behind32 a t.nextPsn = true → Completes (.ackPacket k) s
      (((u.updTx cx (fun t' => u.window
        { t' with una := (a + 1) % 4294967296, rounds := 0, met := false, downOnly := true, lastCnt := c,
                  timer := if (a + 1) % 4294967296 = t'.nextPsn then none else some (u.clk + u.rto),
                  rnrHeld := t'.rnrHeld.filter (fun c => !behind32 c.1 ((a + 1) % 4294967296)) }
        (t.costSum t.una (sub32 ((a + 1) % 4294967296) t.una)) d)).settleAcks cx).pumpSend cx).retryHeld)) ∧
  (∀ (s : State) (k : Packet) (h : RsxHdr) (t : TxHalf) (v : Mach) (cx p reason : Nat), s.m.answered k 6 h t v → cx = pktCx k →
    h.op = .nak p reason →
    (reason = 4 → Completes (.nakPacket k) s ((v.endAll cx 0x03).closeTx cx).retryHeld) ∧
    (reason = 1 ∨ reason = 2 ∨ reason = 3 → t.outstanding p = false → Completes (.nakPacket k) s v.retryHeld) ∧
    (reason = 1 → t.outstanding p = true → Completes (.nakPacket k) s
      ((v.updTx cx (fun t => if v.isSet Reg.CXN.CC_EN then { t with cwnd := max (t.cwnd / 2) 4160 } else t)).goBack cx p true).retryHeld) ∧
    (reason = 2 ∨ reason = 3 → t.outstanding p = true → Completes (.nakPacket k) s
      (v.updTx cx (fun t => { t with
        rnrUntil := t.rnrUntil ++ [(v.clk + max 1 (v.get Reg.CXN.RNR_DELAY) * 2000, p)],
        rnrHeld := if (Tbl.find t.rnrHeld p).isSome then t.rnrHeld else Tbl.set t.rnrHeld p v.clk })).retryHeld)) ∧
  (∀ (s : State) (k : Packet) (h : RsxHdr) (t : TxHalf) (v : Mach) (cx : Nat), s.m.answered k 7 h t v → cx = pktCx k →
    (v.retryMax < t.rounds + 1 → Completes (.epochNakPacket k) s
      (((v.failTx cx 0x09).raise 80 .none (cxPeer cx) (cxQuad cx)).record 0x7020 (cxQuad cx) [cxSlot cx, cxPeer cx]).retryHeld) ∧
    (t.rounds + 1 ≤ v.retryMax → v.outlived t = [] → Completes (.epochNakPacket k) s (v.reopen cx (t.rounds + 1)).retryHeld) ∧
    (t.rounds + 1 ≤ v.retryMax → v.outlived t ≠ [] → Completes (.epochNakPacket k) s
      ((v.endOutlived cx (v.outlived t)).reopen cx (t.rounds + 1)).retryHeld)) ∧
  (∀ (s : State) (k : Packet) (h : RsxHdr) (u : Mach), k.body = .rsx h → s.m.delivered k = some u →
    (u.txOf (pktCx k) = none → Unsequenced k s u) ∧
    (∀ t v, u.txOf (pktCx k) = some t → v = u.useCtx (u.rxeFor (pktCx k)) (pktCx k) →
      t.epoch ≠ h.epoch ∨ t.openTs ≠ h.openTs ∨ v.ctxGone (pktCx k) = true → Unsequenced k s v)) ∧
  (∀ (s : State) (cx : Nat), s.m.txOf cx = none →
    Completes (.rtoExpiry cx) s s.m ∧ Completes (.rnrDelayExpiry cx) s s.m ∧ Completes (.rnrTimeout cx) s s.m) ∧
  (∀ (s : State) (cx : Nat) (t : TxHalf), s.m.txOf cx = some t →
    (t.timer = none → Completes (.rtoExpiry cx) s s.m) ∧ (t.rnrUntil = [] → Completes (.rnrDelayExpiry cx) s s.m) ∧
    (t.heldLongest = none → Completes (.rnrTimeout cx) s s.m) ∧
    (∀ due u, t.timer = some due → u = ((s.m.elapseTo due).bump Reg.CXN.TIMER_ROUNDS 1 (cxSlot cx)).record 0x7011 (cxQuad cx)
        [cxSlot cx, cxPeer cx, t.una] →
      Completes (.rtoExpiry cx) s
        ((u.updTx cx (fun t => if u.isSet Reg.CXN.CC_EN then { t with cwnd := 4160 } else t)).goBack cx t.una true).retryHeld) ∧
    (∀ due p rest u, t.rnrUntil = (due, p) :: rest → u = (s.m.elapseTo due).updTx cx (fun t => { t with rnrUntil := rest }) →
      (t.una = t.nextPsn → Completes (.rnrDelayExpiry cx) s (u.pumpSend cx)) ∧
      (t.una ≠ t.nextPsn → Completes (.rnrDelayExpiry cx) s (u.goBack cx p false).retryHeld)) ∧
    (∀ since, t.heldLongest = some since → Completes (.rnrTimeout cx) s
      (((s.m.elapseTo (since + clamp 1 60000 (s.m.get Reg.CXN.RNR_TIMEOUT) * 2000000)).failTx cx 0x07).record 0x7022 (cxQuad cx)
        [cxSlot cx, cxPeer cx]).retryHeld)) ∧
  (∀ (s : State) (cx : Nat), s.m.rxOf cx = none → Completes (.rsxAckTimer cx) s s.m ∧ Completes (.lossCheck cx) s s.m) ∧
  (∀ (s : State) (cx : Nat) (r : RxHalf), s.m.rxOf cx = some r →
    (r.ackOld = none → r.ackDone = none → Completes (.rsxAckTimer cx) s s.m) ∧
    (r.aboveHole = none → Completes (.lossCheck cx) s s.m) ∧
    (∀ a, r.ackOld = some a → r.ackDone = none → Completes (.rsxAckTimer cx) s ((s.m.elapseTo a).sendAck cx)) ∧
    (∀ b, r.ackOld = none → r.ackDone = some b → Completes (.rsxAckTimer cx) s ((s.m.elapseTo b).sendAck cx)) ∧
    (∀ a b, r.ackOld = some a → r.ackDone = some b → Completes (.rsxAckTimer cx) s ((s.m.elapseTo (min a b)).sendAck cx)) ∧
    (∀ ts u, r.aboveHole = some ts → u = s.m.elapseNs (s.m.latMax + 1 - sub32 (s.m.stamp (cxQuad cx)) ts) →
      (r.nakFor ≠ some r.epsn → Completes (.lossCheck cx) s (u.lossCheck cx)) ∧
      (r.nakFor = some r.epsn → Completes (.lossCheck cx) s ((u.elapseTo (r.nakAt + 2 * u.latMax)).lossCheck cx)))) ∧
  (∀ (m : Mach) (cx : Nat) (r : RxHalf) (ts : Nat), m.rxOf cx = some r → r.aboveHole = some ts →
    m.lossCheck cx = if m.latMax < sub32 (m.stamp (cxQuad cx)) ts ∧ (r.nakFor ≠ some r.epsn ∨ r.nakAt + 2 * m.latMax ≤ m.clk) then
      (m.updRx cx (fun r => { r with nakFor := some r.epsn, nakAt := m.clk })).sendNak (cxSlot cx) (cxPeer cx) r.epoch r.openTs r.epsn 1
      else m) ∧
  (∀ (m : Mach) (cx p : Nat) (counted : Bool) (t : TxHalf) (n : Nat) (down : Bool), m.txOf cx = some t →
    n = (if counted then t.rounds + 1 else t.rounds) → down = (if t.rounds = 0 then t.downOnly else t.downOnly && t.met) →
    (m.retryMax < n → m.goBack cx p counted = ((m.failTx cx (if down && t.met then 0x03 else 0x09)).raise 80 .none (cxPeer cx)
      (cxQuad cx)).record 0x7020 (cxQuad cx) [cxSlot cx, cxPeer cx]) ∧
    (n ≤ m.retryMax → m.outlived t = [] → m.goBack cx p counted = (m.updTx cx (fun t => { t with
      rounds := n, downOnly := down, met := false, rp := some (t.roundFrom p), timer := some (m.clk + m.rto) })).pumpSend cx) ∧
    (n ≤ m.retryMax → m.outlived t ≠ [] → m.goBack cx p counted = (m.endOutlived cx (m.outlived t)).reopen cx 0))

/-- WIN_CREATE stores WIN_ERR: 4 for another slot's window, 3 for a window not FREE, 1 for a length of 0 or beyond 2^48, 2
for a PD that is not enabled or of another slot. With WIN_ERR 0 the window becomes VALID with the staged PD, base,
length, rights and peer filter, and the PD's function. WIN_DISABLE of another slot's window stores 4 and of one that
is not VALID stores 5; of a VALID one it stores 0 and the window admits no further message. CTX_LOOKUP clears the
shown fields; for a live context of the function's slot with CTX_PEER it then shows FOUND 1, whether it is quiescent,
and the halves it has. CNT_CLR clears the slot's thirteen counters. -/
def Obligations.WindowsContextsAndTheirRegistersDoAsFileEightSays : Prop :=
  (∀ (m : Mach) (slot n : Nat),
    (∀ w, Tbl.find m.cxn.windows n = some w → m.winErr slot n = if w.slot = slot then 3 else 4) ∧
    (Tbl.find m.cxn.windows n = none →
      (m.get64 Reg.CXN.WIN_LEN_LO Reg.CXN.WIN_LEN_HI n = 0 ∨ 2 ^ 48 < m.get64 Reg.CXN.WIN_LEN_LO Reg.CXN.WIN_LEN_HI n →
        m.winErr slot n = 1) ∧
      (m.get64 Reg.CXN.WIN_LEN_LO Reg.CXN.WIN_LEN_HI n ≠ 0 → m.get64 Reg.CXN.WIN_LEN_LO Reg.CXN.WIN_LEN_HI n ≤ 2 ^ 48 →
        (Tbl.find m.xlt.pds (m.get Reg.CXN.WIN_PD n) = none → m.winErr slot n = 2) ∧
        (∀ p, Tbl.find m.xlt.pds (m.get Reg.CXN.WIN_PD n) = some p → m.winErr slot n = if p.slot = slot then 0 else 2)))) ∧
  (∀ (s : State) (r : Requester) (n : Nat) (u : Mach), s.m.passes r Reg.CXN.WIN_CMD n = true → u = s.m.acted r Reg.CXN.WIN_CMD 1 →
    (u.winErr r.slotOf n ≠ 0 → Completes (.winCreate r) s (u.put Reg.CXN.WIN_ERR (u.winErr r.slotOf n) n)) ∧
    (∀ (v : Mach), u.winErr r.slotOf n = 0 → v = u.put Reg.CXN.WIN_ERR 0 n →
      (∀ p, Tbl.find v.xlt.pds (v.get Reg.CXN.WIN_PD n) = some p →
        Completes (.winCreate r) s { v with cxn := { v.cxn with windows := (Tbl.set v.cxn.windows n
          { slot := r.slotOf, pd := v.get Reg.CXN.WIN_PD n, func := p.func, base := v.get64 Reg.CXN.WIN_BASE_LO Reg.CXN.WIN_BASE_HI n,
            len := v.get64 Reg.CXN.WIN_LEN_LO Reg.CXN.WIN_LEN_HI n, rd := v.isSet Reg.CXN.RD n, wr := v.isSet Reg.CXN.WR n,
            atm := v.isSet Reg.CXN.AT n, valid := true,
            peer := if v.isSet Reg.CXN.PEER_ANY n then none else some (v.get Reg.CXN.WIN_PEER n) }) } }))) ∧
  (∀ (s : State) (r : Requester) (n : Nat) (u : Mach), s.m.passes r Reg.CXN.WIN_CMD n = true → u = s.m.acted r Reg.CXN.WIN_CMD 2 →
    (Tbl.find u.cxn.windows n = none → Completes (.winDisable r) s (u.put Reg.CXN.WIN_ERR 5 n)) ∧
    (∀ w, Tbl.find u.cxn.windows n = some w →
      (w.slot ≠ r.slotOf → Completes (.winDisable r) s (u.put Reg.CXN.WIN_ERR 4 n)) ∧
      (w.slot = r.slotOf → w.valid = false → Completes (.winDisable r) s (u.put Reg.CXN.WIN_ERR 5 n)) ∧
      (∀ v : Mach, w.slot = r.slotOf → w.valid = true → v = u.put Reg.CXN.WIN_ERR 0 n → Completes (.winDisable r) s
        ({ v with cxn := { v.cxn with windows := (Tbl.set v.cxn.windows n { w with valid := false }) } }.settleWindow n)))) ∧
  (∀ (s : State) (r : Requester) (i cx : Nat) (m u : Mach), s.m.passes r Reg.CXN.CTX_LOOKUP i = true →
    m = s.m.acted r Reg.CXN.CTX_LOOKUP 1 → cx = cxKey r.slotOf (m.get Reg.CXN.CTX_PEER i) →
    u = m.clear [Reg.CXN.FOUND, Reg.CXN.OPENING, Reg.CXN.QUIESCENT, Reg.CXN.ROUNDS, Reg.CXN.TX_EP, Reg.CXN.RX_EP,
      Reg.CXN.CTX_UNA, Reg.CXN.CTX_NEXT, Reg.CXN.CTX_EPSN, Reg.CXN.CTX_CWND] i →
    (m.ctx cx = none → Completes (.ctxLookup r) s u) ∧
    (∀ c, m.ctx cx = some c → m.ctxExpired cx c = true → Completes (.ctxLookup r) s u) ∧
    (∀ c v, m.ctx cx = some c → m.ctxExpired cx c = false →
      v = ((u.put Reg.CXN.FOUND 1 i).put Reg.CXN.QUIESCENT (b2n (m.quiescent cx c)) i).put Reg.CXN.TX_EP (c.txEp.getD 0) i →
      (c.tx = none → c.rx = none → Completes (.ctxLookup r) s v) ∧
      (∀ x, c.tx = none → c.rx = some x → Completes (.ctxLookup r) s ((v.put Reg.CXN.RX_EP x.epoch i).put Reg.CXN.CTX_EPSN x.epsn i)) ∧
      (∀ t w, c.tx = some t → w = ((((v.put Reg.CXN.OPENING (b2n t.opening) i).put Reg.CXN.ROUNDS t.rounds i).put Reg.CXN.CTX_UNA t.una
          i).put Reg.CXN.CTX_NEXT t.nextPsn i).put Reg.CXN.CTX_CWND t.cwnd i →
        (c.rx = none → Completes (.ctxLookup r) s w) ∧
        (∀ x, c.rx = some x → Completes (.ctxLookup r) s ((w.put Reg.CXN.RX_EP x.epoch i).put Reg.CXN.CTX_EPSN x.epsn i))))) ∧
  (∀ (s : State) (r : Requester) (i : Nat), s.m.passes r Reg.CXN.CNT_CLR i = true → Completes (.cxnCntClr r) s
    ((s.m.reach r Reg.CXN.CNT_CLR).clear [Reg.CXN.OPENS, Reg.CXN.RX_CREATES, Reg.CXN.REPLACES, Reg.CXN.DELETIONS, Reg.CXN.EPOCH_NAKS,
      Reg.CXN.LOSS_NAKS, Reg.CXN.TIMER_ROUNDS, Reg.CXN.RETX_PKTS, Reg.CXN.DUP_DROP, Reg.CXN.STALE_DROP, Reg.CXN.RNR_NAKS,
      Reg.CXN.RESULTS, Reg.CXN.FAILED] r.slotOf))

/-- A receive whose mask has the communicator bits at 0 matches a message exactly if their domains are equal, the receive
takes any source or this one, and every bit among the 64 that the mask does not ignore is equal; it is exact exactly
if it names a source and its mask is 0. The mask that a posted receive carries is its IGNORE_MASK with the top
COMM_BITS bits at 0. The unexpected message that a receive takes is one that matches it, is unexpected, of its source
the one with the lowest MSN, and among those of all sources the one with the least ORDER_TS and then the lower
SRC_EID. An exact receive with bits below 2^64 and a message that it matches lie in the same hash bucket. While the
posted receives stand in the order of POST_SEQ, the one that a message takes is posted, matches it, and none with a
lower POST_SEQ that matches it is posted. -/
def Obligations.MatchingComparesBitsSourcesAndOrder : Prop :=
  (∀ (r : Recv) (x : MatMsg), r.ignore < 2 ^ 64 → (r.matches x = true ↔ r.domain = x.domain ∧ (r.src = none ∨ r.src = some x.src) ∧
    ∀ i, i < 64 → r.ignore.testBit i = false → r.bits.testBit i = x.bits.testBit i)) ∧
  (∀ r : Recv, r.exact = true ↔ r.src ≠ none ∧ r.ignore = 0) ∧
  (∀ c mask i : Nat, c ≤ 32 → i < 64 → (ignoreMask c mask).testBit i = (decide (i < 64 - c) && mask.testBit i)) ∧
  (∀ (m : Mach) (r : Recv) (x : MatMsg), chooseUnexpected (m.unexpectedFor r) = some x →
    x ∈ m.mat.msgs ∧ x.st = .unexpected ∧ r.matches x = true ∧
    (∀ y ∈ m.unexpectedFor r, y.src = x.src → earlier y x = false) ∧
    (∀ y ∈ m.unexpectedFor r, (∀ z ∈ m.unexpectedFor r, z.src = y.src → earlier z y = false) →
      x.orderTs < y.orderTs ∨ (x.orderTs = y.orderTs ∧ x.src ≤ y.src))) ∧
  (∀ (r : Recv) (x : MatMsg), r.exact = true → r.bits < 2 ^ 64 → x.bits < 2 ^ 64 → r.matches x = true → r.bucket = x.bucket) ∧
  (∀ (m : Mach) (x : MatMsg) (r : Recv), (∀ r ∈ m.mat.posted, r.bits < 2 ^ 64) → x.bits < 2 ^ 64 →
    m.mat.posted.Pairwise (fun a b => a.domain = b.domain → a.order < b.order) → m.findPosted x = some r →
    r ∈ m.mat.posted ∧ r.matches x = true ∧ ∀ r' ∈ m.mat.posted, r'.matches x = true → r.order ≤ r'.order)

/-- Take an accepted packet. An EAGER enters matching with the first packet of its message; its payload goes to the
receive its message is bound to, is stored by offset while it is not bound, and is discarded where its message is gone
or has faulted. POISON stores and places nothing and marks the message; a poisoned PULL_REQ is not acted on. An RTS
enters matching. A PULL_REQ of a pending SEND pulls it (with ABORT the SEND completes with CANCELLED); without one it
is answered with CANCELLED, counted, and recorded as 0x7044; an ABORT of none changes nothing more. A PULL_RSP is
placed in the receive that pulled, or discarded. In each case order, EPSN, ACK and loss check follow. A message enters
with the count of its kind, ready at once if every lower MSN has been passed and held otherwise (ORDER_HELD). A ready
message takes the first matching posted receive, which leaves the list, counted in MATCH_ARRIVAL, or becomes
unexpected. MESSAGE_READY makes the held message ready whose MSN the order has reached, and moves the order on; of a
connection without an RX half, or a message that the order has not reached, it readies none. -/
def Obligations.TwoSidedPacketsEnterMatchingAndArePlaced : Prop :=
  (∀ (s : State) (k : Packet) (h : RsxHdr) (v w : Mach) (x : RxMsg) (first : Bool) (cx i : Nat), k.body = .rsx h →
    s.m.accepted k h = some (v, x, first) → cx = pktCx k → i = v.rxInst cx → w = (if first then v.enterMat k h else v) →
    (k.hdr.kind = 9 →
      (w.matOf cx h.msn = none → Completes (.eagerPacket k) s ((w.finPsn cx i h.psn).settled k h)) ∧
      (∀ y, w.matOf cx h.msn = some y →
        (h.poison = true → Completes (.eagerPacket k) s ((((w.updMat y.id (fun y => { y with poison := true })).matTook y.id
          k.payload.length 0 false cx i h.psn).poisonRx cx i h.msn h.psn 9).settled k h)) ∧
        (h.poison = false → x.fault.isSome = true →
          Completes (.eagerPacket k) s ((w.matTook y.id k.payload.length 0 true cx i h.psn).settled k h)) ∧
        (∀ r, h.poison = false → x.fault = none → y.st = .bound r →
          Completes (.eagerPacket k) s ((w.matPlace y.id r h.offset k.payload true cx i h.psn).settled k h)) ∧
        (h.poison = false → x.fault = none → y.st = .held ∨ y.st = .unexpected → Completes (.eagerPacket k) s
          (((w.updMat y.id (fun y => { y with store := Tbl.set y.store h.offset k.payload })).finPsn cx i h.psn).settled k h)))) ∧
    (k.hdr.kind = 10 →
      (h.poison = true → Completes (.rtsPacket k) s ((v.poisonRx cx i h.msn h.psn 0x0A).settled k h)) ∧
      (h.poison = false → Completes (.rtsPacket k) s ((w.finPsn cx i h.psn).settled k h))) ∧
    (k.hdr.kind = 11 → h.poison = true → Completes (.pullReqPacket k) s ((v.poisonRx cx i h.msn h.psn 0x0B).settled k h)) ∧
    (k.hdr.kind = 11 → ∀ n len abort, h.op = .pullReq n len abort → h.poison = false →
      (∀ p, v.mat.sends.find? (fun (p : PendSend) => p.cx == cx && p.msn == some n) = some p →
        (abort = true → Completes (.pullReqPacket k) s
          ((((v.dropSend p.uid).finishWork p.ring p.seq 0x08 0).finPsn cx i h.psn).settled k h)) ∧
        (∀ u, abort = false → u = (v.needTx (pktSlot k) k.hdr.src).1 → Completes (.pullReqPacket k) s
          (((u.pullSend p h.msn len).finPsn cx i h.psn).settled k h))) ∧
      (v.mat.sends.find? (fun (p : PendSend) => p.cx == cx && p.msn == some n) = none →
        (abort = true → Completes (.pullReqPacket k) s ((v.finPsn cx i h.psn).settled k h)) ∧
        (abort = false → Completes (.pullReqPacket k) s (((((v.bump Reg.MAT.PULL_ABORTS 1 (pktSlot k)).record 0x7044
          (quadOfSlot (pktSlot k)) [pktSlot k, k.hdr.src, n]).faultRx cx h.msn 0x08 0 true).finPsn cx i h.psn).settled k h)))) ∧
    (k.hdr.kind = 12 → ∀ req, h.op = .pullRsp req →
      (h.poison = true → Completes (.pullRspPacket k) s ((v.poisonRx cx i h.msn h.psn 0x0C).settled k h)) ∧
      (h.poison = false → v.pullOf cx req = none → Completes (.pullRspPacket k) s ((v.finPsn cx i h.psn).settled k h)) ∧
      (∀ y r, h.poison = false → v.pullOf cx req = some y → y.st = .bound r →
        Completes (.pullRspPacket k) s ((v.matPlace y.id r h.offset k.payload true cx i h.psn).settled k h)) ∧
      (∀ y, h.poison = false → v.pullOf cx req = some y → y.st = .held ∨ y.st = .unexpected →
        Completes (.pullRspPacket k) s ((v.finPsn cx i h.psn).settled k h)))) ∧
  (∀ (m u v : Mach) (k : Packet) (h : RsxHdr) (r : RxHalf) (d bits e mant len : Nat) (x : MatMsg), m.rxOf (pktCx k) = some r →
    h.op = .match_ d bits e mant len → u = m.newId.2 → x = { u.newMat k h d bits e mant len r with id := m.newId.1 } →
    v = ({ u with mat := { u.mat with msgs := u.mat.msgs ++ [x] } }.updRxMsg (pktCx k) h.msn (fun y => { y with mat := some m.newId.1 })).bump
      (if x.rts then Reg.MAT.RTS_MSGS else Reg.MAT.EAGER_MSGS) 1 (pktSlot k) →
    m.enterMat k h = if h.msn = r.passMsn then v.matReady m.newId.1 else v.bump Reg.MAT.ORDER_HELD 1 (pktSlot k)) ∧
  (∀ (m u : Mach) (mid : Nat) (x : MatMsg) (hit : Bool), m.matMsg mid = some x → hit = (m.findPosted x).isSome →
    u = (m.bump Reg.MAT.WILD_SCAN (wildExamined x (m.mat.posted.filter (fun r => r.domain == x.domain && !r.exact))) (cxSlot x.cx)).flag
      (mteOf (cxSlot x.cx) x.domain) [if hit then 12 else 13] [if hit then 13 else 12] →
    (u.findPosted x = none → m.matReady mid = u.updMat mid (fun x => { x with st := .unexpected })) ∧
    (∀ r, u.findPosted x = some r → m.matReady mid =
      (((u.unpost r).bump Reg.MAT.MATCH_ARRIVAL 1 (cxSlot x.cx)).pmcEngine (quadOfSlot (cxSlot x.cx)) .mte 0x0B 1).bind mid r)) ∧
  (∀ (s : State) (cx msn : Nat) (u : Mach), u = s.m.passOrder cx → u.rxOf cx = none → Completes (.messageReady cx msn) s u) ∧
  (∀ (s : State) (cx msn : Nat) (u : Mach) (r : RxHalf), u = s.m.passOrder cx → u.rxOf cx = some r →
    (u.heldAt cx r.inst msn = none ∨ r.passMsn ≠ msn → Completes (.messageReady cx msn) s u) ∧
    (∀ x, u.heldAt cx r.inst msn = some x → r.passMsn = msn →
      Completes (.messageReady cx msn) s ((u.matReady x.id).passOrder cx)))

/-- DOM_CREATE stores DOM_ERR: 4 for another slot's domain, 2 for one not FREE, 1 for a function that is not present; with
0 the domain becomes ACTIVE for the staged function with COMM_BITS, at most 32. DOM_DISABLE of another slot's domain
stores 4; of an ACTIVE one it stores 0 and disables it: its posted receives complete with CANCELLED, its unbound
messages go (each RTS answered with an ABORT), it no longer is ACTIVE, and 0x7042 is recorded; one that is FREE or
disabled is left as it is. A RECV whose domain is none, not ACTIVE or not of its ring's function completes with
PROTECTION, detail 3; at 4,194,304 posted receives of the quadrant one that finds no unexpected message is held, its
ring's scan stops, and FS84 and 0x7041 follow; any other is posted. A receive that its MTE takes has the domain's next
POST_SEQ and the mask without communicator bits; it takes an unexpected message, counted in MATCH_POST, or joins the
posted receives at their end. RECV_RESUME takes the oldest held RECV of the quadrant once fewer than 4,194,304 are
posted, and its ring scans on if no other RECV of it is held or waits for translation; with none held it does nothing.
CNT_CLR clears the slot's twelve counters. -/
def Obligations.DomainsAndHeldReceivesDoAsFileNineSays : Prop :=
  (∀ (s : State) (r : Requester) (n : Nat) (m0 : Mach), s.m.passes r Reg.MAT.DOM_CMD n = true → m0 = s.m.reach r Reg.MAT.DOM_CMD →
    (∀ d, m0.domain n = some d → d.slot ≠ r.slotOf → Completes (.domCreate r) s (m0.put Reg.MAT.DOM_ERR 4 n) ∧
      Completes (.domDisable r) s (m0.put Reg.MAT.DOM_ERR 4 n)) ∧
    (∀ d, m0.domain n = some d → d.slot = r.slotOf → Completes (.domCreate r) s (m0.put Reg.MAT.DOM_ERR 2 n)) ∧
    (m0.domain n = none → m0.fnPresent r.slotOf (m0.get Reg.MAT.DOM_FUNC n) = false →
      Completes (.domCreate r) s (m0.put Reg.MAT.DOM_ERR 1 n)) ∧
    (∀ u : Mach, m0.domain n = none → m0.fnPresent r.slotOf (m0.get Reg.MAT.DOM_FUNC n) = true → u = m0.put Reg.MAT.DOM_ERR 0 n →
      Completes (.domCreate r) s
      { u with mat := { u.mat with domains := (Tbl.set u.mat.domains n
        { slot := r.slotOf, func := u.get Reg.MAT.DOM_FUNC n, commBits := min 32 (u.get Reg.MAT.COMM_BITS n), active := true,
          nextPost := 0 }) } }) ∧
    (∀ d, m0.domain n = some d → d.slot = r.slotOf → d.active = true →
      Completes (.domDisable r) s ((m0.put Reg.MAT.DOM_ERR 0 n).disableDomain n 0x08)) ∧
    (∀ d, m0.domain n = some d → d.slot = r.slotOf → d.active = false → Completes (.domDisable r) s m0) ∧
    (m0.domain n = none → Completes (.domDisable r) s m0)) ∧
  (∀ (m : Mach) (d : Nat) (x : Domain) (u v w : Mach), m.domain d = some x →
    u = { m with mat := { m.mat with posted := m.mat.posted.filter (fun r => r.domain != d) } } →
    v = (m.mat.posted.filter (fun r => r.domain == d)).foldl (fun a r => (a.bump Reg.MAT.CANCELS 1 x.slot).finishWork r.ring r.seq 8 0) u →
    w = (v.mat.msgs.filter (fun y => y.domain == d && y.stored)).foldl (fun a y => if y.rts then a.sendPull y.id y 0 true else a) v →
    m.disableDomain d 8 = ({ w with mat := { w.mat with
      msgs := w.mat.msgs.filter (fun y => !(y.domain == d && y.stored)),
      domains := (Tbl.set w.mat.domains d { x with active := false }) } }.settleDomain d).record 0x7042 (quadOfSlot x.slot) [d]) ∧
  (∀ (m : Mach) (r : Recv) (w : WorkRing) (q : Nat), q = quadOfSlot w.slot →
    (m.domain r.domain = none → m.takeRecv r w = m.finishWork r.ring r.seq 0x0B 3) ∧
    (∀ d, m.domain r.domain = some d →
      (d.active = false ∨ d.slot ≠ w.slot ∨ d.func ≠ w.func → m.takeRecv r w = m.finishWork r.ring r.seq 0x0B 3) ∧
      (∀ u v, d.active = true → d.slot = w.slot → d.func = w.func → 4194304 ≤ m.postedIn q →
        (m.unexpectedFor { r with ignore := ignoreMask d.commBits r.ignore }).isEmpty = true →
        u = (m.updWr r.ring (fun w => { w with recvHold := true })).stopScan r.ring w →
        v = { u with mat := { u.mat with heldRecv := u.mat.heldRecv ++ [r] } } →
        m.takeRecv r w = ((v.raise 84 .none r.domain q).record 0x7041 q [w.slot, r.domain]).pumpTxe w.slot w.txe) ∧
      (d.active = true → d.slot = w.slot → d.func = w.func →
        m.postedIn q < 4194304 ∨ (m.unexpectedFor { r with ignore := ignoreMask d.commBits r.ignore }).isEmpty = false →
        m.takeRecv r w = m.post r))) ∧
  (∀ (m u : Mach) (r r' : Recv) (d : Domain), m.domain r.domain = some d →
    r' = { r with order := d.nextPost, ignore := ignoreMask d.commBits r.ignore } →
    u = (fun (m : Mach) => m.matchFlag d.slot r.domain !(m.unexpectedFor r').isEmpty)
      { m with mat := { m.mat with domains := Tbl.set m.mat.domains r.domain { d with nextPost := d.nextPost + 1 } } } →
    (∀ x, chooseUnexpected (u.unexpectedFor r') = some x →
      m.post r = ((u.bump Reg.MAT.MATCH_POST 1 d.slot).pmcEngine (quadOfSlot d.slot) .mte 0x0B 1).bind x.id r') ∧
    (chooseUnexpected (u.unexpectedFor r') = none → m.post r = { u with mat := { u.mat with posted := u.mat.posted ++ [r'] } })) ∧
  (∀ (s : State) (q : Quad), s.m.mat.heldRecv.find? (fun r => match s.m.wr r.ring with
      | some w => quadOfSlot w.slot == q.val | none => false) = none → Completes (.recvResume q) s s.m) ∧
  (∀ (s : State) (q : Quad) (r : Recv) (w : WorkRing) (u : Mach),
    s.m.mat.heldRecv.find? (fun r => match s.m.wr r.ring with | some w => quadOfSlot w.slot == q.val | none => false) = some r →
    s.m.wr r.ring = some w → u = { s.m with mat := { s.m.mat with heldRecv := s.m.mat.heldRecv.erase r } } →
    (4194304 ≤ s.m.postedIn q → Completes (.recvResume q) s s.m) ∧
    (s.m.postedIn q < 4194304 → (s.m.mat.heldRecv.erase r).any (fun x => x.ring == r.ring) = true ∨
        (u.takeRecv r w).lka.waiting.any (fun x => x.1 == r.ring) = true →
      Completes (.recvResume q) s (u.takeRecv r w)) ∧
    (s.m.postedIn q < 4194304 → (s.m.mat.heldRecv.erase r).any (fun x => x.ring == r.ring) = false →
        (u.takeRecv r w).lka.waiting.any (fun x => x.1 == r.ring) = false →
      Completes (.recvResume q) s (((u.takeRecv r w).updWr r.ring (fun w => { w with recvHold := false })).readyScan r.ring))) ∧
  (∀ (s : State) (r : Requester) (i : Nat), s.m.passes r Reg.MAT.CNT_CLR i = true → Completes (.matCntClr r) s
    ((s.m.reach r Reg.MAT.CNT_CLR).clear [Reg.MAT.EAGER_MSGS, Reg.MAT.RTS_MSGS, Reg.MAT.MATCH_ARRIVAL, Reg.MAT.MATCH_POST, Reg.MAT.ORDER_HELD,
      Reg.MAT.WILD_SCAN, Reg.MAT.TRUNCATIONS, Reg.MAT.CANCELS, Reg.MAT.UNX_NAKS, Reg.MAT.PULLS, Reg.MAT.PULL_ABORTS,
      Reg.MAT.ABANDONED] r.slotOf))

/-- Take an integer DTYPE (0 to 3; 0 and 2 signed; 32 bits for 0 and 1, 64 bits for 2 and 3) and two elements of that
width. SUM gives their sum modulo 2^n. MIN gives whichever of the two is the smaller, and MAX whichever is the larger,
as signed or as unsigned integers as the DTYPE says. No REDOP raises a flag. -/
def Obligations.IntegerFoldsWrapAndCompareAsTheirTypeSays : Prop :=
  ∀ (d redop x y n : Nat) (p : Bool), d < 4 → n = (if d < 2 then 32 else 64) → x < 2 ^ n → y < 2 ^ n →
    (combine d redop p x y).2 = 0 ∧
    (combine d 0 p x y).1 = (x + y) % 2 ^ n ∧
    (d = 1 ∨ d = 3 → (combine d 1 p x y).1 = min x y ∧ (combine d 2 p x y).1 = max x y) ∧
    (d = 0 ∨ d = 2 → (BitVec.ofNat n (combine d 1 p x y).1).toInt = min (BitVec.ofNat n x).toInt (BitVec.ofNat n y).toInt ∧
      (BitVec.ofNat n (combine d 2 p x y).1).toInt = max (BitVec.ofNat n x).toInt (BitVec.ofNat n y).toInt ∧
      ((combine d 1 p x y).1 = x ∨ (combine d 1 p x y).1 = y) ∧ ((combine d 2 p x y).1 = x ∨ (combine d 2 p x y).1 = y))

/-- A packet that is not for this module, in a mode without the network, or whose engines are being swapped does nothing
but that the last is kept at local delivery. Of one that is delivered: for no group, or a group whose table is being
read, it does nothing; of kind 0x15 to 0x1F or with a non-zero zero field it counts in PROTO_DROP; of another GEN it
counts in STALE; and for no local rank, or by no edge of that rank, it counts in PROTO_DROP. Of one that reaches its
group: COLL_UP and COLL_DOWN store their chunk and the group goes on, with the loss check after; a chunk behind the
credited count or held already counts in DUP_DROP and is credited again, one beyond the window counts in PROTO_DROP.
COLL_CREDIT frees what it covers and the group goes on. COLL_NAK of a kept chunk counts a round, and resends from it.
COLL_ABORT aborts the group with its reason after its echo; in an aborted group it stops the resends to that
neighbour, and is answered again where it asks again. None but ABORT changes an aborted group. COLL_CREDIT_SEND at its
time reports the count of freed chunks. COLL_NAK_TIMER makes the loss check once the chunk above the hole is old
enough. COLL_RTO goes back to the credited count. OP_TIMEOUT aborts with reason 4 once the oldest operation has waited
so long. ABORT_RESEND sends the ABORT once more, with the next due while fewer than RETRY_MAX were sent. A timer that
is not running, and that of a number with no group, does nothing. -/
def Obligations.CollectivePacketsAndTimersMoveTheirGroup : Prop :=
  (∀ (s : State) (k : Packet), s.m.netModes = false ∨ k.hdr.dst / 16 ≠ s.m.ownDa → Collective k s s.m) ∧
  (∀ (s : State) (k : Packet), s.m.netModes = true → k.hdr.dst / 16 = s.m.ownDa → s.m.kindHeld k.hdr.kind = true →
    (k ∉ s.m.rte.inbox → Collective k s { s.m with rte := { s.m.rte with inbox := s.m.rte.inbox ++ [k] } }) ∧
    (k ∈ s.m.rte.inbox → Collective k s s.m)) ∧
  (∀ (s : State) (k : Packet) (h : CollHdr) (u : Mach), k.body = .coll h → s.m.delivered k = some u →
    (u.grp (h.group % 4096) = none → Collective k s u) ∧
    (∀ g : CollGroup, u.grp (h.group % 4096) = some g →
      (g.reading = true → Collective k s u) ∧
      (g.reading = false → 0x14 < k.hdr.kind ∨ h.zero k.hdr.kind = false ∨ k.hdr.zero = false →
        Collective k s (u.bump Reg.COL.PROTO_DROP 1 g.homeQ)) ∧
      (g.reading = false → k.hdr.kind ≤ 0x14 → h.zero k.hdr.kind = true → k.hdr.zero = true →
        (h.gen ≠ g.gen → Collective k s (u.bump Reg.COL.STALE 1 g.homeQ)) ∧
        (h.gen = g.gen →
          (g.ranks.find? (fun r => g.eids.getD r.rank 0 == k.hdr.dst) = none →
            Collective k s (u.bump Reg.COL.PROTO_DROP 1 g.homeQ)) ∧
          (∀ r, g.ranks.find? (fun r => g.eids.getD r.rank 0 == k.hdr.dst) = some r →
            g.hasEdge r k.hdr.kind h = false ∨ g.eids.getD h.srcRank 0 ≠ k.hdr.src →
            Collective k s (u.bump Reg.COL.PROTO_DROP 1 g.homeQ)))))) ∧
  (∀ (s : State) (k : Packet) (h : CollHdr) (u : Mach) (n ek : Nat) (g : CollGroup), k.body = .coll h →
    s.m.reaches k h = some (u, n, g, ek) →
    (g.aborted = none →
      (k.hdr.kind = 0x10 → Completes (.collUp k) s (((u.edgeRecv n ek (pktChunk k h)).collRun n).edgeCheck n ek)) ∧
      (k.hdr.kind = 0x11 → Completes (.collDown k) s (((u.edgeRecv n ek (pktChunk k h)).collRun n).edgeCheck n ek)) ∧
      (k.hdr.kind = 0x12 → Completes (.collCredit k) s ((u.applyCredit n ek h.esn).collRun n)) ∧
      (k.hdr.kind = 0x13 → ((g.edge ek).kept.any (fun c => c.esn == h.esn) = true → Completes (.collNak k) s (u.edgeResend n ek h.esn)) ∧
        ((g.edge ek).kept.any (fun c => c.esn == h.esn) = false → Completes (.collNak k) s u)) ∧
      (k.hdr.kind = 0x14 → ∀ first, first = ((g.rank (edgeRank ek)).map (fun (r : CollRank) => r.firstSeq)).getD 0 →
        Completes (.collAbort k) s
        (((u.updEdge n ek (fun e => { e with answered := true })).sendAbort n ek h.reason first true).collAbort n h.reason none (some ek)))) ∧
    (∀ reason, g.aborted = some reason →
      (k.hdr.kind = 0x10 → Completes (.collUp k) s u) ∧ (k.hdr.kind = 0x11 → Completes (.collDown k) s u) ∧
      (k.hdr.kind = 0x12 → Completes (.collCredit k) s u) ∧ (k.hdr.kind = 0x13 → Completes (.collNak k) s u) ∧
      (k.hdr.kind = 0x14 → ∀ (v : Mach) first, v = u.updEdge n ek (fun e => { e with answered := true, abortAt := none }) →
        first = ((g.rank (edgeRank ek)).map (fun (r : CollRank) => r.firstSeq)).getD 0 →
        ((g.edge ek).answered = false ∨ h.echo = true → Completes (.collAbort k) s v) ∧
        ((g.edge ek).answered = true → h.echo = false → Completes (.collAbort k) s (v.sendAbort n ek reason first true))))) ∧
  (∀ (m : Mach) (n ek : Nat) (g : CollGroup) (c : CollChunk), m.grp n = some g →
    (behind32 c.esn (g.edge ek).rCum = true ∨ (g.edge ek).slots.any (fun x => x.esn == c.esn) = true →
      m.edgeRecv n ek c = (m.bump Reg.COL.DUP_DROP 1 g.homeQ).sendCredit n ek) ∧
    (behind32 c.esn (g.edge ek).rCum = false → (g.edge ek).slots.any (fun x => x.esn == c.esn) = false →
      (g.window ≤ sub32 c.esn (g.edge ek).rCum → m.edgeRecv n ek c = m.bump Reg.COL.PROTO_DROP 1 g.homeQ) ∧
      (sub32 c.esn (g.edge ek).rCum < g.window → m.edgeRecv n ek c =
        (m.updEdge n ek (fun e => { e with slots := e.slots ++ [c] })).collCompare n (edgeRank ek)))) ∧
  (∀ (m : Mach) (n ek cum : Nat) (g : CollGroup), m.grp n = some g →
    (sub32 cum (g.edge ek).sCum = 0 ∨ sub32 (g.edge ek).sNext (g.edge ek).sCum < sub32 cum (g.edge ek).sCum →
      m.applyCredit n ek cum = m) ∧
    (∀ kept, 0 < sub32 cum (g.edge ek).sCum → sub32 cum (g.edge ek).sCum ≤ sub32 (g.edge ek).sNext (g.edge ek).sCum →
      kept = (g.edge ek).kept.filter (fun c => sub32 cum (g.edge ek).sCum ≤ sub32 c.esn (g.edge ek).sCum) →
      ∀ e, e = (g.edge ek) → (m.applyCredit n ek cum).grp n = (m.updEdge n ek (fun _ =>
        { e with
          kept := kept, sCum := cum, rounds := 0
          timer := if kept.isEmpty || g.isLocal (edgePeer ek) then none else some (m.clk + m.rto) })).grp n)) ∧
  (∀ (s : State) (grp rank edge : Nat), s.m.grp grp = none → Completes (.collCreditSend grp rank edge) s s.m ∧
    Completes (.collNakTimer grp rank edge) s s.m ∧ Completes (.collRto grp rank edge) s s.m ∧ Completes (.opTimeout grp) s s.m ∧
    Completes (.abortResend grp rank edge) s s.m) ∧
  (∀ (s : State) (grp rank edge ek : Nat) (g : CollGroup), s.m.grp grp = some g → ek = timerEdge rank edge →
    ((g.edge ek).credit = none → Completes (.collCreditSend grp rank edge) s s.m) ∧
    ((g.edge ek).hole g.window = none → Completes (.collNakTimer grp rank edge) s s.m) ∧
    ((g.edge ek).timer = none → Completes (.collRto grp rank edge) s s.m) ∧
    (s.m.get Reg.COL.OP_TIMEOUT grp = 0 ∨ g.ranks.flatMap (fun k => k.ops.map (fun o => o.post)) = [] →
      Completes (.opTimeout grp) s s.m) ∧
    (g.aborted = none ∨ (g.edge ek).abortAt = none ∨ (g.edge ek).answered = true → Completes (.abortResend grp rank edge) s s.m) ∧
    (∀ due, (g.edge ek).credit = some due →
      Completes (.collCreditSend grp rank edge) s (((s.m.elapseTo due).sendCredit grp ek).collRun grp)) ∧
    (∀ esn ts u, (g.edge ek).hole g.window = some (esn, ts) →
      u = s.m.elapseNs (s.m.edgeLat + 1 - sub32 (s.m.stamp g.homeQ) ts) →
      ((g.edge ek).nakFor ≠ some esn → Completes (.collNakTimer grp rank edge) s (u.edgeCheck grp ek)) ∧
      ((g.edge ek).nakFor = some esn →
        Completes (.collNakTimer grp rank edge) s ((u.elapseTo ((g.edge ek).nakAt + 2 * u.edgeLat)).edgeCheck grp ek))) ∧
    (∀ due, (g.edge ek).timer = some due →
      Completes (.collRto grp rank edge) s ((s.m.elapseTo due).edgeResend grp ek (g.edge ek).sCum)) ∧
    (∀ p r, s.m.get Reg.COL.OP_TIMEOUT grp ≠ 0 → g.ranks.flatMap (fun k => k.ops.map (fun o => o.post)) = p :: r →
      Completes (.opTimeout grp) s
        ((s.m.elapseTo (r.foldl min p + s.m.get Reg.COL.OP_TIMEOUT grp * Config.msCycles)).collAbort grp 4)) ∧
    (∀ reason due first u, g.aborted = some reason → (g.edge ek).abortAt = some due → (g.edge ek).answered = false →
      first = ((g.rank rank).map (fun (r : CollRank) => r.firstSeq)).getD 0 → u = s.m.elapseTo due → Completes (.abortResend grp rank edge) s
        ((u.updEdge grp ek (fun e => { e with
          aborts := (g.edge ek).aborts + 1
          abortAt := if (g.edge ek).aborts + 1 < u.retryMax then some (u.clk + u.rto) else none })).sendAbort grp ek reason first false)))

/-- GRP_CREATE stores GRP_ERR 4 for another slot's group, 2 for one not FREE, 1 for a GRP_SIZE of 0 or above 1,048,576,
and 3 for a PD that is not enabled or of another slot. Otherwise GRP_ERR is 0, the group is being read, and the read
of its rank table goes out in its PD with access kind 2; a translation fault at once makes it FREE with GRP_ERR 10.
Where the table comes, a good one makes the group ACTIVE with its local ranks and edges, and records 0x7051. DESTROY
and ABORT store 4 for another slot's group and 2 while the table is read, and do nothing to a FREE group. ABORT then
stores 0 and aborts with reason 5; DESTROY aborts with reason 5 if operations are outstanding, stores 0, drops its
ranks and edges and records 0x7052. An abort ends every operation of the group with ABORTED, sends ABORT over every
edge that is not local, counts in ABORTS, raises FS85 and records 0x7050; a group already aborted keeps its reason.
CNT_CLR clears the quadrant's eleven counters. -/
def Obligations.GroupsAreCreatedAbortedAndDestroyed : Prop :=
  (∀ (s : State) (r : Requester) (n : Nat) (m0 : Mach), s.m.passes r Reg.COL.GRP_CMD n = true → m0 = s.m.reach r Reg.COL.GRP_CMD →
    (∀ g, Tbl.find m0.groups n = some g → m0.grpFree n = false →
      (g.slot ≠ r.slotOf → Completes (.grpCreate r) s (m0.put Reg.COL.GRP_ERR 4 n)) ∧
      (g.slot = r.slotOf → Completes (.grpCreate r) s (m0.put Reg.COL.GRP_ERR 2 n))) ∧
    (Tbl.find m0.groups n = none ∨ m0.grpFree n = true → Completes (.grpCreate r) s (m0.createGroup n r.slotOf)) ∧
    (m0.grp n = none → Completes (.grpDestroy r) s m0 ∧ Completes (.grpAbort r) s m0) ∧
    (∀ g, m0.grp n = some g →
      (g.slot ≠ r.slotOf → Completes (.grpDestroy r) s (m0.put Reg.COL.GRP_ERR 4 n) ∧
        Completes (.grpAbort r) s (m0.put Reg.COL.GRP_ERR 4 n)) ∧
      (g.slot = r.slotOf → g.reading = true → Completes (.grpDestroy r) s (m0.put Reg.COL.GRP_ERR 2 n) ∧
        Completes (.grpAbort r) s (m0.put Reg.COL.GRP_ERR 2 n)) ∧
      (g.slot = r.slotOf → g.reading = false → Completes (.grpAbort r) s ((m0.put Reg.COL.GRP_ERR 0 n).collAbort n 5) ∧
        ∀ works, works = g.ranks.flatMap (fun k => k.ops.filterMap (fun o =>
            (m0.workAt o.ring o.work).map (fun w => (o.ring, w.entry.workId)))) →
          Completes (.grpDestroy r) s ((((if works.isEmpty then m0 else m0.collAbort n 5).put Reg.COL.GRP_ERR 0 n).updGrp n
            (fun g => { g with ranks := [], edges := [], dying := some works })).record 0x7052 g.homeQ [n])))) ∧
  (∀ (m : Mach) (n slot : Nat),
    (m.get Reg.COL.GRP_SIZE n = 0 ∨ 1048576 < m.get Reg.COL.GRP_SIZE n → m.createGroup n slot = m.put Reg.COL.GRP_ERR 1 n) ∧
    (1 ≤ m.get Reg.COL.GRP_SIZE n → m.get Reg.COL.GRP_SIZE n ≤ 1048576 →
      (Tbl.find m.xlt.pds (m.get Reg.COL.GRP_PD n) = none → m.createGroup n slot = m.put Reg.COL.GRP_ERR 3 n) ∧
      (∀ p, Tbl.find m.xlt.pds (m.get Reg.COL.GRP_PD n) = some p →
        (p.slot ≠ slot → m.createGroup n slot = m.put Reg.COL.GRP_ERR 3 n) ∧
        (∀ u v f, p.slot = slot → u = { m with groups := (Tbl.set m.groups n
            { slot := slot, pd := m.get Reg.COL.GRP_PD n, func := p.func, homeQ := m.get Reg.COL.HOME_Q n, gen := m.get Reg.COL.GEN n
              window := clamp 1 64 (m.get Reg.COL.WINDOW n), size := m.get Reg.COL.GRP_SIZE n, reading := true }) }.put Reg.COL.GRP_ERR 0 n →
          u.hostAccess
            { slot := slot, func := p.func, pd := m.get Reg.COL.GRP_PD n, va := u.get64 Reg.COL.RANKTAB_LO Reg.COL.RANKTAB_HI n
              len := 8 * m.get Reg.COL.GRP_SIZE n, kind := 2, data := none, purpose := .rankTable n } = (v, f) →
          (f = .issued ∨ f = .waiting → m.createGroup n slot = v) ∧
          (∀ x, f = .fault x → m.createGroup n slot = v.tableFailed n))))) ∧
  (∀ (m : Mach) (n : Nat) (g : CollGroup) (data : List Byte), m.grp n = some g → g.reading = true →
    (m.tableErr n g (rankEntries g.size data) ≠ 0 →
      m.tableRead n data = m.grpFail n (m.tableErr n g (rankEntries g.size data))) ∧
    (m.tableErr n g (rankEntries g.size data) = 0 → ∃ g', (m.tableRead n data) = { m with groups := Tbl.set m.groups n g' }.record 0x7051
      g.homeQ [n, (localRanks m.ownDa (rankEntries g.size data)).length] ∧ g'.reading = false ∧
      g'.ranks = localRanks m.ownDa (rankEntries g.size data) ∧ g'.eids = (rankEntries g.size data).map (·.1) ∧ g'.aborted = g.aborted)) ∧
  (∀ (m u : Mach) (n reason : Nat) (g : CollGroup), m.grp n = some g →
    (g.aborted.isSome = true → m.collAbort n reason = m) ∧
    (g.aborted = none → u = g.ranks.foldl (fun a k => k.ops.foldl (fun a o => a.endColl n k.rank o 5 0 0 0) a)
        ((m.updGrp n (fun g => g.stop reason)).spreadAbort n reason none) →
      m.collAbort n reason = ((u.bump Reg.COL.ABORTS 1 g.homeQ).raise 85 .none (65536 * reason + n) g.homeQ).record 0x7050 g.homeQ
        [n, reason])) ∧
  (∀ (s : State) (r : Requester) (q : Nat), s.m.passes r Reg.COL.CNT_CLR q = true → Completes (.colCntClr r) s
    ((s.m.reach r Reg.COL.CNT_CLR).clear [Reg.COL.OPS_DONE, Reg.COL.CHUNKS_UP, Reg.COL.CHUNKS_DOWN, Reg.COL.FOLDS, Reg.COL.NAKS_SENT, Reg.COL.RESENDS,
      Reg.COL.DUP_DROP, Reg.COL.PROTO_DROP, Reg.COL.STALE, Reg.COL.ABORTS, Reg.COL.FP_EXC_FOLDS] q))

/-- A COLL entry is valid exactly if its OP is BARRIER, BROADCAST, REDUCE or ALLREDUCE, its DTYPE is one of the eight
where the operation is not BARRIER, its ROOT is a rank of the group where it has one, and, of the reducing operations,
its REDOP is SUM, MIN or MAX, or a bitwise one on integers, with PROMOTE on DTYPE 4 and 5 alone. An entry for a group
that is FREE, that has no rank at the ring's slot, or whose table is being read completes with PROTECTION, detail 3;
in an aborted group it completes with ABORTED; an entry that is not valid completes with PROTECTION, detail 3. Any
other becomes the last operation of its rank under the rank's next OP_SEQ, with COUNT 0 for a BARRIER; then the
parameters that meet at the rank are compared, and the group goes on. -/
def Obligations.CollEntriesJoinTheirGroup : Prop :=
  (∀ (op d redop root size : Nat) (promote : Bool), collValid op d redop promote root size = true ↔
    op ≤ 3 ∧ (op ≠ 0 → d ≤ 7) ∧ (op = 1 ∨ op = 2 → root < size) ∧
    (2 ≤ op → (redop ≤ 2 ∨ (redop ≤ 5 ∧ d < 4)) ∧ (promote = true → d = 4 ∨ d = 5))) ∧
  (∀ (m : Mach) (ring seq : Nat) (w : WorkRing) (e : Entry) (op d redop root src dst count n : Nat) (promote : Bool),
    e.body = .coll op d redop promote root src dst count → n = e.arg % 4096 →
    (m.grp n = none → m.startColl ring seq w e = m.finishWork ring seq 0x0B 3) ∧
    (∀ g : CollGroup, m.grp n = some g →
      (g.ranks.find? (fun k => k.slot == w.slot) = none → m.startColl ring seq w e = m.finishWork ring seq 0x0B 3) ∧
      (∀ k, g.ranks.find? (fun k => k.slot == w.slot) = some k →
        (g.reading = true → m.startColl ring seq w e = m.finishWork ring seq 0x0B 3) ∧
        (∀ reason, g.reading = false → g.aborted = some reason → m.startColl ring seq w e = m.finishWork ring seq 0x05 0) ∧
        (g.reading = false → g.aborted = none → collValid op d redop promote root g.size = false →
          m.startColl ring seq w e = m.finishWork ring seq 0x0B 3) ∧
        (∀ o : CollOp, g.reading = false → g.aborted = none → collValid op d redop promote root g.size = true →
          o = { seq := k.nextSeq, ring := ring, work := seq, op := op, dtype := d, redop := redop, promote := promote && decide (2 ≤ op),
                root := root, count := if op = 0 then 0 else count, src := src, dst := dst, pd := w.pd, func := w.func, post := m.clk } →
          m.startColl ring seq w e = ((m.updRank n k.rank (fun k =>
            { k with
              ops := k.ops ++ [o], nextSeq := (k.nextSeq + 1) % 65536 })).collCompare n k.rank).collRun n)))) ∧
  (∀ (m : Mach) (n : Nat) (g : CollGroup) (r : Nat) (k : CollRank), m.grp n = some g → g.rank r = some k →
    (g.mismatch k = none → m.collCompare n r = m) ∧
    (∀ peer, g.mismatch k = some peer → m.collCompare n r = (m.record 0x7053 g.homeQ [n, r, peer]).collAbort n 3)) ∧
  (∀ (m : Mach) (n : Nat) (g : CollGroup) (k : CollRank) (o : CollOp) (l : List CollOp), k.ops = o :: l →
    (g.finished k.rank o = false → m.moveEnd n g k = none) ∧
    (g.finished k.rank o = true → o.op = 0 ∨ o.receives k.rank = false → m.moveEnd n g k = some (m.endColl n k.rank o 0 0 0 0)) ∧
    (g.finished k.rank o = true → o.op ≠ 0 → o.receives k.rank = true →
      m.moveEnd n g k = some (m.endColl n k.rank o 0 0 o.flags (o.count * elemSize o.dtype))))

/-- An LKU packet that is not for this module, in a mode without the network, or whose engines are being swapped does
nothing but that the last is kept at local delivery; one of a kind that Table 11-1 does not name, or with a non-zero
zero field, counts in PROTO_DROP, for the home's packets at the lock's quadrant and for the others at the slot's.
Every LK packet acts on its lock at the home, and then acquires that wait for the held list may go on. An acquire of a
FREE lock is counted and granted; a copy from the holder is answered GRANTED again, a copy from a waiter QUEUED with
its place; a further one joins the queue's end and is answered QUEUED with how many stand before it, or, with 262,144
waiters in the quadrant, BUSY with FS86 and 0x7063. A grant makes the requester the holder, adds 1 to GEN modulo 2^32,
clears the ORPHANED marking and carries it, leases a remote holder, counts, and answers GRANTED. A release whose GEN
and holder match is answered RELEASED and hands the lock on; another is answered NO_HOLD. A force of a held lock
records 0x7062, tells the holder LOST, and hands the lock on as orphaned; it is always answered FORCED. Handing on
grants the head of the queue at once, or leaves the lock FREE. A matching renewal or grant acknowledgement renews the
lease; another renewal is answered LOST, and another acknowledgement does nothing. A withdraw of a waiter removes and
counts it, one from the holder is ignored, and any other is answered WITHDRAWN. GRANT_RESEND answers GRANTED again
after RTO. LEASE_EXPIRY counts, raises FS87, records 0x7061 and hands the lock on as orphaned; of a lock that is FREE
or has no such timer the two do nothing. LOCK_CMD's FORCE forces the lock. -/
def Obligations.LocksAreGrantedReleasedAndForcedAtTheirHome : Prop :=
  (∀ (s : State) (k : Packet), s.m.netModes = false ∨ k.hdr.dst / 16 ≠ s.m.ownDa → LockKind k s s.m) ∧
  (∀ (s : State) (k : Packet), s.m.netModes = true → k.hdr.dst / 16 = s.m.ownDa → s.m.kindHeld k.hdr.kind = true →
    (k ∉ s.m.rte.inbox → LockKind k s { s.m with rte := { s.m.rte with inbox := s.m.rte.inbox ++ [k] } }) ∧
    (k ∈ s.m.rte.inbox → LockKind k s s.m)) ∧
  (∀ (s : State) (k : Packet) (h : LkuHdr) (u : Mach), k.body = .lku h → s.m.delivered k = some u →
    k.hdr.kind = 0x27 ∨ 0x2B ≤ k.hdr.kind ∨ h.zero k.hdr.kind = false ∨ k.hdr.zero = false →
    (k.hdr.kind < 0x27 → k.hdr.kind ≠ 0x25 → LockKind k s (u.bump Reg.LKA.PROTO_DROP 1 (lockQuad h.lockId))) ∧
    (0x27 ≤ k.hdr.kind ∨ k.hdr.kind = 0x25 → LockKind k s (u.bump Reg.LKA.PROTO_DROP 1 (quadOfSlot (k.hdr.dst % 16))))) ∧
  (∀ (s : State) (k : Packet) (h : LkuHdr) (u : Mach),
    (s.m.lkuComes k 0x20 h u → Completes (.lkAcq k) s (u.homeAcquire h.lockId k.hdr.src h.tag).resumeAcquires) ∧
    (s.m.lkuComes k 0x21 h u → Completes (.lkRel k) s (u.homeRelease h.lockId k.hdr.src h.tag h.gen).resumeAcquires) ∧
    (s.m.lkuComes k 0x22 h u →
      Completes (.lkForce k) s ((u.homeForce h.lockId).homeAnswer h.lockId k.hdr.src h.tag 4).resumeAcquires) ∧
    (s.m.lkuComes k 0x23 h u → Completes (.lkRenew k) s (u.homeRenew h.lockId k.hdr.src h.tag h.gen).resumeAcquires) ∧
    (s.m.lkuComes k 0x24 h u → Completes (.lkWithdraw k) s (u.homeWithdraw h.lockId k.hdr.src h.tag).resumeAcquires) ∧
    (s.m.lkuComes k 0x26 h u →
      (∀ t, (u.lock h.lockId).held = some (k.hdr.src, t) → (u.lock h.lockId).gen = h.gen → Completes (.lkGrantAck k) s
        (u.updLock h.lockId (fun x => { x with resend := none, lease := some (u.leaseDue h.lockId) })).resumeAcquires) ∧
      ((∀ t, (u.lock h.lockId).held = some (k.hdr.src, t) → (u.lock h.lockId).gen ≠ h.gen) →
        Completes (.lkGrantAck k) s u.resumeAcquires))) ∧
  (∀ (m : Mach) (l eid tag : Nat),
    (∀ u, u = m.bump Reg.LKA.ACQUIRES 1 (lockQuad l) → (m.lock l).held = none →
      (m.lock l).waiters.findIdx? (fun w => w == (eid, tag)) = none →
      m.homeAcquire l eid tag = (u.grantTo l eid tag false).lockChanged l) ∧
    ((m.lock l).held = some (eid, tag) → m.homeAcquire l eid tag = m.homeAnswer l eid tag 2 (m.lock l).carried) ∧
    (∀ i, (m.lock l).held ≠ some (eid, tag) → (m.lock l).waiters.findIdx? (fun w => w == (eid, tag)) = some i →
      m.homeAcquire l eid tag = m.homeAnswer l eid tag 1 false i) ∧
    (∀ o, (m.lock l).held = some o → o ≠ (eid, tag) → (m.lock l).waiters.findIdx? (fun w => w == (eid, tag)) = none →
      (262144 ≤ m.waitersIn (lockQuad l) → m.homeAcquire l eid tag =
        ((m.raise 86 .none 1 (lockQuad l)).record 0x7063 (lockQuad l) [l, eid]).homeAnswer l eid tag 7) ∧
      (m.waitersIn (lockQuad l) < 262144 → m.homeAcquire l eid tag =
        ((m.updLock l (fun x => { x with waiters := x.waiters ++ [(eid, tag)] })).bump Reg.LKA.ACQUIRES 1 (lockQuad l)).homeAnswer l eid
          tag 1 false (m.lock l).waiters.length))) ∧
  (∀ (m v : Mach) (l eid tag : Nat) (orphaned mark : Bool) (lease resend : Option Nat), mark = (orphaned || (m.lock l).orphan) →
    lease = (if m.isLocalEid eid then none else some (m.leaseDue l)) → resend = (if m.isLocalEid eid then none else some (m.clk + m.rto)) →
    v = ((m.updLock l (fun x => { x with
      held := some (eid, tag), orphan := false, carried := mark, gen := ((m.lock l).gen + 1) % 4294967296
      lease := lease, resend := resend })).bump Reg.LKA.GRANTS 1 (lockQuad l)).pmcEngine (lockQuad l) .lku 0x0B 1 →
    m.grantTo l eid tag orphaned = (if mark then v.bump Reg.LKA.ORPHAN_GRANTS 1 (lockQuad l) else v).homeAnswer l eid tag 2 mark) ∧
  (∀ (m : Mach) (l eid tag gen : Nat),
    (∀ t, (m.lock l).held = some (eid, t) → (m.lock l).gen = gen →
      m.homeRelease l eid tag gen = (m.homeAnswer l eid tag 3).handOn l (t == tag && (m.lock l).carried) ∧
      m.homeRenew l eid tag gen = m.updLock l (fun x => { x with lease := some (m.leaseDue l) })) ∧
    ((∀ t, (m.lock l).held = some (eid, t) → (m.lock l).gen ≠ gen) →
      m.homeRelease l eid tag gen = m.homeAnswer l eid tag 6 ∧ m.homeRenew l eid tag gen = m.homeAnswer l eid tag 8) ∧
    ((m.lock l).held = some (eid, tag) → m.homeWithdraw l eid tag = m) ∧
    ((m.lock l).held ≠ some (eid, tag) → (m.lock l).waiters.contains (eid, tag) = true → m.homeWithdraw l eid tag =
      ((m.updLock l (fun x => { x with waiters := x.waiters.filter (· != (eid, tag)) })).bump Reg.LKA.WITHDRAWS 1
        (lockQuad l)).homeAnswer l eid tag 5) ∧
    ((m.lock l).held ≠ some (eid, tag) → (m.lock l).waiters.contains (eid, tag) = false →
      m.homeWithdraw l eid tag = m.homeAnswer l eid tag 5)) ∧
  (∀ (m u : Mach) (l : Nat), u = m.bump Reg.LKA.FORCES 1 (lockQuad l) →
    ((u.lock l).held = none → m.homeForce l = u) ∧
    (∀ e t, (u.lock l).held = some (e, t) →
      m.homeForce l = ((u.record 0x7062 (lockQuad l) [l, e]).homeAnswer l e t 8).handOn l true)) ∧
  (∀ (m u : Mach) (l : Nat) (orphaned : Bool),
    u = m.updLock l (fun x => { x with held := none, carried := false, lease := none, resend := none, orphan := orphaned }) →
    ((u.lock l).waiters = [] → m.handOn l orphaned = u.lockChanged l) ∧
    (∀ e t r, (u.lock l).waiters = (e, t) :: r → m.handOn l orphaned =
      ((u.updLock l (fun x => { x with waiters := r, orphan := false })).grantTo l e t orphaned).lockChanged l)) ∧
  (∀ (s : State) (lock : Nat),
    ((s.m.lock lock).held = none ∨ (s.m.lock lock).resend = none → Completes (.grantResend lock) s s.m) ∧
    ((s.m.lock lock).held = none ∨ (s.m.lock lock).lease = none → Completes (.leaseExpiry lock) s s.m)) ∧
  (∀ (s : State) (lock e t : Nat), (s.m.lock lock).held = some (e, t) →
    (∀ due u, (s.m.lock lock).resend = some due → u = s.m.elapseTo due → Completes (.grantResend lock) s
      ((u.updLock lock (fun x => { x with resend := some (u.clk + u.rto) })).homeAnswer lock e t 2 (s.m.lock lock).carried)) ∧
    (∀ due u, (s.m.lock lock).lease = some due →
      u = (s.m.elapseHgt (lockQuad lock) (due - s.m.hgt (lockQuad lock))).bump Reg.LKA.LEASE_EXPIRIES 1 (lockQuad lock) →
      Completes (.leaseExpiry lock) s ((((u.raise 87 .none lock (lockQuad lock)).record 0x7061 (lockQuad lock) [lock, e]).handOn lock
        true).resumeAcquires))) ∧
  (∀ (s : State) (r : Requester) (l : Nat), s.m.passes r Reg.LKA.FORCE l = true →
    Completes (.lockCmdForce r) s (((s.m.reach r Reg.LKA.FORCE).homeForce l).resumeAcquires))

/-- An LK_RSP acts by its CODE at the requester, and acquires that wait for the held list may go on. QUEUED stops the
resends of an acquire and starts its probe a LEASE_MS later where the home is another module. GRANTED of a waiting
acquire makes the lock held with its GEN, to be renewed a quarter of LEASE_MS later where its home is another module,
completes the work (LOCK_ORPHANED if the grant is so marked) and is acknowledged to another module, as a grant that
comes again is; where nothing waits for it, it is returned there with LK_REL. RELEASED completes a release with OK,
FORCED a force. WITHDRAWN ends a withdrawn request. NO_HOLD completes a release with REMOTE_ACCESS_FAULT DETAIL 1 if
it was the first copy, else with OK. BUSY starts the RNR delay. LOST marks a held or releasing lock lost and records
0x7065. An answer of another code, or of one that the request does not await, does nothing. LOCK_TIMEOUT withdraws
with TIMEOUT. LKU_REQUEST_RESEND sends again, or past RETRY_MAX gives up with RETRY_EXCEEDED, or BAD_ROUTE if every
copy met PEER_DOWN. LOCK_PROBE asks again and rearms. LOCK_BUSY_RETRY sends again, or past RNR_TIMEOUT raises FS86 and
gives up with TIMEOUT. LEASE_RENEWAL renews every lock that is due. A timer that is not running does nothing. CNT_CLR
clears the quadrant's ten counters. -/
def Obligations.LockRequestsAreAnsweredResentAndGivenUp : Prop :=
  (∀ (s : State) (k : Packet) (h : LkuHdr) (u : Mach), s.m.lkuComes k 0x25 h u → Completes (.lkRsp k) s
    (u.lkAnswered (quadOfSlot (k.hdr.dst % 16)) (k.hdr.dst % 16) h.code h.tag h.lockId h.gen (bit h.b25 0) (some k.hdr.src)).resumeAcquires) ∧
  (∀ (m : Mach) (q slot tag l gen : Nat) (o : Bool) (src : Option Nat),
    m.lkAnswered q slot 1 tag l gen o src = m.updReq q tag (fun x => if x.kind = 0x20 then
      { x with due := none, busy := none, busySince := none
               probe := if src.isSome then some (m.clk + m.leaseMs * Config.msCycles) else none } else x) ∧
    (∀ h u, m.heldLock q tag = some h → h.st = .waiting → u = (m.updHeld q tag (fun h =>
        { h with
          st := .held, gen := gen
          renew := if src.isSome then some (m.clk + m.leaseMs * Config.msCycles / 4) else none })).endReq q tag (if o then 6 else 0) 0 →
      m.lkAnswered q slot 2 tag l gen o src =
        src.elim u (fun home => (u.lkuSend q slot home 0x26 { lkuHdr l tag with gen := gen }).1)) ∧
    (∀ h, m.heldLock q tag = some h → h.st ≠ .waiting → m.lkAnswered q slot 2 tag l gen o src =
      src.elim m (fun home => (m.lkuSend q slot home 0x26 { lkuHdr l tag with gen := gen }).1)) ∧
    (m.heldLock q tag = none → m.lkAnswered q slot 2 tag l gen o src =
      src.elim m (fun home => (m.lkuSend q slot home 0x21 { lkuHdr l tag with gen := gen }).1)) ∧
    (m.lkReq q tag = none → ∀ code, 3 ≤ code → code ≤ 6 → m.lkAnswered q slot code tag l gen o src = m) ∧
    (∀ x, m.lkReq q tag = some x →
      (x.kind = 0x21 → m.lkAnswered q slot 3 tag l gen o src = m.endRelease x 0 0) ∧
      (x.kind ≠ 0x21 → m.lkAnswered q slot 3 tag l gen o src = m ∧ m.lkAnswered q slot 6 tag l gen o src = m) ∧
      (x.kind = 0x22 → m.lkAnswered q slot 4 tag l gen o src = m.endReq q tag 0 0) ∧
      (x.kind ≠ 0x22 → m.lkAnswered q slot 4 tag l gen o src = m) ∧
      (∀ st, x.withdraw = some st → m.lkAnswered q slot 5 tag l gen o src = (m.dropHeld q tag).endReq q tag st 0) ∧
      (x.withdraw = none → m.lkAnswered q slot 5 tag l gen o src = m) ∧
      (x.kind = 0x21 → m.lkAnswered q slot 6 tag l gen o src =
        if x.resends = 0 then m.endRelease x 1 1 else m.endRelease x 0 0)) ∧
    m.lkAnswered q slot 7 tag l gen o src = m.updReq q tag (fun x => if x.kind = 0x20 then
      { x with due := none, probe := none, busy := some (m.clk + m.rnrDelay'), busySince := x.busySince.or (some m.clk) } else x) ∧
    (∀ h, m.heldLock q tag = some h → h.st = .held ∨ h.st = .releasing → m.lkAnswered q slot 8 tag l gen o src =
      (m.updHeld q tag (fun h => { h with st := .lost, renew := none })).record 0x7065 q [h.slot, h.fn, h.da, h.lock]) ∧
    (∀ h, m.heldLock q tag = some h → h.st = .waiting ∨ h.st = .lost → m.lkAnswered q slot 8 tag l gen o src = m) ∧
    (m.heldLock q tag = none → m.lkAnswered q slot 8 tag l gen o src = m) ∧
    (∀ code, code = 0 ∨ 8 < code → m.lkAnswered q slot code tag l gen o src = m)) ∧
  (∀ (s : State) (q : Quad) (tag : Nat), s.m.lkReq q tag = none → Completes (.lockTimeout q tag) s s.m ∧
    Completes (.lkuRequestResend q tag) s s.m ∧ Completes (.lockProbe q tag) s s.m ∧ Completes (.lockBusyRetry q tag) s s.m) ∧
  (∀ (s : State) (q : Quad) (tag : Nat) (x : LkReq), s.m.lkReq q tag = some x →
    (x.timeout = none → Completes (.lockTimeout q tag) s s.m) ∧ (x.due = none → Completes (.lkuRequestResend q tag) s s.m) ∧
    (x.probe = none → Completes (.lockProbe q tag) s s.m) ∧ (x.busy = none → Completes (.lockBusyRetry q tag) s s.m)) ∧
  (∀ (s : State), s.m.lka.held.filterMap (fun h => h.renew) = [] → Completes .leaseRenewal s s.m) ∧
  (∀ (s : State) (q : Quad) (tag : Nat) (x : LkReq), s.m.lkReq q tag = some x →
    (∀ due, x.timeout = some due → Completes (.lockTimeout q tag) s ((s.m.elapseTo due).withdrawReq q tag 7).resumeAcquires) ∧
    (∀ due u, x.due = some due → u = s.m.elapseTo due →
      (u.retryMax ≤ x.resends → Completes (.lkuRequestResend q tag) s (u.failReq x (if x.allDown then 0x03 else 0x09)).resumeAcquires) ∧
      (x.resends < u.retryMax → Completes (.lkuRequestResend q tag) s
        ((u.updReq q tag (fun x => { x with resends := x.resends + 1 })).sendReq q tag))) ∧
    (∀ due u v, x.probe = some due → u = s.m.elapseTo due →
      v = u.updReq q tag (fun x => { x with probe := some (u.clk + u.leaseMs * Config.msCycles) }) →
      Completes (.lockProbe q tag) s (v.lkuSend q x.slot x.dst 0x20 x.hdr (some x.queue) (some x.flow) x.minOnly).1) ∧
    (∀ due u, x.busy = some due → u = s.m.elapseTo due →
      (x.busySince.getD u.clk + u.rnrTimeout' ≤ u.clk → Completes (.lockBusyRetry q tag) s
        ((u.raise 86 .none (if x.kind = 0x28 then 2 else 1) q).failReq x 0x07).resumeAcquires) ∧
      (u.clk < x.busySince.getD u.clk + u.rnrTimeout' → Completes (.lockBusyRetry q tag) s
        ((u.updReq q tag (fun x => { x with busy := none })).sendReq q tag).resumeAcquires))) ∧
  (∀ (s : State) (d : Nat) (r : List Nat) (u : Mach), s.m.lka.held.filterMap (fun h => h.renew) = d :: r → u = s.m.elapseTo (r.foldl min d) →
    Completes .leaseRenewal s ((u.lka.held.filter (fun h => h.renew.any (fun t => decide (t ≤ u.clk)))).foldl (fun a h =>
      ((a.updHeld h.q h.tag (fun h => { h with renew := some (a.clk + a.leaseMs * Config.msCycles / 4) })).lkuSend h.q h.slot (16 * h.da)
        0x23 { lkuHdr h.lock h.tag with gen := h.gen }).1) u)) ∧
  (∀ (s : State) (r : Requester) (q : Nat), s.m.passes r Reg.LKA.CNT_CLR q = true → Completes (.lkaCntClr r) s
    ((s.m.reach r Reg.LKA.CNT_CLR).clear [Reg.LKA.ACQUIRES, Reg.LKA.GRANTS, Reg.LKA.ORPHAN_GRANTS, Reg.LKA.LEASE_EXPIRIES, Reg.LKA.FORCES,
      Reg.LKA.WITHDRAWS, Reg.LKA.ATOMICS, Reg.LKA.AT_DUP, Reg.LKA.EVT_SKIPPED, Reg.LKA.PROTO_DROP] q))

/-- An AT_REQ for an absent slot is answered BAD_ROUTE. One whose result is kept is answered from the table and counted in
AT_DUP; a copy of one in progress is dropped; with 65,536 kept in the quadrant a new one is answered TIMEOUT. A new
one that its window does not allow (VALID, of the slot, the peer, the right AT, within the length, aligned to its
size) is answered WINDOW_INVALID. One that it admits is translated with access kind 7 and starts in its turn, waits
for its walk, or is answered REMOTE_ACCESS_FAULT; one for a function that is held back by its reset or asleep does
nothing but that a D3hot function asks for its PME. When its operand comes, the LKU writes the value of Table 11-6 and
answers with the fetched one; a failed read is answered HOST_DATA_ERROR with memory unchanged. An AT_RSP of TIMEOUT
starts the RNR delay; another is acknowledged and ends the work, for OK with the fetched value in DATA, and at a
RESULT_ADDR that is not 0 in host memory too (access kind 4), which may wait for its translation or fault. An AT_RSP
for no atomic of this module only is acknowledged. An AT_ACK and RESULT_TABLE_EXPIRY, 2 LIFETIMEs after it was done,
forget a result; the expiry of one that is not kept does nothing. On 4 or 8 bytes the operations give addition modulo
the width, exchange, compare and exchange, AND, OR, XOR, and the unsigned minimum and maximum. -/
def Obligations.AtomicsActOnceAtTheirTarget : Prop :=
  (∀ (s : State) (k : Packet) (h : LkuHdr) (u : Mach) (slot : Nat), s.m.lkuComes k 0x28 h u → slot = k.hdr.dst % 16 →
    (u.slotPresent slot = false → Completes (.atReq k) s (u.atRsp slot k.hdr.src h.tag 3 0 0).resumeAcquires) ∧
    (∀ x, u.slotPresent slot = true → u.atom slot k.hdr.src h.tag = some x →
      (x.st = .done → Completes (.atReq k) s
        ((u.bump Reg.LKA.AT_DUP 1 (quadOfSlot slot)).atRsp slot x.src x.tag x.status x.detail x.value).resumeAcquires) ∧
      (x.st ≠ .done → Completes (.atReq k) s u.resumeAcquires)) ∧
    (u.slotPresent slot = true → u.atom slot k.hdr.src h.tag = none →
      (65536 ≤ (u.lka.atoms.filter (fun x => quadOfSlot x.slot == quadOfSlot slot)).length →
        Completes (.atReq k) s ((u.tableFull (quadOfSlot slot)).atRsp slot k.hdr.src h.tag 7 0 0).resumeAcquires) ∧
      ((u.lka.atoms.filter (fun x => quadOfSlot x.slot == quadOfSlot slot)).length < 65536 →
        Completes (.atReq k) s (u.startAtom k h).resumeAcquires))) ∧
  (∀ (m : Mach) (k : Packet) (h : LkuHdr) (size : Nat) (w : Window), m.atomWindow k h size = some w ↔
    Tbl.find m.cxn.windows (h.queued % 1048576) = some w ∧ w.valid = true ∧ w.slot = k.hdr.dst % 16 ∧
      (w.peer = none ∨ w.peer = some k.hdr.src) ∧ w.atm = true ∧ h.offset + size ≤ w.len ∧ h.offset % size = 0) ∧
  (∀ (m : Mach) (k : Packet) (h : LkuHdr) (w : Window), m.atomWindow k h (2 ^ (h.b25 % 16)) = some w →
    ((m.func w.slot w.func).barred = true → m.startAtom k h = m) ∧
    ((m.func w.slot w.func).barred = false → m.awake w.slot w.func = false →
      m.startAtom k h = if (m.func w.slot w.func).d3 then m.pme w.slot w.func else m)) ∧
  (∀ (m u : Mach) (k : Packet) (h : LkuHdr) (slot size : Nat) (x : AtEntry), slot = k.hdr.dst % 16 → size = 2 ^ (h.b25 % 16) →
    x = { src := k.hdr.src, tag := h.tag, slot := slot, aop := h.code, size := size, pd := 0, func := 0, va := 0,
          op1 := h.op1, op2 := h.op2, st := .translating } →
    (m.atomWindow k h size = none →
      m.startAtom k h = { m with lka := { m.lka with atoms := m.lka.atoms ++ [x] } }.atomDone x 0x0D 0 0) ∧
    (∀ w v f, m.atomWindow k h size = some w → (m.func w.slot w.func).barred = false → m.awake w.slot w.func = true →
      u = { m with lka := { m.lka with atoms := m.lka.atoms ++ [{ x with pd := w.pd, func := w.func, va := w.base + h.offset }] } } →
      u.hostAccess { slot := slot, func := w.func, pd := w.pd, va := w.base + h.offset, len := size, kind := 7, data := none, purpose := .atomicAddr slot k.hdr.src h.tag } = (v, f) →
      (f = .issued → m.startAtom k h = v.pumpAtoms (quadOfSlot slot)) ∧ (f = .waiting → m.startAtom k h = v) ∧
      (∀ z, f = .fault z → m.startAtom k h = v.atomFault slot k.hdr.src h.tag z))) ∧
  (∀ (s : State) (k : Packet) (h : LkuHdr) (u v : Mach) (slot q : Nat), s.m.lkuComes k 0x29 h u → slot = k.hdr.dst % 16 →
    q = quadOfSlot slot → v = (u.lkuSend q slot k.hdr.src 0x2A (lkuHdr 0 h.tag)).1 →
    (h.code = 7 → Completes (.atRsp k) s (u.updReq q h.tag (fun x => if x.kind = 0x28 then
      { x with due := none, busy := some (u.clk + u.rnrDelay'), busySince := x.busySince.or (some u.clk) } else x)).resumeAcquires) ∧
    (h.code ≠ 7 → v.lkReq q h.tag = none → Completes (.atRsp k) s v.resumeAcquires) ∧
    (∀ x, h.code ≠ 7 → v.lkReq q h.tag = some x → x.kind = 0x28 →
      (h.code ≠ 0 → Completes (.atRsp k) s (v.endReq q h.tag h.code h.b25).resumeAcquires) ∧
      (h.code = 0 → x.resultAddr = 0 →
        Completes (.atRsp k) s ((v.dropReq q h.tag).atomicEnd x.ring x.seq h.op1 none).resumeAcquires) ∧
      (∀ w z, h.code = 0 → x.resultAddr ≠ 0 → (v.dropReq q h.tag).wr x.ring = some w →
        (v.dropReq q h.tag).hostAccess { slot := w.slot, func := w.func, pd := w.pd, va := x.resultAddr, len := 2 ^ (x.hdr.b25 % 16), kind := 4, data := some (leBytes (2 ^ (x.hdr.b25 % 16)) h.op1), purpose := .atomicResult x.ring x.seq h.op1 } = (z, .issued) →
        Completes (.atRsp k) s (z.atomicEnd x.ring x.seq h.op1 none).resumeAcquires) ∧
      (∀ w z, h.code = 0 → x.resultAddr ≠ 0 → (v.dropReq q h.tag).wr x.ring = some w →
        (v.dropReq q h.tag).hostAccess { slot := w.slot, func := w.func, pd := w.pd, va := x.resultAddr, len := 2 ^ (x.hdr.b25 % 16), kind := 4, data := some (leBytes (2 ^ (x.hdr.b25 % 16)) h.op1), purpose := .atomicResult x.ring x.seq h.op1 } = (z, .waiting) →
        Completes (.atRsp k) s z.resumeAcquires) ∧
      (∀ w z f, h.code = 0 → x.resultAddr ≠ 0 → (v.dropReq q h.tag).wr x.ring = some w →
        (v.dropReq q h.tag).hostAccess { slot := w.slot, func := w.func, pd := w.pd, va := x.resultAddr, len := 2 ^ (x.hdr.b25 % 16), kind := 4, data := some (leBytes (2 ^ (x.hdr.b25 % 16)) h.op1), purpose := .atomicResult x.ring x.seq h.op1 } = (z, .fault f) →
        Completes (.atRsp k) s (z.atomicEnd x.ring x.seq h.op1 (some f)).resumeAcquires)) ∧
    (∀ x, h.code ≠ 7 → v.lkReq q h.tag = some x → x.kind ≠ 0x28 → Completes (.atRsp k) s v.resumeAcquires)) ∧
  (∀ (m : Mach) (ring seq value : Nat) (f : XFault),
    m.atomicEnd ring seq value (some f) = m.finishWork ring seq 0x02 f.detail value ∧
    (∀ w, m.workAt ring seq = some w → m.atomicEnd ring seq value none = m.finishWork ring seq 0 0 value (2 ^ (w.entry.arg / 256 % 16)))) ∧
  (∀ (m : Mach) (slot src tag : Nat) (x : AtEntry) (data : List Byte), m.atom slot src tag = some x →
    (x.st ≠ .reading → m.operandRead slot src tag data = m ∧ m.operandFailed slot src tag = m) ∧
    (x.st = .reading →
      (m.operandFailed slot src tag = (m.atomDone x 0x0E 0 0).pumpAtoms (quadOfSlot slot)) ∧
      ∀ mem u, mem = field data 0 x.size → u = (cutData x.segs (leBytes x.size (atomicValue x.aop x.size mem x.op1 x.op2))).foldl
          (fun a c => a.emit (.hostWrite slot x.func c.1 c.2)) m →
        m.operandRead slot src tag data = (((u.bump Reg.LKA.ATOMICS 1 (quadOfSlot slot)).pmcEngine (quadOfSlot slot) .lku 0x0B 1).atomDone
          x 0 0 mem).pumpAtoms (quadOfSlot slot)) ∧
    (∀ f, m.atomFault slot src tag f = m.atomDone x 0x01 f.detail 0)) ∧
  (∀ (s : State) (k : Packet) (h : LkuHdr) (u : Mach), s.m.lkuComes k 0x2A h u → Completes (.atAck k) s
    { u with lka := { u.lka with atoms := u.lka.atoms.filter (fun (x : AtEntry) =>
      !(x.slot == k.hdr.dst % 16 && x.src == k.hdr.src && x.tag == h.tag && x.st == AtState.done)) } }.resumeAcquires) ∧
  (∀ (s : State) (slot : Slot) (src tag : Nat), s.m.atom slot src tag = none ∨ (s.m.atom slot src tag).any (fun x => x.st != .done) = true →
    Completes (.resultTableExpiry slot src tag) s s.m) ∧
  (∀ (s : State) (slot : Slot) (src tag : Nat) (x : AtEntry) (u : Mach), s.m.atom slot src tag = some x → x.st = .done →
    u = s.m.elapseTo (x.doneAt + 4 * s.m.lifetime) → Completes (.resultTableExpiry slot src tag) s
      { u with lka := { u.lka with atoms := u.lka.atoms.filter (fun x => !(x.slot == slot.val && x.src == src && x.tag == tag)) } }) ∧
  (∀ (w mem a b : Nat), w = 4 ∨ w = 8 → a < 2 ^ (8 * w) → b < 2 ^ (8 * w) →
    atomicValue 0 w mem a b = (mem + a) % 2 ^ (8 * w) ∧ atomicValue 1 w mem a b = a ∧
    atomicValue 2 w mem a b = (if mem = b then a else mem) ∧ atomicValue 3 w mem a b = mem &&& a ∧
    atomicValue 4 w mem a b = mem ||| a ∧ atomicValue 5 w mem a b = mem ^^^ a ∧
    atomicValue 8 w mem a b = min mem a ∧ atomicValue 9 w mem a b = max mem a)

/-- INJECTION_GRANT makes at most one grant a cycle in a mode with links: it counts who waits, picks, and where a packet
is picked counts the grant, remembers the message's first injection, and injects the packet with its AGE, after which
the message's transmit window may offer more; a packet that fits no open span counts in GATE_OVERRUNS and records
0x6041. The pick is from TC3 wherever a TC3 packet could go and its limiter is not parked, which it then charges;
where it is parked that is counted in TC3_HELD, and the pick is among the other TCs. A head packet of the quadrant
that the gates hold, and no wheel, is counted in GATE_WAITS once. A grant is allowed while the gates are not in force
or its TC never closes, and otherwise only where the open span now leaves it the time it needs. A rate-limited
member's eligible time becomes the later of what it was and the burst window's start, plus the packet's time at its
rate; it is parked, and counted, while that lies ahead. WHEEL_SLOT lets the earliest slot come round: fine members
leave, coarse ones move to the fine wheel or leave; with none parked it does nothing. GATE_CHANGE lets the time pass
to the next boundary. GATE_SWAP arms the staged list for SWAP_TIME, replacing a pending one. GATE_SWAP_INSTANT puts it
into force at its first cycle start at or after SWAP_TIME and the write, and records 0x6040. GATE_EN is stored.
CNT_CLR clears the quadrant's six counters. -/
def Obligations.GrantsTheWheelAndTheGatesDoAsFileTwelveSays : Prop :=
  (∀ (s : State) (q : Quad), s.m.netModes = false → Completes (.injectionGrant q) s s.m) ∧
  (∀ (s : State) (q : Quad) (u v : Mach), s.m.netModes = true →
    u = (if Tbl.find s.m.sch.last q.val = some s.m.clk then s.m.elapse 1 else s.m).countWaits q →
    (u.pickGrant q = (v, none) → Completes (.injectionGrant q) s v) ∧
    (∀ (o : Offer) (w x y : Mach), u.pickGrant q = (v, some o) →
      w = ((if v.neverFits (o.pkt.hdr.tc % 4) (v.cost o.pkt) then (v.bump Reg.SCH.GATE_OVERRUNS 1 q).record 0x6041 q
        [o.pkt.hdr.tc % 4, v.cost o.pkt] else v).bump Reg.SCH.GRANTS 1 q).noteFirst o →
      x = { w with sch := { w.sch with last := Tbl.set w.sch.last q.val w.clk } } →
      y = (if endsMessage o.pkt then x.pmcEngine q .txe 0x0B 1 else x) →
      Completes (.injectionGrant q) s
        (o.tx.elim (y.inject q (y.withAge q o)) (fun c => ((y.inject q (y.withAge q o)).injected o).pumpSend c.1)))) ∧
  (∀ (m : Mach) (q : Nat),
    ((m.pickGroup q 3).isSome = true → m.isParked q (tc3Id q) = false →
      (m.grantIn q 3 = none → m.pickGrant q = (m, none)) ∧
      (∀ o u, m.grantIn q 3 = some (o, u) → m.pickGrant q =
        (u.charge q (tc3Id q) (u.get Reg.SCH.TC3_RATE q) (u.get Reg.SCH.TC3_BURST q) (u.cost o.pkt), some o))) ∧
    (∀ u, ((m.pickGroup q 3).isSome = true ∧ m.isParked q (tc3Id q) = true ∧ u = m.bump Reg.SCH.TC3_HELD 1 q) ∨
        ((m.pickGroup q 3).isSome = false ∧ u = m) →
      (u.pickTc q = none → m.pickGrant q = (u, none)) ∧
      (∀ c, u.pickTc q = some c → (u.setDrr (tcList q) c.list).grantIn q c.m = none → m.pickGrant q = (u, none)) ∧
      (∀ c o w, u.pickTc q = some c → (u.setDrr (tcList q) c.list).grantIn q c.m = some (o, w) →
        m.pickGrant q = (w.retire (tcList q) c.m (w.drr (groupList q c.m)).isEmpty, some o)))) ∧
  (∀ (m : Mach) (q : Nat), (m.gated = false → m.countWaits q = m) ∧
    (∀ id tc o r, m.gated = true → tc < 4 → (id / 16384 = q ∧ id < 65536) ∨ id = 65536 + q → m.sch.fifo = [(fifoKey id tc, o :: r)] →
      (o.waited = true ∨ m.fits q tc (m.cost o.pkt) = true ∨ m.isParked q id = true → m.countWaits q = m) ∧
      (o.waited = false → m.fits q tc (m.cost o.pkt) = false → m.isParked q id = false →
        m.countWaits q = (m.setFifo id tc ({ o with waited := true } :: r)).bump Reg.SCH.GATE_WAITS 1 q))) ∧
  (∀ (m : Mach) (q tc cost : Nat),
    (m.gated = false ∨ m.sch.gates.alwaysOpen tc = true → m.fits q tc cost = true) ∧
    (m.gated = true → m.sch.gates.alwaysOpen tc = false →
      (m.sch.gates.runAt tc (m.sch.gates.pos (m.hgt q)) = none → m.fits q tc cost = false) ∧
      (∀ since len, m.sch.gates.runAt tc (m.sch.gates.pos (m.hgt q)) = some (since, len) → m.neverFits tc cost = false →
        (m.fits q tc cost = true ↔ 10 * (5 * cost + 1000 * m.get Reg.SCH.GATE_GUARD) ≤ 625 * (len - since))))) ∧
  (∀ (m u : Mach) (q id rate burst cost t : Nat), m.charge q id 0 burst cost = m ∧
    (rate ≠ 0 → t = max (Tbl.get m.sch.elig id 0) (500000 * m.clk - (64 * burst * 8000000000 / min 1600000 rate + 20000000)) +
        cost * 8000000000 / min 1600000 rate →
      u = { m with sch := { m.sch with elig := Tbl.set m.sch.elig id t } } →
      (t ≤ 500000 * m.clk → m.charge q id rate burst cost = u) ∧
      (500000 * m.clk < t → ∃ due coarse, m.charge q id rate burst cost = { u with sch := { u.sch with
        parked := Tbl.modify u.sch.parked q [] (fun l => l ++ [({ key := id, coarse := coarse, due := due, t := t } : Parked)]) } }.bump Reg.SCH.PARKS 1 q ∧
        (coarse = true ↔ 4096 * 20000000 ≤ t - 500000 * m.clk) ∧
        (coarse = false → t < due ∧ due ≤ t + 20000000 ∧ due % 20000000 = 0)))) ∧
  (∀ (s : State) (q : Quad), s.m.nextSlot q = none → Completes (.wheelSlot q) s s.m) ∧
  fineSlot = 20000000 ∧
  (∀ (fs : Nat) (p : Parked),
    (fs < p.due → slotRound fs p = some p) ∧ (p.due ≤ fs → p.coarse = false → slotRound fs p = none) ∧
    (p.due ≤ fs → p.coarse = true →
      (fs < (p.t / fineSlot + 1) * fineSlot →
        slotRound fs p = some { p with coarse := false, due := (p.t / fineSlot + 1) * fineSlot }) ∧
      ((p.t / fineSlot + 1) * fineSlot ≤ fs → slotRound fs p = none))) ∧
  (∀ (s : State) (q : Quad) (due : Nat) (u : Mach), s.m.nextSlot q = some due → u = s.m.elapseTo ((due + 499999) / 500000) →
    Completes (.wheelSlot q) s { u with sch := { u.sch with
      parked := Tbl.modify u.sch.parked q.val [] (fun l => l.filterMap (slotRound u.fs)) } }) ∧
  (∀ s : State, (s.m.gated = false → Completes .gateChange s s.m) ∧
    (∀ i stop mask, s.m.gated = true → spanAt (s.m.sch.gates.pos (s.m.hgt s.m.refQuad)) 0 0 s.m.sch.gates.spans = (i, stop, mask) →
      Completes .gateChange s (s.m.elapseHgt s.m.refQuad (stop - s.m.sch.gates.pos (s.m.hgt s.m.refQuad))))) ∧
  (∀ (s : State) (r : Requester) (i : Nat) (u : Mach), s.m.passes r Reg.SCH.GATE_SWAP i = true → u = s.m.acted r Reg.SCH.GATE_SWAP 1 →
    Completes (.gateSwap r) s { u with sch := { u.sch with
      swapAt := some (u.get64 Reg.SCH.SWAP_TIME_LO Reg.SCH.SWAP_TIME_HI, u.hgtRef) } }) ∧
  (∀ s : State, (s.m.sch.swapAt = none → Completes .gateSwapInstant s s.m) ∧
    (∀ t armed start u, s.m.sch.swapAt = some (t, armed) → start = s.m.stagedGates.startFrom (max t armed) →
      u = (if s.m.hgt s.m.refQuad < start then s.m.elapseHgt s.m.refQuad (start - s.m.hgt s.m.refQuad) else s.m) →
      Completes .gateSwapInstant s
        ({ u with sch := { u.sch with gates := s.m.stagedGates, swapAt := none } }.record 0x6040 s.m.refQuad [start]))) ∧
  (∀ (s : State) (r : Requester) (i : Nat) (on : Bool), s.m.passes r Reg.SCH.GATE_EN i = true →
    Completes (.gateEn r on) s (s.m.stored r Reg.SCH.GATE_EN (b2n on) i)) ∧
  (∀ (s : State) (r : Requester) (i : Nat) (u : Mach), s.m.passes r Reg.SCH.CNT_CLR i = true → u = s.m.acted r Reg.SCH.CNT_CLR 1 →
    Completes (.schCntClr r) s (u.clear [Reg.SCH.GRANTS, Reg.SCH.SYS_GRANTS, Reg.SCH.PARKS, Reg.SCH.GATE_WAITS, Reg.SCH.TC3_HELD,
      Reg.SCH.GATE_OVERRUNS] i))

/-- SWAP runs in CONFIG and DRAIN while no swap of the class is under way: a variant that is not available ends FAILED
with SWAP_ERR 3; with no other class swapping the swap is LOADING with SWAP_ERR 0; otherwise it is DEFERRED. Outside
these modes it is ignored with SWAP_ERR 1, and during a swap of its class with 4. SWAP_LOADED of a good variant puts
it into STANDBY; of a bad one the swap ends FAILED with SWAP_ERR 2, FS116 and 0x8005, and the engines go on with the
old table; where no swap of the class runs or it is loaded already it does nothing. TABLE_SWITCH, once the engines of
the class are quiet, exchanges the tables, records 0x8002, writes the ledger and after the entry takes measurement 10
(a full ledger gets neither), stores the selection, reports DONE, and lets the rings scan again if the class is the
TXE's; before that, and for a class without a loaded variant, it does nothing. DEFERRED_ACTIVITY_START starts the
first deferred request whose conflict has ended: a repair, a scan, an audit or a swap; where none can start it does
nothing. CNT_CLR clears the deferrals, the six counters and every TEMP_MAX. -/
def Obligations.SwapsAndDeferredWorkRunInTurn : Prop :=
  (∀ (s : State) (r : Requester) (c : Nat), s.m.passes r Reg.SEQ.SWAP c = true →
    (∀ u, swapMode s.m.mode = true → c ∉ s.m.seqr.swaps.keys → u = s.m.acted r Reg.SEQ.SWAP 1 →
      Completes (.swap r) s (u.askSwap (u.roleOf r).code c)) ∧
    (∀ u, u = (s.m.crossAon r Reg.SEQ.SWAP).ignoreWrite r Reg.SEQ.SWAP 1 →
      (swapMode s.m.mode = false → Completes (.swap r) s (u.put Reg.SEQ.SWAP_ERR 1 c)) ∧
      (swapMode s.m.mode = true → c ∈ s.m.seqr.swaps.keys → Completes (.swap r) s (u.put Reg.SEQ.SWAP_ERR 4 c)))) ∧
  (∀ (m : Mach) (role c v : Nat), v = m.get Reg.SEQ.VAR_SEL c →
    (bit (Tbl.get m.seqr.avail c 0) v = false → m.askSwap role c =
      ({ m with seqr := { m.seqr with swaps := Tbl.del m.seqr.swaps c } }.put Reg.SEQ.SWAP_STATUS 4 c).put Reg.SEQ.SWAP_ERR 3 c) ∧
    (bit (Tbl.get m.seqr.avail c 0) v = true → m.seqr.swaps = [] → m.askSwap role c =
      ({ m with seqr := { m.seqr with swaps := (Tbl.set [] c { variant := v, role := role }) } }.put Reg.SEQ.SWAP_STATUS 1 c).put
        Reg.SEQ.SWAP_ERR 0 c) ∧
    (bit (Tbl.get m.seqr.avail c 0) v = true → m.seqr.swaps ≠ [] → m.askSwap role c =
      (({ m with seqr := { m.seqr with swaps := (Tbl.set m.seqr.swaps c { variant := v, role := role, started := false }) } }.put
        Reg.SEQ.SWAP_STATUS 2 c).put Reg.SEQ.SWAP_ERR 0 c).defer 10 c 5)) ∧
  (∀ (s : State) (c : EngClass) (v : VariantIn) (w : Swap), Tbl.find s.m.seqr.swaps c.code = some w → w.started = true → w.loaded = none →
    (v.ok = true → Completes (.swapLoaded c v) s ({ s.m with seqr := { s.m.seqr with swaps := (Tbl.set s.m.seqr.swaps c.code
      { w with loaded := some { variant := w.variant, version := v.version, steps := v.steps } }) } }.put Reg.SEQ.SWAP_STATUS 2 c.code)) ∧
    (∀ u, v.ok = false → u = (((s.m.raise 116 .none c.code).record 0x8005 5 [c.code, w.variant]).swapFail c.code 2) →
      Completes (.swapLoaded c v) s (if c.code = 1 then u.rescanAll else u))) ∧
  (∀ (s : State) (c : EngClass) (v : VariantIn), (Tbl.find s.m.seqr.swaps c.code).all (fun w => !w.started || w.loaded.isSome) = true →
    Completes (.swapLoaded c v) s s.m) ∧
  (∀ (s : State) (c : EngClass),
    (Tbl.find s.m.seqr.swaps c.code).all (fun w => w.loaded.isNone || !s.m.classQuiet c) = true → Completes (.tableSwitch c) s s.m) ∧
  (∀ (s : State) (c : EngClass) (w : Swap) (t : ClsTable) (u : Mach) (s0 s' : State) (v : Mach), Tbl.find s.m.seqr.swaps c.code = some w →
    w.loaded = some t → s.m.classQuiet c = true →
    u = { s.m with seqr := { s.m.seqr with tables := Tbl.set s.m.seqr.tables c.code t, swaps := Tbl.del s.m.seqr.swaps c.code } }.record
      0x8002 5 [c.code, (s.m.table c.code).variant, t.variant] →
    s0 = { s with m := u }.ledgerWrite 3 0 (c.code + 256 * (s.m.table c.code).variant + 65536 * t.variant + 16777216 * w.role)
      (component 2 u.boot.mgcVersion) u.digestSet →
    s' = (if 65536 ≤ u.evr.ledger then s0 else { s0 with m := s0.m.measured 10 s0.ledgerHead }) →
    v = { s'.m with seqr := { s'.m.seqr with stored := Tbl.set s'.m.seqr.stored c.code t.variant } }.put Reg.SEQ.SWAP_STATUS 3 c.code →
    exec (.tableSwitch c) s = .next { s' with m := if c.code = 1 then v.rescanAll else v }) ∧
  (∀ (s : State), (s.m.hive.deferred.find? s.m.mayStart = none → Completes .deferredActivityStart s s.m) ∧
    (∀ d, s.m.hive.deferred.find? s.m.mayStart = some d → Completes .deferredActivityStart s (s.m.startDeferred d))) ∧
  (∀ (m : Mach) (k : Nat),
    (∀ u a, u = m.undefer 2 k (k / 65536) → u.seqr.repairQ.find? (fun a => bankKey a == k) = some a → m.startDeferred (2, k) =
      { u with seqr := { u.seqr with repairQ := u.seqr.repairQ.filter (fun b => bankKey b != k) } }.startRepair a) ∧
    (∀ u, u = m.undefer 2 k (k / 65536) → u.seqr.repairQ.find? (fun a => bankKey a == k) = none → m.startDeferred (2, k) = u) ∧
    (∀ u : Mach, u = m.undefer 4 k (quadOfLane k) →
      (u.isSet Reg.LAN.EI k = false → m.startDeferred (4, k) = u.startScan k) ∧
      (u.isSet Reg.LAN.EI k = true → m.startDeferred (4, k) =
        { u with scanWait := u.scanWait.filter (· != k) ++ [k] }.exitIdle (portOfLane k))) ∧
    m.startDeferred (8, k) = ((m.undefer 8 k (quadOfPort k)).put Reg.LNK.AUDIT_DEFERRED 0 k).queueCtrl k .audit ∧
    (∀ u w, u = m.undefer 10 k 5 → Tbl.find u.seqr.swaps k = some w → m.startDeferred (10, k) = u.swapStart w.role k w.variant) ∧
    (∀ u, u = m.undefer 10 k 5 → Tbl.find u.seqr.swaps k = none → m.startDeferred (10, k) = u)) ∧
  (∀ (s : State) (r : Requester) (i : Nat) (u v : Mach), s.m.passes r Reg.SEQ.CNT_CLR i = true → u = s.m.acted r Reg.SEQ.CNT_CLR 1 →
    v = { u with hive := { u.hive with deferrals := [] } }.clear [Reg.SEQ.CORR_HBM, Reg.SEQ.UNCORR_HBM, Reg.SEQ.CORR_SRAM,
      Reg.SEQ.UNCORR_SRAM, Reg.SEQ.REPAIRS, Reg.SEQ.STEP_REWRITES] →
    Completes (.seqCntClr r) s ((List.range 9).foldl (fun a i => a.put Reg.SEQ.TEMP_MAX 32768 i) v))

/-- HBM_PATROL_READ does nothing with SCRUB_HBM_PERIOD 0; a bank under repair is noted as skipped. Otherwise the reads
that lie before the address pass, one pace of 2^29 in a period each, an address behind the patrol's begins the next
pass unless its bank was skipped in this one, and then a corrected word is counted against its stack's hour and its
row, an uncorrectable one is poisoned, counted, raises FS89 and records 0x8021, and the patrol goes on behind the
address; behind the last it begins a new pass. The corrected word that exceeds CORR_LIMIT in an hour raises FS88 and
records 0x8020; an hour's first takes the limit of that moment. SRAM_PATROL_READ does nothing with SCRUB_SRAM_PERIOD
0; it counts a corrected word, marks and counts an uncorrectable one with FS90 and 0x8023, and rewrites a step word of
an ACTIVE bank with FS113 and 0x8003, the class's engines held. PATROL_OVERRUN records 0x8022 once after twice the
period, and does nothing before a first pass. REPAIR_GO asks for the repair at REPAIR_ADDR: with a spare row left it
runs, without one it is impossible (FS91, 0x8025), and while the stack repairs another it is pending, one for its bank
taking it in. ROW_REPAIR_COMPLETE counts the repair that runs, uses a spare, and records 0x8024. A Cicada sample comes
CIC_PERIOD after the last, takes nine temperatures and the power readings. A temperature becomes TEMP, raises TEMP_MAX
to it at least, and is held against TEMP_ALERT (FS94, 0x8030) and TEMP_CRIT (FS95, 0x8031), each once until it is 5
degrees below TEMP_ALERT; an HBM stack's also moves its refresh to four times above 95 degrees (0x8032) and back at 92
or less (0x8033). -/
def Obligations.PatrolsRepairsAndCicadaDoAsFileThirteenSays : Prop :=
  (∀ (s : State) (q : Quad) (f : PatrolFound) (a : Nat) (t0 : Nat × Nat) (u : Mach), a = hbmAddr q f.addr →
    t0 = Tbl.get s.m.seqr.passAt q.val (s.m.clk, s.m.get Reg.SEQ.REPAIR_THRESH) →
    u = { s.m with seqr := { s.m.seqr with passAt := Tbl.set s.m.seqr.passAt q.val t0 } }.patrolTo q a →
    (s.m.get Reg.SEQ.SCRUB_HBM_PERIOD = 0 → Completes (.hbmPatrolRead q f) s s.m) ∧
    (s.m.get Reg.SEQ.SCRUB_HBM_PERIOD ≠ 0 → (Tbl.find s.m.seqr.repairs q.val).any (fun b => bankKey b == bankKey a) = true →
      Completes (.hbmPatrolRead q f) s { s.m with seqr := { s.m.seqr with
        skipped := Tbl.modify s.m.seqr.skipped q.val [] (fun l => if l.contains (bankKey a) then l else bankKey a :: l) } }) ∧
    (s.m.get Reg.SEQ.SCRUB_HBM_PERIOD ≠ 0 → (Tbl.find s.m.seqr.repairs q.val).any (fun b => bankKey b == bankKey a) = false →
      (f.result = .clean ∨ (∃ c on, f.result = .step c on) → Completes (.hbmPatrolRead q f) s (u.patrolNext q a)) ∧
      (f.result = .corrected → Completes (.hbmPatrolRead q f) s
        (((u.corrWord q).rowWord q a (Tbl.get u.seqr.passAt q.val t0).2).patrolNext q a)) ∧
      (f.result = .uncorrectable → Completes (.hbmPatrolRead q f) s
        (((((u.poisonHbm a).bump Reg.SEQ.UNCORR_HBM).raise 89 .none (a / 64) q).record 0x8021 q [a]).patrolNext q a)))) ∧
  (∀ (m u v : Mach) (q a pos here steps : Nat), pos = Tbl.get m.seqr.patrol q 0 → here = a % 2 ^ 35 →
    u = m.elapseTo (Tbl.get m.seqr.readAt q m.clk + steps * (m.scrubPeriod * Config.secCycles / 2 ^ 29)) →
    v = { u with seqr := { u.seqr with readAt := Tbl.set u.seqr.readAt q u.clk } } →
    (m.patrolBack q a = true ↔ here < pos ∧ (Tbl.get m.seqr.skipped q []).contains (bankKey a) = true) ∧
    (m.patrolBack q a = true → steps = 1 → m.patrolTo q a = v) ∧
    (m.patrolBack q a = false →
      (pos ≤ here → steps = (here - pos) / 64 + 1 → m.patrolTo q a = v) ∧
      (here < pos → steps = (2 ^ 35 - pos + here) / 64 + 1 → m.patrolTo q a = v.passBegin q))) ∧
  (∀ (m u : Mach) (q a : Nat), u = { m with seqr := { m.seqr with
      skipped := Tbl.modify m.seqr.skipped q [] (fun l => l.filter (fun k => (Tbl.find m.seqr.repairs q).any (fun b => bankKey b == k))) } } →
    (m.patrolBack q a = true → m.patrolNext q a = m) ∧
    (m.patrolBack q a = false →
      (a % 2 ^ 35 / 64 * 64 + 64 < 2 ^ 35 →
        m.patrolNext q a = { u with seqr := { u.seqr with patrol := Tbl.set u.seqr.patrol q (a % 2 ^ 35 / 64 * 64 + 64) } }) ∧
      (2 ^ 35 ≤ a % 2 ^ 35 / 64 * 64 + 64 → m.patrolNext q a = u.passBegin q))) ∧
  (∀ (m u : Mach) (q n l : Nat), Tbl.find m.seqr.corr q = some (n, m.hourNow, l) →
    u = { m with seqr := { m.seqr with corr := Tbl.set m.seqr.corr q (n + 1, m.hourNow, l) } }.bump Reg.SEQ.CORR_HBM →
    m.corrWord q = if l ≠ 0 ∧ n = l then (u.raise 88 .none q q).record 0x8020 q [q] else u) ∧
  (∀ (m : Mach) (q : Nat), (Tbl.find m.seqr.corr q).all (fun x => x.2.1 != m.hourNow) = true → m.corrWord q =
    { m with seqr := { m.seqr with corr := Tbl.set m.seqr.corr q (1, m.hourNow, m.get Reg.SEQ.CORR_LIMIT) } }.bump Reg.SEQ.CORR_HBM) ∧
  (∀ (m u : Mach) (q a thresh n pass : Nat) (old : Nat × Nat), old = Tbl.get m.seqr.rows (hbmRow a) (0, 0) →
    pass = Tbl.get m.seqr.pass q 0 → n = rowPasses old pass →
    u = { m with seqr := { m.seqr with rows := Tbl.set m.seqr.rows (hbmRow a) (n, pass) } } →
    (thresh ≠ 0 → n = thresh → old ≠ (n, pass) → m.rowWord q a thresh = u.askRepair a) ∧
    (thresh = 0 ∨ n ≠ thresh ∨ old = (n, pass) → m.rowWord q a thresh = u)) ∧
  (∀ (s : State) (q : Quad) (f : PatrolFound),
    (s.m.get Reg.SEQ.SCRUB_SRAM_PERIOD = 0 → Completes (.sramPatrolRead q f) s s.m) ∧
    (s.m.get Reg.SEQ.SCRUB_SRAM_PERIOD ≠ 0 →
      (f.result = .clean → Completes (.sramPatrolRead q f) s s.m) ∧
      (f.result = .corrected → Completes (.sramPatrolRead q f) s (s.m.bump Reg.SEQ.CORR_SRAM)) ∧
      (f.result = .uncorrectable → (q.val, f.addr) ∉ s.m.seqr.sramBad → ∀ u : Mach,
        u = { s.m with seqr := { s.m.seqr with sramBad := (q.val, f.addr) :: s.m.seqr.sramBad } } →
        Completes (.sramPatrolRead q f) s (((u.bump Reg.SEQ.UNCORR_SRAM).raise 90 .none f.addr q).record 0x8023 q [q, f.addr])) ∧
      (f.result = .uncorrectable → (q.val, f.addr) ∈ s.m.seqr.sramBad →
        Completes (.sramPatrolRead q f) s (((s.m.bump Reg.SEQ.UNCORR_SRAM).raise 90 .none f.addr q).record 0x8023 q [q, f.addr])) ∧
      (∀ c, f.result = .step c true → Completes (.sramPatrolRead q f) s
        ((((s.m.holdEngines q c).bump Reg.SEQ.STEP_REWRITES).raise 113 .none f.addr q).record 0x8003 q [q, c.code, f.addr])) ∧
      (∀ c, f.result = .step c false → Completes (.sramPatrolRead q f) s s.m))) ∧
  (∀ (s : State) (q : Quad), Tbl.find s.m.seqr.passAt q.val = none → Completes (.patrolOverrun q) s s.m) ∧
  (∀ (s : State) (q : Quad) (t x : Nat) (u : Mach), Tbl.find s.m.seqr.passAt q.val = some (t, x) →
    (s.m.scrubPeriod = 0 ∨ q.val ∈ s.m.seqr.overran → Completes (.patrolOverrun q) s s.m) ∧
    (s.m.scrubPeriod ≠ 0 → q.val ∉ s.m.seqr.overran → u = s.m.elapseTo (t + 2 * s.m.scrubPeriod * Config.secCycles) →
      Completes (.patrolOverrun q) s ({ u with seqr := { u.seqr with overran := q.val :: u.seqr.overran } }.record 0x8022 q [q]))) ∧
  (∀ (s : State) (r : Requester) (i : Nat) (u : Mach), s.m.passes r Reg.SEQ.REPAIR_GO i = true → u = s.m.acted r Reg.SEQ.REPAIR_GO 1 →
    Completes (.repairGo r) s (u.askRepair (u.get64 Reg.SEQ.REPAIR_ADDR_LO Reg.SEQ.REPAIR_ADDR_HI % 2 ^ 37))) ∧
  (∀ (m : Mach) (a : Nat),
    (Tbl.find m.seqr.repairs (hbmStack a) = none →
      (m.sparesLeft a = 0 → m.askRepair a = (((m.raise 91 .none (hbmRow a % 2 ^ 32) (hbmStack a)).record 0x8025 (hbmStack a) [a]).put
        Reg.SEQ.REPAIR_STATUS 4).put Reg.SEQ.SPARES_LEFT 0) ∧
      (m.sparesLeft a ≠ 0 → m.askRepair a =
        { m with seqr := { m.seqr with repairs := Tbl.set m.seqr.repairs (hbmStack a) a } }.put Reg.SEQ.REPAIR_STATUS 1)) ∧
    (∀ b, Tbl.find m.seqr.repairs (hbmStack a) = some b → m.seqr.repairQ.any (fun b => bankKey b == bankKey a) = false →
      m.askRepair a = ({ m with seqr := { m.seqr with repairQ := m.seqr.repairQ ++ [a] } }.put Reg.SEQ.REPAIR_STATUS 2).defer
        2 (bankKey a) (hbmStack a)) ∧
    (∀ b, Tbl.find m.seqr.repairs (hbmStack a) = some b → m.seqr.repairQ.any (fun b => bankKey b == bankKey a) = true →
      m.askRepair a = m.put Reg.SEQ.REPAIR_STATUS 2)) ∧
  (∀ (s : State) (q : Quad), Tbl.find s.m.seqr.repairs q.val = none → Completes (.rowRepairComplete q) s s.m) ∧
  (∀ (s : State) (q : Quad) (a : Nat) (u : Mach), Tbl.find s.m.seqr.repairs q.val = some a →
    u = { s.m with seqr := { s.m.seqr with
      repairs := Tbl.del s.m.seqr.repairs q.val
      repaired := s.m.seqr.repaired ++ [hbmRow a]
      rows := Tbl.del s.m.seqr.rows (hbmRow a)
      spares := Tbl.modify s.m.seqr.spares (bankKey a) 0 (· + 1) } } →
    Completes (.rowRepairComplete q) s
      ((((u.bump Reg.SEQ.REPAIRS).put Reg.SEQ.REPAIR_STATUS 3).put Reg.SEQ.SPARES_LEFT (u.sparesLeft a)).record 0x8024 q [a])) ∧
  (∀ (s : State) (c : CicadaIn) (u v : Mach), u = s.m.elapseTo s.m.seqr.sampleAt →
    v = { u with seqr := { u.seqr with sampleAt := u.clk + clamp 1 1000 (u.get Reg.SEQ.CIC_PERIOD) * Config.msCycles } } →
    Completes (.cicadaSample c) s
      (((c.temps.take 9).zipIdx.foldl (fun a (x : Int × Nat) => a.takeTemp x.2 x.1) v).takePower c)) ∧
  (∀ (m u : Mach) (i : Nat) (t : Int), i < 5 →
    u = (m.put Reg.SEQ.TEMP (signed16 t) i).put Reg.SEQ.TEMP_MAX (signed16 (max t (ofSigned16 (m.get Reg.SEQ.TEMP_MAX i)))) i →
    m.takeTemp i t = (u.tempCheck 0 94 0x8030 i t u.tempAlert (u.tempAlert - 40)).tempCheck 1 95 0x8031 i t
      u.tempCrit (u.tempAlert - 40)) ∧
  (∀ (m u : Mach) (i : Nat) (t : Int), 5 ≤ i →
    u = (m.put Reg.SEQ.TEMP (signed16 t) i).put Reg.SEQ.TEMP_MAX (signed16 (max t (ofSigned16 (m.get Reg.SEQ.TEMP_MAX i)))) i →
    m.takeTemp i t = ((u.tempCheck 0 94 0x8030 i t u.tempAlert (u.tempAlert - 40)).tempCheck 1 95 0x8031 i t
      u.tempCrit (u.tempAlert - 40)).refreshCheck (i - 5) t) ∧
  (∀ (m : Mach) (q v : Nat) (t : Int), v = m.get Reg.SEQ.REFRESH_X4 →
    (760 < t → bit v q = false → m.refreshCheck q t = (m.put Reg.SEQ.REFRESH_X4 (v + 2 ^ q)).record 0x8032 q [q]) ∧
    (t ≤ 736 → bit v q = true → m.refreshCheck q t = (m.put Reg.SEQ.REFRESH_X4 (v - 2 ^ q)).record 0x8033 q [q]) ∧
    ((736 < t ∨ bit v q = false) → (t ≤ 760 ∨ bit v q = true) → m.refreshCheck q t = m)) ∧
  (∀ (m : Mach) (k fs ev i : Nat) (t limit clear : Int),
    (limit < t → (k, i) ∉ m.seqr.hot → m.tempCheck k fs ev i t limit clear =
      (({ m with seqr := { m.seqr with hot := (k, i) :: m.seqr.hot } }.endCondition fs .none).raise fs .none i (sensorOrigin i)).record ev
        (sensorOrigin i) [i, signed16 t]) ∧
    (limit < t → (k, i) ∈ m.seqr.hot → clear < t → m.tempCheck k fs ev i t limit clear = m) ∧
    (t ≤ limit → (k, i) ∉ m.seqr.hot → m.tempCheck k fs ev i t limit clear = m) ∧
    (∀ u, t ≤ clear → (k, i) ∈ m.seqr.hot → u = { m with seqr := { m.seqr with hot := m.seqr.hot.filter (· != (k, i)) } } →
      (u.seqr.hot.any (fun h => h.1 == k) = true → m.tempCheck k fs ev i t limit clear = u) ∧
      (u.seqr.hot.any (fun h => h.1 == k) = false → m.tempCheck k fs ev i t limit clear = u.endCondition fs .none)))

/-- FEED_IN_RANGE sets IN_RANGE and EN_PIN, and an enabled feed that is OFF enters DEBOUNCE. In each of these rows a feed
in another state than the one named stays as it is: DEBOUNCE_COMPLETE 20 ms after DEBOUNCE began starts PRECHARGE;
PRECHARGE_COMPLETE enters RAMP; RAMP_COMPLETE, 1 ms later, sets ENHANCED and enters ON; PRECHARGE_TIMEOUT, after 80
ms, trips with CAUSE 1; BACKOFF_EXPIRY after 1 s precharges again, or goes OFF; RETRY_COUNT_RESET after 60 s ON clears
RETRIES_USED. FEED_OUT_OF_RANGE clears IN_RANGE and takes the feed OFF, which keeps a latch; from RAMP or ON, or for
overvoltage, it raises FS3 or FS4. FEED_DISABLE clears EN_PIN and takes an enabled feed down. REVERSE_CURRENT latches
with CAUSE 5 and FS6, but leaves a LATCHED feed as it is. In RAMP or ON, LIMIT_ENTRY starts a fault timer that does
not run and FAST_TRIP trips with CAUSE 3; elsewhere neither acts, but that a fast trip in the cycle of the expiry
makes the cause 3. LIMIT_CLEAR stops a running timer 100 us later unless it is due by then, and FAULT_TIMER_EXPIRY
trips with CAUSE 2 when it is due. A trip opens the gate, counts, stores CAUSE, raises FS1 or FS2, and goes to BACKOFF
while retries are left, else to LATCHED. LATCH_CLEAR (10 ms after the pin or VIN went low) and FEED_CLR clear a latch
but for CAUSE 4; FEED_CLR clears RETRIES_USED of a feed in another state, and takes one in BACKOFF to OFF and
DEBOUNCE. PWR_CNT_CLR clears the PWR counters. -/
def Obligations.FeedsStartTripBackOffAndLatch : Prop :=
  (∀ (s : State) (f : Feed) (i : Nat), i = Sys2Proof.Machine.Feed.idx f →
    (∀ u : Mach, u = (((s.m.put Reg.PWR.IN_RANGE 1 i).put Reg.PWR.EN_PIN 1 i).updFeed i (fun x => { x with pinLow := none, vinLow := none })).reboth →
      Completes (.feedInRange f) s (if u.feedState i = 0 ∧ u.isSet Reg.PWR.IN_RANGE i ∧ u.feedEnabled i then
        (u.setFeed i 1).record (0x1010 + i) 4 [i] else u)) ∧
    (s.m.feedState i = 1 → Completes (.debounceComplete f) s
      (((s.m.elapseTo ((s.m.feed i).since + 20 * Config.msCycles)).setFeed i 2).record (0x1020 + i) 4 [i])) ∧
    (s.m.feedState i ≠ 1 → Completes (.debounceComplete f) s s.m) ∧
    (s.m.feedState i ≠ 2 → Completes (.prechargeComplete f) s s.m ∧ Completes (.prechargeTimeout f) s s.m) ∧
    (s.m.feedState i ≠ 3 → Completes (.rampComplete f) s s.m) ∧
    (s.m.feedState i ≠ 5 → Completes (.backoffExpiry f) s s.m) ∧
    (s.m.feedState i ≠ 4 → Completes (.retryCountReset f) s s.m) ∧
    (s.m.feedState i = 2 → Completes (.prechargeComplete f) s (s.m.setFeed i 3) ∧
      Completes (.prechargeTimeout f) s ((s.m.elapseTo ((s.m.feed i).since + 80 * Config.msCycles)).tripFeed i 1 (0x1030 + i))) ∧
    (s.m.feedState i = 3 → Completes (.rampComplete f) s
      ((((s.m.elapseTo ((s.m.feed i).since + Config.msCycles)).put Reg.PWR.ENHANCED 1 i).setFeed i 4).record (0x1040 + i) 4 [i])) ∧
    (∀ high (u : Mach), u = ((((s.m.put Reg.PWR.IN_RANGE 0 i).updFeed i (fun x => { x with
        vinLow := if high then none else x.vinLow.or (some (s.m.put Reg.PWR.IN_RANGE 0 i).clk) })).reboth).feedOff i) →
      (high = true ∨ s.m.feedState i = 3 ∨ s.m.feedState i = 4 → Completes (.feedOutOfRange f high) s
        ((u.raise (3 + i) (.feed i) (b2n high)).record (0x1090 + i) 4 [i, b2n high])) ∧
      (high = false → s.m.feedState i ≠ 3 → s.m.feedState i ≠ 4 → Completes (.feedOutOfRange f high) s u)) ∧
    (∀ u : Mach, u = ((s.m.put Reg.PWR.EN_PIN 0 i).updFeed i (fun x => { x with
        pinLow := x.pinLow.or (some (s.m.put Reg.PWR.EN_PIN 0 i).clk) })).reboth →
      (s.m.feedEnabled i = true → Completes (.feedDisable f) s ((u.feedOff i).record (0x10B0 + i) 4 [i])) ∧
      (s.m.feedEnabled i = false → Completes (.feedDisable f) s u)) ∧
    (s.m.feedState i = 6 → Completes (.reverseCurrent f) s s.m) ∧
    (s.m.feedState i ≠ 6 → Completes (.reverseCurrent f) s (((s.m.latchFeed i 5).raise 6 (.feed i) i).record (0x10A0 + i) 4 [i])) ∧
    (s.m.feedState i = 3 ∨ s.m.feedState i = 4 → Completes (.fastTrip f) s (s.m.tripFeed i 3 (0x1070 + i)) ∧
      (s.m.isSet Reg.PWR.TIMER_RUN i = false → Completes (.limitEntry f) s
        (((((s.m.put Reg.PWR.LIMITING 1 i).put Reg.PWR.TIMER_RUN 1 i).updFeed i (fun x =>
          { x with timer := some (s.m.clk + s.m.faultTime i) })).regood).record (0x1050 + i) 4 [i])) ∧
      (s.m.isSet Reg.PWR.TIMER_RUN i = true → Completes (.limitEntry f) s s.m)) ∧
    (s.m.feedState i ≠ 3 → s.m.feedState i ≠ 4 → Completes (.limitEntry f) s s.m ∧
      Completes (.fastTrip f) s (if s.m.expiredNow i then (s.m.put Reg.PWR.CAUSE 3 i).record (0x1070 + i) 4 [i, 3] else s.m)) ∧
    (s.m.isSet Reg.PWR.TIMER_RUN i = true → s.m.expiresWithin i (100 * Config.usCycles) = false → Completes (.limitClear f) s
      ((((s.m.elapse (100 * Config.usCycles)).put Reg.PWR.LIMITING 0 i).put Reg.PWR.TIMER_RUN 0 i).updFeed i (fun x =>
        { x with timer := none })).regood) ∧
    (s.m.isSet Reg.PWR.TIMER_RUN i = false ∨ s.m.expiresWithin i (100 * Config.usCycles) = true →
      Completes (.limitClear f) s s.m) ∧
    ((s.m.feed i).timer = none → Completes (.faultTimerExpiry f) s s.m) ∧
    (∀ t, (s.m.feed i).timer = some t → Completes (.faultTimerExpiry f) s ((s.m.elapseTo t).tripFeed i 2 (0x1060 + i))) ∧
    (∀ u : Mach, s.m.feedState i = 5 → u = s.m.elapseTo ((s.m.feed i).since + Config.secCycles) →
      (u.isSet Reg.PWR.IN_RANGE i = true → u.feedEnabled i = true →
        Completes (.backoffExpiry f) s ((u.setFeed i 2).record (0x1020 + i) 4 [i])) ∧
      (u.isSet Reg.PWR.IN_RANGE i = false ∨ u.feedEnabled i = false → Completes (.backoffExpiry f) s (u.setFeed i 0))) ∧
    (s.m.feedState i = 4 → Completes (.retryCountReset f) s
      ((s.m.elapseTo ((s.m.feed i).since + 60 * Config.secCycles)).put Reg.PWR.RETRIES_USED 0 i)) ∧
    (∀ t, s.m.feedState i = 6 → s.m.get Reg.PWR.CAUSE i ≠ 4 → s.m.latchDue i = some t →
      Completes (.latchClear f) s ((s.m.elapseTo t).clearLatch i)) ∧
    (s.m.feedState i ≠ 6 ∨ s.m.get Reg.PWR.CAUSE i = 4 ∨ s.m.latchDue i = none → Completes (.latchClear f) s s.m)) ∧
  (∀ (m : Mach) (f : Nat), m.latchDue f = ((m.feed f).pinLow.elim (m.feed f).vinLow
    (fun a => some ((m.feed f).vinLow.elim a (min a)))).map (· + 10 * Config.msCycles)) ∧
  (∀ (m : Mach) (f : Nat), (m.feedState f = 6 → m.feedOff f = m) ∧ (m.feedState f ≠ 6 → m.feedOff f = (m.openGate f).setFeed f 0) ∧
    m.clearLatch f = (((m.put Reg.PWR.RETRIES_USED 0 f).setFeed f 0).record 0x1150 4 [f]).tryFeed f ∧
    m.latchFeed f 5 = (((m.openGate f).bump Reg.PWR.TRIPS 1 f).put Reg.PWR.CAUSE 5 f).setFeed f 6) ∧
  (∀ (m u v : Mach) (f cause ev : Nat), u = ((m.openGate f).bump Reg.PWR.TRIPS 1 f).put Reg.PWR.CAUSE cause f →
    v = (u.raise (1 + f) (.feed f) cause).record ev 4 [f, cause] →
    (v.get Reg.PWR.RETRIES_USED f < v.get Reg.PWR.RETRY_MAX f → m.tripFeed f cause ev =
      ((((v.put Reg.PWR.RETRIES_USED (v.get Reg.PWR.RETRIES_USED f + 1) f).bump Reg.PWR.RETRIES 1 f).setFeed f 5).record (0x1080 + f) 4
        [f, v.get Reg.PWR.RETRIES_USED f + 1])) ∧
    (v.get Reg.PWR.RETRY_MAX f ≤ v.get Reg.PWR.RETRIES_USED f → m.tripFeed f cause ev = v.setFeed f 6)) ∧
  (∀ (s : State) (r : Requester) (f : Nat) (u : Mach), s.m.passes r Reg.PWR.FEED_CLR f = true → u = s.m.acted r Reg.PWR.FEED_CLR 1 →
    (u.feedState f = 6 → u.get Reg.PWR.CAUSE f = 4 → Completes (.feedClr r) s u) ∧
    (u.feedState f = 6 → u.get Reg.PWR.CAUSE f ≠ 4 → Completes (.feedClr r) s (u.clearLatch f)) ∧
    (u.feedState f ≠ 6 → (u.put Reg.PWR.RETRIES_USED 0 f).feedState f = 5 → Completes (.feedClr r) s
      (((u.put Reg.PWR.RETRIES_USED 0 f).setFeed f 0).tryFeed f)) ∧
    (u.feedState f ≠ 6 → (u.put Reg.PWR.RETRIES_USED 0 f).feedState f ≠ 5 → Completes (.feedClr r) s (u.put Reg.PWR.RETRIES_USED 0 f))) ∧
  (∀ (s : State) (r : Requester) (i : Nat) (u : Mach), s.m.passes r Reg.PWR.CNT_CLR i = true → u = s.m.acted r Reg.PWR.CNT_CLR 1 →
    Completes (.pwrCntClr r) s
      (((u.clear [Reg.PWR.TRIPS, Reg.PWR.RETRIES] 0).clear [Reg.PWR.TRIPS, Reg.PWR.RETRIES] 1).clear [Reg.PWR.PGOOD_FALLS]))

/-- PGOOD_RISE comes 100 us after its conditions began to hold, with PGOOD low and every rail down: PGOOD is 1, group 1
starts, and with it the boot; otherwise nothing. PGOOD_FALL, where PGOOD is high, clears PGOOD and RAILS_UP, counts,
writes event 0x1101 after the urgent records, and raises FS8. RAIL_GROUP_START of the next of groups 2 to 8, 600 us
after the group before began, puts that group's rails into RAIL_OK; the end of the sequence, which the model numbers 9
(its choice: log entry 44), comes 500 us after group 8: all 26 rails are up, RAILS_UP is 1 and 0x1100 is recorded. A
group out of turn, or with PGOOD low, the rails up, falling or stuck, changes nothing. RAIL_GROUP_DISCHARGE, while the
rails go down, takes the highest group's rails out within 200 us. RAIL_FAULT sets the rail's RAIL_FAULT bit, takes it
out of RAIL_OK, clears RAILS_UP, raises FS7 and records 0x1110; a rail of the group that is starting comes 2 ms after
its start and reverses the sequence. SHARING_FAULT with both feeds ON raises FS5 and records 0x1120, and
POWER_LIMIT_EXCEEDED with an average above PWR_LIMIT FS9 and 0x1130, once per crossing; the average is the mean of
Cicada's samples of the last second, and a sample that brings it down to PWR_LIMIT ends the crossing (log entry 66);
the limit is the one in force a second ago. POWER_CYCLE_BOTH, 100 ms after both feeds went down, clears latches of
CAUSE 4, the LOCKOUT marker, and the readings and counters. -/
def Obligations.RailsRiseAndFallWithPowerGood : Prop :=
  (∀ (s : State) (b : BootIn) (t : Nat) (u v : Mach), s.m.pwr.goodAt = some t → s.m.isSet Reg.PWR.PGOOD = false → s.m.pwr.groups = 0 →
    u = (((s.m.elapseTo (t + 100 * Config.usCycles)).put Reg.PWR.PGOOD 1).put Reg.PWR.RAILS_UP 0).put Reg.PWR.RAIL_OK 0 →
    v = { u with pwr := { u.pwr with groups := 1, groupAt := u.clk, falling := false, stuck := false } } →
    exec (.pgoodRise b) s = .next ({ s with m := v }.boots b 0)) ∧
  (∀ (s : State) (u v : Mach) (s' : State), s.m.isSet Reg.PWR.PGOOD = true →
    u = ((s.m.put Reg.PWR.PGOOD 0).put Reg.PWR.RAILS_UP 0).bump Reg.PWR.PGOOD_FALLS →
    v = { u with pwr := { u.pwr with falling := u.pwr.groups != 0, goodAt := none } }.regood → s' = { s with m := v }.flushFall →
    exec .pgoodFall s = .next { s' with m := s'.m.raise 8 .none 0 4 }) ∧
  (∀ (s : State) (b : BootIn), (s.m.pwr.goodAt = none ∨ s.m.isSet Reg.PWR.PGOOD = true ∨ s.m.pwr.groups ≠ 0 →
    Completes (.pgoodRise b) s s.m) ∧ (s.m.isSet Reg.PWR.PGOOD = false → Completes .pgoodFall s s.m)) ∧
  (∀ (s : State) (g : Nat) (u v : Mach), s.m.isSet Reg.PWR.PGOOD = true → s.m.isSet Reg.PWR.RAILS_UP = false →
    s.m.pwr.falling = false → s.m.pwr.stuck = false → g = s.m.pwr.groups + 1 →
    (2 ≤ g → g ≤ 8 → u = s.m.elapseTo (s.m.pwr.groupAt + 600 * Config.usCycles) →
      v = u.put Reg.PWR.RAIL_OK (u.get Reg.PWR.RAIL_OK ||| groupRails (g - 1)) →
      Completes (.railGroupStart g) s { v with pwr := { v.pwr with groups := g, groupAt := v.clk } }) ∧
    (g = 9 → Completes (.railGroupStart g) s ((((s.m.elapseTo (s.m.pwr.groupAt + 500 * Config.usCycles)).put
      Reg.PWR.RAIL_OK (2 ^ 26 - 1)).put Reg.PWR.RAILS_UP 1).record 0x1100 4 []))) ∧
  (∀ (s : State) (g : Nat),
    (g ≠ s.m.pwr.groups + 1 ∨ g < 2 ∨ 9 < g ∨ s.m.isSet Reg.PWR.PGOOD = false ∨ s.m.isSet Reg.PWR.RAILS_UP = true ∨
      s.m.pwr.falling = true ∨ s.m.pwr.stuck = true → Completes (.railGroupStart g) s s.m) ∧
    (g ≠ s.m.pwr.groups ∨ g = 0 ∨ s.m.pwr.falling = false → Completes (.railGroupDischarge g) s s.m)) ∧
  (∀ (s : State) (g : Nat) (u v : Mach), s.m.pwr.falling = true → 1 ≤ g → g = s.m.pwr.groups → u = s.m.elapse (200 * Config.usCycles) →
    v = u.put Reg.PWR.RAIL_OK (u.get Reg.PWR.RAIL_OK &&& ((2 ^ 26 - 1) ^^^ groupRails g)) →
    Completes (.railGroupDischarge g) s { v with pwr := { v.pwr with groups := g - 1, falling := g != 1 } }) ∧
  (∀ (s : State) (rail : Nat) (m0 u v w : Mach), rail < 26 →
    m0 = (if s.m.railStarting rail then s.m.elapseTo (s.m.pwr.groupAt + 2 * Config.msCycles) else s.m) →
    u = (m0.put Reg.PWR.RAIL_FAULT (m0.get Reg.PWR.RAIL_FAULT ||| 2 ^ rail)).put Reg.PWR.RAIL_OK
      (m0.get Reg.PWR.RAIL_OK &&& ((2 ^ 26 - 1) ^^^ 2 ^ rail)) →
    v = { u with flt := { u.flt with lastSet := Tbl.set u.flt.lastSet (2000 + rail) u.clk } } →
    w = ((v.put Reg.PWR.RAILS_UP 0).raise 7 (.rail rail) rail).record 0x1110 4 [rail] →
    (s.m.railStarting rail = false → Completes (.railFault rail) s w) ∧
    (s.m.railStarting rail = true →
      Completes (.railFault rail) s { w with pwr := { w.pwr with falling := true, stuck := true } })) ∧
  (∀ (s : State) (rail : Nat), (26 ≤ rail → Completes (.railFault rail) s s.m) ∧
    (s.m.railStarting rail = true ↔ s.m.isSet Reg.PWR.PGOOD = true ∧ s.m.pwr.falling = false ∧ s.m.isSet Reg.PWR.RAILS_UP = false ∧
      railGroup rail = s.m.pwr.groups ∧ bit (s.m.get Reg.PWR.RAIL_OK) rail = false)) ∧
  (∀ s : State,
    (s.m.feedState 0 = 4 → s.m.feedState 1 = 4 → (5, FUnit.none) ∉ s.m.flt.active →
      Completes .sharingFault s ((s.m.raise 5 .none).record 0x1120 4 [])) ∧
    (s.m.feedState 0 ≠ 4 ∨ s.m.feedState 1 ≠ 4 ∨ (5, FUnit.none) ∈ s.m.flt.active → Completes .sharingFault s s.m)) ∧
  (∀ (s : State) (avg : Nat), avg = s.m.powerAvg →
    ((9, FUnit.none) ∉ s.m.flt.active → s.m.powerLimit < avg →
      Completes .powerLimitExceeded s ((s.m.raise 9 .none avg).record 0x1130 4 [avg])) ∧
    ((9, FUnit.none) ∈ s.m.flt.active ∨ avg ≤ s.m.powerLimit → Completes .powerLimitExceeded s s.m) ∧
    (∀ x, x ∈ s.m.recentPower ↔ x ∈ s.m.pwr.powers ∧ s.m.clk < x.1 + 2000000000) ∧
    (s.m.recentPower = [] → avg = s.m.get Reg.PWR.PIN) ∧
    (s.m.recentPower ≠ [] → avg = (s.m.recentPower.map (·.2)).sum / s.m.recentPower.length) ∧
    (∀ (pin : Nat) (u : Mach), u = { s.m with pwr := { s.m.pwr with powers := s.m.recentPower ++ [(s.m.clk, pin)] } } →
      (u.powerAvg ≤ u.powerLimit → s.m.samplePower pin = u.endCondition 9 .none) ∧
      (u.powerLimit < u.powerAvg → s.m.samplePower pin = u)) ∧
    (s.m.pwr.limits = [] → s.m.powerLimit = 10 * clamp 100 900 (s.m.get Reg.PWR.PWR_LIMIT)) ∧
    (∀ t old rest, s.m.pwr.limits = (t, old) :: rest → s.m.clk < t + Config.secCycles → s.m.powerLimit = 10 * clamp 100 900 old)) ∧
  (∀ (s : State) (t : Nat) (u : Mach), s.m.pwr.bothAt = some t →
    u = [0, 1].foldl (fun (a : Mach) f => if a.feedState f = 6 && a.get Reg.PWR.CAUSE f = 4 then a.clearLatch f else a)
      (s.m.elapseTo (t + 100 * Config.msCycles)) →
    Completes .powerCycleBoth s { u with boot := { u.boot with lockMarker := false } }.clearPower) ∧
  (∀ s : State, s.m.pwr.bothAt = none → Completes .powerCycleBoth s s.m) ∧
  (∀ rail, rail < 26 → railGroup rail = if rail = 0 then 1 else if rail = 1 then 2 else 3 + (rail - 2) / 4)

/-- A MODE_REQ that is carried out and not busy enters DORMANT from CONFIG; enters CONFIG from DORMANT (waking every
quadrant) and from DRAIN when drained, taking measurement 9 at either, and from SAFE by a warm reset when FLT_ACK has
been written and no SEV3 or SEV4 source is active; enters TRAIN from CONFIG when the configuration check passes;
enters RUN from TRAIN and DRAIN, and DRAIN from RUN; makes the SAFE reaction from DORMANT, CONFIG, TRAIN, RUN and
DRAIN; and, with INSTALLER rights, the LOCKOUT reaction from every other mode. A request of any mode but CONFIG that
is made in CONFIG first makes the configuration check again (R118), which leaves the mode as it is. A request for
another pair of modes is refused with MODE_ERR 1, a busy one with 2, a failed check with 3, CONFIG before DRAINED with
4, and CONFIG from SAFE too early with 5; a refusal changes nothing further but MODE_ERR and the record 0x0002 with
the requested mode and the error. A request is busy while four records are held, in the cycle of a reaction, and in a
change of mode other than an entry to DORMANT that a CONFIG request waits for. -/
def Obligations.ModeRequestsFollowTable15Two : Prop :=
  (∀ (s : State) (r : Requester) (meet : ModeMeet) (i : Nat) (v u : Mach), s.m.passes r Reg.GLB.MODE_REQ i = true →
    (v = s.m.acted r Reg.GLB.MODE_REQ 0 → v.modeBusy 0 meet = false → v.mode = .config → u = v.runCfgCheck →
      Completes (.modeReqDormant r meet) s (u.enterMode .dormant 0)) ∧
    (u = s.m.acted r Reg.GLB.MODE_REQ 2 → u.modeBusy 2 meet = false →
      (u.mode = .dormant → exec (.modeReqConfig r meet) s = okFlt s (u.wakeAll.measureSettings.enterConfig 0)) ∧
      (u.mode = .drain → u.isDrained = true → exec (.modeReqConfig r meet) s = okFlt s (u.measureSettings.enterConfig 0)) ∧
      (u.mode = .drain → u.isDrained = false → exec (.modeReqConfig r meet) s = okFlt s (u.refuseMode (u.roleOf r) 2 4)) ∧
      (u.mode = .safe → u.mayLeaveSafe = true → exec (.modeReqConfig r meet) s = okFlt s (u.warmReset 0)) ∧
      (u.mode = .safe → u.mayLeaveSafe = false → exec (.modeReqConfig r meet) s = okFlt s (u.refuseMode (u.roleOf r) 2 5))) ∧
    (v = s.m.acted r Reg.GLB.MODE_REQ 3 → v.modeBusy 3 meet = false → v.mode = .config → u = v.runCfgCheck →
      (u.isSet Reg.RTE.CFG_OK = true → Completes (.modeReqTrain r meet) s (u.enterMode .train 0)) ∧
      (u.isSet Reg.RTE.CFG_OK = false → Completes (.modeReqTrain r meet) s (u.refuseMode (v.roleOf r) 3 3))) ∧
    (u = s.m.acted r Reg.GLB.MODE_REQ 4 → u.modeBusy 4 meet = false → u.mode = .train ∨ u.mode = .drain →
      Completes (.modeReqRun r meet) s (u.enterMode .run 0)) ∧
    (u = s.m.acted r Reg.GLB.MODE_REQ 5 → u.modeBusy 5 meet = false → u.mode = .run →
      Completes (.modeReqDrain r meet) s (u.enterMode .drain 0)) ∧
    (v = s.m.acted r Reg.GLB.MODE_REQ 6 → v.modeBusy 6 meet = false → v.mode ∈ [Mode.dormant, .config, .train, .run, .drain] →
      u = v.leaveCheck 6 → exec (.modeReqSafe r meet) s = okFlt s (u.reactSafe 0 0))) ∧
  (∀ (s : State) (r : Requester) (meet : ModeMeet) (i : Nat) (v : Mach) (f : Field), f = { Reg.GLB.MODE_REQ with rights := Role.installer } →
    s.m.passes r f i = true → v = s.m.acted r f 7 →
    (v.modeBusy 7 meet = false → v.mode ≠ .lockout →
      exec (.modeReqLockout r meet) s = okFlt s ((v.leaveCheck 7).reactLockout 0 0 false)) ∧
    (v.modeBusy 7 meet = true → exec (.modeReqLockout r meet) s = okFlt s (v.refuseMode (v.roleOf r) 7 2))) ∧
  (∀ (s : State) (r : Requester) (meet : ModeMeet) (i n : Nat) (c : Instr), s.m.passes r Reg.GLB.MODE_REQ i = true →
    (n, c) ∈ [(0, Instr.modeReqDormant r meet), (2, .modeReqConfig r meet), (3, .modeReqTrain r meet), (4, .modeReqRun r meet),
      (5, .modeReqDrain r meet), (6, .modeReqSafe r meet)] →
    ∀ u : Mach, u = s.m.acted r Reg.GLB.MODE_REQ n →
    exec c s = .next (if n = 2 ∨ n = 6 then { s with m := u.modeRequest (u.roleOf r) n meet }.flush
      else { s with m := u.modeRequest (u.roleOf r) n meet })) ∧
  (∀ (m : Mach) (role : Role) (req : Nat) (meet : ModeMeet),
    (m.modeBusy req meet = true → m.modeRequest role req meet = m.refuseMode role req 2) ∧
    (m.modeBusy req meet = false → req < 8 → (req, m.mode.code) ∉ [(0, 2), (2, 0), (2, 5), (2, 6), (3, 2), (4, 3), (4, 5), (5, 4), (6, 0),
      (6, 2), (6, 3), (6, 4), (6, 5), (7, 0), (7, 1), (7, 2), (7, 3), (7, 4), (7, 5), (7, 6)] →
      m.modeRequest role req meet = (m.leaveCheck req).refuseMode role req 1) ∧
    (m.modeBusy req meet = true ↔ 4 ≤ m.evr.held.length ∨ meet = .reaction ∨ meet = .inTransition ∨
      (meet = .inDormantEntry ∧ (req ≠ 2 ∨ m.mode ≠ .dormant))) ∧
    (m.leaveCheck req).mode = m.mode ∧
    (m.mode = .config → req < 8 → req ≠ 2 → m.leaveCheck req = m.runCfgCheck) ∧
    (m.mode ≠ .config ∨ req = 2 → m.leaveCheck req = m)) ∧
  (∀ (m : Mach) (role : Role) (req err : Nat),
    m.refuseMode role req err = (m.put Reg.GLB.MODE_ERR err).record 0x0002 5 [req, err] role)

/-- ATTEST_COMPLETE, in ATTEST with firmware, tables and ledger entry in place, takes measurement 9 and enters CONFIG;
with the LOCKOUT marker still there it makes the LOCKOUT reaction; anywhere else it changes nothing. Measurement 9 is
the SHA-384 of the settings' configuration fields; it is kept for GET_MEASUREMENTS and recorded as 0xA020.
RUN_READINESS enters RUN from TRAIN with cause 1 when every enabled mapped port is UP, failed or looped back and the
time state is LOCKED, ROOT or ROOT_PPS where REQ_TIME_LOCK asks it, else it changes nothing. TRAIN_TIMEOUT, when
TRAIN_TIMEOUT has passed since entry to TRAIN, enters RUN; not ready, it raises FS10 and records 0x0010 with the
number of ports not up and the time state; outside TRAIN it changes nothing. DRAINED, the first time after entry to
DRAIN that nothing is outstanding, records 0x0003, and otherwise does nothing. A change of mode fails the swaps where
the new mode holds none, takes the links down where it has none, fixes UNX_QUAD_MAX on leaving CONFIG, writes
GLB_MODE, LAST_CAUSE, CAUSE_FS and MODE_TS, records 0x0001 with the old mode, the new mode and the cause, and then
does what the new mode asks: RUN scans every ring and at the first entry writes START_TIME, TRAIN starts its time,
DRAIN awaits DRAINED anew, DORMANT gates every engine and parks every quadrant cold. Entry to CONFIG releases the
forced outputs, and with AUTO_START and a passing configuration check goes on to TRAIN with cause 1, with a failing
one stays with MODE_ERR 3. -/
def Obligations.StartUpReadinessAndDrainingEnd : Prop :=
  (∀ s : State,
    (s.m.mode = .attest → s.m.boot.attestOk = true →
      (s.m.boot.lockMarker = false → exec .attestComplete s = okFlt s (s.m.measureSettings.enterConfig 1)) ∧
      (s.m.boot.lockMarker = true → exec .attestComplete s = okFlt s (s.m.reactLockout 3 0 false))) ∧
    (s.m.mode ≠ .attest ∨ s.m.boot.attestOk = false → Completes .attestComplete s s.m) ∧
    s.m.measureSettings = { s.m with boot := { s.m.boot with settings := digest s.m.settings } }.measured 9 (digest s.m.settings)) ∧
  (∀ s : State,
    (s.m.mode = .train → s.m.ready = true → Completes .runReadiness s (s.m.enterMode .run 1)) ∧
    (s.m.mode ≠ .train ∨ s.m.ready = false → Completes .runReadiness s s.m)) ∧
  (∀ (s : State) (ready : Bool) (u : Mach), s.m.mode = .train →
    u = s.m.elapseTo (s.m.boot.trainAt + clamp 10 60000 (s.m.get Reg.GLB.TRAIN_TIMEOUT) * Config.msCycles) →
    (ready = true ∨ u.ready = true → Completes (.trainTimeout ready) s (u.enterMode .run 1)) ∧
    (ready = false → u.ready = false → Completes (.trainTimeout ready) s
      (((u.enterMode .run 1).raise 10 .none u.notReady.length 5).record 0x0010 5 [u.notReady.length, (u.enterMode .run 1).get Reg.TIM.STATE]))) ∧
  (∀ (s : State) (ready : Bool), s.m.mode ≠ .train → Completes (.trainTimeout ready) s s.m) ∧
  (∀ s : State,
    (s.m.mode = .drain → s.m.isDrained = true → s.m.boot.drainSeen = false → Completes .drained s
      ({ s.m with boot := { s.m.boot with drainSeen := true } }.record 0x0003 5 [])) ∧
    (s.m.mode ≠ .drain ∨ s.m.isDrained = false ∨ s.m.boot.drainSeen = true → Completes .drained s s.m)) ∧
  (∀ m : Mach, (m.ready = true ↔ (∀ p, p < 128 → m.isSet Reg.LNK.PORT_EN p = true → m.mapped p = true →
      m.linkState p = 2 ∨ m.linkState p = 5 ∨ (m.link p).trainFailed = true) ∧
    (m.isSet Reg.GLB.REQ_TIME_LOCK = true → m.get Reg.TIM.STATE = 1 ∨ m.get Reg.TIM.STATE = 3 ∨ m.get Reg.TIM.STATE = 4))) ∧
  (∀ (m a b c d w : Mach) (new : Mode) (cause fs : Nat),
    a = (if swapMode m.mode && !swapMode new then m.failSwaps else m) →
    b = (if netMode m.mode && !netMode new then a.allPortsOff else a) →
    c = (if m.mode = .config then { b with mat := { b.mat with unxMax := some (b.get Reg.MAT.UNX_QUAD_MAX) } } else b) →
    d = ((c.put Reg.GLB.GLB_MODE new.code).put Reg.GLB.LAST_CAUSE cause).put Reg.GLB.CAUSE_FS fs →
    w = (d.put64 Reg.GLB.MODE_TS_LO Reg.GLB.MODE_TS_HI d.aonHgt).record 0x0001 5 [m.mode.code, new.code, cause] →
    (new ∈ [Mode.attest, .config, .safe, .lockout] → m.enterMode new cause fs = w) ∧
    (new = .train → m.enterMode new cause fs = { w with boot := { w.boot with trainAt := w.clk } }) ∧
    (new = .drain → m.enterMode new cause fs = { w with boot := { w.boot with drainSeen := false } }) ∧
    (new = .dormant → m.enterMode new cause fs = (List.range 4).foldl (fun x q => x.park q true) w.gateAll) ∧
    (∀ e : Mach, new = .run →
      e = { w with hif := { w.hif with wrs := w.hif.wrs.map (fun (k : Nat × WorkRing) => (k.1, { k.2 with drainStop := false })) } } →
      (e.boot.started = true → m.enterMode new cause fs = e.rescanAll) ∧
      (e.boot.started = false → m.enterMode new cause fs = ({ e with boot := { e.boot with started := true } }.put Reg.GLB.START_TIME
        ((e.clk - e.boot.pgoodAt) / 20000)).rescanAll))) ∧
  (∀ (m u : Mach) (cause : Nat),
    u = ((((m.enterMode .config cause).put Reg.FLT.LANES_IDLE 0).put Reg.FLT.PPS_FORCED 0).put Reg.FLT.BM_STOPPED 0) →
    (u.isSet Reg.GLB.AUTO_START = false → m.enterConfig cause = u) ∧
    (u.isSet Reg.GLB.AUTO_START = true → u.runCfgCheck.isSet Reg.RTE.CFG_OK = true →
      m.enterConfig cause = u.runCfgCheck.enterMode .train 1) ∧
    (u.isSet Reg.GLB.AUTO_START = true → u.runCfgCheck.isSet Reg.RTE.CFG_OK = false →
      m.enterConfig cause = u.runCfgCheck.put Reg.GLB.MODE_ERR 3))

/-- WARM_RESET that is carried out makes a warm reset with cause 3 in CONFIG and DRAIN, and with cause 0 in SAFE when
FLT_ACK has been written since the reaction and no SEV3 or SEV4 source is active, staying in the mode it has where a
reaction comes in its course; in SAFE too early it is refused with MODE_ERR 5, in any other mode with 1. A warm reset
takes the links down where they are up, records 0x0020 with the mode, shows the AON registers anew, enters CONFIG
unless it began there, and releases the completions held; it leaves the quadrants with no ring, domain, context,
translation, window, group, queue, lock or counter bank, the registers with what is kept (persistent settings, GLB,
the AON blocks but for their index registers and the containments), and one HGT in all four quadrants. MODULE_RESET
that is carried out resets the module with cause 1, and an expiry of the MGC watchdog with cause 3, after which FS11
is raised: 0x0021 is recorded, every session ends, the recorder writes out all it holds, and the boot begins. -/
def Obligations.ResetsClearWhatTable15ThreeSays : Prop :=
  (∀ (s : State) (r : Requester) (meet : ModeMeet) (i : Nat) (u : Mach), s.m.passes r Reg.GLB.WARM_RESET i = true →
    u = s.m.acted r Reg.GLB.WARM_RESET 1 →
    (u.mode = .config ∨ u.mode = .drain → exec (.warmReset r meet) s = okFlt s (u.warmReset 3)) ∧
    (u.mode = .safe → u.mayLeaveSafe = true → exec (.warmReset r meet) s = okFlt s (u.warmReset 0 (decide (meet = .reaction)))) ∧
    (u.mode = .safe → u.mayLeaveSafe = false → exec (.warmReset r meet) s = okFlt s (u.refuseMode (u.roleOf r) 2 5)) ∧
    (u.mode ∉ [Mode.config, .drain, .safe] → exec (.warmReset r meet) s = okFlt s (u.refuseMode (u.roleOf r) 2 1))) ∧
  (∀ m : Mach, m.mayLeaveSafe = true ↔ m.flt.acked = true ∧ ∀ fs u, (fs, u) ∈ m.flt.active → min 4 (m.get Reg.FLT.SEV fs) < 3) ∧
  (∀ (m v w u : Mach) (cause : Nat), v = (if netMode m.mode then m.allPortsOff else m) →
    w = (v.record 0x0020 5 [v.mode.code]).warmed → u = { w with shadow := w.aonNow } →
    m.warmReset cause true = u ∧
    (u.mode = .config → m.warmReset cause = u) ∧
    (u.mode ≠ .config → m.warmReset cause = (u.enterConfig cause).releaseHeld)) ∧
  (∀ m : Mach, m.warmed.groups = [] ∧ m.warmed.mat = {} ∧ m.warmed.xlt = {} ∧ m.warmed.sch = {} ∧ m.warmed.lka = {} ∧ m.warmed.pmc = {} ∧
    m.warmed.cxn.ctxs = [] ∧ m.warmed.cxn.windows = [] ∧ m.warmed.hif.wrs = [] ∧ m.warmed.hif.work = [] ∧ m.warmed.rte = {} ∧
    m.warmed.links = [] ∧ m.warmed.engines = [] ∧ m.warmed.quads = [] ∧ m.warmed.seqr.swaps = [] ∧ m.warmed.hold = [] ∧
    (∀ p q, p < 4 → q < 4 → m.warmed.tim.hgt.acc p = m.warmed.tim.hgt.acc q)) ∧
  (∀ (m : Mach) (k : Nat), (persistentKey k = true → warmKeeps k = true) ∧ (keyOff k < 0x10000 → 0x30 ≤ keyOff k → warmKeeps k = true) ∧
    (aonBlock (keyOff k / 65536) = true → indexKey k = false → ¬(0xE0070 ≤ keyOff k ∧ keyOff k ≤ 0xE0080) → warmKeeps k = true) ∧
    (keyOff k < 0x18 → warmKeeps k = true) ∧
    (warmKeeps k = false → (∀ c, 1 ≤ c → c ≤ 5 → k ≠ Reg.SEQ.VAR_SEL.key c) → Tbl.find m.warmed.regs k = none)) ∧
  (∀ (s : State) (r : Requester) (b : BootIn) (i : Nat), s.m.passes r Reg.GLB.MODULE_RESET i = true →
    exec (.moduleReset r b) s = .next ({ s with m := s.m.acted r Reg.GLB.MODULE_RESET 1 }.moduleResets b 1)) ∧
  (∀ (s : State) (b : BootIn), exec (.mgcWatchdogExpiry b) s =
    .next { s.moduleResets b 3 with m := (s.moduleResets b 3).m.raise 11 .none 0 4 }) ∧
  (∀ (s : State) (b : BootIn) (cause : Nat) (u : Mach),
    u = (s.m.record 0x0021 5 [cause]).rol.sessions.keys.foldl (fun a k => a.closeSession k 2) (s.m.record 0x0021 5 [cause]) →
    s.moduleResets b cause =
      (State.drainQueue (u.evr.queue.length + u.evr.held.length + u.evr.waiting.length + 64) { s with m := u }).boots b cause)

/-- FAULT_DETECTION takes the oldest wire's detection (the lowest source of its AONCLK period first), or the detection
named; a source of kind L that is active makes none, and a reserved source nothing at all. A detection sets its sticky
bit, adds 1 to its COUNT and stores FORCED, whatever its severity; at SEV0 that is all. With no handling open, one of
SEV1 or above opens one: HANDLINGS counts, the captures are filled, record 0x2000 plus the source is accepted, and the
MCTP message and the interrupt go out where they are enabled; from SEV2 it contains its unit; SEV3 makes the SAFE
reaction and SEV4 the LOCKOUT reaction, with the feed gates opened where PWR is set. A reaction forces the outputs,
stops bus mastering, changes the mode and ends the handling; in ATTEST a SAFE reaction forces the outputs only, in
SAFE and LOCKOUT it does nothing, and in LOCKOUT a LOCKOUT reaction drives the outputs only. With a handling open it
merges: it is counted as merged, its source is listed once, up to 16, MERGES counts, the severity rises to the greater
one, and a rise counts as an escalation, makes the reaction, and is written to the open record. A unit of None, a feed
or a rail is contained by nothing. FAULT_SELF_CHECK, once a second, raises FS0 for each failed wire with the wire in
DETAIL. FAULT_FORCE injects the sources of the bits written, in ascending order, each as one detection with no unit
that takes in those of the same source in its AONCLK period. FAULT_N is asserted in SAFE and LOCKOUT, while the open
handling is of SEV3 or above or has a source with FAULTN, while such a source is active, and while one of SEV0 has its
sticky bit set. -/
def Obligations.DetectionsOpenMergeAndReact : Prop :=
  (∀ (s : State) (d : Detection),
    (fsReserved d.fs = true → exec (.faultDetection (some d)) s = okFlt s s.m) ∧
    (fsReserved d.fs = false → d ∈ s.m.flt.wires → exec (.faultDetection (some d)) s = okFlt s ((s.m.takeWire d).collect d)) ∧
    (fsReserved d.fs = false → d ∉ s.m.flt.wires → fsLevel d.fs = false → exec (.faultDetection (some d)) s = okFlt s (s.m.collect d)) ∧
    (fsReserved d.fs = false → d ∉ s.m.flt.wires → fsLevel d.fs = true → (d.fs, d.unit) ∈ s.m.flt.active →
      exec (.faultDetection (some d)) s = okFlt s s.m) ∧
    (fsReserved d.fs = false → d ∉ s.m.flt.wires → fsLevel d.fs = true → (d.fs, d.unit) ∉ s.m.flt.active →
      exec (.faultDetection (some d)) s =
        okFlt s ({ s.m with flt := { s.m.flt with active := (d.fs, d.unit) :: s.m.flt.active } }.collect d)) ∧
    (firstWire s.m.flt.wires = some d → exec (.faultDetection none) s = okFlt s ((s.m.takeWire d).collect d)) ∧
    (s.m.flt.wires = [] → exec (.faultDetection none) s = okFlt s s.m)) ∧
  (∀ (m u v : Mach) (d : Detection),
    u = (((m.put Reg.FLT.STICKY 1 d.fs).bump Reg.FLT.COUNT 1 d.fs).put Reg.FLT.FORCED (b2n d.forced) d.fs) →
    v = { u with flt := { u.flt with lastSet := Tbl.set u.flt.lastSet d.fs m.clk } } →
    (m.sevOf d.fs = 0 → m.collect d = v) ∧
    (m.sevOf d.fs = 1 → v.flt.handling = none → m.collect d = v.openHandling d 1) ∧
    (∀ sev, m.sevOf d.fs = sev → 2 ≤ sev → v.flt.handling = none →
      m.collect d = ((v.openHandling d sev).contain d.unit).react sev d.fs) ∧
    (∀ sev h, m.sevOf d.fs = sev → 1 ≤ sev → v.flt.handling = some h → m.collect d =
      (if h.sev < sev then (if 2 ≤ sev then (v.mergeHandling h d.fs sev).contain d.unit else v.mergeHandling h d.fs sev).react sev d.fs
       else if 2 ≤ sev then (v.mergeHandling h d.fs sev).contain d.unit else v.mergeHandling h d.fs sev))) ∧
  (∀ (m : Mach) (h : Handling) (fs sev : Nat),
    (h.merge fs sev).merged = h.merged + 1 ∧ (h.merge fs sev).sev = max h.sev sev ∧
    ((h.merge fs sev).escalated = true ↔ h.escalated = true ∨ h.sev < sev) ∧
    (fs ∉ h.list → h.list.length < 16 → (h.merge fs sev).list = h.list ++ [fs]) ∧
    (fs ∈ h.list ∨ 16 ≤ h.list.length → (h.merge fs sev).list = h.list) ∧
    (∀ u : Mach, u = { m with flt := { m.flt with handling := some (h.merge fs sev) } }.bump Reg.FLT.MERGES → m.mergeHandling h fs sev =
      (if h.sev < sev then u.bump Reg.FLT.ESCALATIONS else u).amendOpen (h.merge fs sev) true 0 0 0)) ∧
  (∀ (m : Mach) (fs sev : Nat), (sev < 3 → m.react sev fs = m) ∧ m.react 3 fs = m.reactSafe 2 fs ∧
    m.react 4 fs = m.reactLockout 2 fs (m.isSet Reg.FLT.PWR fs) ∧
    m.contain .none = m ∧ (∀ f, m.contain (.feed f) = m) ∧ (∀ n, m.contain (.rail n) = m) ∧
    (∀ p, m.contain (.port p) = m.containPort p) ∧ (∀ k, m.contain (.slot k) = m.containSlot k) ∧
    (∀ q n, m.contain (.ring q n) = m.containRing n) ∧ (∀ e, m.contain (.engine e) = m.stopEngine e)) ∧
  (∀ (m u v w : Mach) (d : Detection) (sev : Nat) (h : Handling),
    h = { first := d.fs, sev := sev, list := [d.fs], merged := 0, escalated := false, listFull := false, forced := d.forced, unit := d.unit, detail := d.detail, mode := m.mode.code, hgt := d.hgt } →
    u = ({ m with flt := { m.flt with handling := some h } }.bump Reg.FLT.HANDLINGS).put64 Reg.FLT.CAP_SEQ_LO Reg.FLT.CAP_SEQ_HI 0 →
    v = u.accept { code := 0x2000 + d.fs, sev := sev, role := 0, origin := d.origin, aonStamp := decide (4 ≤ d.origin), hgt := d.hgt, body := .fault h true 0 0 0 } →
    w = v.evr.openRec.elim v (fun o => if v.isSet Reg.FLT.MCTP_EN then v.emit (.faultEvent o.seq) else v) →
    (w.isSet Reg.FLT.IRQ_EN = true → w.get Reg.FLT.IRQ_VEC < vectorsOf 0 → w.slotPresent (w.get Reg.FLT.IRQ_SLOT) = true →
      m.openHandling d sev = w.interrupt (w.get Reg.FLT.IRQ_SLOT) 0 (w.get Reg.FLT.IRQ_VEC)) ∧
    (w.isSet Reg.FLT.IRQ_EN = false ∨ vectorsOf 0 ≤ w.get Reg.FLT.IRQ_VEC ∨ w.slotPresent (w.get Reg.FLT.IRQ_SLOT) = false →
      m.openHandling d sev = w)) ∧
  (∀ (m u : Mach) (cause fs : Nat) (gates : Bool), (m.mode ∈ [Mode.dormant, .config, .train, .run, .drain] →
      m.reactSafe cause fs = (((m.forceOutputs false).stopBus).enterMode .safe cause fs).reacted) ∧
    (m.mode = .attest → m.reactSafe cause fs = (m.forceOutputs false).reacted) ∧
    (m.mode = .safe ∨ m.mode = .lockout → m.reactSafe cause fs = m) ∧
    (m.mode ≠ .lockout → u = ((m.forceOutputs gates).stopBus).enterMode .lockout cause fs →
      m.reactLockout cause fs gates = { u with boot := { u.boot with lockMarker := true } }.reacted) ∧
    (m.mode = .lockout → m.reactLockout cause fs gates = m.forceOutputs gates)) ∧
  (∀ (m u : Mach) (gates : Bool), u = (m.put Reg.FLT.LANES_IDLE 1).put Reg.FLT.PPS_FORCED 1 →
    (gates = true → { u with tim := { u.tim with ppsHigh := false, clkHz := 0 } }.isSet Reg.FLT.GATES_OFF = false →
      m.forceOutputs gates = { u with tim := { u.tim with ppsHigh := false, clkHz := 0 } }.gatesOff) ∧
    (gates = false ∨ { u with tim := { u.tim with ppsHigh := false, clkHz := 0 } }.isSet Reg.FLT.GATES_OFF = true →
      m.forceOutputs gates = { u with tim := { u.tim with ppsHigh := false, clkHz := 0 } }) ∧
    m.stopBus = { m.put Reg.FLT.BM_STOPPED 1 with hif := { m.hif with reads := [] } }.gateAll) ∧
  (∀ (s : State) (bad : List (Fin 128)) (u v : Mach), u = s.m.elapseTo s.m.flt.checkAt →
    v = { u with flt := { u.flt with checkAt := u.clk + Config.secCycles } } →
    Completes (.faultSelfCheck bad) s (bad.foldl (fun a w => a.raise 0 .none w.val 4) v)) ∧
  (∀ (s : State) (r : Requester) (bank : Fin 4) (bits : Word) (i : Nat), s.m.passes r (Reg.FLT.FORCE bank) i = true →
    exec (.faultForce r bank bits) s = okFlt s (((List.range 32).filter (bit bits.toNat)).foldl (fun a k => a.force (32 * bank.val + k))
      (s.m.acted r (Reg.FLT.FORCE bank) bits.toNat))) ∧
  (∀ (m : Mach) (fs : Nat), (fsReserved fs = true → m.force fs = m) ∧
    (fsReserved fs = false → m.force fs = { m with flt := { m.flt with wires := m.flt.wires.filter (fun d =>
        !(d.fs == fs && aonPeriod d.atc == aonPeriod (m.clk - 1))) } }.collect
      { fs := fs, unit := .none, detail := (Config.faultDetail fs .none 0 m.clk).toNat, hgt := m.aonHgt, atc := m.clk, forced := true })) ∧
  (∀ m : Mach, m.faultN = true ↔ m.mode = .safe ∨ m.mode = .lockout ∨
    (∃ h, m.flt.handling = some h ∧ (3 ≤ h.sev ∨ ∃ f ∈ h.list, m.isSet Reg.FLT.FAULTN f = true)) ∨
    (∃ a ∈ m.flt.active, m.isSet Reg.FLT.FAULTN a.1 = true) ∨
    (∃ f, f < 128 ∧ m.isSet Reg.FLT.FAULTN f = true ∧ m.sevOf f = 0 ∧ m.isSet Reg.FLT.STICKY f = true))

/-- FLT_ACK that is carried out ends the open handling, amending its record with the mode and the AON HGT, and counts as
the acknowledgement R385 asks whether or not one is open; while four records are held it is ignored and recorded.
STICKY_CLEAR clears the indexed source's sticky bit, or those of the bits written in a bank, but for one that was set
anew in the two AONCLK periods before. SLOT_CONT releases each slot written that is contained and was not contained
anew: its functions go on. CONDITION_END of a source that is active for a unit takes it out of ACTIVE: a temperature's
crossing is over, a rail of a group that has started, with PGOOD high, is back in RAIL_OK (RAILS_UP with all 26); of
one that is not active it changes nothing. CNT_CLR clears HANDLINGS, MERGES, ESCALATIONS and all 128 COUNTs. -/
def Obligations.HandlingsEndAndStickyBitsClear : Prop :=
  (∀ (s : State) (r : Requester) (i : Nat) (u v : Mach), s.m.passes r Reg.FLT.FLT_ACK i = true →
    (s.m.evr.held.length < 4 → u = s.m.acted r Reg.FLT.FLT_ACK 1 → v = u.closeHandling u.mode.code 0 →
      exec (.fltAck r) s = okFlt s { v with flt := { v.flt with acked := true } }) ∧
    (4 ≤ s.m.evr.held.length → exec (.fltAck r) s = okFlt s ((s.m.crossAon r Reg.FLT.FLT_ACK).ignoreWrite r Reg.FLT.FLT_ACK 1))) ∧
  (∀ (m u : Mach) (modeClose reactTs : Nat) (h : Handling),
    (m.flt.handling = none → m.closeHandling modeClose reactTs = m) ∧
    (m.flt.handling = some h → u = m.amendOpen h false modeClose m.aonHgt reactTs →
      m.closeHandling modeClose reactTs = { u with flt := { u.flt with handling := none, last := some h } })) ∧
  (∀ (m : Mach) (h : Handling) (o : Rec) (modeClose closeTs reactTs : Nat), m.evr.openRec = some o →
    (∀ r ∈ m.evr.queue, r.seq ≠ o.seq) →
    (m.amendOpen h false modeClose closeTs reactTs).evr.openRec = none ∧
    (m.amendOpen h false modeClose closeTs reactTs).evr.amends =
      m.evr.amends ++ [{ o.withHandling h false modeClose closeTs reactTs with amended := true }]) ∧
  (∀ (s : State) (r : Requester) (i : Nat), s.m.passes r Reg.FLT.STICKY i = true →
    Completes (.stickyClear r .indexed) s ((s.m.acted r Reg.FLT.STICKY 1).clearSticky i)) ∧
  (∀ (s : State) (r : Requester) (k : Fin 4) (bits : Word) (i : Nat), s.m.passes r (Reg.FLT.STICKY_BANK k) i = true →
    Completes (.stickyClear r (.bank k bits)) s (((List.range 32).filter (bit bits.toNat)).foldl (fun a n => a.clearSticky (32 * k.val + n))
      (s.m.acted r (Reg.FLT.STICKY_BANK k) bits.toNat))) ∧
  (∀ (m : Mach) (fs t : Nat),
    (Tbl.find m.flt.lastSet fs = some t → m.clk < t + 2 * Config.aonCycles → m.clearSticky fs = m) ∧
    (Tbl.find m.flt.lastSet fs = some t → t + 2 * Config.aonCycles ≤ m.clk → m.clearSticky fs = m.put Reg.FLT.STICKY 0 fs) ∧
    (Tbl.find m.flt.lastSet fs = none → m.clearSticky fs = m.put Reg.FLT.STICKY 0 fs)) ∧
  (∀ (s : State) (r : Requester) (bits : BitVec 16) (i : Nat), s.m.passes r Reg.FLT.SLOT_CONT i = true →
    Completes (.slotContRelease r bits) s (((List.range 16).filter (bit bits.toNat)).foldl
      (fun a k => if a.setAnew (1000 + k) then a else a.releaseSlot k) (s.m.acted r Reg.FLT.SLOT_CONT bits.toNat))) ∧
  (∀ (m u : Mach) (k : Nat), (bit (m.get Reg.FLT.SLOT_CONT) k = false → m.releaseSlot k = m) ∧
    (bit (m.get Reg.FLT.SLOT_CONT) k = true → u = m.put Reg.FLT.SLOT_CONT (m.get Reg.FLT.SLOT_CONT - 2 ^ k) → m.releaseSlot k =
      (u.hif.funcs.keys.filter (fun x => x / 256 == k)).foldl (fun a x => a.releaseFn k (x % 256)) u)) ∧
  (∀ (s : State) (fs : Fin 128) (unit : FUnit) (u : Mach), u = s.m.endCondition fs unit →
    ((fs.val, unit) ∉ s.m.flt.active → Completes (.conditionEnd fs unit) s s.m) ∧
    ((fs.val, unit) ∈ s.m.flt.active → fs.val ≠ 94 → fs.val ≠ 95 →
      (∀ n, unit = .rail n → Completes (.conditionEnd fs unit) s (u.railBack n)) ∧
      ((∀ n, unit ≠ .rail n) → Completes (.conditionEnd fs unit) s u)) ∧
    ((fs.val, unit) ∈ s.m.flt.active → fs.val = 94 ∨ fs.val = 95 →
      Completes (.conditionEnd fs unit) s { u with seqr := { u.seqr with hot := u.seqr.hot.filter (fun h => h.1 + 94 != fs.val) } })) ∧
  (∀ (m u : Mach) (rail : Nat), railGroup rail ≤ m.pwr.groups → rail < 26 → m.isSet Reg.PWR.PGOOD = true →
    u = m.put Reg.PWR.RAIL_OK (m.get Reg.PWR.RAIL_OK ||| 2 ^ rail) →
    (m.get Reg.PWR.RAIL_OK ||| 2 ^ rail = 2 ^ 26 - 1 → m.railBack rail = u.put Reg.PWR.RAILS_UP 1) ∧
    (m.get Reg.PWR.RAIL_OK ||| 2 ^ rail ≠ 2 ^ 26 - 1 → m.railBack rail = u)) ∧
  (∀ (m : Mach) (rail : Nat), m.pwr.groups < railGroup rail ∨ 26 ≤ rail ∨ m.isSet Reg.PWR.PGOOD = false → m.railBack rail = m) ∧
  (∀ (s : State) (r : Requester) (i : Nat), s.m.passes r Reg.FLT.CNT_CLR i = true →
    Completes (.fltCntClr r) s ((List.range 128).foldl (fun a k => a.put Reg.FLT.COUNT 0 k)
      ((s.m.acted r Reg.FLT.CNT_CLR 1).clear [Reg.FLT.HANDLINGS, Reg.FLT.MERGES, Reg.FLT.ESCALATIONS])))

/-- An exempt record with room, nothing waiting and nothing held before it joins the queue; otherwise a mode change or a
fault record is held, and another exempt one makes its producer wait. A rate-limited record without a whole token, or
of a code with RATE 0, is suppressed and counted; with one it gives up a token and joins the queue while fewer than
224 ordinary places are in use, else it is dropped, LOST counts, and the LOST record remembers the number and the
first stamp. A record joins the queue after a copy of the open fault record where it would cover that one. A record is
numbered NEXT_SEQ, which goes up by 1, and placed in the Keep area while it fits, after that in the Ring, where older
records it covers go. RECORD_WRITE_COMPLETE writes the record at the head of the queue, if any, to its place in MRAM,
after which the LOST record, held and waiting records go on in their order while there is room, and then the accesses
that waited, in theirs. LOST_RECORD writes the LOST record once space has returned and records were lost.
SUPPRESSED_RECORD, at the whole second of the AON HGT, writes one record 0x0FF0 for each code that had records
suppressed, and none where none had. CNT_CLR clears LOST and SUPPRESSED. -/
def Obligations.RecordsAreAcceptedAndWrittenInOrder : Prop :=
  (∀ (m : Mach) (r : Rec),
    (m.evr.roomExempt = true → m.evr.waiting = [] → m.evr.held = [] ∨ neverWaits r.code = false →
      m.acceptExempt r = { m with evr := m.evr.enqueue (m.evr.reserve r) }) ∧
    (m.evr.roomExempt = false ∨ m.evr.waiting ≠ [] ∨ (m.evr.held ≠ [] ∧ neverWaits r.code = true) →
      (neverWaits r.code = true → m.acceptExempt r = { m with evr := { m.evr with held := m.evr.held ++ [r] } }) ∧
      (neverWaits r.code = false → m.acceptExempt r = { m with evr := { m.evr with waiting := m.evr.waiting ++ [r] } }))) ∧
  (∀ (m u v : Mach) (r : Rec),
    (u = m.bump Reg.EVR.SUPPRESSED → (m.bucket r.code).credit < Config.hgtSec ∨ (m.burstRate r.code).2 = 0 → m.acceptLimited r = { u with evr := { u.evr with
      buckets := Tbl.set u.evr.buckets r.code (m.bucket r.code)
      supp := Tbl.modify u.evr.supp r.code (0, r.hgt / 16 % 2 ^ 32) (fun x => (x.1 + 1, x.2)) } }) ∧
    (Config.hgtSec ≤ (m.bucket r.code).credit → (m.burstRate r.code).2 ≠ 0 →
      u = { m with evr := { m.evr with
        buckets := Tbl.set m.evr.buckets r.code { m.bucket r.code with credit := (m.bucket r.code).credit - Config.hgtSec } } } →
      (m.evr.plainUsed < 224 → m.acceptLimited r = { u with evr := u.evr.enqueue r }) ∧
      (224 ≤ m.evr.plainUsed → v = u.bump Reg.EVR.LOST → m.acceptLimited r = { v with evr := { v.evr with
        lostNow := v.evr.lostNow + 1
        lostAt := if v.evr.lostNow = 0 then r.hgt / 16 % 2 ^ 32 else v.evr.lostAt } }))) ∧
  (∀ (e : Evr) (r : Rec), (e.put r).nextSeq = e.nextSeq + 1 ∧
    (∃ r', (e.put r).queue = e.queue ++ [r'] ∧ r'.seq = e.nextSeq ∧ r'.code = r.code ∧ r'.body = r.body ∧ r'.hgt = r.hgt ∧
      (e.keepFull = false → e.keepNext + 16 * r.len16 ≤ 16777216 → r'.place = e.keepNext ∧ r'.keep = true ∧
        (e.put r).keepNext = e.keepNext + 16 * r.len16 ∧ (e.put r).keepFull = false) ∧
      (e.keepFull = true ∨ 16777216 < e.keepNext + 16 * r.len16 → r'.place = 16777216 + e.ringNext % 33554432 ∧ r'.keep = false ∧
        (e.put r).keepFull = true ∧ (e.put r).ringNext = e.ringNext + 16 * r.len16))) ∧
  (∀ (e : Evr) (r : Rec), (e.coversOpen (16 * r.len16) = false ∨ e.openRec = none → e.enqueue r = e.put r) ∧
    (∀ o, e.coversOpen (16 * r.len16) = true → e.openRec = some o →
      e.enqueue r = (e.put { o with reloc := true, reserved := false }).put r)) ∧
  (∀ (s u : State), u = s.writeHead → exec .recordWriteComplete s =
    .next (u.m.evr.stalled.foldl State.goOn { u with m := { u.m with evr := { u.m.evr with stalled := [] } } })) ∧
  (∀ (s : State) (rec_ : Rec) (rest : List Rec), (s.m.evr.queue = [] → s.writeHead = s) ∧
    (s.m.evr.queue = rec_ :: rest → ∀ (u : Mach), u = { s.m with evr := { s.m.evr with queue := rest } } →
      s.writeHead = { s with mram := Memory.writeRec s.mram rec_.place rec_.toBytes
                             m := Mach.resume (u.evr.held.length + u.evr.waiting.length + 1) u })) ∧
  (∀ (m u : Mach) (n : Nat) (r : Rec) (rest : List Rec), Mach.resume 0 m = m ∧
    (u = m.lostFirst →
      (u.evr.roomExempt = false ∨ (u.evr.held = [] ∧ u.evr.waiting = []) → Mach.resume (n + 1) m = u) ∧
      (u.evr.roomExempt = true → u.evr.held = r :: rest →
        Mach.resume (n + 1) m = Mach.resume n ({ u with evr := { u.evr with held := rest } }.acceptHeld r)) ∧
      (∀ v : Mach, u.evr.roomExempt = true → u.evr.held = [] → u.evr.waiting = r :: rest → v = { u with evr := { u.evr with waiting := rest } } →
        Mach.resume (n + 1) m = Mach.resume n { v with evr := v.evr.enqueue (v.evr.reserve r) }))) ∧
  (∀ s : State, Completes .lostRecord s s.m.lostFirst) ∧
  (∀ m : Mach, (m.evr.lostNow = 0 ∨ 224 ≤ m.evr.plainUsed → m.lostFirst = m) ∧
    (m.evr.lostNow ≠ 0 → m.evr.plainUsed < 224 → m.lostFirst.evr.lostNow = 0 ∧ m.lostFirst.evr =
      { m.evr.enqueue { code := 0x0FF1, sev := 0, role := 0, origin := 4, aonStamp := true, hgt := m.aonHgt
                        body := .bytes (zeros 4 ++ leBytes 4 m.evr.lostNow ++ leBytes 4 m.evr.lostAt)
                        boot := m.get Reg.GLB.BOOT_COUNT } with lostNow := 0, lostAt := 0 })) ∧
  (∀ (s : State) (u : Mach) (code n t : Nat) (rest : Tbl (Nat × Nat)),
    (s.m.evr.supp = [] → Completes .suppressedRecord s s.m) ∧
    (s.m.evr.supp = (code, n, t) :: rest → u = s.m.elapseAon (s.m.secondAfter t) → Completes .suppressedRecord s
      (u.evr.supp.foldl (fun (a : Mach) (c : Nat × Nat × Nat) => a.accept
        { code := 0x0FF0, sev := 0, role := 0, origin := 4, aonStamp := true, hgt := s.m.secondAfter t
          body := .bytes (leBytes 2 c.1 ++ zeros 2 ++ leBytes 4 c.2.1 ++ leBytes 4 c.2.2) })
        { u with evr := { u.evr with supp := [] } }))) ∧
  (∀ (s : State) (r : Requester) (i : Nat), s.m.passes r Reg.EVR.CNT_CLR i = true →
    Completes (.evrCntClr r) s ((s.m.acted r Reg.EVR.CNT_CLR 1).clear [Reg.EVR.LOST, Reg.EVR.SUPPRESSED]))

/-- RD_GO of a number not yet written ends with result 1, of one overwritten with 2, of one that fails its checks with 3,
FS123 and 0xA030, of one whose MRAM cannot be corrected with 4, FS12 and 0xA033, and otherwise copies the record into
the function's RD_BUF with DONE, its OPEN bit and its length. LEDGER_GO of an entry at or above LEDGER_COUNT ends with
5, and otherwise copies the entry's 256 B into the front of RD_BUF. A failed copy leaves what RD_BUF held. VERIFY_GO
starts the check from VERIFY_FROM, and is ignored and recorded while one runs. The end of the check, 1.5 ms for each
entry checked after VERIFY_GO, records 0xA032 with its range, or, where an entry of the range fails, 0xA030 with that
entry and raises FS123; with no check running it changes nothing. -/
def Obligations.RecordsAndLedgerAreReadAndChecked : Prop :=
  (∀ (s : State) (r : Requester) (i : Nat) (bad : Bool) (u : Mach) (seq : Nat), s.m.passes r Reg.EVR.RD_GO i = true →
    u = s.m.acted r Reg.EVR.RD_GO 1 → seq = u.get64 Reg.EVR.RD_SEQ_LO Reg.EVR.RD_SEQ_HI i →
    (u.evr.written seq = false → Completes (.rdGo r bad) s (u.rdDone i 1 [] false 0)) ∧
    (u.evr.written seq = true → u.evr.find seq = none → Completes (.rdGo r bad) s (u.rdDone i 2 [] false 0)) ∧
    (∀ a b, u.evr.written seq = true → u.evr.find seq = some a → b = Memory.readRec s.mram a.place a.len →
      (bad = true → Completes (.rdGo r bad) s (((u.raise 12 .none a.place).record 0xA033 4 [a.place]).rdDone i 4 [] false 0)) ∧
      (bad = false → recordGood seq b = false → Completes (.rdGo r bad) s
        (((u.raise 123 .none a.place).record 0xA030 4 [seq]).rdDone i 3 [] false 0)) ∧
      (bad = false → recordGood seq b = true → Completes (.rdGo r bad) s (u.rdDone i 0 b (recordOpen b) (a.len / 16))))) ∧
  (∀ (s : State) (r : Requester) (i : Nat) (bad : Bool) (u : Mach) (n : Nat), s.m.passes r Reg.EVR.LEDGER_GO i = true →
    u = s.m.acted r Reg.EVR.LEDGER_GO 1 → n = u.get Reg.EVR.LEDGER_IDX i →
    (u.evr.ledger ≤ n → Completes (.ledgerGo r bad) s (u.rdDone i 5 [] false 0)) ∧
    (n < u.evr.ledger → bad = true → Completes (.ledgerGo r bad) s ((u.mramBad (ledgerAddr n)).rdDone i 4 [] false 0)) ∧
    (n < u.evr.ledger → bad = false → Completes (.ledgerGo r bad) s
      (u.rdDone i 0 (Memory.readAll s.mram (ledgerAddr n) 256 ++ (u.rdBuf i).bytes.drop 256) false 16))) ∧
  (∀ (m : Mach) (k res : Nat) (b : List Byte) (o : Bool) (len : Nat),
    ((m.rdDone k res b o len).rdBuf k).result = res ∧ ((m.rdDone k res b o len).rdBuf k).done = decide (res = 0) ∧
    ((m.rdDone k res b o len).rdBuf k).bytes = (if res = 0 then b else (m.rdBuf k).bytes) ∧
    (∀ j, j ≠ k → (m.rdDone k res b o len).rdBuf j = m.rdBuf j)) ∧
  (∀ (s : State) (r : Requester) (i : Nat) (u : Mach), s.m.passes r Reg.EVR.VERIFY_GO i = true →
    (s.m.evr.verBusy = false → u = s.m.acted r Reg.EVR.VERIFY_GO 1 → Completes (.verifyGo r) s
      { u with evr := { u.evr with verBusy := true, verBad := false, verFrom := u.get Reg.EVR.VERIFY_FROM
                                   verPos := u.get Reg.EVR.VERIFY_FROM, verAt := u.clk } }) ∧
    (s.m.evr.verBusy = true → Completes (.verifyGo r) s ((s.m.crossAon r Reg.EVR.VERIFY_GO).ignoreWrite r Reg.EVR.VERIFY_GO 1))) ∧
  (∀ (s : State) (n : Nat) (bad : Option Nat) (u : Mach), s.m.evr.verBusy = true →
    (s.m.evr.verFrom ≤ n → n < s.m.evr.ledger → u = s.m.elapseTo (s.m.evr.verAt + (n + 1 - s.m.evr.verFrom) * verifyCycles) →
      Completes (.verifyComplete (some n)) s
        (({ u with evr := { u.evr with verBusy := false, verBad := true, verPos := n } }.raise 123 .none n 5).record 0xA030 5 [n])) ∧
    (bad = none ∨ bad.any (fun k => decide (k < s.m.evr.verFrom ∨ s.m.evr.ledger ≤ k)) = true →
      u = s.m.elapseTo (s.m.evr.verAt + (max s.m.evr.verFrom s.m.evr.ledger - s.m.evr.verFrom) * verifyCycles) →
      Completes (.verifyComplete bad) s ({ u with evr := { u.evr with verBusy := false, verPos := max u.evr.verFrom u.evr.ledger } }.record
        0xA032 5 [u.evr.verFrom, u.evr.ledger]))) ∧
  (∀ (s : State) (bad : Option Nat), s.m.evr.verBusy = false → Completes (.verifyComplete bad) s s.m)

/-- EXP_GO while the function's export runs is ignored, recorded, and sets EXP_ERR 2; with a PD that is not enabled or not
its slot's it sets EXP_ERR 3; otherwise the export is set up from EXP_FROM_SEQ to the NEXT_SEQ of that moment, at
EXP_VA aligned to 16 B, with a length of at least 1,024 B. EXPORT_COMPLETE runs the export of the requester's
function: it ends without error at the last number held at its start, or at a record that does not fit; a record not
yet written is written to MRAM first; numbers that are gone are passed over with GAP; each record goes whole to host
memory by one write of access kind 1 through the export's PD; a translation fault ends it with EXP_ERR 1. With no
export running, or one that waits for a translation, nothing changes. -/
def Obligations.ExportsCopyRecordsToTheHost : Prop :=
  (∀ (s : State) (r : Requester) (i : Nat) (u : Mach), s.m.passes r Reg.EVR.EXP_GO i = true → u = s.m.acted r Reg.EVR.EXP_GO 1 →
    ((u.export_ i).busy = true → Completes (.expGo r) s ((u.ignoreWrite r Reg.EVR.EXP_GO 1).updExport i (fun e => { e with err := 2 }))) ∧
    ((u.export_ i).busy = false → Tbl.find u.xlt.pds (u.get Reg.EVR.EXP_PD i) = none →
      Completes (.expGo r) s (u.updExport i (fun e => { e with err := 3 }))) ∧
    (∀ p, (u.export_ i).busy = false → Tbl.find u.xlt.pds (u.get Reg.EVR.EXP_PD i) = some p →
      (p.slot ≠ r.slotOf → Completes (.expGo r) s (u.updExport i (fun e => { e with err := 3 }))) ∧
      (p.slot = r.slotOf → Completes (.expGo r) s (u.updExport i (fun _ =>
        { busy := true, next := u.get64 Reg.EVR.EXP_FROM_SEQ_LO Reg.EVR.EXP_FROM_SEQ_HI i, upTo := u.evr.nextSeq
          atc := u.get64 Reg.EVR.EXP_VA_LO Reg.EVR.EXP_VA_HI i / 16 * 16
          limit := u.get64 Reg.EVR.EXP_VA_LO Reg.EVR.EXP_VA_HI i / 16 * 16 + max 1024 (u.get Reg.EVR.EXP_LEN i)
          pd := u.get Reg.EVR.EXP_PD i }))))) ∧
  (∀ (s : State) (r : Requester), exec (.exportComplete r) s = .next (s.goExport r.fnKey)) ∧
  (∀ (s : State) (i fuel : Nat) (e : Export), e = s.m.export_ i →
    (e.busy = false ∨ e.wait = true → s.goExport i = s) ∧
    (e.busy = true → e.wait = false → e.upTo ≤ e.next → s.goExport i = { s with m := s.m.exportEnd i 0 }) ∧
    (e.busy = true → e.wait = false → e.next < e.upTo →
      (s.m.evr.written e.next = false → s.pumpExport i (fuel + 1) = s.writeHead.pumpExport i fuel) ∧
      (∀ nx, s.m.evr.written e.next = true → s.m.evr.find e.next = none →
        nx = ((s.m.evr.where_.find? (fun a => decide (e.next < a.seq))).map (·.seq)).getD e.upTo →
        s.pumpExport i (fuel + 1) =
          ({ s with m := s.m.updExport i (fun e' => { e' with gap := true, next := min nx e'.upTo }) } : State).pumpExport i fuel) ∧
      (∀ a, s.m.evr.written e.next = true → s.m.evr.find e.next = some a →
        (e.limit < e.atc + a.len → s.pumpExport i (fuel + 1) = { s with m := s.m.exportEnd i 0 }) ∧
        (e.atc + a.len ≤ e.limit → ∀ u d, s.m.hostAccess (s.m.exportOp i e (Memory.readRec s.mram a.place a.len)) = (u, d) →
          (d = .issued → s.pumpExport i (fuel + 1) = ({ s with m := u.exportIssued i a.len } : State).pumpExport i fuel) ∧
          (d = .waiting → s.pumpExport i (fuel + 1) = { s with m := u.updExport i (fun e => { e with wait := true }) }) ∧
          (∀ c, d = .fault c → s.pumpExport i (fuel + 1) = { s with m := u.exportEnd i 1 }))))) ∧
  (∀ (m : Mach) (i : Nat) (e : Export) (b : List Byte), (m.exportOp i e b).kind = 1 ∧ (m.exportOp i e b).data = some b ∧
    (m.exportOp i e b).pd = e.pd ∧ (m.exportOp i e b).va = e.atc ∧ (m.exportOp i e b).len = b.length) ∧
  (∀ (m : Mach) (i len : Nat) (e : Export), e = m.export_ i → (m.exportIssued i len).export_ i =
    { e with atc := e.atc + len, bytes := e.bytes + len, next := e.next + 1, wait := false })

/-- Outside LOCKOUT, a write that is not of a whole aligned word, or is at or above offset 0x0012_0000, or is to a window
that the mode does not decode, changes nothing and records nothing; a read of such a kind returns 0, in every mode,
and changes nothing. In LOCKOUT every write is ignored and recorded as 0x9802. (The requester's quadrant is not
parked, so the access wakes nothing.) A register reads as a 32-bit word, which is the type of the value returned. -/
def Obligations.AccessesWithoutARegisterReadZeroAndIgnoreWrites : Prop :=
  ∀ (s : State) (r : Requester) (off : Nat) (whole : Bool) (v : Word), s.m.pathAwake r = true →
    (whole = false ∨ 0x120000 ≤ off ∨ s.m.mode.decodes (decoded off / 65536) = false →
      (s.m.mode ≠ .lockout → Completes (.registerWrite r off whole v) s s.m) ∧
      Completes (.registerRead r off whole) s (s.m.emit (.readValue r off 0))) ∧
    (s.m.mode = .lockout → Completes (.registerWrite r off whole v) s
      ((s.m.bump Reg.ROL.REFUSED).record 0x9802 (quadOfSlot r.slotOf)
        [if off < 0x120000 then decoded off else off, v.toNat] (s.m.roleOf r)))

/-- Take a register that holds one RW or RS field, with no value computed at the read, no action bits and no stream of
another slot, outside LOCKOUT and in a decoded window. A write by a role that covers the field stores the field's bits
of the value, a privileged one after its 0x9001 record, after the crossing to the quadrant or the AON die that holds
it (at the recorder's rate settings the buckets are settled first), and has the register's live effect: none but at
the offsets that Mach.liveWrite lists. A write that must wait, because the recorder has no room for its record or an
earlier write of the function to the block waits, joins those that wait and changes nothing else. A write by a lower
role leaves every field as it was and, where the field would have changed, counts and records the refusal as 0x9801
with the refused bits. A field reached with an index out of range is not written. -/
def Obligations.OrdinaryRegisterWritesStoreOrAreRefused : Prop :=
  (∀ (s : State) (r : Requester) (off d i x : Nat) (f : Field) (v : Word), s.m.pathAwake r = true → off < 0x120000 → d = decoded off →
    s.m.mode.decodes (d / 65536) = true → s.m.mode ≠ .lockout → regFields d = [f] → f.acc = .rw ∨ f.acc = .rs →
    f.off = d → actsAt d = false → s.m.streamTaken r d = none → x = v.toNat / 2 ^ f.lo % 2 ^ f.width →
    (s.m.inst r f = none → Completes (.registerWrite r off true v) s s.m) ∧
    (s.m.inst r f = some i → s.m.behindWrite r f.block = true →
      Completes (.registerWrite r off true v) s (s.m.stall r d v.toNat 0xFFFFFFFF)) ∧
    (s.m.inst r f = some i → s.m.view r f i = none → s.m.behindWrite r f.block = false →
      ((s.m.roleOf r).covers f.rights = true → s.m.mustWait r f f.priv = true →
        Completes (.registerWrite r off true v) s (s.m.stall r d v.toNat 0xFFFFFFFF)) ∧
      (∀ w u : Mach, (s.m.roleOf r).covers f.rights = true → s.m.mustWait r f f.priv = false →
        w = s.m.taken r f (s.m.readWord r d) v.toNat ((s.m.put f x i).readWord r d) →
        u = (if d = 0xF0024 || d = 0xF002C || d = 0xF0030 then w.settleBuckets else w) →
        Completes (.registerWrite r off true v) s (Mach.liveWrite u (u.put f x i) r d i (x * 2 ^ f.lo))) ∧
      (∀ w u : Mach, (s.m.roleOf r).covers f.rights = false →
        w = (if (s.m.get f i % 2 ^ f.width ^^^ x) * 2 ^ f.lo = 0 then s.m.crossAon r f
          else (s.m.crossAon r f).refuseWrite r d v.toNat ((s.m.get f i % 2 ^ f.width ^^^ x) * 2 ^ f.lo)) →
        u = (if d = 0xF0024 || d = 0xF002C || d = 0xF0030 then w.settleBuckets else w) →
        Completes (.registerWrite r off true v) s u))) ∧
  (∀ (m0 m : Mach) (r : Requester) (d i v : Nat), d ∉ [0x10000, 0x10034, 0x10038, 0x20004, 0x20040, 0x20044, 0x20054, 0x30004, 0x40024,
    0x40034, 0x40040, 0x60080, 0x60090, 0xC00A8, 0xD0004, 0xD0048, 0xD0064, 0x110004, 0x110018, 0x1100E4] →
    Mach.liveWrite m0 m r d i v = m)

/-- In a mode that decodes the window and with the requester's quadrant not parked, a read of the low word of a 64-bit
quantity returns its value and latches the high word under the reading function. A read of a register for which the
function holds a copy returns that copy and uses it up; the next read then returns the value, as does every read of a
high word with no copy held. Every other copy stays. Beside these, a read crosses to the quadrant that holds the block
and, at the eye readings, draws a free value. A register of the AON windows, and AON_ASEQ, read as the shadow of the
last AONCLK edge, every other register as it stands. A read of an AON window behind a write of the function that waits
joins those that wait. -/
def Obligations.HighWordReadsReturnTheLatchedCopy : Prop :=
  (∀ (s : State) (r : Requester) (off d : Nat) (u w : Mach), s.m.pathAwake r = true → off < 0x120000 → d = decoded off →
    s.m.mode.decodes (d / 65536) = true →
    (aonBlock (d / 65536) = true → s.m.aonWaits r = true → Completes (.registerRead r off true) s
      { s.m with evr := { s.m.evr with stalled := s.m.evr.stalled ++ [{ req := r, off := off, val := 0, read := true }] } }) ∧
    (aonBlock (d / 65536) = false ∨ s.m.aonWaits r = false →
      u = (regFields d).head?.elim s.m (fun f => if aonBlock f.block then s.m else s.m.reach r f) →
      w = (if d = 0x2000C then u.fresh.2 else u) →
      (lowWords.contains d = true → Completes (.registerRead r off true) s
        ({ w with hold := Tbl.set w.hold (holdKey r (d + 4)) (u.readShown r (d + 4)) }.emit
          (.readValue r off (BitVec.ofNat 32 (u.readShown r d))))) ∧
      (lowWords.contains d = false → ∀ v, Tbl.find u.hold (holdKey r d) = some v → Completes (.registerRead r off true) s
        ({ w with hold := Tbl.del w.hold (holdKey r d) }.emit (.readValue r off (BitVec.ofNat 32 v)))) ∧
      (lowWords.contains d = false → Tbl.find u.hold (holdKey r d) = none → Completes (.registerRead r off true) s
        (w.emit (.readValue r off (BitVec.ofNat 32 (u.readShown r d))))))) ∧
  (∀ (m : Mach) (r : Requester) (d : Nat),
    (aonBlock (d / 65536) = true ∨ d = Reg.ROL.AON_ASEQ.off → m.readShown r d = m.seen.readWord r d) ∧
    (aonBlock (d / 65536) = false → d ≠ Reg.ROL.AON_ASEQ.off → m.readShown r d = m.readWord r d))

/-- A message that is taken up is answered on the machine that has heard it (its session's time of last message is now).
GET_VERSION, GET_CAPABILITIES, GET_DIGESTS and GET_CERTIFICATE are answered from slot 0, the only chain, and with an
SPDM error for another slot or an offset beyond the chain; NEGOTIATE_ALGORITHMS notes for the transport whether the
offer has the module's four algorithms, and says so; an unsigned GET_MEASUREMENTS returns the blocks its index names
(0 the count of 11, 1 to 11 one, 255 all), each with its value type, and an error for another index, signed or not; a
signed one of a named index, and a CHALLENGE of slot 0, return a signature over the nonces, drawing free values.
HEARTBEAT and KEY_UPDATE inside a session are acknowledged, and outside one are an SPDM error. A message that is not
taken up has no answer (in recovery, and over SMBus once the dynamic address is assigned) or an SPDM error (inside a
session not open on its transport). TIME_QUERY is answered to anybody with the state, the UTC offset, the AON HGT and
the epoch. Nothing else changes. -/
def Obligations.SpdmResponderAnswersWithoutChangingTheModule : Prop :=
  (∀ (s : State) (p : Path), s.m.mgmtHeard p = true →
    Completes (.getVersion p) s ((s.m.heard p).say p .version) ∧
    Completes (.getCapabilities p) s ((s.m.heard p).say p .capabilities) ∧
    Completes (.getDigests p) s ((s.m.heard p).say p (.digests [leNat (digest certificateChain)])) ∧
    (p.sess ≠ none → Completes (.heartbeat p) s ((s.m.heard p).say p .heartbeatAck) ∧
      Completes (.keyUpdate p) s ((s.m.heard p).say p .keyUpdated)) ∧
    (∀ (o : AlgOffer), Completes (.negotiateAlgorithms p o) s
      ({ (s.m.heard p) with rol := { (s.m.heard p).rol with
          algs := Tbl.set (s.m.heard p).rol.algs (transportKey p.via) (o.sha384 && o.ecdsaP384 && o.ecdheP384 && o.aes256Gcm) } }.say p
        (.algorithms (o.sha384 && o.ecdsaP384 && o.ecdheP384 && o.aes256Gcm)))) ∧
    (∀ slot off len : Nat,
      Completes (.getCertificate p slot off len) s ((s.m.heard p).say p
        (if slot = 0 ∧ off < Config.certificateLen then .certificate off ((certificateChain.drop off).take len) else .spdmError))) ∧
    (∀ index nonce : Nat, Completes (.getMeasurements p index false nonce) s ((s.m.heard p).say p
      (if index = 0 then .measurements [{ index := 0, kind := none, value := 11 }] none
       else if index = 255 then .measurements ((List.range 11).map (fun k =>
         { index := k + 1, kind := some (measKind (k + 1)), value := leNat (s.measurement (k + 1)) })) none
       else if index ≤ 11 then .measurements [{ index := index, kind := some (measKind index), value := leNat (s.measurement index) }] none
       else .spdmError))) ∧
    (∀ (index nonce : Nat) (bs : List MeasBlock), s.measurementBlocks index = some bs →
      Completes (.getMeasurements p index true nonce) s
        ({ (s.m.heard p) with free := (s.m.heard p).free + 1 }.say p (.measurements bs (some (leNat ((List.range 96).map
          (Config.sign (leBytes 32 nonce ++ bs.flatMap (fun (b : MeasBlock) => leBytes 1 b.index ++ leBytes 48 b.value)) (s.m.heard p).free))))))) ∧
    (∀ index nonce : Nat, s.measurementBlocks index = none →
      Completes (.getMeasurements p index true nonce) s ((s.m.heard p).say p .spdmError)) ∧
    (p.sess = none → Completes (.heartbeat p) s ((s.m.heard p).say p .spdmError) ∧
      Completes (.keyUpdate p) s ((s.m.heard p).say p .spdmError)) ∧
    (∀ nonce : Nat, Completes (.challenge p 0 nonce) s
      ({ (s.m.heard p) with free := (s.m.heard p).free + 2 }.say p (.challenge (Config.random (s.m.heard p).free)
        (leNat ((List.range 96).map (Config.sign (leBytes 32 nonce ++ leBytes 32 (Config.random (s.m.heard p).free))
          ((s.m.heard p).free + 1))))))) ∧
    (∀ slot nonce : Nat, slot ≠ 0 → Completes (.challenge p slot nonce) s ((s.m.heard p).say p .spdmError))) ∧
  (∀ (s : State) (p : Path) (o : AlgOffer) (a b n : Nat) (f : Bool) (c : Instr), s.m.mgmtHeard p = false →
    c ∈ [Instr.getVersion p, .getCapabilities p, .getDigests p, .negotiateAlgorithms p o, .getCertificate p a b n,
      .getMeasurements p a f n, .challenge p a n, .heartbeat p, .keyUpdate p] → Completes c s (s.m.unheard p)) ∧
  (∀ (m : Mach) (p : Path), (m.boot.recovery = true ∨ (p.via = .smbus ∧ m.rol.i3cAddr ≠ none) → m.unheard p = m) ∧
    (m.boot.recovery = false → p.via ≠ .smbus ∨ m.rol.i3cAddr = none → m.unheard p = m.say p .spdmError) ∧
    (m.boot.recovery = false → p.via ≠ .smbus ∨ m.rol.i3cAddr = none → p.sess = none → m.mgmtHeard p = true) ∧
    (∀ k, m.boot.recovery = false → p.via ≠ .smbus ∨ m.rol.i3cAddr = none → p.sess = some k →
      (m.mgmtHeard p = true ↔ ∃ x : Session, Tbl.find m.rol.sessions k = some x ∧ x.via = p.via))) ∧
  (∀ (s : State) (p : Path), Completes (.timeQuery p) s (s.m.emit (.mgmt p (.timeQuery (s.m.get Reg.TIM.STATE)
    (s.m.get Reg.TIM.UTC_OFFSET) s.m.aonHgt (s.m.get64 Reg.TIM.EPOCH_LO Reg.TIM.EPOCH_HI)))))

/-- With the transport not busy and a session number free, a KEY_EXCHANGE without mutual authentication opens the lowest
free session without a role; one whose mutual authentication holds makes a session that waits for FINISH, with the
role and slot its key matches; both start with index registers of zero. One whose mutual authentication fails counts
as a failure (R421) and is an SPDM error. A busy transport, and a seventeenth session, are answered Busy. FINISH with
a good signature completes the session and opens it with its role; with a bad one it ends the session and counts a
failure. FINISH of a session without mutual authentication says so without a role; of no session, of another
transport's or of one already finished it is an SPDM error. END_SESSION ends its own session with cause 0, and outside
one is an SPDM error. SESSION_IDLE_TIMEOUT ends a session SESS_IDLE seconds after its last message with cause 1,
GRANT_EXPIRY a grant at its end with cause 1, and AUTH_BUSY_END a transport's busy period when it is over; each lets
time pass to then, and where there is no such session, grant or busy period does nothing. -/
def Obligations.SessionsOpenAndEnd : Prop :=
  (∀ (s : State) (p : Path) (x : KeyExchange) (k : Nat), s.m.mgmtHeard p = true → (s.m.heard p).authBusy p.via = false →
    (s.m.heard p).freeSession = some k →
    (x.mutualAuth = false → Completes (.keyExchange p x) s
      ((((List.range 16).foldl (fun (a : Mach) (v : Nat) => a.clearIndexes (32 + 16 * k + v))
        { (s.m.heard p) with rol := { (s.m.heard p).rol with sessions := (Tbl.set (s.m.heard p).rol.sessions k
          { via := p.via, role := .none, keySlot := none, mutualAuth := false, done := true,
            keyHash := slice x.keyHash 0 48, last := (s.m.heard p).clk }) } }).sessionOpened k
          { via := p.via, role := .none, keySlot := none, mutualAuth := false, done := true,
            keyHash := slice x.keyHash 0 48, last := (s.m.heard p).clk }).say p (.keyExchange k))) ∧
    (x.mutualAuth = true → x.mutualOk = true → Completes (.keyExchange p x) s
      (((List.range 16).foldl (fun (a : Mach) (v : Nat) => a.clearIndexes (32 + 16 * k + v))
        { (s.m.heard p) with rol := { (s.m.heard p).rol with sessions := (Tbl.set (s.m.heard p).rol.sessions k
          { via := p.via, role := ((s.m.heard p).keyRole (slice x.keyHash 0 48)).1,
            keySlot := ((s.m.heard p).keyRole (slice x.keyHash 0 48)).2, mutualAuth := true, done := false,
            keyHash := slice x.keyHash 0 48, last := (s.m.heard p).clk }) } }).say p (.keyExchange k))) ∧
    (x.mutualAuth = true → x.mutualOk = false → Completes (.keyExchange p x) s
      (((s.m.heard p).authFail p.via).say p .spdmError))) ∧
  (∀ (s : State) (p : Path) (x : KeyExchange), s.m.mgmtHeard p = true →
    (s.m.heard p).authBusy p.via = true ∨ (s.m.heard p).freeSession = none →
    Completes (.keyExchange p x) s ((s.m.heard p).say p .busy)) ∧
  (∀ (s : State) (p : Path) (k : Fin 16) (x : Session), s.m.mgmtHeard p = true →
    Tbl.find (s.m.heard p).rol.sessions k = some x → x.via = p.via → x.mutualAuth = true → x.done = false →
    Completes (.finish p k true) s
      (({ (s.m.heard p) with rol := { (s.m.heard p).rol with sessions :=
          (Tbl.set (s.m.heard p).rol.sessions k { x with done := true, last := (s.m.heard p).clk }) } }.sessionOpened k
        { x with done := true, last := (s.m.heard p).clk }).say p (.finished x.role)) ∧
    Completes (.finish p k false) s
      (({ (s.m.heard p) with rol := { (s.m.heard p).rol with sessions :=
          (Tbl.del (s.m.heard p).rol.sessions k) } }.authFail p.via).say p .spdmError)) ∧
  (∀ (s : State) (p : Path) (k : Fin 16), s.m.mgmtHeard p = true → p.sess = some k →
    Completes (.endSession p) s (((s.m.heard p).say p .sessionEnded).closeSession k 0)) ∧
  (∀ (s : State) (p : Path) (k : Fin 16) (good : Bool), s.m.mgmtHeard p = true →
    (Tbl.find (s.m.heard p).rol.sessions k = none → Completes (.finish p k good) s ((s.m.heard p).say p .spdmError)) ∧
    (∀ x : Session, Tbl.find (s.m.heard p).rol.sessions k = some x →
      (x.via ≠ p.via ∨ (x.mutualAuth = true ∧ x.done = true) → Completes (.finish p k good) s ((s.m.heard p).say p .spdmError)) ∧
      (x.via = p.via → x.mutualAuth = false → Completes (.finish p k good) s ((s.m.heard p).say p (.finished .none)))) ∧
    (p.sess = none → Completes (.endSession p) s ((s.m.heard p).say p .spdmError))) ∧
  (∀ (s : State) (p : Path) (x : KeyExchange) (k : Fin 16) (good : Bool), s.m.mgmtHeard p = false →
    Completes (.keyExchange p x) s (s.m.unheard p) ∧ Completes (.finish p k good) s (s.m.unheard p) ∧
    Completes (.endSession p) s (s.m.unheard p)) ∧
  (∀ (s : State) (k : Fin 16) (slot : Slot) (t : Transport),
    (Tbl.find s.m.rol.sessions k = none → Completes (.sessionIdleTimeout k) s s.m) ∧
    (Tbl.find s.m.rol.grants slot = none → Completes (.grantExpiry slot) s s.m) ∧
    (Tbl.find s.m.rol.busy (transportKey t) = none → Completes (.authBusyEnd t) s s.m)) ∧
  (∀ (s : State) (k : Fin 16) (x : Session), Tbl.find s.m.rol.sessions k = some x →
    Completes (.sessionIdleTimeout k) s ((s.m.elapseTo (x.last + s.m.sessIdle)).closeSession k 1)) ∧
  (∀ (s : State) (slot : Slot) (g : Grant), Tbl.find s.m.rol.grants slot = some g →
    Completes (.grantExpiry slot) s ((s.m.elapseTo g.ends).endGrant slot 1)) ∧
  (∀ (s : State) (t : Transport) (e : Nat), Tbl.find s.m.rol.busy (transportKey t) = some e →
    Completes (.authBusyEnd t) s { (s.m.elapseTo e) with rol := { (s.m.elapseTo e).rol with
      busy := Tbl.del (s.m.elapseTo e).rol.busy (transportKey t) } })

/-- From a session whose role covers the command's and outside LOCKOUT: WAKE leaves DORMANT for CONFIG, taking measurement
9; ROLE_GRANT of a present slot within GRANT_MAX records 0x9001 and 0x9012 and gives the slot the session's role until
it ends; ROLE_DROP ends a slot's grant with cause 0, after 0x9001 where the grant's role is INSTALLER or MAKER;
KEY_ENROL stores the hash with 0x9001 and 0x9020; KEY_REMOVE erases it with 0x9001 and 0x9021 and ends the sessions
that matched it; CLAIM over MCTP in an unclaimed module enrols the session's key as installer key 0 and raises the
session to INSTALLER with 0x9030; RELEASE erases every key, clears CLAIMED and ends every other session; JTAG_UNLOCK
unlocks JTAG with 0x9040 or locks it. A role that does not cover the command is refused with code 1, and LOCKOUT
refuses each with code 3, changing only the count and record of the refusal. So does a busy or another mode for WAKE,
which is also refused as a mode request; a slot absent or above 15, or minutes out of range, is refused with 2, a DOE
mailbox that is not its own slot's with 1, a fifth grant with 3; a key slot above 11 with 2; CLAIM outside a finished
MCTP session of mutual authentication with 1, in a claimed module with 3. ROLE_DROP by register reaches the
requester's slot, and of a slot without a grant it succeeds. A message that is not taken up acts on nothing. A JTAG
instruction other than IDCODE and BYPASS raises FS124 while JTAG is locked and does nothing else. -/
def Obligations.RoleCommandsDoAsTheyAreGrantedAndAreRefusedInLockout : Prop :=
  (∀ (s : State) (p : Path), s.m.commands p .operator = true → (s.m.heard p).mode = .dormant →
    (s.m.heard p).evr.held.length < 4 →
    exec (.wake p .alone) s = okFlt s (((s.m.heard p).wakeAll.measureSettings.enterConfig 0).say p (.code 0))) ∧
  (∀ (s : State) (p : Path) (k : Fin 16) (slot minutes : Nat), s.m.commands p .installer = true → p.sess = some k →
    p.via = .i3c ∨ p.via = .smbus → slot < 16 → 1 ≤ minutes → minutes ≤ (s.m.heard p).grantMax →
    (s.m.heard p).slotPresent slot = true →
    (Tbl.find (s.m.heard p).rol.grants slot ≠ none ∨ (s.m.heard p).rol.grants.length < 4) →
    Completes (.roleGrant p slot minutes) s
      (((({ ((s.m.heard p).recordCmd p 0x30) with rol := { ((s.m.heard p).recordCmd p 0x30).rol with grants :=
          (Tbl.set ((s.m.heard p).recordCmd p 0x30).rol.grants slot
            { sess := k, role := (s.m.heard p).pathRole p, ends := (s.m.heard p).clk + minutes * 60 * 2000000000 }) } }).bump Reg.ROL.GRANTS).record 0x9012 5 [slot, k, minutes]
          ((s.m.heard p).pathRole p)).say p (.code 0))) ∧
  (∀ (s : State) (p : Path) (slot : Nat) (g : Grant), Tbl.find s.m.rol.grants slot = some g →
    s.m.commands p g.role = true → slot < 16 →
    Completes (.roleDrop (.message p slot)) s
      (((if g.role.covers .installer then (s.m.heard p).recordCmd p 0x31 else s.m.heard p).endGrant slot 0).say p (.code 0))) ∧
  (∀ (s : State) (r : Requester) (i : Nat), s.m.passes r Reg.ROL.ROLE_DROP i = true →
    Completes (.roleDrop (.register r)) s ((s.m.reach r Reg.ROL.ROLE_DROP).endGrant r.slotOf 0)) ∧
  (∀ (s : State) (p : Path) (slot : Nat) (hash : List Byte), s.m.commands p .installer = true → slot < 12 →
    Completes (.keyEnrol p slot hash) s
      (({ ((s.m.heard p).recordCmd p 0x40) with rol := { ((s.m.heard p).recordCmd p 0x40).rol with keys :=
          (Tbl.set ((s.m.heard p).recordCmd p 0x40).rol.keys slot (slice hash 0 48)) } }.record 0x9020 5
        [slot, leNat (slice hash 0 48)] (((s.m.heard p).recordCmd p 0x40).pathRole p)).say p (.code 0)) ∧
    Completes (.keyRemove p slot) s
      (((((s.m.heard p).recordCmd p 0x41).rol.sessions.filter (fun (x : Nat × Session) => x.2.keySlot == some slot)).map (·.1)).foldl
        (fun (a : Mach) (k : Nat) => a.closeSession k 4)
        (({ ((s.m.heard p).recordCmd p 0x41) with rol := { ((s.m.heard p).recordCmd p 0x41).rol with keys :=
            (Tbl.del ((s.m.heard p).recordCmd p 0x41).rol.keys slot) } }.record 0x9021 5
          [slot, leNat (Tbl.get (s.m.heard p).rol.keys slot [])] ((s.m.heard p).pathRole p)).say p (.code 0)))) ∧
  (∀ (s : State) (p : Path) (k : Fin 16) (x : Session), s.m.commands p .none = true → p.sess = some k →
    p.via = .i3c ∨ p.via = .smbus → Tbl.find (s.m.heard p).rol.sessions k = some x → x.mutualAuth = true → x.done = true →
    (s.m.heard p).rol.claimed = false →
    Completes (.claim p) s
      (({ (s.m.heard p) with rol := { (s.m.heard p).rol with
          keys := Tbl.set (s.m.heard p).rol.keys 0 x.keyHash, claimed := true,
          sessions := (Tbl.set (s.m.heard p).rol.sessions k { x with
            role := if x.role = Role.maker then .maker else .installer,
            keySlot := if x.role = Role.maker then x.keySlot else some 0 }) } }.record 0x9030 5
        [k.val] (if x.role = Role.maker then .maker else .installer)).say p (.code 0))) ∧
  (∀ (s : State) (p : Path), s.m.commands p .maker = true →
    Completes (.release p) s
      ((((s.m.heard p).recordCmd p 0x43).rol.sessions.keys.filter (fun k => p.sess.map (·.val) != some k)).foldl
        (fun (a : Mach) (k : Nat) => a.closeSession k 5)
        (({ ((s.m.heard p).recordCmd p 0x43) with rol := { ((s.m.heard p).recordCmd p 0x43).rol with
          keys := [], claimed := false } }.record 0x9031 5 [] ((s.m.heard p).pathRole p)).say p (.code 0))) ∧
    (∀ k : Fin 16, p.sess = some k → Completes (.jtagUnlock p true) s
      (({ ((s.m.heard p).recordCmd p 0x50) with rol := { ((s.m.heard p).recordCmd p 0x50).rol with
          jtag := some k.val } }.record 0x9040 5 [k.val] ((s.m.heard p).pathRole p)).say p (.code 0))) ∧
    Completes (.jtagUnlock p false) s ((((s.m.heard p).recordCmd p 0x50).lockJtag).say p (.code 0))) ∧
  (∀ (s : State) (p : Path) (c : Instr) (cmd : Nat) (need : Role), s.m.mgmtHeard p = true →
    (∃ slot n, c = .roleGrant p slot n ∧ cmd = 0x30 ∧ need = .installer) ∨
    (∃ slot h, c = .keyEnrol p slot h ∧ cmd = 0x40 ∧ need = .installer) ∨ (∃ slot, c = .keyRemove p slot ∧ cmd = 0x41 ∧ need = .installer) ∨
    (c = .claim p ∧ cmd = 0x42 ∧ need = .none) ∨ (c = .release p ∧ cmd = 0x43 ∧ need = .maker) ∨
    (∃ b, c = .jtagUnlock p b ∧ cmd = 0x50 ∧ need = .maker) →
    (((s.m.heard p).pathRole p).covers need = false → Completes c s ((s.m.heard p).refuseCmd p cmd 1)) ∧
    (((s.m.heard p).pathRole p).covers need = true → (s.m.heard p).mode = .lockout →
      Completes c s ((s.m.heard p).refuseCmd p cmd 3))) ∧
  (∀ (s : State) (p : Path) (slot n : Nat) (h : List Byte), 
    (s.m.commands p .installer = true → (16 ≤ slot ∨ n = 0 ∨ (s.m.heard p).grantMax < n ∨ (s.m.heard p).slotPresent slot = false →
        Completes (.roleGrant p slot n) s ((s.m.heard p).refuseCmd p 0x30 2)) ∧
      (∀ t : Slot, slot < 16 → 1 ≤ n → n ≤ (s.m.heard p).grantMax → (s.m.heard p).slotPresent slot = true → p.via = .doe t → t.val ≠ slot →
        Completes (.roleGrant p slot n) s ((s.m.heard p).refuseCmd p 0x30 1)) ∧
      (slot < 16 → 1 ≤ n → n ≤ (s.m.heard p).grantMax → (s.m.heard p).slotPresent slot = true → p.via = .i3c ∨ p.via = .smbus →
        Tbl.find (s.m.heard p).rol.grants slot = none → 4 ≤ (s.m.heard p).rol.grants.length →
        Completes (.roleGrant p slot n) s ((s.m.heard p).refuseCmd p 0x30 3)) ∧
      (12 ≤ slot → Completes (.keyEnrol p slot h) s ((s.m.heard p).refuseCmd p 0x40 2) ∧
        Completes (.keyRemove p slot) s ((s.m.heard p).refuseCmd p 0x41 2))) ∧
    (s.m.commands p .none = true → Tbl.find s.m.rol.grants slot = none → slot < 16 →
      Completes (.roleDrop (.message p slot)) s (((s.m.heard p).endGrant slot 0).say p (.code 0)))) ∧
  (∀ (s : State) (p : Path) (k : Fin 16) (x : Session), s.m.commands p .none = true →
    (p.sess = none → Completes (.claim p) s ((s.m.heard p).refuseCmd p 0x42 1)) ∧
    (p.sess = some k → Tbl.find (s.m.heard p).rol.sessions k = some x →
      ((∃ t, p.via = .doe t) ∨ x.mutualAuth = false ∨ x.done = false → Completes (.claim p) s ((s.m.heard p).refuseCmd p 0x42 1)) ∧
      (p.via = .i3c ∨ p.via = .smbus → x.mutualAuth = true → x.done = true → (s.m.heard p).rol.claimed = true →
        Completes (.claim p) s ((s.m.heard p).refuseCmd p 0x42 3)))) ∧
  (∀ (s : State) (p : Path) (meet : ModeMeet), s.m.commands p .operator = true →
    ((s.m.heard p).modeBusy 2 meet = true → exec (.wake p meet) s =
      okFlt s (((s.m.heard p).refuseMode ((s.m.heard p).pathRole p) 2 2).refuseCmd p 0x22 3)) ∧
    ((s.m.heard p).modeBusy 2 meet = false → (s.m.heard p).mode ≠ .dormant → exec (.wake p meet) s =
      okFlt s (((s.m.heard p).refuseMode ((s.m.heard p).pathRole p) 2 1).refuseCmd p 0x22 3))) ∧
  (∀ (s : State) (p : Path) (a n : Nat) (h : List Byte) (f : Bool) (meet : ModeMeet) (c : Instr), s.m.mgmtHeard p = false →
    exec (.wake p meet) s = okFlt s (s.m.unheard p) ∧
    (c ∈ [Instr.roleGrant p a n, .roleDrop (.message p a), .keyEnrol p a h, .keyRemove p a, .claim p, .release p, .jtagUnlock p f] →
      Completes c s (s.m.unheard p))) ∧
  (∀ (s : State) (p : Path) (meet : ModeMeet), s.m.mgmtHeard p = true →
    (((s.m.heard p).pathRole p).covers .operator = false → exec (.wake p meet) s = okFlt s ((s.m.heard p).refuseCmd p 0x22 1)) ∧
    (((s.m.heard p).pathRole p).covers .operator = true → (s.m.heard p).mode = .lockout →
      exec (.wake p meet) s = okFlt s ((s.m.heard p).refuseCmd p 0x22 3))) ∧
  (∀ s : State, Completes (.jtagInstruction .idcode) s s.m ∧ Completes (.jtagInstruction .bypass) s s.m ∧
    ∀ code : Nat, Completes (.jtagInstruction (.other code)) s (if s.m.rol.jtag = none then s.m.raise 124 .none code 4 else s.m))

/-- From a session of OPERATOR or above, REG_READ of 1 to 16 registers in range returns their values in turn, read as BAR0
reads of VIEW_SLOT; REG_WRITE outside LOCKOUT makes the write that BAR0 would and answers code 0, with PARTIAL where
some field was refused, and in LOCKOUT answers code 3. A requester without OPERATOR gets code 1, a view, count or
offset out of range code 2. LEDGER_READ of entries that exist returns them with the total, to anybody, of another
range code 2; EVR_READ of 64 to 4,096 bytes, with OPERATOR, returns the whole records that fit, in recovery too;
without OPERATOR it gets code 1, of another length code 2. VENDOR_DEFINED_REQUEST does what the command it carries
does, and an unknown one is refused with code 2. A firmware update that is complete and activated over I3C or SMBus
prefers its slot and makes a module reset outside LOCKOUT; one not complete, not activated, in LOCKOUT or over DOE
changes nothing. A message that is not taken up acts on nothing. A dynamic address is taken. ROL's CNT_CLR clears its
five counters. -/
def Obligations.ManagementReachesRegistersRecorderAndFirmware : Prop :=
  (∀ (s : State) (p : Path) (view count off : Nat), s.m.mgmtHeard p = true →
    ((s.m.heard p).pathRole p).covers .operator = true → view < 16 → 1 ≤ count → count ≤ 16 → off % 4 = 0 →
    off + 4 * count ≤ 0x120000 →
    Completes (.regRead p view count off) s
      ((Mach.readMany (.session p.sess (Fin.ofNat 16 view)) count off (s.m.heard p)).2.say p
        (.values (Mach.readMany (.session p.sess (Fin.ofNat 16 view)) count off (s.m.heard p)).1))) ∧
  (∀ (s : State) (p : Path) (view off : Nat) (v : Word), s.m.mgmtHeard p = true →
    ((s.m.heard p).pathRole p).covers .operator = true → view < 16 → off % 4 = 0 → off < 0x120000 →
    ((s.m.heard p).mode ≠ .lockout → ∃ t refused,
      State.regWrite { s with m := s.m.heard p } (.session p.sess (Fin.ofNat 16 view)) off v.toNat = (t, refused) ∧
      exec (.registerWrite (.session p.sess (Fin.ofNat 16 view)) off true v) { s with m := s.m.heard p } = .next t ∧
      exec (.regWrite p view off v) s = .next { t with m := t.m.say p (.partial_ 0 (refused != 0)) }) ∧
    ((s.m.heard p).mode = .lockout → Completes (.regWrite p view off v) s ((s.m.heard p).refuseCmd p 0x21 3))) ∧
  (∀ (s : State) (p : Path) (view count off : Nat) (v : Word), s.m.mgmtHeard p = true →
    (((s.m.heard p).pathRole p).covers .operator = false →
      Completes (.regRead p view count off) s ((s.m.heard p).refuseCmd p 0x20 1) ∧
      Completes (.regWrite p view off v) s ((s.m.heard p).refuseCmd p 0x21 1)) ∧
    (((s.m.heard p).pathRole p).covers .operator = true →
      (16 ≤ view ∨ count = 0 ∨ 16 < count ∨ off % 4 ≠ 0 ∨ 0x120000 < off + 4 * count →
        Completes (.regRead p view count off) s ((s.m.heard p).refuseCmd p 0x20 2)) ∧
      (16 ≤ view ∨ off % 4 ≠ 0 ∨ 0x120000 ≤ off →
        Completes (.regWrite p view off v) s ((s.m.heard p).refuseCmd p 0x21 2)))) ∧
  (∀ (s : State) (p : Path) (a b c : Nat) (v : Word), s.m.mgmtHeard p = false →
    Completes (.regRead p a b c) s (s.m.unheard p) ∧ Completes (.regWrite p a b v) s (s.m.unheard p) ∧
    Completes (.ledgerRead p a b) s (s.m.unheard p) ∧ Completes (.vendorDefinedRequest p (.unknown a)) s (s.m.unheard p) ∧
    (s.m.boot.recovery = false → Completes (.evrRead p a b) s (s.m.unheard p))) ∧
  (∀ (s : State) (p : Path) (first count maxBytes fromSeq : Nat) (u : Mach),
    (s.m.mgmtHeard p = true → count = 0 ∨ 16 < count ∨ (s.m.heard p).evr.ledger ≤ first →
      Completes (.ledgerRead p first count) s ((s.m.heard p).refuseCmd p 0x10 2)) ∧
    ((s.m.boot.recovery = true ∧ u = s.m) ∨ (s.m.mgmtHeard p = true ∧ u = s.m.heard p) →
      ((u.pathRole p).covers .operator = false → Completes (.evrRead p maxBytes fromSeq) s (u.refuseCmd p 0x11 1)) ∧
      ((u.pathRole p).covers .operator = true → maxBytes < 64 ∨ 4096 < maxBytes →
        Completes (.evrRead p maxBytes fromSeq) s (u.refuseCmd p 0x11 2)) ∧
      ((u.pathRole p).covers .operator = true → 64 ≤ maxBytes → maxBytes ≤ 4096 →
        Completes (.evrRead p maxBytes fromSeq) s (u.say p
          (.records (s.recordsFrom s.m.evr.where_ fromSeq maxBytes [] false).2.2
            (s.recordsFrom s.m.evr.where_ fromSeq maxBytes [] false).2.1 u.evr.ringFirst
            (s.recordsFrom s.m.evr.where_ fromSeq maxBytes [] false).1))))) ∧
  (∀ (s : State) (p : Path) (first count : Nat), s.m.mgmtHeard p = true → 1 ≤ count → count ≤ 16 →
    first < (s.m.heard p).evr.ledger →
    Completes (.ledgerRead p first count) s ((s.m.heard p).say p
      (.ledger first (min count ((s.m.heard p).evr.ledger - first)) (s.m.heard p).evr.ledger
        ((List.range (min count ((s.m.heard p).evr.ledger - first))).flatMap (fun k => s.ledgerEntry (first + k)))))) ∧
  (∀ (s : State) (p : Path) (maxBytes fromSeq : Nat), s.m.mgmtHeard p = true →
    ((s.m.heard p).pathRole p).covers .operator = true → 64 ≤ maxBytes → maxBytes ≤ 4096 →
    Completes (.evrRead p maxBytes fromSeq) s ((s.m.heard p).say p
      (.records (s.recordsFrom s.m.evr.where_ fromSeq maxBytes [] false).2.2
        (s.recordsFrom s.m.evr.where_ fromSeq maxBytes [] false).2.1 (s.m.heard p).evr.ringFirst
        (s.recordsFrom s.m.evr.where_ fromSeq maxBytes [] false).1))) ∧
  (∀ (s : State) (p : Path) (a b c : Nat) (h : List Byte) (f : Bool) (v : Word),
    exec (.vendorDefinedRequest p (.ledgerRead a b)) s = exec (.ledgerRead p a b) s ∧
    exec (.vendorDefinedRequest p (.evrRead a b)) s = exec (.evrRead p a b) s ∧
    exec (.vendorDefinedRequest p (.regRead a b c)) s = exec (.regRead p a b c) s ∧
    exec (.vendorDefinedRequest p (.regWrite a b v)) s = exec (.regWrite p a b v) s ∧
    exec (.vendorDefinedRequest p .wake) s = exec (.wake p .alone) s ∧
    exec (.vendorDefinedRequest p (.roleGrant a b)) s = exec (.roleGrant p a b) s ∧
    exec (.vendorDefinedRequest p (.roleDrop a)) s = exec (.roleDrop (.message p a)) s ∧
    exec (.vendorDefinedRequest p (.keyEnrol a h)) s = exec (.keyEnrol p a h) s ∧
    exec (.vendorDefinedRequest p (.keyRemove a)) s = exec (.keyRemove p a) s ∧
    exec (.vendorDefinedRequest p .claim) s = exec (.claim p) s ∧
    exec (.vendorDefinedRequest p .release) s = exec (.release p) s ∧
    exec (.vendorDefinedRequest p (.jtagUnlock f)) s = exec (.jtagUnlock p f) s ∧
    exec (.vendorDefinedRequest p .timeQuery) s = exec (.timeQuery p) s ∧
    (s.m.mgmtHeard p = true → Completes (.vendorDefinedRequest p (.unknown a)) s ((s.m.heard p).refuseCmd p a 2))) ∧
  (∀ (s : State) (p : Path) (u : PldmUpdate) (b : BootIn) (t : Slot), p.via = .doe t → Completes (.pldmFirmwareUpdate p u b) s s.m) ∧
  (∀ (s : State) (p : Path) (u : PldmUpdate) (b : BootIn), p.via = .i3c ∨ p.via = .smbus →
    (u.complete = true → u.activate = true → s.m.mode ≠ .lockout → exec (.pldmFirmwareUpdate p u b) s =
      .next ({ s with m := { s.m with boot := { s.m.boot with prefSlot := u.slot } } }.moduleResets b 2)) ∧
    (u.complete = false ∨ u.activate = false ∨ s.m.mode = .lockout → Completes (.pldmFirmwareUpdate p u b) s s.m)) ∧
  (∀ (s : State) (a : Nat), a < 128 → Completes (.dynamicAddressAssignment a) s
    { s.m with rol := { s.m.rol with i3cAddr := some a } }) ∧
  (∀ (s : State) (r : Requester) (i : Nat), s.m.passes r Reg.ROL.CNT_CLR i = true → Completes (.rolCntClr r) s
    ((s.m.reach r Reg.ROL.CNT_CLR).clear [Reg.ROL.PRIV_WRITES, Reg.ROL.REFUSED, Reg.ROL.SESS_OPENED, Reg.ROL.AUTH_FAILS, Reg.ROL.GRANTS]))

/-- SNAP copies the indexed bank's CYC and eight PCs and the HGT of its quadrant into SNAP_CYC, SNAP_PCk and SNAP_TS;
SNAP_ALL does so for all 36 banks. SNAP_ARM arms a snapshot at SNAP_TIME, replacing a pending one, and sets
SNAP_PENDING; ARMED_SNAPSHOT takes it at the first edge at or after that HGT and clears SNAP_PENDING; with none armed
nothing changes. CLR clears CYC, PC0 to PC7 and OVF of the indexed bank. COUNTER_OVERFLOW posts the interrupt of a
wrap that is due, one for all of one bank's wraps of one cycle, in a vector below the table size of a slot that is
present, and wraps an unchained counter that stands at its last value in a bank that counts; otherwise it changes
nothing. A count that passes 2^48 - 1 wraps, and carries into a chained neighbour or sets OVFk, its interrupt becoming
due where OVF_IRQ_EN bit k is set. A write of 1 clears each OVF bit but one set in the same cycle. STREAM_PERIOD of a
running stream takes a snapshot of its bank and writes the 128 B record of Table 19-5 at VA + 128 x (s mod 2) with
access kind 1, bytes 8 to 127 first and bytes 0 to 7 last; a PD that is gone ends the stream with STR_ERR 3, a
translation fault with 1; a stream that does not run changes nothing. An operator's write to STR_EN's register of a
stream that runs for another slot is ignored, and STR_ERR reads 4. -/
def Obligations.CountersAreSnapshotClearedAndStreamed : Prop :=
  (∀ (s : State) (r : Requester) (b : Nat),
    (s.m.passes r Reg.PMC.SNAP b = true → Completes (.snap r) s ((s.m.acted r Reg.PMC.SNAP 1).snapBank b)) ∧
    (s.m.passes r Reg.PMC.SNAP_ALL b = true →
      Completes (.snapAll r) s ((List.range 36).foldl Mach.snapBank (s.m.acted r Reg.PMC.SNAP_ALL 1))) ∧
    (∀ u, s.m.passes r Reg.PMC.SNAP_ARM b = true → u = s.m.acted r Reg.PMC.SNAP_ARM 1 → Completes (.snapArm r) s
      ({ u with pmc := { u.pmc with snapAt := some (u.get64 Reg.PMC.SNAP_TIME_LO Reg.PMC.SNAP_TIME_HI) } }.put Reg.PMC.SNAP_PENDING 1)) ∧
    (s.m.passes r Reg.PMC.CLR b = true → Completes (.pmcClr r) s ((List.range 8).foldl (fun (a : Mach) k => a.setPc b k 0)
      (((s.m.acted r Reg.PMC.CLR 1).put64 Reg.PMC.CYC_LO Reg.PMC.CYC_HI 0 b).put Reg.PMC.OVF 0 b)))) ∧
  (∀ (m : Mach) (b : Nat), m.snapBank b = (List.range 8).foldl
    (fun (a : Mach) k => a.put64 (Reg.PMC.SNAP_PC_LO k) (Reg.PMC.SNAP_PC_HI k) (m.pc b k) b)
    ((m.put64 Reg.PMC.SNAP_CYC_LO Reg.PMC.SNAP_CYC_HI (m.get64 Reg.PMC.CYC_LO Reg.PMC.CYC_HI b) b).put64
      Reg.PMC.SNAP_TS_LO Reg.PMC.SNAP_TS_HI (m.hgt (bankQuad b)) b)) ∧
  (∀ (s : State) (t : Nat) (u : Mach), (s.m.pmc.snapAt = none → Completes .armedSnapshot s s.m) ∧
    (s.m.pmc.snapAt = some t →
      u = (if s.m.hgt s.m.refQuad < t then s.m.elapseHgt s.m.refQuad (t - s.m.hgt s.m.refQuad) else s.m) →
      Completes .armedSnapshot s ({ u.snapAll with pmc := { u.pmc with snapAt := none } }.put Reg.PMC.SNAP_PENDING 0))) ∧
  (∀ (s : State) (b : Nat) (k : Fin 8),
    (∀ c, (b, k.val, c) ∈ s.m.pmc.due → Completes (.counterOverflow b k) s (s.m.postPmi b k)) ∧
    ((∀ c, (b, k.val, c) ∉ s.m.pmc.due) → b ∈ s.m.pmc.on → s.m.pcChained b k = false → s.m.pc b k = 2 ^ 48 - 1 →
      Completes (.counterOverflow b k) s ((s.m.pcAdd b k 1 s.m.clk).postPmi b k)) ∧
    ((∀ c, (b, k.val, c) ∉ s.m.pmc.due) → b ∉ s.m.pmc.on ∨ s.m.pcChained b k = true ∨ s.m.pc b k ≠ 2 ^ 48 - 1 →
      Completes (.counterOverflow b k) s s.m)) ∧
  (∀ (m : Mach) (b k n c : Nat),
    (m.pc b k + n < 2 ^ 48 → m.pcAdd b k n c = m.setPc b k (m.pc b k + n)) ∧
    (2 ^ 48 ≤ m.pc b k + n → ∀ u v : Mach, u = m.setPc b k ((m.pc b k + n) % 2 ^ 48) →
      v = u.put Reg.PMC.OVF (u.get Reg.PMC.OVF b ||| 2 ^ k) b →
      (m.pcChained b (k + 1) = false → m.pcAdd b k n c = { v with
        pmc := { v.pmc with
          wrapped := Tbl.set v.pmc.wrapped (8 * b + k) c
          due := if bit (v.get Reg.PMC.OVF_IRQ_EN b) k && !v.pmc.due.any (fun d => d.1 == b && d.2.1 == k) then v.pmc.due ++ [(b, k, c)] else v.pmc.due } }) ∧
      (m.pcChained b (k + 1) = true →
        m.pcAdd b k n c = u.setPc b (k + 1) ((u.pc b (k + 1) + (m.pc b k + n) / 2 ^ 48) % 2 ^ 48)))) ∧
  (∀ (m : Mach) (b v : Nat), m.clearOvf b v = (List.range 8).foldl (fun (a : Mach) k =>
    if bit v k = true ∧ Tbl.find m.pmc.wrapped (8 * b + k) ≠ some m.clk then a.put Reg.PMC.OVF (clearBit (a.get Reg.PMC.OVF b) k) b else a) m) ∧
  (∀ (m u : Mach) (b k : Nat) (d : Nat × Nat × Nat), m.pmc.due.find? (fun d => d.1 == b && d.2.1 == k) = some d →
    u = { m with pmc := { m.pmc with due := m.pmc.due.filter (fun e => !(e.1 == b && e.2.2 == d.2.2)) } } →
    m.postPmi b k = if u.get Reg.PMC.PMI_VEC < vectorsOf 0 && u.slotPresent (u.get Reg.PMC.PMI_SLOT) then
      u.interrupt (u.get Reg.PMC.PMI_SLOT) 0 (u.get Reg.PMC.PMI_VEC) else u) ∧
  (∀ (s : State) (n : Nat), Tbl.find s.m.pmc.streams n = none → Completes (.streamPeriod n) s s.m) ∧
  (∀ (s : State) (n : Nat) (x : Stream) (u : Mach), Tbl.find s.m.pmc.streams n = some x → u = s.m.elapseTo x.due →
    (u.streamPd n x.slot = none → Completes (.streamPeriod n) s (u.streamEnd n 3)) ∧
    (∀ (p : Pd) (v w : Mach) (op : Nat → Nat → HostOp), u.streamPd n x.slot = some p →
      v = (if u.get Reg.PMC.STR_BANK n < 36 then u.snapBank (u.get Reg.PMC.STR_BANK n) else u) →
      w = { v with pmc := { v.pmc with streams := Tbl.set v.pmc.streams n { x with seq := x.seq + 1, due := x.due + v.streamCycles n } } } →
      op = (fun i j => { slot := x.slot, func := p.func, pd := v.get Reg.PMC.STR_PD n
                         va := v.get64 Reg.PMC.STR_VA_LO Reg.PMC.STR_VA_HI n / 256 * 256 + 128 * (x.seq % 2) + i, len := j - i, kind := 1
                         data := some (((v.streamRecord n x.seq).drop i).take (j - i)), purpose := .stream n }) →
      (∀ (z : Mach) (e : XFault), w.hostAccess (op 8 128) = (z, .fault e) → Completes (.streamPeriod n) s (z.streamEnd n 1)) ∧
      (∀ (y z : Mach) (d e : HostResult), w.hostAccess (op 8 128) = (y, d) → (∀ e, d ≠ .fault e) → y.hostAccess (op 0 8) = (z, e) →
        (∀ c, e ≠ .fault c) → Completes (.streamPeriod n) s z))) ∧
  (∀ (m : Mach) (n seq b : Nat), b = m.get Reg.PMC.STR_BANK n → m.streamRecord n seq =
    leBytes 8 seq ++ leBytes 8 (m.get64 Reg.PMC.SNAP_TS_LO Reg.PMC.SNAP_TS_HI b) ++
    leBytes 8 (m.get64 Reg.PMC.SNAP_CYC_LO Reg.PMC.SNAP_CYC_HI b) ++
    (List.range 8).flatMap (fun k => leBytes 6 (m.get64 (Reg.PMC.SNAP_PC_LO k) (Reg.PMC.SNAP_PC_HI k) b)) ++
    leBytes 1 b ++ leBytes 1 (m.get Reg.PMC.OVF b) ++ zeros 46 ++ leBytes 8 seq) ∧
  (∀ (s : State) (r : Requester) (n : Nat) (x : Stream) (v : Word), n = s.m.get Reg.PMC.STR_IDX r.fnKey →
    s.m.pathAwake r = true → s.m.mode.decodes 17 = true → s.m.mode ≠ .lockout → (s.m.roleOf r).covers .operator = true →
    Tbl.find s.m.pmc.streams n = some x → x.slot ≠ r.slotOf →
    Completes (.registerWrite r 0x1100E4 true v) s ((s.m.ignoreWrite r Reg.PMC.STR_EN v.toNat).put Reg.PMC.STR_ERR 4 n))
end

