-- ==== Sys2Proof/Laws/Memory.lean ====
section
/-! SUPPORT. The MRAM array: read after write, and that every memory operation keeps the canonical form. -/

namespace Sys2Proof.Machine

theorem Memory.wfFrom_cons {lo a : Nat} {v : Byte} {r : Memory} :
    Memory.wfFrom lo ((a, v) :: r) = true ↔ lo ≤ a ∧ v ≠ Memory.blank ∧ Memory.wfFrom (a + 1) r = true := by
  simp [Memory.wfFrom, and_assoc]

/-- An array that starts above a bound starts above every lower one. -/
theorem Memory.wfFrom_mono {lo lo' : Nat} {mem : Memory} (h : lo' ≤ lo) (w : Memory.wfFrom lo mem = true) :
    Memory.wfFrom lo' mem = true := by
  cases mem with
  | nil => rfl
  | cons c r => rw [Memory.wfFrom_cons] at *; exact ⟨by omega, w.2⟩

/-- Below its first entry an array reads as blank. -/
theorem Memory.read_below {lo a : Nat} {mem : Memory} (w : Memory.wfFrom lo mem = true) (h : a < lo) :
    Memory.read mem a = Memory.blank := by
  induction mem generalizing lo with
  | nil => rfl
  | cons c r ih =>
    obtain ⟨b, x⟩ := c
    rw [Memory.wfFrom_cons] at w
    have : b ≠ a := by omega
    simp only [Memory.read, this, if_false]
    exact ih w.2.2 (by omega)

/-- Writing a byte keeps the canonical form. -/
theorem Memory.wfFrom_write {lo a : Nat} {v : Byte} {mem : Memory} (w : Memory.wfFrom lo mem = true) (h : lo ≤ a) :
    Memory.wfFrom lo (Memory.write mem a v) = true := by
  induction mem generalizing lo with
  | nil => unfold Memory.write; split <;> simp_all [Memory.wfFrom]
  | cons c r ih =>
    obtain ⟨b, x⟩ := c
    have w' := w
    rw [Memory.wfFrom_cons] at w
    unfold Memory.write
    split
    · split
      · exact w'
      · rename_i hv; rw [Memory.wfFrom_cons, Memory.wfFrom_cons]; exact ⟨h, hv, by omega, w.2⟩
    · split
      · rename_i e
        subst e
        split
        · exact Memory.wfFrom_mono (by omega) w.2.2
        · rename_i hv; rw [Memory.wfFrom_cons]; exact ⟨h, hv, w.2.2⟩
      · rw [Memory.wfFrom_cons]; exact ⟨w.1, w.2.1, ih w.2.2 (by omega)⟩

theorem Memory.wf_write {mem : Memory} (a : Nat) (v : Byte) (w : Memory.wf mem = true) :
    Memory.wf (Memory.write mem a v) = true := Memory.wfFrom_write w (Nat.zero_le a)

theorem Memory.wf_writeAll {mem : Memory} (a : Nat) (b : List Byte) (w : Memory.wf mem = true) :
    Memory.wf (Memory.writeAll mem a b) = true := by
  induction b generalizing mem a with
  | nil => exact w
  | cons v r ih => exact ih (a + 1) (Memory.wf_write a v w)

theorem Memory.wf_foldl_write {α : Type} (l : List α) (addr : α → Nat) (val : α → Byte) {mem : Memory}
    (w : Memory.wf mem = true) : Memory.wf (l.foldl (fun a c => Memory.write a (addr c) (val c)) mem) = true := by
  induction l generalizing mem with
  | nil => exact w
  | cons c r ih => exact ih (Memory.wf_write _ _ w)

theorem Memory.wf_writeRec {mem : Memory} (place : Nat) (b : List Byte) (w : Memory.wf mem = true) :
    Memory.wf (Memory.writeRec mem place b) = true := Memory.wf_foldl_write _ _ _ w

/-- A byte reads as what was last written there. -/
theorem Memory.read_write_same {lo : Nat} {mem : Memory} (a : Nat) (v : Byte) (w : Memory.wfFrom lo mem = true) :
    Memory.read (Memory.write mem a v) a = v := by
  induction mem generalizing lo with
  | nil => unfold Memory.write; split <;> simp_all [Memory.read]
  | cons c r ih =>
    obtain ⟨b, x⟩ := c
    rw [Memory.wfFrom_cons] at w
    unfold Memory.write
    split
    · split
      · rename_i hlt hv
        have : b ≠ a := by omega
        simp only [Memory.read, this, if_false, hv]
        exact Memory.read_below w.2.2 (by omega)
      · simp [Memory.read]
    · split
      · rename_i e
        subst e
        split
        · rename_i hv; rw [hv]; exact Memory.read_below w.2.2 (by omega)
        · simp [Memory.read]
      · rename_i hne
        have : b ≠ a := fun e => hne e.symm
        simp only [Memory.read, this, if_false]
        exact ih w.2.2

/-- Writing one byte leaves every other as it was. -/
theorem Memory.read_write_ne (mem : Memory) {a b : Nat} (v : Byte) (h : b ≠ a) :
    Memory.read (Memory.write mem a v) b = Memory.read mem b := by
  induction mem with
  | nil => unfold Memory.write; split <;> simp [Memory.read, h.symm]
  | cons c r ih =>
    obtain ⟨k, x⟩ := c
    unfold Memory.write
    split
    · split
      · rfl
      · simp [Memory.read, h.symm]
    · split
      · rename_i e; subst e; split <;> simp [Memory.read, h.symm]
      · simp [Memory.read, ih]

end Sys2Proof.Machine
end

