-- ==== Sys2Proof/Laws/Tbl.lean ====
section
/-! SUPPORT. Reading a keyed store after writing, removing and changing it. -/

namespace Sys2Proof

variable {α : Type}

@[simp] theorem Tbl.find_nil (k : Nat) : Tbl.find ([] : Tbl α) k = none := rfl

/-- What was written under a key is found there. -/
@[simp] theorem Tbl.find_set_same (t : Tbl α) (k : Nat) (v : α) : Tbl.find (Tbl.set t k v) k = some v := by
  induction t with
  | nil => simp [Tbl.set, Tbl.find]
  | cons c r ih =>
    obtain ⟨k', v'⟩ := c
    unfold Tbl.set
    split
    · simp [Tbl.find]
    · split
      · simp [Tbl.find]
      · rename_i h; simp [Tbl.find, h, ih]

/-- A write under one key leaves every other as it was. -/
theorem Tbl.find_set_ne (t : Tbl α) {k j : Nat} (v : α) (h : j ≠ k) : Tbl.find (Tbl.set t k v) j = Tbl.find t j := by
  induction t with
  | nil => simp [Tbl.set, Tbl.find, h.symm]
  | cons c r ih =>
    obtain ⟨k', v'⟩ := c
    unfold Tbl.set
    split
    · simp [Tbl.find, h.symm]
    · split
      · rename_i e; subst e; simp [Tbl.find, h.symm]
      · simp [Tbl.find, ih]

@[simp] theorem Tbl.get_set_same (t : Tbl α) (k : Nat) (v d : α) : Tbl.get (Tbl.set t k v) k d = v := by
  simp [Tbl.get]

theorem Tbl.get_set_ne (t : Tbl α) {k j : Nat} (v d : α) (h : j ≠ k) :
    Tbl.get (Tbl.set t k v) j d = Tbl.get t j d := by
  simp [Tbl.get, Tbl.find_set_ne t v h]

@[simp] theorem Tbl.get_modify_same (t : Tbl α) (k : Nat) (d d' : α) (f : α → α) :
    Tbl.get (Tbl.modify t k d f) k d' = f (Tbl.get t k d) := by
  simp [Tbl.modify]

theorem Tbl.get_modify_ne (t : Tbl α) {k j : Nat} (d d' : α) (f : α → α) (h : j ≠ k) :
    Tbl.get (Tbl.modify t k d f) j d' = Tbl.get t j d' := Tbl.get_set_ne t _ d' h

end Sys2Proof
end

