-- ==== Sys2Proof/Laws/State.lean ====
section
/-! SUPPORT. One small lemma per field of the machine per update, and reading a register after writing one. -/

namespace Sys2Proof.Machine

/-! ### Registers -/

/-- A field reads as what was last put there, cut to its width. -/
@[simp] theorem Mach.get_put_same (m : Mach) (f : Field) (v i : Nat) : (m.put f v i).get f i = v % 2 ^ f.width := by
  simp [Mach.get, Mach.put]

/-- Putting one field leaves every field kept under another key as it was. -/
theorem Mach.get_put_ne (m : Mach) (f g : Field) (v i j : Nat) (h : g.key j ≠ f.key i) :
    (m.put f v i).get g j = m.get g j := by
  simp [Mach.get, Mach.put, Tbl.get_set_ne _ _ _ h]

/-- Two fields of registers at different offsets, or of one register at different bits, or of different instances, are kept
apart. -/
theorem Field.key_ne {f g : Field} {i j : Nat} (hf : f.off < 16777216) (hg : g.off < 16777216) (lf : f.lo < 32)
    (lg : g.lo < 32) (h : f.off ≠ g.off ∨ f.lo ≠ g.lo ∨ i ≠ j) : g.key j ≠ f.key i := by
  unfold Field.key
  omega

/-! ### What `put` leaves as it was -/

@[simp] theorem Mach.put_clk (m : Mach) (f : Field) (v i : Nat) : (m.put f v i).clk = m.clk := rfl
@[simp] theorem Mach.put_free (m : Mach) (f : Field) (v i : Nat) : (m.put f v i).free = m.free := rfl
@[simp] theorem Mach.put_nextId (m : Mach) (f : Field) (v i : Nat) : (m.put f v i).nextId = m.nextId := rfl
@[simp] theorem Mach.put_hold (m : Mach) (f : Field) (v i : Nat) : (m.put f v i).hold = m.hold := rfl
@[simp] theorem Mach.put_out (m : Mach) (f : Field) (v i : Nat) : (m.put f v i).out = m.out := rfl
@[simp] theorem Mach.put_engines (m : Mach) (f : Field) (v i : Nat) : (m.put f v i).engines = m.engines := rfl
@[simp] theorem Mach.put_quads (m : Mach) (f : Field) (v i : Nat) : (m.put f v i).quads = m.quads := rfl
@[simp] theorem Mach.put_die (m : Mach) (f : Field) (v i : Nat) : (m.put f v i).die = m.die := rfl
@[simp] theorem Mach.put_tim (m : Mach) (f : Field) (v i : Nat) : (m.put f v i).tim = m.tim := rfl
@[simp] theorem Mach.put_lanes (m : Mach) (f : Field) (v i : Nat) : (m.put f v i).lanes = m.lanes := rfl
@[simp] theorem Mach.put_idle (m : Mach) (f : Field) (v i : Nat) : (m.put f v i).idle = m.idle := rfl
@[simp] theorem Mach.put_scans (m : Mach) (f : Field) (v i : Nat) : (m.put f v i).scans = m.scans := rfl
@[simp] theorem Mach.put_scanRuns (m : Mach) (f : Field) (v i : Nat) : (m.put f v i).scanRuns = m.scanRuns := rfl
@[simp] theorem Mach.put_scanWait (m : Mach) (f : Field) (v i : Nat) : (m.put f v i).scanWait = m.scanWait := rfl
@[simp] theorem Mach.put_hive (m : Mach) (f : Field) (v i : Nat) : (m.put f v i).hive = m.hive := rfl
@[simp] theorem Mach.put_links (m : Mach) (f : Field) (v i : Nat) : (m.put f v i).links = m.links := rfl
@[simp] theorem Mach.put_rte (m : Mach) (f : Field) (v i : Nat) : (m.put f v i).rte = m.rte := rfl
@[simp] theorem Mach.put_xlt (m : Mach) (f : Field) (v i : Nat) : (m.put f v i).xlt = m.xlt := rfl
@[simp] theorem Mach.put_hif (m : Mach) (f : Field) (v i : Nat) : (m.put f v i).hif = m.hif := rfl
@[simp] theorem Mach.put_cxn (m : Mach) (f : Field) (v i : Nat) : (m.put f v i).cxn = m.cxn := rfl
@[simp] theorem Mach.put_mat (m : Mach) (f : Field) (v i : Nat) : (m.put f v i).mat = m.mat := rfl
@[simp] theorem Mach.put_sch (m : Mach) (f : Field) (v i : Nat) : (m.put f v i).sch = m.sch := rfl
@[simp] theorem Mach.put_groups (m : Mach) (f : Field) (v i : Nat) : (m.put f v i).groups = m.groups := rfl
@[simp] theorem Mach.put_lka (m : Mach) (f : Field) (v i : Nat) : (m.put f v i).lka = m.lka := rfl
@[simp] theorem Mach.put_seqr (m : Mach) (f : Field) (v i : Nat) : (m.put f v i).seqr = m.seqr := rfl
@[simp] theorem Mach.put_pwr (m : Mach) (f : Field) (v i : Nat) : (m.put f v i).pwr = m.pwr := rfl
@[simp] theorem Mach.put_pmc (m : Mach) (f : Field) (v i : Nat) : (m.put f v i).pmc = m.pmc := rfl
@[simp] theorem Mach.put_flt (m : Mach) (f : Field) (v i : Nat) : (m.put f v i).flt = m.flt := rfl
@[simp] theorem Mach.put_evr (m : Mach) (f : Field) (v i : Nat) : (m.put f v i).evr = m.evr := rfl
@[simp] theorem Mach.put_boot (m : Mach) (f : Field) (v i : Nat) : (m.put f v i).boot = m.boot := rfl
@[simp] theorem Mach.put_rol (m : Mach) (f : Field) (v i : Nat) : (m.put f v i).rol = m.rol := rfl
@[simp] theorem Mach.put_shadow (m : Mach) (f : Field) (v i : Nat) : (m.put f v i).shadow = m.shadow := rfl

/-! ### What `bump` leaves as it was -/

@[simp] theorem Mach.bump_clk (m : Mach) (f : Field) (n i : Nat) : (m.bump f n i).clk = m.clk := rfl
@[simp] theorem Mach.bump_free (m : Mach) (f : Field) (n i : Nat) : (m.bump f n i).free = m.free := rfl
@[simp] theorem Mach.bump_nextId (m : Mach) (f : Field) (n i : Nat) : (m.bump f n i).nextId = m.nextId := rfl
@[simp] theorem Mach.bump_hold (m : Mach) (f : Field) (n i : Nat) : (m.bump f n i).hold = m.hold := rfl
@[simp] theorem Mach.bump_out (m : Mach) (f : Field) (n i : Nat) : (m.bump f n i).out = m.out := rfl
@[simp] theorem Mach.bump_engines (m : Mach) (f : Field) (n i : Nat) : (m.bump f n i).engines = m.engines := rfl
@[simp] theorem Mach.bump_quads (m : Mach) (f : Field) (n i : Nat) : (m.bump f n i).quads = m.quads := rfl
@[simp] theorem Mach.bump_die (m : Mach) (f : Field) (n i : Nat) : (m.bump f n i).die = m.die := rfl
@[simp] theorem Mach.bump_tim (m : Mach) (f : Field) (n i : Nat) : (m.bump f n i).tim = m.tim := rfl
@[simp] theorem Mach.bump_lanes (m : Mach) (f : Field) (n i : Nat) : (m.bump f n i).lanes = m.lanes := rfl
@[simp] theorem Mach.bump_idle (m : Mach) (f : Field) (n i : Nat) : (m.bump f n i).idle = m.idle := rfl
@[simp] theorem Mach.bump_scans (m : Mach) (f : Field) (n i : Nat) : (m.bump f n i).scans = m.scans := rfl
@[simp] theorem Mach.bump_scanRuns (m : Mach) (f : Field) (n i : Nat) : (m.bump f n i).scanRuns = m.scanRuns := rfl
@[simp] theorem Mach.bump_scanWait (m : Mach) (f : Field) (n i : Nat) : (m.bump f n i).scanWait = m.scanWait := rfl
@[simp] theorem Mach.bump_hive (m : Mach) (f : Field) (n i : Nat) : (m.bump f n i).hive = m.hive := rfl
@[simp] theorem Mach.bump_links (m : Mach) (f : Field) (n i : Nat) : (m.bump f n i).links = m.links := rfl
@[simp] theorem Mach.bump_rte (m : Mach) (f : Field) (n i : Nat) : (m.bump f n i).rte = m.rte := rfl
@[simp] theorem Mach.bump_xlt (m : Mach) (f : Field) (n i : Nat) : (m.bump f n i).xlt = m.xlt := rfl
@[simp] theorem Mach.bump_hif (m : Mach) (f : Field) (n i : Nat) : (m.bump f n i).hif = m.hif := rfl
@[simp] theorem Mach.bump_cxn (m : Mach) (f : Field) (n i : Nat) : (m.bump f n i).cxn = m.cxn := rfl
@[simp] theorem Mach.bump_mat (m : Mach) (f : Field) (n i : Nat) : (m.bump f n i).mat = m.mat := rfl
@[simp] theorem Mach.bump_sch (m : Mach) (f : Field) (n i : Nat) : (m.bump f n i).sch = m.sch := rfl
@[simp] theorem Mach.bump_groups (m : Mach) (f : Field) (n i : Nat) : (m.bump f n i).groups = m.groups := rfl
@[simp] theorem Mach.bump_lka (m : Mach) (f : Field) (n i : Nat) : (m.bump f n i).lka = m.lka := rfl
@[simp] theorem Mach.bump_seqr (m : Mach) (f : Field) (n i : Nat) : (m.bump f n i).seqr = m.seqr := rfl
@[simp] theorem Mach.bump_pwr (m : Mach) (f : Field) (n i : Nat) : (m.bump f n i).pwr = m.pwr := rfl
@[simp] theorem Mach.bump_pmc (m : Mach) (f : Field) (n i : Nat) : (m.bump f n i).pmc = m.pmc := rfl
@[simp] theorem Mach.bump_flt (m : Mach) (f : Field) (n i : Nat) : (m.bump f n i).flt = m.flt := rfl
@[simp] theorem Mach.bump_evr (m : Mach) (f : Field) (n i : Nat) : (m.bump f n i).evr = m.evr := rfl
@[simp] theorem Mach.bump_boot (m : Mach) (f : Field) (n i : Nat) : (m.bump f n i).boot = m.boot := rfl
@[simp] theorem Mach.bump_rol (m : Mach) (f : Field) (n i : Nat) : (m.bump f n i).rol = m.rol := rfl
@[simp] theorem Mach.bump_shadow (m : Mach) (f : Field) (n i : Nat) : (m.bump f n i).shadow = m.shadow := rfl

/-! ### What `newId` and `fresh` leave as it was -/

@[simp] theorem Mach.newId_clk (m : Mach) : m.newId.2.clk = m.clk := rfl
@[simp] theorem Mach.newId_free (m : Mach) : m.newId.2.free = m.free := rfl
@[simp] theorem Mach.newId_regs (m : Mach) : m.newId.2.regs = m.regs := rfl
@[simp] theorem Mach.newId_hold (m : Mach) : m.newId.2.hold = m.hold := rfl
@[simp] theorem Mach.newId_out (m : Mach) : m.newId.2.out = m.out := rfl
@[simp] theorem Mach.newId_engines (m : Mach) : m.newId.2.engines = m.engines := rfl
@[simp] theorem Mach.newId_quads (m : Mach) : m.newId.2.quads = m.quads := rfl
@[simp] theorem Mach.newId_die (m : Mach) : m.newId.2.die = m.die := rfl
@[simp] theorem Mach.newId_tim (m : Mach) : m.newId.2.tim = m.tim := rfl
@[simp] theorem Mach.newId_lanes (m : Mach) : m.newId.2.lanes = m.lanes := rfl
@[simp] theorem Mach.newId_idle (m : Mach) : m.newId.2.idle = m.idle := rfl
@[simp] theorem Mach.newId_scans (m : Mach) : m.newId.2.scans = m.scans := rfl
@[simp] theorem Mach.newId_scanRuns (m : Mach) : m.newId.2.scanRuns = m.scanRuns := rfl
@[simp] theorem Mach.newId_scanWait (m : Mach) : m.newId.2.scanWait = m.scanWait := rfl
@[simp] theorem Mach.newId_hive (m : Mach) : m.newId.2.hive = m.hive := rfl
@[simp] theorem Mach.newId_links (m : Mach) : m.newId.2.links = m.links := rfl
@[simp] theorem Mach.newId_rte (m : Mach) : m.newId.2.rte = m.rte := rfl
@[simp] theorem Mach.newId_xlt (m : Mach) : m.newId.2.xlt = m.xlt := rfl
@[simp] theorem Mach.newId_hif (m : Mach) : m.newId.2.hif = m.hif := rfl
@[simp] theorem Mach.newId_cxn (m : Mach) : m.newId.2.cxn = m.cxn := rfl
@[simp] theorem Mach.newId_mat (m : Mach) : m.newId.2.mat = m.mat := rfl
@[simp] theorem Mach.newId_sch (m : Mach) : m.newId.2.sch = m.sch := rfl
@[simp] theorem Mach.newId_groups (m : Mach) : m.newId.2.groups = m.groups := rfl
@[simp] theorem Mach.newId_lka (m : Mach) : m.newId.2.lka = m.lka := rfl
@[simp] theorem Mach.newId_seqr (m : Mach) : m.newId.2.seqr = m.seqr := rfl
@[simp] theorem Mach.newId_pwr (m : Mach) : m.newId.2.pwr = m.pwr := rfl
@[simp] theorem Mach.newId_pmc (m : Mach) : m.newId.2.pmc = m.pmc := rfl
@[simp] theorem Mach.newId_flt (m : Mach) : m.newId.2.flt = m.flt := rfl
@[simp] theorem Mach.newId_evr (m : Mach) : m.newId.2.evr = m.evr := rfl
@[simp] theorem Mach.newId_boot (m : Mach) : m.newId.2.boot = m.boot := rfl
@[simp] theorem Mach.newId_rol (m : Mach) : m.newId.2.rol = m.rol := rfl
@[simp] theorem Mach.newId_shadow (m : Mach) : m.newId.2.shadow = m.shadow := rfl
@[simp] theorem Mach.fresh_clk (m : Mach) : m.fresh.2.clk = m.clk := rfl
@[simp] theorem Mach.fresh_nextId (m : Mach) : m.fresh.2.nextId = m.nextId := rfl
@[simp] theorem Mach.fresh_regs (m : Mach) : m.fresh.2.regs = m.regs := rfl
@[simp] theorem Mach.fresh_hold (m : Mach) : m.fresh.2.hold = m.hold := rfl
@[simp] theorem Mach.fresh_out (m : Mach) : m.fresh.2.out = m.out := rfl
@[simp] theorem Mach.fresh_engines (m : Mach) : m.fresh.2.engines = m.engines := rfl
@[simp] theorem Mach.fresh_quads (m : Mach) : m.fresh.2.quads = m.quads := rfl
@[simp] theorem Mach.fresh_die (m : Mach) : m.fresh.2.die = m.die := rfl
@[simp] theorem Mach.fresh_tim (m : Mach) : m.fresh.2.tim = m.tim := rfl
@[simp] theorem Mach.fresh_lanes (m : Mach) : m.fresh.2.lanes = m.lanes := rfl
@[simp] theorem Mach.fresh_idle (m : Mach) : m.fresh.2.idle = m.idle := rfl
@[simp] theorem Mach.fresh_scans (m : Mach) : m.fresh.2.scans = m.scans := rfl
@[simp] theorem Mach.fresh_scanRuns (m : Mach) : m.fresh.2.scanRuns = m.scanRuns := rfl
@[simp] theorem Mach.fresh_scanWait (m : Mach) : m.fresh.2.scanWait = m.scanWait := rfl
@[simp] theorem Mach.fresh_hive (m : Mach) : m.fresh.2.hive = m.hive := rfl
@[simp] theorem Mach.fresh_links (m : Mach) : m.fresh.2.links = m.links := rfl
@[simp] theorem Mach.fresh_rte (m : Mach) : m.fresh.2.rte = m.rte := rfl
@[simp] theorem Mach.fresh_xlt (m : Mach) : m.fresh.2.xlt = m.xlt := rfl
@[simp] theorem Mach.fresh_hif (m : Mach) : m.fresh.2.hif = m.hif := rfl
@[simp] theorem Mach.fresh_cxn (m : Mach) : m.fresh.2.cxn = m.cxn := rfl
@[simp] theorem Mach.fresh_mat (m : Mach) : m.fresh.2.mat = m.mat := rfl
@[simp] theorem Mach.fresh_sch (m : Mach) : m.fresh.2.sch = m.sch := rfl
@[simp] theorem Mach.fresh_groups (m : Mach) : m.fresh.2.groups = m.groups := rfl
@[simp] theorem Mach.fresh_lka (m : Mach) : m.fresh.2.lka = m.lka := rfl
@[simp] theorem Mach.fresh_seqr (m : Mach) : m.fresh.2.seqr = m.seqr := rfl
@[simp] theorem Mach.fresh_pwr (m : Mach) : m.fresh.2.pwr = m.pwr := rfl
@[simp] theorem Mach.fresh_pmc (m : Mach) : m.fresh.2.pmc = m.pmc := rfl
@[simp] theorem Mach.fresh_flt (m : Mach) : m.fresh.2.flt = m.flt := rfl
@[simp] theorem Mach.fresh_evr (m : Mach) : m.fresh.2.evr = m.evr := rfl
@[simp] theorem Mach.fresh_boot (m : Mach) : m.fresh.2.boot = m.boot := rfl
@[simp] theorem Mach.fresh_rol (m : Mach) : m.fresh.2.rol = m.rol := rfl
@[simp] theorem Mach.fresh_shadow (m : Mach) : m.fresh.2.shadow = m.shadow := rfl

/-! ### What `raise` leaves as it was: it changes the fault collector only -/

@[simp] theorem Mach.raise_clk (m : Mach) (fs : Nat) (u : FUnit) (d o : Nat) : (m.raise fs u d o).clk = m.clk := by
  unfold Mach.raise; repeat (first | rfl | split)
@[simp] theorem Mach.raise_free (m : Mach) (fs : Nat) (u : FUnit) (d o : Nat) : (m.raise fs u d o).free = m.free := by
  unfold Mach.raise; repeat (first | rfl | split)
@[simp] theorem Mach.raise_nextId (m : Mach) (fs : Nat) (u : FUnit) (d o : Nat) : (m.raise fs u d o).nextId = m.nextId := by
  unfold Mach.raise; repeat (first | rfl | split)
@[simp] theorem Mach.raise_regs (m : Mach) (fs : Nat) (u : FUnit) (d o : Nat) : (m.raise fs u d o).regs = m.regs := by
  unfold Mach.raise; repeat (first | rfl | split)
@[simp] theorem Mach.raise_hold (m : Mach) (fs : Nat) (u : FUnit) (d o : Nat) : (m.raise fs u d o).hold = m.hold := by
  unfold Mach.raise; repeat (first | rfl | split)
@[simp] theorem Mach.raise_out (m : Mach) (fs : Nat) (u : FUnit) (d o : Nat) : (m.raise fs u d o).out = m.out := by
  unfold Mach.raise; repeat (first | rfl | split)
@[simp] theorem Mach.raise_engines (m : Mach) (fs : Nat) (u : FUnit) (d o : Nat) : (m.raise fs u d o).engines = m.engines := by
  unfold Mach.raise; repeat (first | rfl | split)
@[simp] theorem Mach.raise_quads (m : Mach) (fs : Nat) (u : FUnit) (d o : Nat) : (m.raise fs u d o).quads = m.quads := by
  unfold Mach.raise; repeat (first | rfl | split)
@[simp] theorem Mach.raise_die (m : Mach) (fs : Nat) (u : FUnit) (d o : Nat) : (m.raise fs u d o).die = m.die := by
  unfold Mach.raise; repeat (first | rfl | split)
@[simp] theorem Mach.raise_tim (m : Mach) (fs : Nat) (u : FUnit) (d o : Nat) : (m.raise fs u d o).tim = m.tim := by
  unfold Mach.raise; repeat (first | rfl | split)
@[simp] theorem Mach.raise_lanes (m : Mach) (fs : Nat) (u : FUnit) (d o : Nat) : (m.raise fs u d o).lanes = m.lanes := by
  unfold Mach.raise; repeat (first | rfl | split)
@[simp] theorem Mach.raise_idle (m : Mach) (fs : Nat) (u : FUnit) (d o : Nat) : (m.raise fs u d o).idle = m.idle := by
  unfold Mach.raise; repeat (first | rfl | split)
@[simp] theorem Mach.raise_scans (m : Mach) (fs : Nat) (u : FUnit) (d o : Nat) : (m.raise fs u d o).scans = m.scans := by
  unfold Mach.raise; repeat (first | rfl | split)
@[simp] theorem Mach.raise_scanRuns (m : Mach) (fs : Nat) (u : FUnit) (d o : Nat) : (m.raise fs u d o).scanRuns = m.scanRuns := by
  unfold Mach.raise; repeat (first | rfl | split)
@[simp] theorem Mach.raise_scanWait (m : Mach) (fs : Nat) (u : FUnit) (d o : Nat) : (m.raise fs u d o).scanWait = m.scanWait := by
  unfold Mach.raise; repeat (first | rfl | split)
@[simp] theorem Mach.raise_hive (m : Mach) (fs : Nat) (u : FUnit) (d o : Nat) : (m.raise fs u d o).hive = m.hive := by
  unfold Mach.raise; repeat (first | rfl | split)
@[simp] theorem Mach.raise_links (m : Mach) (fs : Nat) (u : FUnit) (d o : Nat) : (m.raise fs u d o).links = m.links := by
  unfold Mach.raise; repeat (first | rfl | split)
@[simp] theorem Mach.raise_rte (m : Mach) (fs : Nat) (u : FUnit) (d o : Nat) : (m.raise fs u d o).rte = m.rte := by
  unfold Mach.raise; repeat (first | rfl | split)
@[simp] theorem Mach.raise_xlt (m : Mach) (fs : Nat) (u : FUnit) (d o : Nat) : (m.raise fs u d o).xlt = m.xlt := by
  unfold Mach.raise; repeat (first | rfl | split)
@[simp] theorem Mach.raise_hif (m : Mach) (fs : Nat) (u : FUnit) (d o : Nat) : (m.raise fs u d o).hif = m.hif := by
  unfold Mach.raise; repeat (first | rfl | split)
@[simp] theorem Mach.raise_cxn (m : Mach) (fs : Nat) (u : FUnit) (d o : Nat) : (m.raise fs u d o).cxn = m.cxn := by
  unfold Mach.raise; repeat (first | rfl | split)
@[simp] theorem Mach.raise_mat (m : Mach) (fs : Nat) (u : FUnit) (d o : Nat) : (m.raise fs u d o).mat = m.mat := by
  unfold Mach.raise; repeat (first | rfl | split)
@[simp] theorem Mach.raise_sch (m : Mach) (fs : Nat) (u : FUnit) (d o : Nat) : (m.raise fs u d o).sch = m.sch := by
  unfold Mach.raise; repeat (first | rfl | split)
@[simp] theorem Mach.raise_groups (m : Mach) (fs : Nat) (u : FUnit) (d o : Nat) : (m.raise fs u d o).groups = m.groups := by
  unfold Mach.raise; repeat (first | rfl | split)
@[simp] theorem Mach.raise_lka (m : Mach) (fs : Nat) (u : FUnit) (d o : Nat) : (m.raise fs u d o).lka = m.lka := by
  unfold Mach.raise; repeat (first | rfl | split)
@[simp] theorem Mach.raise_seqr (m : Mach) (fs : Nat) (u : FUnit) (d o : Nat) : (m.raise fs u d o).seqr = m.seqr := by
  unfold Mach.raise; repeat (first | rfl | split)
@[simp] theorem Mach.raise_pwr (m : Mach) (fs : Nat) (u : FUnit) (d o : Nat) : (m.raise fs u d o).pwr = m.pwr := by
  unfold Mach.raise; repeat (first | rfl | split)
@[simp] theorem Mach.raise_pmc (m : Mach) (fs : Nat) (u : FUnit) (d o : Nat) : (m.raise fs u d o).pmc = m.pmc := by
  unfold Mach.raise; repeat (first | rfl | split)
@[simp] theorem Mach.raise_evr (m : Mach) (fs : Nat) (u : FUnit) (d o : Nat) : (m.raise fs u d o).evr = m.evr := by
  unfold Mach.raise; repeat (first | rfl | split)
@[simp] theorem Mach.raise_boot (m : Mach) (fs : Nat) (u : FUnit) (d o : Nat) : (m.raise fs u d o).boot = m.boot := by
  unfold Mach.raise; repeat (first | rfl | split)
@[simp] theorem Mach.raise_rol (m : Mach) (fs : Nat) (u : FUnit) (d o : Nat) : (m.raise fs u d o).rol = m.rol := by
  unfold Mach.raise; repeat (first | rfl | split)
@[simp] theorem Mach.raise_shadow (m : Mach) (fs : Nat) (u : FUnit) (d o : Nat) : (m.raise fs u d o).shadow = m.shadow := by
  unfold Mach.raise; repeat (first | rfl | split)

/-! ### What `put64` and `clear` leave as it was -/

@[simp] theorem Mach.put64_clk (m : Mach) (lo hi : Field) (v i : Nat) : (m.put64 lo hi v i).clk = m.clk := rfl
@[simp] theorem Mach.put64_free (m : Mach) (lo hi : Field) (v i : Nat) : (m.put64 lo hi v i).free = m.free := rfl
@[simp] theorem Mach.put64_nextId (m : Mach) (lo hi : Field) (v i : Nat) : (m.put64 lo hi v i).nextId = m.nextId := rfl
@[simp] theorem Mach.put64_hold (m : Mach) (lo hi : Field) (v i : Nat) : (m.put64 lo hi v i).hold = m.hold := rfl
@[simp] theorem Mach.put64_out (m : Mach) (lo hi : Field) (v i : Nat) : (m.put64 lo hi v i).out = m.out := rfl
@[simp] theorem Mach.put64_engines (m : Mach) (lo hi : Field) (v i : Nat) : (m.put64 lo hi v i).engines = m.engines := rfl
@[simp] theorem Mach.put64_quads (m : Mach) (lo hi : Field) (v i : Nat) : (m.put64 lo hi v i).quads = m.quads := rfl
@[simp] theorem Mach.put64_die (m : Mach) (lo hi : Field) (v i : Nat) : (m.put64 lo hi v i).die = m.die := rfl
@[simp] theorem Mach.put64_tim (m : Mach) (lo hi : Field) (v i : Nat) : (m.put64 lo hi v i).tim = m.tim := rfl
@[simp] theorem Mach.put64_lanes (m : Mach) (lo hi : Field) (v i : Nat) : (m.put64 lo hi v i).lanes = m.lanes := rfl
@[simp] theorem Mach.put64_idle (m : Mach) (lo hi : Field) (v i : Nat) : (m.put64 lo hi v i).idle = m.idle := rfl
@[simp] theorem Mach.put64_scans (m : Mach) (lo hi : Field) (v i : Nat) : (m.put64 lo hi v i).scans = m.scans := rfl
@[simp] theorem Mach.put64_scanRuns (m : Mach) (lo hi : Field) (v i : Nat) : (m.put64 lo hi v i).scanRuns = m.scanRuns := rfl
@[simp] theorem Mach.put64_scanWait (m : Mach) (lo hi : Field) (v i : Nat) : (m.put64 lo hi v i).scanWait = m.scanWait := rfl
@[simp] theorem Mach.put64_hive (m : Mach) (lo hi : Field) (v i : Nat) : (m.put64 lo hi v i).hive = m.hive := rfl
@[simp] theorem Mach.put64_links (m : Mach) (lo hi : Field) (v i : Nat) : (m.put64 lo hi v i).links = m.links := rfl
@[simp] theorem Mach.put64_rte (m : Mach) (lo hi : Field) (v i : Nat) : (m.put64 lo hi v i).rte = m.rte := rfl
@[simp] theorem Mach.put64_xlt (m : Mach) (lo hi : Field) (v i : Nat) : (m.put64 lo hi v i).xlt = m.xlt := rfl
@[simp] theorem Mach.put64_hif (m : Mach) (lo hi : Field) (v i : Nat) : (m.put64 lo hi v i).hif = m.hif := rfl
@[simp] theorem Mach.put64_cxn (m : Mach) (lo hi : Field) (v i : Nat) : (m.put64 lo hi v i).cxn = m.cxn := rfl
@[simp] theorem Mach.put64_mat (m : Mach) (lo hi : Field) (v i : Nat) : (m.put64 lo hi v i).mat = m.mat := rfl
@[simp] theorem Mach.put64_sch (m : Mach) (lo hi : Field) (v i : Nat) : (m.put64 lo hi v i).sch = m.sch := rfl
@[simp] theorem Mach.put64_groups (m : Mach) (lo hi : Field) (v i : Nat) : (m.put64 lo hi v i).groups = m.groups := rfl
@[simp] theorem Mach.put64_lka (m : Mach) (lo hi : Field) (v i : Nat) : (m.put64 lo hi v i).lka = m.lka := rfl
@[simp] theorem Mach.put64_seqr (m : Mach) (lo hi : Field) (v i : Nat) : (m.put64 lo hi v i).seqr = m.seqr := rfl
@[simp] theorem Mach.put64_pwr (m : Mach) (lo hi : Field) (v i : Nat) : (m.put64 lo hi v i).pwr = m.pwr := rfl
@[simp] theorem Mach.put64_pmc (m : Mach) (lo hi : Field) (v i : Nat) : (m.put64 lo hi v i).pmc = m.pmc := rfl
@[simp] theorem Mach.put64_flt (m : Mach) (lo hi : Field) (v i : Nat) : (m.put64 lo hi v i).flt = m.flt := rfl
@[simp] theorem Mach.put64_evr (m : Mach) (lo hi : Field) (v i : Nat) : (m.put64 lo hi v i).evr = m.evr := rfl
@[simp] theorem Mach.put64_boot (m : Mach) (lo hi : Field) (v i : Nat) : (m.put64 lo hi v i).boot = m.boot := rfl
@[simp] theorem Mach.put64_rol (m : Mach) (lo hi : Field) (v i : Nat) : (m.put64 lo hi v i).rol = m.rol := rfl
@[simp] theorem Mach.put64_shadow (m : Mach) (lo hi : Field) (v i : Nat) : (m.put64 lo hi v i).shadow = m.shadow := rfl
@[simp] theorem Mach.clear_clk (m : Mach) (fs : List Field) (i : Nat) : (m.clear fs i).clk = m.clk := by
  induction fs generalizing m with
  | nil => rfl
  | cons a r ih => exact (ih (m.put a 0 i)).trans rfl
@[simp] theorem Mach.clear_free (m : Mach) (fs : List Field) (i : Nat) : (m.clear fs i).free = m.free := by
  induction fs generalizing m with
  | nil => rfl
  | cons a r ih => exact (ih (m.put a 0 i)).trans rfl
@[simp] theorem Mach.clear_nextId (m : Mach) (fs : List Field) (i : Nat) : (m.clear fs i).nextId = m.nextId := by
  induction fs generalizing m with
  | nil => rfl
  | cons a r ih => exact (ih (m.put a 0 i)).trans rfl
@[simp] theorem Mach.clear_hold (m : Mach) (fs : List Field) (i : Nat) : (m.clear fs i).hold = m.hold := by
  induction fs generalizing m with
  | nil => rfl
  | cons a r ih => exact (ih (m.put a 0 i)).trans rfl
@[simp] theorem Mach.clear_out (m : Mach) (fs : List Field) (i : Nat) : (m.clear fs i).out = m.out := by
  induction fs generalizing m with
  | nil => rfl
  | cons a r ih => exact (ih (m.put a 0 i)).trans rfl
@[simp] theorem Mach.clear_engines (m : Mach) (fs : List Field) (i : Nat) : (m.clear fs i).engines = m.engines := by
  induction fs generalizing m with
  | nil => rfl
  | cons a r ih => exact (ih (m.put a 0 i)).trans rfl
@[simp] theorem Mach.clear_quads (m : Mach) (fs : List Field) (i : Nat) : (m.clear fs i).quads = m.quads := by
  induction fs generalizing m with
  | nil => rfl
  | cons a r ih => exact (ih (m.put a 0 i)).trans rfl
@[simp] theorem Mach.clear_die (m : Mach) (fs : List Field) (i : Nat) : (m.clear fs i).die = m.die := by
  induction fs generalizing m with
  | nil => rfl
  | cons a r ih => exact (ih (m.put a 0 i)).trans rfl
@[simp] theorem Mach.clear_tim (m : Mach) (fs : List Field) (i : Nat) : (m.clear fs i).tim = m.tim := by
  induction fs generalizing m with
  | nil => rfl
  | cons a r ih => exact (ih (m.put a 0 i)).trans rfl
@[simp] theorem Mach.clear_lanes (m : Mach) (fs : List Field) (i : Nat) : (m.clear fs i).lanes = m.lanes := by
  induction fs generalizing m with
  | nil => rfl
  | cons a r ih => exact (ih (m.put a 0 i)).trans rfl
@[simp] theorem Mach.clear_idle (m : Mach) (fs : List Field) (i : Nat) : (m.clear fs i).idle = m.idle := by
  induction fs generalizing m with
  | nil => rfl
  | cons a r ih => exact (ih (m.put a 0 i)).trans rfl
@[simp] theorem Mach.clear_scans (m : Mach) (fs : List Field) (i : Nat) : (m.clear fs i).scans = m.scans := by
  induction fs generalizing m with
  | nil => rfl
  | cons a r ih => exact (ih (m.put a 0 i)).trans rfl
@[simp] theorem Mach.clear_scanRuns (m : Mach) (fs : List Field) (i : Nat) : (m.clear fs i).scanRuns = m.scanRuns := by
  induction fs generalizing m with
  | nil => rfl
  | cons a r ih => exact (ih (m.put a 0 i)).trans rfl
@[simp] theorem Mach.clear_scanWait (m : Mach) (fs : List Field) (i : Nat) : (m.clear fs i).scanWait = m.scanWait := by
  induction fs generalizing m with
  | nil => rfl
  | cons a r ih => exact (ih (m.put a 0 i)).trans rfl
@[simp] theorem Mach.clear_hive (m : Mach) (fs : List Field) (i : Nat) : (m.clear fs i).hive = m.hive := by
  induction fs generalizing m with
  | nil => rfl
  | cons a r ih => exact (ih (m.put a 0 i)).trans rfl
@[simp] theorem Mach.clear_links (m : Mach) (fs : List Field) (i : Nat) : (m.clear fs i).links = m.links := by
  induction fs generalizing m with
  | nil => rfl
  | cons a r ih => exact (ih (m.put a 0 i)).trans rfl
@[simp] theorem Mach.clear_rte (m : Mach) (fs : List Field) (i : Nat) : (m.clear fs i).rte = m.rte := by
  induction fs generalizing m with
  | nil => rfl
  | cons a r ih => exact (ih (m.put a 0 i)).trans rfl
@[simp] theorem Mach.clear_xlt (m : Mach) (fs : List Field) (i : Nat) : (m.clear fs i).xlt = m.xlt := by
  induction fs generalizing m with
  | nil => rfl
  | cons a r ih => exact (ih (m.put a 0 i)).trans rfl
@[simp] theorem Mach.clear_hif (m : Mach) (fs : List Field) (i : Nat) : (m.clear fs i).hif = m.hif := by
  induction fs generalizing m with
  | nil => rfl
  | cons a r ih => exact (ih (m.put a 0 i)).trans rfl
@[simp] theorem Mach.clear_cxn (m : Mach) (fs : List Field) (i : Nat) : (m.clear fs i).cxn = m.cxn := by
  induction fs generalizing m with
  | nil => rfl
  | cons a r ih => exact (ih (m.put a 0 i)).trans rfl
@[simp] theorem Mach.clear_mat (m : Mach) (fs : List Field) (i : Nat) : (m.clear fs i).mat = m.mat := by
  induction fs generalizing m with
  | nil => rfl
  | cons a r ih => exact (ih (m.put a 0 i)).trans rfl
@[simp] theorem Mach.clear_sch (m : Mach) (fs : List Field) (i : Nat) : (m.clear fs i).sch = m.sch := by
  induction fs generalizing m with
  | nil => rfl
  | cons a r ih => exact (ih (m.put a 0 i)).trans rfl
@[simp] theorem Mach.clear_groups (m : Mach) (fs : List Field) (i : Nat) : (m.clear fs i).groups = m.groups := by
  induction fs generalizing m with
  | nil => rfl
  | cons a r ih => exact (ih (m.put a 0 i)).trans rfl
@[simp] theorem Mach.clear_lka (m : Mach) (fs : List Field) (i : Nat) : (m.clear fs i).lka = m.lka := by
  induction fs generalizing m with
  | nil => rfl
  | cons a r ih => exact (ih (m.put a 0 i)).trans rfl
@[simp] theorem Mach.clear_seqr (m : Mach) (fs : List Field) (i : Nat) : (m.clear fs i).seqr = m.seqr := by
  induction fs generalizing m with
  | nil => rfl
  | cons a r ih => exact (ih (m.put a 0 i)).trans rfl
@[simp] theorem Mach.clear_pwr (m : Mach) (fs : List Field) (i : Nat) : (m.clear fs i).pwr = m.pwr := by
  induction fs generalizing m with
  | nil => rfl
  | cons a r ih => exact (ih (m.put a 0 i)).trans rfl
@[simp] theorem Mach.clear_pmc (m : Mach) (fs : List Field) (i : Nat) : (m.clear fs i).pmc = m.pmc := by
  induction fs generalizing m with
  | nil => rfl
  | cons a r ih => exact (ih (m.put a 0 i)).trans rfl
@[simp] theorem Mach.clear_flt (m : Mach) (fs : List Field) (i : Nat) : (m.clear fs i).flt = m.flt := by
  induction fs generalizing m with
  | nil => rfl
  | cons a r ih => exact (ih (m.put a 0 i)).trans rfl
@[simp] theorem Mach.clear_evr (m : Mach) (fs : List Field) (i : Nat) : (m.clear fs i).evr = m.evr := by
  induction fs generalizing m with
  | nil => rfl
  | cons a r ih => exact (ih (m.put a 0 i)).trans rfl
@[simp] theorem Mach.clear_boot (m : Mach) (fs : List Field) (i : Nat) : (m.clear fs i).boot = m.boot := by
  induction fs generalizing m with
  | nil => rfl
  | cons a r ih => exact (ih (m.put a 0 i)).trans rfl
@[simp] theorem Mach.clear_rol (m : Mach) (fs : List Field) (i : Nat) : (m.clear fs i).rol = m.rol := by
  induction fs generalizing m with
  | nil => rfl
  | cons a r ih => exact (ih (m.put a 0 i)).trans rfl
@[simp] theorem Mach.clear_shadow (m : Mach) (fs : List Field) (i : Nat) : (m.clear fs i).shadow = m.shadow := by
  induction fs generalizing m with
  | nil => rfl
  | cons a r ih => exact (ih (m.put a 0 i)).trans rfl

end Sys2Proof.Machine
end

