-- ==== Sys2Proof/Laws/Shared.lean ====
section
/-! SUPPORT. What the shared operations do, said once: a step, a register action that is carried out, one that is not, a
raised fault, the passing of time. -/

namespace Sys2Proof.Machine

theorem step_idle {s : State} (h : s.pending = []) : step s = .next { s with m := s.m.elapse 1 } := by
  unfold step; rw [h]

theorem step_front {s : State} {c : Instr} {rest : List Instr} (h : s.pending = c :: rest) :
    step s = exec c { s with pending := rest } := by
  unfold step; rw [h]

/-- An access through a quadrant that is not parked wakes nothing. -/
theorem Mach.wakeFor_awake {m : Mach} {r : Requester} (h : m.pathAwake r = true) : m.wakeFor r = m := by
  cases r with
  | pf0 s => simp only [Mach.pathAwake, beq_iff_eq] at h; simp [Mach.wakeFor, Mach.wakeQuad, h]
  | session k v => rfl
  | jtag => rfl

/-- A write that need not wait has none of its function and block before it that does. -/
theorem Mach.behindWrite_of_passes {m : Mach} {r : Requester} {f : Field} {p : Bool} (h : m.mustWait r f p = false) :
    m.behindWrite r f.block = false := by
  simp only [Mach.mustWait, Bool.or_eq_false_iff] at h
  exact h.2

/-- An action that passes is carried out, with what it asks of the state beside. -/
theorem Mach.actionIf_passes {m : Mach} {r : Requester} {f : Field} {i : Nat} (h : m.passes r f i = true) (v : Nat)
    {may : Mach → Nat → Bool} (hm : may m i = true) (act : Mach → Nat → Mach) :
    m.actionIf r f v may act = act (m.acted r f v) i := by
  simp only [Mach.passes, Bool.and_eq_true, bne_iff_ne, beq_iff_eq, Bool.not_eq_true'] at h
  obtain ⟨⟨⟨⟨⟨ha, hd⟩, hl⟩, hi⟩, hc⟩, hw⟩ := h
  have hb := Mach.behindWrite_of_passes hw
  unfold Field.priv at hw
  simp [Mach.actionIf, Mach.wakeFor_awake ha, hd, hl, hi, hc, hm, hb, hw, Mach.acted, Mach.taken, Field.priv]

/-- An action that passes but for what it asks of the mode or of the state is ignored and recorded (Table 18-7). -/
theorem Mach.actionIf_ignored {m : Mach} {r : Requester} {f : Field} {i : Nat} (h : m.passes r f i = true) (v : Nat)
    {may : Mach → Nat → Bool} (hm : may m i = false) (act : Mach → Nat → Mach) :
    m.actionIf r f v may act = (m.crossAon r f).ignoreWrite r f v := by
  simp only [Mach.passes, Bool.and_eq_true, bne_iff_ne, beq_iff_eq, Bool.not_eq_true'] at h
  obtain ⟨⟨⟨⟨⟨ha, hd⟩, hl⟩, hi⟩, hc⟩, hw⟩ := h
  simp [Mach.actionIf, Mach.wakeFor_awake ha, hd, hl, hi, hc, hm, Mach.behindWrite_of_passes hw]

/-- An action that passes is carried out. -/
theorem Mach.action_passes {m : Mach} {r : Requester} {f : Field} {i : Nat} (h : m.passes r f i = true) (v : Nat)
    (act : Mach → Nat → Mach) : m.action r f v act = act (m.acted r f v) i :=
  Mach.actionIf_passes h v rfl act

/-- A write that passes stores its value, and then has its own effect. -/
theorem Mach.setting_passes {m : Mach} {r : Requester} {f : Field} {i : Nat} (h : m.passes r f i = true) (v : Nat)
    (act : Mach → Nat → Mach) : m.setting r f v act = act (m.stored r f v i) i := by
  simp only [Mach.passes, Bool.and_eq_true, bne_iff_ne, beq_iff_eq, Bool.not_eq_true'] at h
  obtain ⟨⟨⟨⟨⟨ha, hd⟩, hl⟩, hi⟩, hc⟩, hw⟩ := h
  have hb := Mach.behindWrite_of_passes hw
  unfold Field.priv at hw
  simp [Mach.setting, hb, Mach.wakeFor_awake ha, hd, hl, hi, hc, hw, Mach.stored, Mach.taken, Field.priv]

/-- An unprivileged action outside the AON die acts where its register is, once the access has come there. -/
theorem Mach.acted_plain {m : Mach} {r : Requester} {f : Field} (hp : f.priv = false) (ha : aonBlock f.block = false)
    (v : Nat) : m.acted r f v = m.reach r f := by
  simp [Mach.acted, Mach.taken, hp, Mach.crossAon, ha]

/-- An access that stays in its quadrant crosses nothing. -/
theorem Mach.reach_here {m : Mach} {r : Requester} {f : Field} (h : m.crossing r f = none) : m.reach r f = m := by
  simp [Mach.reach, h]

/-- A control frame that is taken up acts. -/
theorem Mach.ctrlIn_hears {m u : Mach} {p : PortId} {body : List Byte} {rx : Rx} (h : m.hears p body rx u) (act : Mach → Mach) :
    m.ctrlIn p body rx act = act u := by
  obtain ⟨h1, h2, rfl⟩ := h
  simp [Mach.ctrlIn, h1, h2]

/-- A control frame with a bad CRC is handled by R91. -/
theorem Mach.ctrlIn_garbled {m u : Mach} {p : PortId} {body : List Byte} {rx : Rx} (h : m.garbled p body rx u)
    (act : Mach → Mach) : m.ctrlIn p body rx act = u.frameBad p 1 := by
  obtain ⟨h1, h2 | h2, rfl⟩ := h <;> simp [Mach.ctrlIn, h1, h2]

/-- A control frame that is not seen changes nothing. -/
theorem Mach.ctrlIn_missed {m : Mach} {p : PortId} {body : List Byte} {rx : Rx} (h : m.missed p body rx) (act : Mach → Mach) :
    m.ctrlIn p body rx act = m := by
  rcases h with h | h <;> simp [Mach.ctrlIn, h]

/-- A management message that is taken up is answered, on the machine that has heard it. -/
theorem Mach.mgmt_heard {m : Mach} {p : Path} (h : m.mgmtHeard p = true) (act : Mach → Mach) :
    m.mgmt p act = act (m.heard p) := by
  obtain ⟨via, sess⟩ := p
  cases sess with
  | none =>
    simp only [Mach.mgmtHeard, Bool.and_true, Bool.not_eq_true'] at h
    simp only [Mach.mgmt, Mach.heard, h]
    rfl
  | some k =>
    simp only [Mach.mgmtHeard, Bool.and_eq_true, Bool.not_eq_true'] at h
    cases hf : Tbl.find m.rol.sessions k.val with
    | none => simp [hf] at h
    | some x =>
      simp only [hf, Option.any_some, beq_iff_eq] at h
      simp only [Mach.mgmt, Mach.heard, hf, h.1, h.2]
      rfl

/-- One that is not taken up acts on nothing. -/
theorem Mach.mgmt_unheard {m : Mach} {p : Path} (h : m.mgmtHeard p = false) (act : Mach → Mach) :
    m.mgmt p act = m.unheard p := by
  obtain ⟨via, sess⟩ := p
  cases hr : (m.boot.recovery || (decide (via = .smbus) && m.rol.i3cAddr.isSome)) with
  | true => simp only [Mach.mgmt, Mach.unheard, hr, if_true]
  | false =>
    cases sess with
    | none => simp [Mach.mgmtHeard, hr] at h
    | some k =>
      cases hf : Tbl.find m.rol.sessions k.val with
      | none => simp only [Mach.mgmt, Mach.unheard, hr, hf, Bool.false_eq_true, if_false]
      | some x =>
        simp only [Mach.mgmtHeard, hr, hf, Bool.not_false, Bool.true_and, Option.any_some, beq_eq_false_iff_ne] at h
        simp only [Mach.mgmt, Mach.unheard, hr, hf, h, Bool.false_eq_true, if_false]

/-- A management command that is carried out acts on the machine that has heard it. -/
theorem Mach.roleCmd_may {m : Mach} {p : Path} {need : Role} (h : m.commands p need = true) (cmd : Nat) (act : Mach → Mach) :
    m.roleCmd p cmd need act = act (m.heard p) := by
  simp only [Mach.commands, Bool.and_eq_true, bne_iff_ne] at h
  simp [Mach.roleCmd, Mach.mgmt_heard h.1.1, h.1.2, h.2]

/-- A good entry that starts runs its operation. -/
theorem Mach.runEntry_good {m : Mach} {ring op seq : Nat} {e : Entry} {w : WorkRing} {u : Mach}
    (h : m.starts ring e op seq w u) (hb : Sys2Proof.Machine.entryBad e = none) (act : Mach → Nat → WorkRing → Mach) :
    m.runEntry ring e op act = act u seq w := by
  obtain ⟨ho, hh, hr, hv, ht⟩ := h
  simp [Mach.runEntry, ho, hh, hr, hv, ht, hb]

/-- An entry that its engines may not take now changes nothing. -/
theorem Mach.runEntry_kept {m : Mach} {ring op : Nat} {e : Entry}
    (h : e.opcode ≠ op ∨ m.opHeld op = true ∨ m.behindRecv ring op = true ∨ m.enginesRun = false)
    (act : Mach → Nat → WorkRing → Mach) : m.runEntry ring e op act = m := by
  rcases h with h | h | h | h <;> simp [Mach.runEntry, h]

/-- An entry that the ring does not hand over is at most a ring error (R158). -/
theorem Mach.runEntry_untaken {m : Mach} {ring op : Nat} {e : Entry} (h1 : e.opcode = op) (h2 : m.opHeld op = false)
    (h3 : m.behindRecv ring op = false) (h4 : m.enginesRun = true) (h : m.takeWork ring e = none)
    (act : Mach → Nat → WorkRing → Mach) : m.runEntry ring e op act = m.badLen ring e := by
  simp [Mach.runEntry, h1, h2, h3, h4, h]

/-- A malformed entry that starts completes with PROTECTION and its DETAIL. -/
theorem Mach.runEntry_bad {m : Mach} {ring op seq d : Nat} {e : Entry} {w : WorkRing} {u : Mach}
    (h : m.starts ring e op seq w u) (hb : Sys2Proof.Machine.entryBad e = some d) (act : Mach → Nat → WorkRing → Mach) :
    m.runEntry ring e op act = u.finishWork ring seq 0x0B d := by
  obtain ⟨ho, hh, hr, hv, ht⟩ := h
  simp [Mach.runEntry, ho, hh, hr, hv, ht, hb]

/-- What an admitted packet's kind does with it: a protocol error where its fields do not agree with its message's, nothing but its
finish where its message is faulted, and else the kind's own effect. -/
theorem Mach.arrive_admitted {m v : Mach} {k : Packet} {kind : Nat} {h : RsxHdr} {x : RxMsg} {first : Bool}
    (hk : (k.hdr.kind != kind && !(kind = 1 && 0x0D ≤ k.hdr.kind && k.hdr.kind ≤ 0x0F)) = false) (hb : k.body = .rsx h) (ha : m.admitted k h = some (v, x, first))
    (act : Mach → RsxHdr → RxMsg → Bool → Mach) : m.arrive k kind act =
      (if !(pktSound k h && pktAgrees x k h) then
          (match x.mat with | some mid => (v.protocolError k h).breakMat mid 0x0B 3 | none => v.protocolError k h).finPsn (pktCx k)
            (v.rxInst (pktCx k)) h.psn
        else if x.fault.isSome && x.mat.isNone then v.finPsn (pktCx k) (v.rxInst (pktCx k)) h.psn
        else act v h x first).settled k h := by
  unfold Mach.admitted at ha
  cases hd : m.delivered k with
  | none => simp [hd] at ha
  | some u =>
    simp only [hd] at ha
    rcases hw : u.takeIn k h with ⟨w, _ | _⟩
    · simp [hw] at ha
    · simp only [hw] at ha
      split at ha
      · simp at ha
      · rename_i y hy
        simp only [Option.some.injEq, Prod.mk.injEq] at ha
        obtain ⟨hv, rfl, hf⟩ := ha
        subst hv hf
        simp only [Mach.arrive, hk, hb, hd, Mach.receive, hw, Mach.settled, Bool.false_eq_true, if_false, Mach.rxInst]
        split
        · rename_i e; exact absurd (e.symm.trans hy) (by simp)
        rename_i z e
        obtain rfl : z = y := Option.some.inj (e.symm.trans hy)
        rfl

/-- An accepted packet has its own effect, and what follows. -/
theorem Mach.arrive_accepted {m v : Mach} {k : Packet} {kind : Nat} {h : RsxHdr} {x : RxMsg} {first : Bool}
    (hk : k.hdr.kind = kind) (hb : k.body = .rsx h) (ha : m.accepted k h = some (v, x, first))
    (act : Mach → RsxHdr → RxMsg → Bool → Mach) : m.arrive k kind act = (act v h x first).settled k h := by
  simp only [Mach.accepted, Option.filter_eq_some_iff] at ha
  obtain ⟨ha, hg⟩ := ha
  simp only [Bool.and_eq_true, Bool.not_eq_true'] at hg
  obtain ⟨⟨g1, g2⟩, g3⟩ := hg
  rw [Mach.arrive_admitted (by simp [hk]) hb ha]
  simp only [g1, g2, g3, Bool.and_self, Bool.not_true, Bool.false_eq_true, if_false]

/-- The connection of an admitted packet has its context. -/
theorem Mach.admitted_ctx {m v : Mach} {k : Packet} {h : RsxHdr} {x : RxMsg} {first : Bool}
    (ha : m.admitted k h = some (v, x, first)) : (v.ctx (pktCx k)).isSome = true := by
  have key : ∀ (w : Mach), (w.rxOf (pktCx k)).bind (fun r => r.msgs.find? (fun (y : RxMsg) => y.msn == h.msn)) = some x →
      (w.ctx (pktCx k)).isSome = true := by
    intro w hw
    cases hc : w.ctx (pktCx k) with
    | none => simp [Mach.rxOf, hc] at hw
    | some c => rfl
  unfold Mach.admitted at ha
  cases hd : m.delivered k with
  | none => simp [hd] at ha
  | some u =>
    simp only [hd] at ha
    rcases hw : u.takeIn k h with ⟨w, _ | _⟩
    · simp [hw] at ha
    · simp only [hw] at ha
      split at ha
      · simp at ha
      · rename_i y e
        simp only [Option.some.injEq, Prod.mk.injEq] at ha
        obtain ⟨rfl, rfl, -⟩ := ha
        exact key _ e

/-- So has an accepted packet's. -/
theorem Mach.accepted_ctx {m v : Mach} {k : Packet} {h : RsxHdr} {x : RxMsg} {first : Bool}
    (ha : m.accepted k h = some (v, x, first)) : (v.ctx (pktCx k)).isSome = true := by
  simp only [Mach.accepted, Option.filter_eq_some_iff] at ha
  exact Mach.admitted_ctx ha.1

/-- The check of a window leaves the connection its context. -/
theorem Mach.validate_ctx {m u : Mach} {k : Packet} {h : RsxHdr} {first : Bool} {c : Window × Nat}
    (hm : (m.ctx (pktCx k)).isSome = true) (hv : m.validate k h first = (u, some c)) : (u.ctx (pktCx k)).isSome = true := by
  obtain ⟨x, hx⟩ := Option.isSome_iff_exists.1 hm
  unfold Mach.validate at hv
  split at hv
  · rename_i win off e
    split at hv
    · simp at hv
    · simp only [Prod.mk.injEq] at hv
      obtain ⟨rfl, -⟩ := hv
      split
      · unfold Mach.updRxMsg Mach.updRx Mach.updCtx
        rw [hx]
        simp [Mach.setCtx, Mach.ctx]
      · exact hm
  · simp at hv

/-- Where a connection has its context, a TX half can be had (R205). -/
theorem Mach.needTx_ctx {m : Mach} {slot peer : Nat} (h : (m.ctx (cxKey slot peer)).isSome = true) :
    m.needTx slot peer = ((m.needTx slot peer).1, true) := by
  obtain ⟨c, hc⟩ := Option.isSome_iff_exists.1 h
  unfold Mach.needTx Mach.getCtx
  simp only [hc]

/-- An unsequenced packet that names the current TX instance acts on it. -/
theorem Mach.answer_answered {m v : Mach} {k : Packet} {kind : Nat} {h : RsxHdr} {t : TxHalf} (ha : m.answered k kind h t v)
    (act : Mach → Nat → TxHalf → RsxHdr → Mach) : m.answer k kind act = (act v (pktCx k) t h).retryHeld := by
  obtain ⟨h1, h2, u, h3, h4, h5, h6, h7, rfl⟩ := ha
  simp [Mach.answer, h1, h2, h3, h4, h5, h6, h7]

/-- A collective packet that reaches its group acts on it. -/
theorem Mach.collPkt_reaches {m u : Mach} {k : Packet} {h : CollHdr} {n ek : Nat} {g : CollGroup} {kinds : List Nat}
    (hk : kinds.contains k.hdr.kind = true) (hb : k.body = .coll h) (hr : m.reaches k h = some (u, n, g, ek))
    (act : Mach → Nat → CollGroup → Nat → CollHdr → Mach) : m.collPkt k kinds act = act u n g ek h := by
  unfold Mach.reaches at hr
  cases hd : m.delivered k with
  | none => simp [hd] at hr
  | some v =>
    simp only [hd] at hr
    cases hg : v.grp (h.group % 4096) with
    | none => simp [hg] at hr
    | some g' =>
      simp only [hg] at hr
      split at hr
      · simp at hr
      rename_i hc
      simp only [Bool.or_eq_true, not_or, Bool.not_eq_true] at hc
      obtain ⟨⟨h1, h2⟩, h3⟩ := hc
      split at hr
      · simp at hr
      rename_i r hf
      split at hr
      · rename_i he
        simp only [Option.some.injEq, Prod.mk.injEq] at hr
        obtain ⟨rfl, rfl, rfl, rfl⟩ := hr
        have h2' : (decide (0x14 < k.hdr.kind) || !h.zero k.hdr.kind || !k.hdr.zero) = false := by simpa using h2
        simp only [Mach.collPkt, hk, hb, hd, hg, h1, h2', h3, hf, he]
        simp
      · simp at hr

/-- A lock or atomic packet that comes acts; then acquires that wait for the held list may go on. -/
theorem Mach.lkuPkt_comes {m u : Mach} {k : Packet} {kind : Nat} {h : LkuHdr} {kinds : List Nat} (hc : m.lkuComes k kind h u)
    (hk : kinds.contains kind = true) (h7 : kind ≠ 0x27) (h8 : kind < 0x2B) (act : Mach → LkuHdr → Mach) :
    m.lkuPkt k kinds act = (act u h).resumeAcquires := by
  obtain ⟨rfl, hb, hd, hz, hz2⟩ := hc
  simp only [Mach.lkuPkt, hk, hb, hd]
  rw [if_neg (by simp), if_neg (by simp [h7, hz, hz2]; omega)]

/-- A record changes no field but the recorder's two counters. -/
theorem Mach.record_get (m : Mach) (c o : Nat) (facts : List Nat) (role : Role) (f : Field) (i : Nat)
    (hs : f.key i ≠ Reg.EVR.SUPPRESSED.key 0) (hl : f.key i ≠ Reg.EVR.LOST.key 0) :
    (m.record c o facts role).get f i = m.get f i := by
  have h0 : ∀ x : Mach, x.lostFirst.get f i = x.get f i := by intro x; unfold Mach.lostFirst; split <;> rfl
  have h1 : ∀ (x : Mach) (r : Rec), (x.acceptExempt r).get f i = x.get f i := by
    intro x r; unfold Mach.acceptExempt; split <;> (try split) <;> rfl
  have h2 : ∀ (x : Mach) (r : Rec), (x.acceptLimited r).get f i = x.get f i := by
    intro x r; simp only [Mach.acceptLimited, Mach.bump]
    split
    · exact Mach.get_put_ne x _ f _ 0 i hs
    · split
      · rfl
      · exact Mach.get_put_ne _ _ f _ 0 i hl
  simp only [Mach.record, Mach.accept]
  split
  · rw [h1, h0]
  · rw [h2, h0]

/-- The configuration check leaves the mode as it is. -/
theorem Mach.runCfgCheck_mode (m : Mach) : m.runCfgCheck.mode = m.mode := by
  have hr : ∀ (x : Mach) (c o : Nat) (l : List Nat), (x.record c o l).get Reg.GLB.GLB_MODE = x.get Reg.GLB.GLB_MODE :=
    fun x c o l => x.record_get c o l .none _ 0 (by decide) (by decide)
  have hw : ∀ (x : Mach) (fs d o : Nat) (u : FUnit), (x.raise fs u d o).get Reg.GLB.GLB_MODE = x.get Reg.GLB.GLB_MODE :=
    fun x fs d o u => by simp [Mach.get]
  have hp : ((m.put Reg.RTE.CFG_OK (b2n (m.cfgErr = 0))).put Reg.RTE.CFG_ERR m.cfgErr).get Reg.GLB.GLB_MODE = m.get Reg.GLB.GLB_MODE := by
    rw [Mach.get_put_ne _ _ _ _ _ _ (by decide), Mach.get_put_ne _ _ _ _ _ _ (by decide)]
  have hf : ∀ (l : List Nat) (x : Mach), (l.foldl (fun a e => a.record 0x4003 0 [e]) x).get Reg.GLB.GLB_MODE = x.get Reg.GLB.GLB_MODE := by
    intro l; induction l with
    | nil => intro x; rfl
    | cons a l ih => intro x; rw [List.foldl_cons, ih, hr]
  unfold Mach.mode; congr 1; simp only [Mach.runCfgCheck]
  split
  · rw [hr, hw, hp]
  · rw [hf, hp]

/-- So does the check that a request to leave CONFIG makes. -/
theorem Mach.leaveCheck_mode (m : Mach) (req : Nat) : (m.leaveCheck req).mode = m.mode := by
  unfold Mach.leaveCheck; split
  · exact m.runCfgCheck_mode
  · rfl

/-- A reserved source is never raised. -/
theorem Mach.raise_reserved {m : Mach} {fs : Nat} (h : fsReserved fs = true) (u : FUnit) (d o : Nat) :
    m.raise fs u d o = m := by
  simp [Mach.raise, h]

end Sys2Proof.Machine
end

