-- ==== Sys2Proof/WellFormed.lean ====
section
/-!
DEFINITION. Which commands are well formed: every operand within the width that its frame, packet, entry or message gives it,
and naming a part that the module has. A command that is not well formed is one that nothing outside the module can send;
exec still answers it.
-/

namespace Sys2Proof

/-- An engine number its class has (Table 1-4). -/
def Engine.wf (e : Engine) : Bool := decide (e.n.val < e.cls.perQuad)

/-- Every number of a list fits a width. -/
def allFit (w : Nat) (l : List Nat) : Bool := l.all (fun v => decide (v < 2 ^ w))

/-- A unit that the module has (Table 16-7). -/
def FUnit.wf : FUnit → Bool
  | .none => true
  | .port p => decide (p < 128)
  | .slot s => decide (s < 16)
  | .ring s n => decide (s < 16) && decide (n < 65536)
  | .engine e => e.wf
  | .feed n => decide (n < 2)
  | .rail n => decide (n < 26)

/-- A detection: a source number of 7 bits, a unit, a DETAIL word, an origin of Table 17-2. -/
def Detection.wf (d : Detection) : Bool :=
  decide (d.fs < 128) && d.unit.wf && allFit 32 [d.detail] && allFit 64 [d.hgt] && decide (d.origin < 8)

/-- The election view of a time frame (Table 4-6). -/
def TimeView.wf (v : TimeView) : Bool :=
  allFit 8 [v.rootPrio, v.state] && allFit 64 [v.rootSerial] && decide (v.hops < 16) && allFit 16 [v.rootSeq]

/-- A time frame (Table 4-6). -/
def TimeFrame.wf (f : TimeFrame) : Bool :=
  allFit 64 [f.serial, f.t1, f.t2, f.t3] && decide (f.port < 128) && f.view.wf && allFit 8 [f.exch]

/-- What stands in the zero fields of an area stands in no other: `fields` has the bits of the others. -/
def zeroOnly (rsv bytes fields : Nat) : Bool := decide (rsv < 2 ^ (8 * bytes)) && (rsv &&& fields) == 0

/-- How a frame's blocks came: a CRC word of 32 bits. -/
def Rx.wf (x : Rx) : Bool := allFit 32 [x.crc]

/-- A codeword: four times 544 symbols of ten bits and what fills a block, as PAM4 symbols (R54, R56). -/
def Codeword.wf (c : Codeword) : Bool := decide (c.symbols.length = 2720) && allFit 2 c.symbols

/-- An ALIGN block (Table 3-4). -/
def AlignBlock.wf (b : AlignBlock) : Bool := decide (b.rate < 4) && allFit 16 [b.index]

/-- A scan of 17 × 17 points (R77). -/
def EyeScan.wf (e : EyeScan) : Bool := decide (e.disagree.length = 289)

/-- A port's four lanes. -/
def LanesIn.wf (l : LanesIn) : Bool := decide (l.skew.length = 4)

/-- The RSP header (Table 5-2). A header beyond VERSION 1, or with a bad length or kind, is well formed: R121 discards it. -/
def RspHdr.wf (h : RspHdr) : Bool :=
  allFit 4 [h.version, h.derouted] && allFit 2 [h.tc, h.detourDim] && allFit 8 [h.hops, h.kind] && allFit 20 [h.dst, h.src] &&
  allFit 32 [h.injTs] && allFit 16 [h.payLen, h.flow] &&
  zeroOnly h.rsv 24 95779515511471493568317930536385765898388083888324367

/-- The operation area (Tables 8-5 and 9-1). -/
def RsxOp.wf : RsxOp → Bool
  | .window win off => allFit 20 [win] && allFit 64 [off]
  | .readRsp q => allFit 32 [q]
  | .ack p o f => allFit 32 [p, o] && allFit 16 [f]
  | .nak p r => allFit 32 [p] && allFit 8 [r]
  | .epochNak p => allFit 32 [p]
  | .result m s d f => allFit 32 [m] && allFit 8 [s, d] && allFit 16 [f]
  | .match_ d b e m n => allFit 13 [d] && allFit 64 [b] && allFit 4 [e] && allFit 15 [m] && allFit 32 [n]
  | .pullReq m l _ => allFit 32 [m, l]
  | .pullRsp q => allFit 32 [q]

/-- The bits of bytes 48 to 59 that an operation area gives a meaning. -/
def RsxOp.bits : RsxOp → Nat
  | .window .. => 0xFFFFFFFFFFFFFFFF000FFFFF
  | .readRsp .. | .epochNak .. | .pullRsp .. => 0xFFFFFFFF
  | .ack .. => 0xFFFFFFFFFFFFFFFFFFFF
  | .nak .. => 0xFFFFFFFFFF
  | .result .. => 0xFFFF0000FFFFFFFFFFFF
  | .match_ .. => 0xFFFFFFFFFFFFFFFFFFFFFFFF
  | .pullReq .. => 0x1FFFFFFFFFFFFFFFF

/-- The RSX header (Table 8-3). -/
def RsxHdr.wf (h : RsxHdr) : Bool :=
  allFit 8 [h.epoch] && allFit 32 [h.psn, h.msn, h.totalLen, h.offset, h.openTs] && allFit 24 [h.pktCount] && h.op.wf &&
  zeroOnly h.rsv 40 (0xFFFFFFFF00000000000000000000000000FFFFFFFFFFFFFFFFFFFFFFFFFFFFFFFFFFFFFF0000FF0F + h.op.bits * 2 ^ 192)

/-- The collective area (Table 10-5). -/
def CollHdr.wf (h : CollHdr) : Bool :=
  allFit 12 [h.group] && allFit 8 [h.gen, h.dtype, h.redop, h.reason] && allFit 3 [h.op] && allFit 16 [h.opSeq] &&
  allFit 32 [h.esn, h.count, h.chunk] && allFit 20 [h.srcRank, h.root] && allFit 4 [h.fpFlags] &&
  zeroOnly h.rsv 40 28269526077328721621367835716750898257995097944900877238146631335390679039

/-- The LKU area (Table 11-2). -/
def LkuHdr.wf (h : LkuHdr) : Bool :=
  allFit 8 [h.code, h.b25] && allFit 16 [h.lockId] && allFit 32 [h.tag, h.gen, h.queued] && allFit 64 [h.offset, h.op1, h.op2]

/-- The transport area. -/
def Body.wf : Body → Bool
  | .rsx h => h.wf
  | .coll h => h.wf
  | .lku h => h.wf

/-- An RSP packet: the payload is as long as PAY_LEN says and at most 4,096 B (R119). -/
def Packet.wf (k : Packet) : Bool :=
  k.hdr.wf && k.body.wf && decide (k.payload.length = k.hdr.payLen) && decide (k.payload.length ≤ 4096)

/-- A packet that comes by a command of its own is one whose header routing has passed (R121) and whose area the zero
fields leave whole. -/
def Packet.arrived (k : Packet) : Bool := k.wf && decide (k.hdr.version = 1) && k.hdr.zero

/-- A data frame (Table 4-2). -/
def DataFrame.wf (f : DataFrame) : Bool := decide (f.vc < 8) && allFit 16 [f.fsn, f.pktLen] && allFit 19 [f.rsv] && f.pkt.hdr.wf && f.pkt.body.wf

/-- A CREDIT frame (Table 4-3). -/
def CreditFrame.wf (f : CreditFrame) : Bool := allFit 16 (f.ackFsn :: f.shared :: f.cells) && decide (f.cells.length = 8)

/-- A NAK frame (Table 4-4). -/
def NakFrame.wf (f : NakFrame) : Bool := allFit 16 [f.fsn] && allFit 8 [f.reason]

/-- An AUDIT frame (Table 4-5). -/
def AuditFrame.wf (f : AuditFrame) : Bool :=
  allFit 16 [f.seq] && allFit 32 (f.shared :: f.cells) && decide (f.cells.length = 8)

/-- A TRAIN frame (Table 4-7). -/
def TrainFrame.wf (f : TrainFrame) : Bool :=
  allFit 64 [f.serial] && decide (f.port < 128) && allFit 4 [f.goodLanes, f.proposed] && allFit 3 [f.rates] &&
  allFit 2 [f.chosenRate] && allFit 8 [f.reason] && allFit 16 (f.ackFsn :: f.shared :: f.poolShared :: f.credits) &&
  allFit 16 f.poolSize && decide (f.credits.length = 8) && decide (f.poolSize.length = 8)

/-- A BEACON frame (Table 5-4). -/
def Beacon.wf (b : Beacon) : Bool :=
  allFit 8 [b.seq] && decide (1 ≤ b.dims) && decide (b.dims ≤ 4) && allFit 16 [b.da] && decide (b.port < 128) &&
  allFit 32 [b.stamp] && b.levels.all (fun c => decide (c.1 < 256) && decide (c.2 < 256))

/-- The body of a work entry (Tables 6-7 to 6-11). -/
def EntryBody.wf : EntryBody → Bool
  | .none => true
  | .rma d w r a n fo fv => allFit 20 [d, w] && allFit 64 [r, a, fo, fv] && allFit 32 [n]
  | .atomic d w r a x y => allFit 20 [d, w] && allFit 64 [r, a, x, y]
  | .send d m b a n => allFit 20 [d] && allFit 13 [m] && allFit 64 [b, a] && allFit 32 [n]
  | .recv s m b i a n => allFit 20 [s] && allFit 13 [m] && allFit 64 [b, i, a] && allFit 32 [n]
  | .cancel w r => allFit 32 [w] && allFit 16 [r]
  | .coll o d r _ rt sa da n => allFit 8 [o, d, r] && allFit 20 [rt] && allFit 64 [sa, da] && allFit 32 [n]
  | .lock d l t => allFit 20 [d] && allFit 16 [l] && allFit 32 [t]

/-- A work entry (Table 6-4). -/
def Entry.wf (e : Entry) : Bool :=
  allFit 8 [e.opcode, e.flags, e.len] && allFit 32 [e.workId, e.arg] && allFit 14 [e.cr] && allFit 16 [e.flow] && e.body.wf

/-- A work entry of one opcode, as a ring hands it on. -/
def Entry.ofOpcode (e : Entry) (op : Nat) : Bool := e.wf && decide (e.opcode = op)

/-- A half link: down, or generation 5 to 7 and a width of Table 6-1. -/
def HalfLink.wf (h : HalfLink) : Bool :=
  (decide (h.speed = 0) && decide (h.width = 0)) || (decide (5 ≤ h.speed) && decide (h.speed ≤ 7) && decide (1 ≤ h.width) && decide (h.width ≤ 16))

/-- A patrolled word's address lies in the quadrant's stack (32 GiB). -/
def PatrolFound.wf (f : PatrolFound) : Bool := allFit 35 [f.addr]

/-- A variant's identity (Table 1-7). -/
def VariantIn.wf (v : VariantIn) : Bool := allFit 16 [v.version] && decide (v.steps ≤ 8192)

/-- Sensor readings: nine temperatures, two feeds, 26 rails. -/
def CicadaIn.wf (c : CicadaIn) : Bool :=
  decide (c.temps.length = 9) && decide (c.vin.length = 2) && decide (c.iin.length = 2) && decide (c.railV.length = 26) &&
  decide (c.railI.length = 26) && allFit 32 (c.vbus :: c.vin ++ c.iin) && allFit 32 (c.railV ++ c.railI)

/-- What a boot finds: five tables, words of 32 bits. -/
def BootIn.wf (b : BootIn) : Bool :=
  decide (b.tables.length = 5) && allFit 32 [b.imageA.svn, b.imageB.svn, b.imageA.version, b.imageB.version, b.fuse] &&
  b.tables.all (fun t => decide (t.steps ≤ 8192) && allFit 16 [t.version] && allFit 32 [t.avail])

/-- A key hash is 48 bytes (R417). -/
def keyHashWf (h : List Byte) : Bool := decide (h.length = 48)

/-- A vendor-defined command: the operands in the widths of Tables 17-8 and 18-5. -/
def VendorCommand.wf : VendorCommand → Bool
  | .ledgerRead f c => allFit 32 [f] && allFit 8 [c]
  | .evrRead b s => allFit 16 [b] && allFit 64 [s]
  | .regRead v c o => decide (v < 256) && allFit 8 [c] && allFit 32 [o]
  | .regWrite v o _ => decide (v < 256) && allFit 32 [o]
  | .wake => true
  | .roleGrant s n => decide (s < 256) && allFit 16 [n]
  | .roleDrop s => decide (s < 256)
  | .keyEnrol s h => decide (s < 256) && keyHashWf h
  | .keyRemove s => decide (s < 256)
  | .claim => true
  | .release => true
  | .jtagUnlock _ => true
  | .timeQuery => true
  | .unknown c => decide (c < 256)

/-- A command is well formed. -/
def Instr.wf (i : Instr) : Bool :=
  match i with
  | .registerWrite _ off _ _ => decide (off < 16777216)
  | .dieLinkDown a b => decide (a ≠ b)
  | .yarrowStep e _ => e.wf
  | .engineGateClose e => e.wf
  | .engineWake e => e.wf
  | .quadrantPark _ => true
  | .quadrantWake _ => true
  | .timeExchangeStart _ => true
  | .timeReq _ f => f.frame.wf && f.rx.wf
  | .timeRsp _ f => f.frame.wf && f.rx.wf
  | .parentSelection => true
  | .rootSeqIncrement => true
  | .rootLost prio serial => allFit 8 [prio] && allFit 64 [serial]
  | .parentLossTimeout => true
  | .holdoverLimitPassed => true
  | .ppsInEdge => true
  | .ppsInMissing => true
  | .ppsOutPulse => true
  | .ptmRequest _ roundTrip => allFit 32 [roundTrip]
  | .timeQuery _ => true
  | .step _ => true
  | .codewordReceive _ c => c.wf
  | .laneLost _ => true
  | .cdrLockLoss _ => true
  | .alignBlock _ b => b.wf
  | .idleNoticeSend _ => true
  | .idleNoticeReceive _ => true
  | .eiExitRequest _ => true
  | .wakeBurstReceive _ skew => decide (skew.length = 4)
  | .wakeAnswerTimeout _ => true
  | .fecIntervalEnd _ => true
  | .scanStart _ => true
  | .scanPeriodDue _ => true
  | .scanComplete _ upper middle lower => upper.wf && middle.wf && lower.wf
  | .laneCntClr _ => true
  | .dataFrame _ f x => f.wf && x.wf
  | .creditFrame _ f x => f.wf && x.wf
  | .nakFrame _ f x => f.wf && x.wf
  | .auditFrame _ f x => f.wf && x.wf
  | .unknownControlFrame _ b x => decide (b.length < 8192) && x.wf
  | .trainFrame _ f x => f.wf && x.wf
  | .creditSend _ => true
  | .nakResendExpiry _ => true
  | .replayTimeout _ => true
  | .frameBoundary _ => true
  | .auditTick _ => true
  | .scheduledRetrainStart _ => true
  | .retrain _ => true
  | .doneTimeout _ => true
  | .trainReqResend _ => true
  | .fullTraining _ lanes => lanes.wf
  | .trainRetryExpiry _ lanes => lanes.wf
  | .widthChange _ => true
  | .autoWidthTrial _ => true
  | .laneAddTimeout _ _ => true
  | .reinjectionComplete _ => true
  | .auditNow _ => true
  | .portEn _ _ => true
  | .widthMax _ _ => true
  | .linkCntClr _ => true
  | .cfgCheck _ => true
  | .routeSelect _ => true
  | .escWaitExpiry _ _ => true
  | .localDelivery _ _ => true
  | .beaconSend _ => true
  | .beaconReceive _ b x => b.wf && x.wf
  | .beaconStale _ => true
  | .portUnusable _ => true
  | .routeEn _ _ => true
  | .routeCntClr _ => true
  | .wrDoorbell _ _ page => decide (page < 65536)
  | .crHead _ _ page _ => decide (page < 65536)
  | .crArm _ _ page => decide (page < 65536)
  | .sleepNoticeDoorbell _ _ page => decide (page < 65536)
  | .ringReadCompletion _ _ => true
  | .ringResume ring => decide (ring < 65536)
  | .nop ring e => decide (ring < 65536) && e.ofOpcode 0
  | .pad ring e => decide (ring < 65536) && e.ofOpcode 1
  | .put ring e => decide (ring < 65536) && e.ofOpcode 16
  | .putFlag ring e => decide (ring < 65536) && e.ofOpcode 17
  | .get ring e => decide (ring < 65536) && e.ofOpcode 18
  | .atomic ring e => decide (ring < 65536) && e.ofOpcode 19
  | .send ring e => decide (ring < 65536) && e.ofOpcode 32
  | .recv ring e => decide (ring < 65536) && e.ofOpcode 33
  | .recvCancel ring e => decide (ring < 65536) && e.ofOpcode 34
  | .coll ring e => decide (ring < 65536) && e.ofOpcode 48
  | .lockAcquire ring e => decide (ring < 65536) && e.ofOpcode 64
  | .lockRelease ring e => decide (ring < 65536) && e.ofOpcode 65
  | .lockForce ring e => decide (ring < 65536) && e.ofOpcode 66
  | .fence ring e => decide (ring < 65536) && e.ofOpcode 80
  | .sleepNotice ring e => decide (ring < 65536) && e.ofOpcode 81
  | .moderationTimerExpiry cr => decide (cr < 16384)
  | .msixUnmask _ _ vec => decide (vec < 2048)
  | .hostReadFailure _ _ => true
  | .functionD3hotEntry _ _ => true
  | .functionD0Return _ _ => true
  | .busMasterEnableSet _ _ => true
  | .busMasterEnableClear _ _ => true
  | .flr _ _ => true
  | .vfEnableClear _ => true
  | .hostPortReset _ _ => true
  | .hostPortLinkUp _ h0 h1 => h0.wf && h1.wf
  | .wrCreate _ => true
  | .wrDestroy _ => true
  | .wrDrainDone ring => decide (ring < 65536)
  | .wrReset _ => true
  | .crCreate _ => true
  | .crDestroy _ => true
  | .crModify _ => true
  | .crReset _ => true
  | .hifCntClr _ => true
  | .walkReadCompletion _ _ => true
  | .invGo _ => true
  | .invalidationComplete _ _ => true
  | .pdLoad _ => true
  | .pdDisable _ => true
  | .vmidLoad _ => true
  | .vmidDisable _ => true
  | .ladybirdPeriod => true
  | .auditComparison _ => true
  | .xltCntClr _ => true
  | .writePacket k => k.arrived && decide (k.hdr.kind = 1)
  | .writeFlagPacket k => k.arrived && decide (k.hdr.kind = 2)
  | .flagRelease cx msn => allFit 24 [cx] && allFit 32 [msn]
  | .readReqPacket k => k.arrived && decide (k.hdr.kind = 3)
  | .readRspPacket k => k.arrived && decide (k.hdr.kind = 4)
  | .resultPacket k => k.arrived && decide (k.hdr.kind = 8)
  | .ackPacket k => k.arrived && decide (k.hdr.kind = 5)
  | .nakPacket k => k.arrived && decide (k.hdr.kind = 6)
  | .epochNakPacket k => k.arrived && decide (k.hdr.kind = 7)
  | .lossCheck cx => allFit 24 [cx]
  | .rsxAckTimer cx => allFit 24 [cx]
  | .rtoExpiry cx => allFit 24 [cx]
  | .rnrDelayExpiry cx => allFit 24 [cx]
  | .rnrTimeout cx => allFit 24 [cx]
  | .winCreate _ => true
  | .winDisable _ => true
  | .ctxLookup _ => true
  | .cxnCntClr _ => true
  | .eagerPacket k => k.arrived && decide (k.hdr.kind = 9)
  | .rtsPacket k => k.arrived && decide (k.hdr.kind = 10)
  | .pullReqPacket k => k.arrived && decide (k.hdr.kind = 11)
  | .pullRspPacket k => k.arrived && decide (k.hdr.kind = 12)
  | .messageReady cx msn => allFit 24 [cx] && allFit 32 [msn]
  | .recvResume _ => true
  | .domCreate _ => true
  | .domDisable _ => true
  | .matCntClr _ => true
  | .collUp k => k.arrived && decide (k.hdr.kind = 16)
  | .collDown k => k.arrived && decide (k.hdr.kind = 17)
  | .collCredit k => k.arrived && decide (k.hdr.kind = 18)
  | .collNak k => k.arrived && decide (k.hdr.kind = 19)
  | .collAbort k => k.arrived && decide (k.hdr.kind = 20)
  | .collCreditSend grp rank edge => decide (grp < 4096) && allFit 20 [rank] && allFit 41 [edge]
  | .collNakTimer grp rank edge => decide (grp < 4096) && allFit 20 [rank] && allFit 41 [edge]
  | .collRto grp rank edge => decide (grp < 4096) && allFit 20 [rank] && allFit 41 [edge]
  | .opTimeout grp => decide (grp < 4096)
  | .abortResend grp rank edge => decide (grp < 4096) && allFit 20 [rank] && allFit 41 [edge]
  | .grpCreate _ => true
  | .grpDestroy _ => true
  | .grpAbort _ => true
  | .colCntClr _ => true
  | .lkAcq k => k.arrived && decide (k.hdr.kind = 32)
  | .lkRel k => k.arrived && decide (k.hdr.kind = 33)
  | .lkForce k => k.arrived && decide (k.hdr.kind = 34)
  | .lkRenew k => k.arrived && decide (k.hdr.kind = 35)
  | .lkWithdraw k => k.arrived && decide (k.hdr.kind = 36)
  | .lkRsp k => k.arrived && decide (k.hdr.kind = 37)
  | .lkGrantAck k => k.arrived && decide (k.hdr.kind = 38)
  | .atReq k => k.arrived && decide (k.hdr.kind = 40)
  | .atRsp k => k.arrived && decide (k.hdr.kind = 41)
  | .atAck k => k.arrived && decide (k.hdr.kind = 42)
  | .lockTimeout _ tag => allFit 32 [tag]
  | .lkuRequestResend _ tag => allFit 32 [tag]
  | .lockProbe _ tag => allFit 32 [tag]
  | .lockBusyRetry _ tag => allFit 32 [tag]
  | .grantResend lock => allFit 16 [lock]
  | .leaseRenewal => true
  | .leaseExpiry lock => allFit 16 [lock]
  | .resultTableExpiry _ src tag => allFit 20 [src] && allFit 32 [tag]
  | .lockCmdForce _ => true
  | .lkaCntClr _ => true
  | .injectionGrant _ => true
  | .wheelSlot _ => true
  | .gateChange => true
  | .gateSwap _ => true
  | .gateSwapInstant => true
  | .gateEn _ _ => true
  | .schCntClr _ => true
  | .swap _ => true
  | .swapLoaded _ v => v.wf
  | .tableSwitch _ => true
  | .hbmPatrolRead _ found => found.wf
  | .sramPatrolRead _ found => found.wf
  | .patrolOverrun _ => true
  | .repairGo _ => true
  | .rowRepairComplete _ => true
  | .cicadaSample c => c.wf
  | .deferredActivityStart => true
  | .seqCntClr _ => true
  | .feedInRange _ => true
  | .debounceComplete _ => true
  | .prechargeComplete _ => true
  | .prechargeTimeout _ => true
  | .rampComplete _ => true
  | .feedOutOfRange _ _ => true
  | .feedDisable _ => true
  | .reverseCurrent _ => true
  | .limitEntry _ => true
  | .limitClear _ => true
  | .faultTimerExpiry _ => true
  | .fastTrip _ => true
  | .backoffExpiry _ => true
  | .retryCountReset _ => true
  | .latchClear _ => true
  | .feedClr _ => true
  | .powerCycleBoth => true
  | .pgoodRise b => b.wf
  | .pgoodFall => true
  | .railGroupStart g => decide (1 ≤ g) && decide (g ≤ 9)
  | .railGroupDischarge g => decide (1 ≤ g) && decide (g ≤ 8)
  | .railFault rail => decide (rail < 26)
  | .sharingFault => true
  | .powerLimitExceeded => true
  | .pwrCntClr _ => true
  | .modeReqDormant _ _ => true
  | .modeReqConfig _ _ => true
  | .modeReqTrain _ _ => true
  | .modeReqRun _ _ => true
  | .modeReqDrain _ _ => true
  | .modeReqSafe _ _ => true
  | .modeReqLockout _ _ => true
  | .attestComplete => true
  | .runReadiness => true
  | .trainTimeout _ => true
  | .drained => true
  | .warmReset _ _ => true
  | .moduleReset _ b => b.wf
  | .mgcWatchdogExpiry b => b.wf
  | .faultDetection ext => (ext.map Detection.wf).getD true
  | .faultSelfCheck _ => true
  | .fltAck _ => true
  | .faultForce _ _ _ => true
  | .stickyClear _ _ => true
  | .slotContRelease _ _ => true
  | .fltCntClr _ => true
  | .recordWriteComplete => true
  | .lostRecord => true
  | .suppressedRecord => true
  | .rdGo _ _ => true
  | .ledgerGo _ _ => true
  | .expGo _ => true
  | .exportComplete _ => true
  | .verifyGo _ => true
  | .verifyComplete bad => allFit 32 [bad.getD 0]
  | .ledgerRead _ first count => allFit 32 [first] && allFit 8 [count]
  | .evrRead _ maxBytes fromSeq => allFit 16 [maxBytes] && allFit 64 [fromSeq]
  | .evrCntClr _ => true
  | .getVersion _ => true
  | .getCapabilities _ => true
  | .negotiateAlgorithms _ _ => true
  | .getDigests _ => true
  | .getCertificate _ slot offset length => decide (slot < 8) && allFit 16 [offset] && allFit 16 [length]
  | .challenge _ slot nonce => decide (slot < 8) && allFit 256 [nonce]
  | .getMeasurements _ index _ nonce => allFit 8 [index] && allFit 256 [nonce]
  | .keyExchange _ x => keyHashWf x.keyHash
  | .finish _ _ _ => true
  | .authBusyEnd _ => true
  | .heartbeat _ => true
  | .keyUpdate _ => true
  | .endSession _ => true
  | .sessionIdleTimeout _ => true
  | .vendorDefinedRequest _ c => c.wf
  | .regRead _ view count off => decide (view < 256) && allFit 8 [count] && allFit 32 [off]
  | .regWrite _ view off _ => decide (view < 256) && allFit 32 [off]
  | .wake _ _ => true
  | .roleGrant _ slot minutes => decide (slot < 256) && allFit 16 [minutes]
  | .roleDrop _ => true
  | .grantExpiry _ => true
  | .keyEnrol _ slot hash => decide (slot < 256) && keyHashWf hash
  | .keyRemove _ slot => decide (slot < 256)
  | .claim _ => true
  | .release _ => true
  | .jtagUnlock _ _ => true
  | .jtagInstruction _ => true
  | .rolCntClr _ => true
  | .snap _ => true
  | .snapAll _ => true
  | .snapArm _ => true
  | .armedSnapshot => true
  | .pmcClr _ => true
  | .counterOverflow bank _ => decide (bank < 36)
  | .streamPeriod n => decide (n < 32)
  | .refclkLoss => true
  | .refclkReturn => true
  | .perstDeassert _ _ => true
  | .pcieRefclkStop _ => true
  | .dataReadCompletion _ _ => true
  | .conditionEnd _ unit => unit.wf
  | .registerRead _ off _ => decide (off < 16777216)
  | .pldmFirmwareUpdate _ _ b => b.wf
  | .dynamicAddressAssignment addr => decide (addr < 128)
  | .dieLinkGate a b => decide (a ≠ b)
  | .prbsLock _ symbols => symbols.all (fun v => decide (v < 4))

end Sys2Proof
end

