-- ==== Sys2Proof/Tests/Slice0.lean ====
section
/-!
SUPPORT. Tests of single steps on small states, with expected results from the spec's tables and worked examples; the
refusals of WellFormed, one ill-formed command for each check; and, for every statement with hypotheses, states and operands
that meet them.
-/

namespace Sys2Proof.Tests

open Sys2Proof Sys2Proof.Machine

/-! ### States to test on -/

/-- A block in a mode, with slot 0's PF0 holding a MAKER grant. -/
def machIn (md : Mode) : Mach :=
  { (State.reset.m.put Reg.GLB.GLB_MODE md.code) with
    rol := { grants := [(0, { sess := 0, role := .maker, ends := 1000000000000 })] } }

/-- The state of that block. -/
def stIn (md : Mode) : State := { m := machIn md }

/-- A packet header between two modules, a lock request, and an RSX packet of a kind and an operation. -/
def aHdr : RspHdr :=
  { version := 1, tc := 0, esc := false, minOnly := false, detour := false, detourDim := 0, derouted := 0, hops := 0, dst := 0
    src := 0, injTs := 0, payLen := 0, kind := 0, flow := 0 }
def lkuPkt : Packet :=
  { hdr := { aHdr with kind := 0x20 }
    body := .lku { code := 0, b25 := 0, lockId := 0, tag := 0, gen := 0, queued := 0, offset := 0, op1 := 0, op2 := 0 }
    payload := [] }
def rsxPkt (kind : Nat) (op : RsxOp) : Packet :=
  { hdr := { aHdr with kind := kind }
    body := .rsx { opn := false, ackReq := false, retx := false, poison := false, epoch := 0, psn := 0, msn := 0, totalLen := 0
                   offset := 0, pktCount := 0, openTs := 0, op := op }
    payload := [] }

/-- Its PF0. -/
def pf : Requester := .pf0 0

theorem wit_step_front : ({ (stIn .run) with pending := [.drained] } : State).pending = .drained :: [] := by decide

theorem wit_idle : (stIn .run).pending = [] ∧ (stIn .run).m.pmc.on = [] := by decide

theorem wit_mram : (stIn .run).wf ∧ ∃ t, step (stIn .run) = .next t := ⟨by unfold State.wf; decide, _, rfl⟩

/-- TXE 0 of Q0, running and idle since cycle 0, in RUN. -/
def engState : State :=
  { (stIn .run) with m := ({ (machIn .run) with clk := 100000 }).setEng ⟨.txe, 0, 0⟩ { gated := false } }

/-- TXE 0 of Q0 with a command outstanding. -/
def busyState : State :=
  { (stIn .run) with m := (machIn .run).setEng ⟨.txe, 0, 0⟩ { gated := false, outstanding := some .host } }

theorem wit_die : (0 : Quad) ≠ 1 ∧ ((stIn .run).m.dieLink 0 1).down = false ∧
    (({ machIn .run with die := [(dieKey 0 1, { down := true })] } : Mach).dieLink 0 1).down = true ∧
    (engState.m.dieLink 0 1).lastTraffic + 2000 ≤ engState.m.clk ∧
    (stIn .run).m.clk < ((stIn .run).m.dieLink 0 1).lastTraffic + 2000 := by decide

theorem wit_arch : engExists ⟨.txe, 0, 0⟩ = true ∧ engState.m.isSet Reg.GLB.GATE_EN = true ∧ engState.m.engBusy ⟨.txe, 0, 0⟩ = false ∧
    (engState.m.eng ⟨.txe, 0, 0⟩).gated = false ∧ (engState.m.eng ⟨.txe, 0, 1⟩).gated = true ∧ 0 < engState.m.clk ∧
    engState.m.mode ≠ .safe ∧ engState.m.mode ≠ .lockout ∧ (stIn .safe).m.mode = .safe ∧
    engState.m.engRuns ⟨.txe, 0, 0⟩ = true ∧ (engState.m.eng ⟨.txe, 0, 0⟩).lastStep ≠ some engState.m.clk ∧
    engState.m.pmc.on.contains (engBank 0 .txe) = false ∧ engState.m.engRuns ⟨.txe, 0, 1⟩ = false ∧
    busyState.m.engBusy ⟨.txe, 0, 0⟩ = true ∧ engExists ⟨.mte, 0, 4⟩ = false := by decide

/-- Q0 with its engines gated and its ports idle, and PARK_EN set. -/
def parkState : State := { (stIn .run) with m := { ((machIn .run).put Reg.GLB.PARK_EN 1) with clk := 5 } }

/-- Q1 parked warm two cycles ago. -/
def warmState : State := { parkState with m := { parkState.m with quads := [(1, { park := 1, parkedAt := 3, usableAt := 0 })] } }

theorem wit_park : parkState.m.mode ≠ .dormant ∧ (Tbl.get parkState.m.quads 0 {}).park = 0 ∧ parkState.m.mayPark 0 = true ∧
    (Tbl.get warmState.m.quads 1 {}).park = 1 ∧ (Tbl.get warmState.m.quads 1 {}).parkedAt ≠ warmState.m.clk := by decide

/-- Port 3 UP in RUN, its last request stamped 1000 as exchange 5. -/
def timeState : State :=
  { (stIn .run) with m := (Mach.updTim { ((machIn .run).put Reg.LNK.LINK_STATE 2 3) with idle := [(3, { driversOff := false })] } 3
      (fun _ => { exch := 5, t1 := some 1000, delays := [100] })) }
def timeFrame : TimeFrame :=
  { serial := 9, port := 1, view := { rootPrio := 1, rootSerial := 9, hops := 0, rootSeq := 2, state := 3 }, exch := 5, t1 := 1000
    t2 := 1100, t3 := 1200 }

/-- A frame with the CRC that its bytes have. -/
def goodRx (body : List Byte) : Rx := { crc := (crc32c body).toNat }

/-- A frame with its own CRC is good at a receiver that is not resynchronising. -/
theorem good_rx {m : Mach} {p : Nat} (body : List Byte) (h : (m.link p).resync = false) :
    m.checkFrame p body false (goodRx body) = .good := by
  simp [Mach.checkFrame, goodRx, h]

/-- The same state with exchanges off. -/
def noTime : State := { timeState with m := timeState.m.put Reg.TIM.EXCH_EN 0 }

theorem wit_time_start : timeState.m.exchanges 3 = true ∧ (stIn .run).m.exchanges 3 = false := by decide

theorem wit_time_heard (f : TimeFrame) (ty : Nat) :
    timeState.m.hears 3 (TimeFrame.wire ty f) (goodRx (TimeFrame.wire ty f)) ((timeState.m.frameIn 3).pmcReceived 3 64 false) ∧
    noTime.m.hears 3 (TimeFrame.wire ty f) (goodRx (TimeFrame.wire ty f)) ((noTime.m.frameIn 3).pmcReceived 3 64 false) := by
  have e : (TimeFrame.wire ty f).length + 4 = 64 := by simp [TimeFrame.wire, leBytes, zeros]
  unfold Mach.hears; rw [e]
  exact ⟨⟨by decide, good_rx _ (by decide), rfl⟩, ⟨by decide, good_rx _ (by decide), rfl⟩⟩

theorem wit_time_frames : ((timeState.m.frameIn 3).pmcReceived 3 64 false).exchanges 3 = true ∧
    ((noTime.m.frameIn 3).pmcReceived 3 64 false).exchanges 3 = false ∧
    (((timeState.m.frameIn 3).pmcReceived 3 64 false).timPort 3).t1 = some timeFrame.t1 ∧
    (((timeState.m.frameIn 3).pmcReceived 3 64 false).timPort 3).exch = timeFrame.exch ∧
    (((timeState.m.frameIn 3).pmcReceived 3 64 false).timPort 3).delays ≠ [] ∧
    (((timeState.m.frameIn 3).pmcReceived 3 64 false).timPort 3).t1 ≠ some 7 := by decide

/-- A root in RUN by its own priority; and port 3's neighbour, with priority 1, as a candidate beside it. -/
def ownRoot : Mach := (machIn .run).put Reg.TIM.OWN_PRIO 7
def byPort : Mach :=
  ({ ownRoot with tim := { ownRoot.tim with roots := [{ prio := 1, serial := 9, seq := some 2, changedAt := 0, lostUntil := none }] } }).updTim 3
    (fun _ => { accepted := some 0, nbr := some { serial := 9, port := 1, view := timeFrame.view } })

theorem wit_selection_none : (machIn .run).takeTimSettings.candidates = [] ∧
    (machIn .run).takeTimSettings.leavePps.get Reg.TIM.STATE ≠ 2 ∧
    ((machIn .run).put Reg.TIM.STATE 2).takeTimSettings.candidates = [] ∧
    ((machIn .run).put Reg.TIM.STATE 2).takeTimSettings.leavePps.get Reg.TIM.STATE = 2 := by decide

theorem wit_selection_own : ownRoot.takeTimSettings.candidates.map (fun c => c.port) = [255] ∧
    ownRoot.takeTimSettings.get Reg.TIM.STATE ≠ 3 ∧ ownRoot.takeTimSettings.get Reg.TIM.STATE ≠ 4 ∧
    (ownRoot.put Reg.TIM.STATE 3).takeTimSettings.get Reg.TIM.STATE = 3 := by decide

theorem wit_selection_port : (byPort.takeTimSettings.candidates.map (fun c => (c.prio, c.port))) = [(1, 3), (7, 255)] ∧
    byPort.takeTimSettings.get Reg.TIM.STATE = 0 ∧ (byPort.put Reg.TIM.STATE 3).takeTimSettings.get Reg.TIM.STATE = 3 := by decide

theorem wit_parent_loss : (byPort.put Reg.TIM.PARENT 3).get Reg.TIM.PARENT < 128 ∧
    ((byPort.put Reg.TIM.PARENT 3).timPort 3).accepted = some 0 ∧ 128 ≤ (machIn .run).get Reg.TIM.PARENT := by decide

/-- ROOT in RUN, with an own priority, another root known and an edge seen at cycle 0. -/
def rootMach : Mach :=
  { (ownRoot.put Reg.TIM.STATE 3) with tim :=
      { roots := [{ prio := 3, serial := 4, seq := some 1, changedAt := 0, lostUntil := none }], ppsLast := some 0 } }

/-- The same root with PPS_IN_EN in force, as ROOT or ROOT_PPS, with its one-time alignment armed or not, so many LSBs past a
second. -/
def ppsMach (state off : Nat) (armed : Bool) : Mach :=
  { (rootMach.put Reg.TIM.STATE state) with tim := { rootMach.tim with
      ppsEn := true, ppsArmed := armed, hgt := { q0 := off * 2 ^ 32, q1 := off * 2 ^ 32, q2 := off * 2 ^ 32, q3 := off * 2 ^ 32 } } }

/-- The machine whose PPS_IN is stamped. -/
def stampedPps (m : Mach) : Mach := m.put64 Reg.TIM.PPS_IN_LO Reg.TIM.PPS_IN_HI m.hgtRef

theorem wit_root : rootMach.isRoot = true ∧ (machIn .run).isRoot = false ∧
    (rootMach.tim.roots.find? (fun x => x.prio == 3 && x.serial == 4 && x.lostUntil.isNone)).isSome = true ∧
    rootMach.tim.roots.find? (fun x => x.prio == 5 && x.serial == 4 && x.lostUntil.isNone) = none ∧
    ((machIn .run).put Reg.TIM.STATE 2).get Reg.TIM.STATE = 2 ∧ ((machIn .run).put Reg.TIM.STATE 2).tim.limitHit = false ∧
    0 < ((machIn .run).put Reg.TIM.STATE 2).get Reg.TIM.HOLD_DRIFT := by decide

theorem wit_pps_edge : (stampedPps (ppsMach 3 5 true)).isRoot = true ∧ (stampedPps (ppsMach 3 5 true)).tim.ppsEn = true ∧
    (stampedPps (ppsMach 3 15999999999 true)).secondError < 0 ∧ (stampedPps (ppsMach 3 15999999999 true)).tim.ppsArmed = true ∧
    (stampedPps (ppsMach 3 5 true)).mode = .run ∧ 0 ≤ (stampedPps (ppsMach 3 5 true)).secondError ∧
    (stampedPps (ppsMach 3 16000 false)).secondError.natAbs ≤ 16000 ∧ (stampedPps (ppsMach 3 16000 false)).tim.ppsArmed = false ∧
    16000 < (stampedPps (ppsMach 4 16001 false)).secondError.natAbs ∧ (stampedPps (ppsMach 4 16001 false)).get Reg.TIM.STATE = 4 ∧
    16000 < (stampedPps (ppsMach 3 16001 false)).secondError.natAbs ∧ (stampedPps (ppsMach 3 16001 false)).get Reg.TIM.STATE ≠ 4 ∧
    (stampedPps (machIn .run)).isRoot = false := by decide

theorem wit_pps_missing : (ppsMach 4 0 false).tim.ppsLast = some 0 ∧ (ppsMach 4 0 false).get Reg.TIM.STATE = 4 := by decide

theorem wit_ptm_step : (machIn .run).slotPresent 0 = true ∧ ((machIn .run).put Reg.HIF.BIFURCATED 0 0).slotPresent 1 = false ∧
    (machIn .config).passes pf Reg.TIM.STEP 0 = true ∧ (machIn .config).mode = .config ∧
    (machIn .run).passes pf Reg.TIM.STEP 0 = true ∧ (machIn .run).mode = .run := by decide

/-- Port 3 UP at x4 with drivers on, its lanes awake: lane 12 is logical lane 0. -/
def upMach : Mach :=
  { ((((((((machIn .run).put Reg.LNK.LINK_STATE 2 3).put Reg.LNK.ACTIVE 15 3).put Reg.LNK.WIDTH 4 3).put Reg.LAN.EI 0 12).put
      Reg.LAN.FEC 1 3).put Reg.LAN.CW_LOCK 1 12).put Reg.LAN.PRBS_CHK_EN 1 12) with
    idle := [(3, { driversOff := false })], lanes := [(12, { badRun := 7, uncorrSec := 9, fecLim := 8 })] }
def upState : State := { m := upMach }

/-- Lane 12 as the only active lane of port 3, and lane 13 as another. -/
def oneLane : Mach := (upMach.put Reg.LNK.ACTIVE 1 3).put Reg.LNK.WIDTH 1 3

/-- What a lost lane 12 makes of a machine. -/
def lost12 (m : Mach) : Mach :=
  ((((m.updLane 12 (fun x => { x with lost := true, goodRun := 0, seekSince := none })).raise 16 (.port 3) 12
    (quadOfLane 12)).record 0x3001 (quadOfLane 12) [12]).put Reg.LAN.CW_LOCK 0 12)

theorem wit_codewords : upMach.isSet Reg.LAN.EI 12 = false ∧ (machIn .run).isSet Reg.LAN.EI 12 = true ∧
    upMach.isSet Reg.LAN.FEC (portOfLane 12) = true ∧ upMach.isSet Reg.LAN.CW_LOCK 12 = true ∧
    (machIn .run).isSet Reg.LAN.CW_LOCK 12 = false ∧ ((machIn .run).lane 12).goodRun < 3 ∧
    (upMach.lane 12).badRun = 7 ∧ ((upMach.updLane 12 (fun x => { x with badRun := 6 })).lane 12).badRun < 7 ∧
    (((machIn .run).updLane 12 (fun x => { x with goodRun := 3, lost := true })).lane 12).goodRun = 3 ∧
    upMach.adding 3 = false := by decide

theorem wit_lane_lost : upMach.laneActive 12 = true ∧ upMach.trained (portOfLane 12) = true ∧ (upMach.lane 12).seekSince = none ∧
    ((upMach.updLane 12 (fun x => { x with seekSince := some 4 })).lane 12).seekSince = some 4 ∧ (upMach.lane 12).lost = false ∧
    chooseLanes ((lost12 oneLane).widthMax 3) ((lost12 oneLane).goodLanes 3) = 0 ∧ oneLane.laneActive 12 = true ∧
    chooseLanes ((lost12 upMach).widthMax 3) ((lost12 upMach).goodLanes 3) = 12 ∧ (lost12 upMach).linkState 3 = 2 ∧
    (lost12 (upMach.put Reg.LNK.LINK_STATE 3 3)).linkState 3 ≠ 2 := by decide

theorem wit_lane_counters : upMach.passes pf Reg.LAN.CNT_CLR 0 = true ∧ upMach.isSet Reg.LAN.PRBS_CHK_EN 12 = true ∧
    (machIn .run).isSet Reg.LAN.PRBS_CHK_EN 12 = false ∧ 0 < (upMach.lane 12).fecLim ∧
    (upMach.lane 12).fecLim < (upMach.lane 12).uncorrSec ∧ (upMach.lane 13).uncorrSec ≤ (upMach.lane 13).fecLim := by decide

/-- Port 3 with both notices, and in electrical idle. -/
def bothNotices : Mach := upMach.updEi 3 (fun e => { e with sentNotice := true, rcvdNotice := true })
def idleMach : Mach := { upMach with idle := [(3, { driversOff := true })], clk := 7 }

/-- A scan that runs on lane 12. -/
def scanMach : Mach := upMach.askScan 12

theorem wit_notices : upMach.idleReady 3 = true ∧ (upMach.ei 3).sentNotice = false ∧ upMach.linkState 3 = 2 ∧
    (upMach.ei 3).driversOff = false ∧ upMach.get Reg.LAN.EI_DELAY 3 ≠ 0 ∧ (upMach.put Reg.LAN.EI_DELAY 0 3).get Reg.LAN.EI_DELAY 3 = 0 ∧
    (machIn .run).linkState 3 ≠ 2 ∧ (bothNotices.ei 3).sentNotice = true ∧ (bothNotices.ei 3).rcvdNotice = true ∧
    bothNotices.get Reg.LAN.EI_DELAY 3 ≠ 0 ∧ bothNotices.scanOn 3 = false := by decide

theorem wit_idle_exit : upMach.exitWanted 3 = false ∧ (upMach.queueCtrl 3 .credit).exitWanted 3 = true ∧
    (idleMach.ei 3).driversOff = true ∧ (idleMach.ei 3).bursts = 0 ∧ idleMach.trained 3 = true ∧ 0 < idleMach.clk ∧
    (idleMach.ei 3).offAt ≠ idleMach.clk ∧ ((idleMach.updEi 3 (fun e => { e with offAt := 7 })).ei 3).offAt = idleMach.clk ∧
    ((idleMach.updEi 3 (fun e => { e with bursts := 1 })).ei 3).bursts = 1 ∧
    1 < ((idleMach.updEi 3 (fun e => { e with bursts := 2 })).ei 3).bursts ∧ (machIn .run).trained 3 = false := by decide

theorem wit_scans : upMach.passes pf Reg.LAN.SCAN_START 0 = true ∧
    (upMach.scans ++ upMach.scanWait).contains (upMach.idx pf Reg.LAN.LANE_IDX) = false ∧
    upMach.scanning (quadOfLane 12) = false ∧ upMach.isSet Reg.LAN.EI 12 = false ∧ upMach.isSet Reg.LAN.EI 13 = true ∧
    scanMach.scanning (quadOfLane 13) = true ∧ (upMach.put Reg.LNK.LINK_STATE 3 3).linkState (portOfLane 12) = 3 ∧
    (upMach.put Reg.LAN.SCAN_PERIOD 9).get Reg.LAN.SCAN_PERIOD ≠ 0 ∧ (upMach.put Reg.LAN.SCAN_PERIOD 0).get Reg.LAN.SCAN_PERIOD = 0 ∧
    (List.range 128).find? (fun k => upMach.trained (portOfLane (128 * 0 + (Tbl.get upMach.hive.scanTurn 0 0 + k) % 128)) &&
      upMach.laneActive (128 * 0 + (Tbl.get upMach.hive.scanTurn 0 0 + k) % 128)) = some 12 ∧
    scanMach.scans.contains 12 = true ∧ upMach.scans.contains 12 = false ∧ upMach.get Reg.LAN.W_MIN = 12 ∧
    upMach.get Reg.LAN.H_MIN = 10 ∧ EyeScan.size [] 0 ⟨List.replicate 289 0⟩ = (64, 128) ∧
    EyeScan.size [] 0 ⟨List.replicate 289 65536⟩ = (0, 0) := by decide

/-- The same port with pools in force. -/
def poolMach : Mach := upMach.updLink 3 (fun l => { l with size := upMach.poolSizes 3, nakAt := none })
def aFrame : DataFrame := { vc := 2, shared := false, replay := false, fsn := 0, pktLen := 64, pkt := lkuPkt }

/-- Frames of the same bytes with a CRC that is the stomp CRC, and with one that is neither. -/
def stompRx (body : List Byte) : Rx := { crc := (stompCrc body).toNat }

theorem stompCrc_ne (body : List Byte) : (stompCrc body).toNat ≠ (crc32c body).toNat := by
  unfold stompCrc
  intro h
  have e := BitVec.eq_of_toNat_eq h
  have : (crc32c body ^^^ 4294967295#32).getLsbD 0 = (crc32c body).getLsbD 0 := by rw [e]
  simp at this

theorem stomp_rx {m : Mach} {p : Nat} (body : List Byte) (h : (m.link p).resync = false) :
    m.checkFrame p body false (stompRx body) = .stomp := by
  simp [Mach.checkFrame, stompRx, h, stompCrc_ne]

/-- A frame that ends in an errored codeword is bad. -/
def badRx : Rx := { crc := 0, inLast := true }
def errMach : Mach := poolMach.updLane 12 (fun x => { x with rxErr := true, rxBlocks := [idleBlock] })

theorem wit_data_good : poolMach.receives 3 = true ∧ aFrame.framingError = false ∧
    poolMach.checkFrame 3 aFrame.wire aFrame.framingError (goodRx aFrame.wire) = .good ∧
    poolMach.checkFrame 3 aFrame.wire aFrame.framingError (stompRx aFrame.wire) = .stomp :=
  ⟨by decide, by decide, good_rx _ (by decide), stomp_rx _ (by decide)⟩

theorem wit_data_other : (machIn .run).receives 3 = false ∧
    poolMach.checkFrame 3 aFrame.wire { aFrame with pktLen := 63 }.framingError badRx = .framing ∧
    errMach.checkFrame 3 aFrame.wire false badRx = .bad ∧ errMach.receives 3 = true ∧
    (poolMach.updLink 3 (fun l => { l with resync := true })).checkFrame 3 aFrame.wire false { badRx with before := false } = .discarded := by
  decide

theorem wit_data_in : poolMach.trained 3 = true ∧ (poolMach.link 3).overrun = false ∧
    aFrame.fsn = poolMach.get Reg.LNK.EXPECTED 3 ∧ pool (poolMach.link 3).occupied 2 + 1 ≤ pool (poolMach.link 3).size 2 ∧
    pool (upMach.link 3).size 2 < pool (upMach.link 3).occupied 2 + 1 ∧
    aFrame.fsn ≠ (poolMach.put Reg.LNK.EXPECTED 1 3).get Reg.LNK.EXPECTED 3 ∧
    behind16 0 1 = true ∧ behind16 2 1 = false ∧ (poolMach.link 3).nakAt = none ∧ ((poolMach.nak 3 1).link 3).nakAt ≠ none ∧
    ((poolMach.frameIn 3).hear 3).trained 3 = true ∧ ((machIn .run).hear 3).trained 3 = false ∧
    (poolMach.creditOverrun 3).linkState 3 = 3 := by decide

def aTrain : TrainFrame :=
  { phase := .req, action := .retrain, serial := 5, port := 1, goodLanes := 15, proposed := 0, rates := 7, chosenRate := 0,
    reason := 0, ackFsn := 0, ackValid := false, credits := [], shared := 0, eqTaps := [], poolSize := [], poolShared := 0 }
def aCredit : CreditFrame := { ackFsn := 0, ackValid := true, shared := 0, cells := [] }
def anAudit : AuditFrame := { seq := 0, shared := 0, cells := [], rxMismatch := false }

/-- What a port is as it takes a good or a bad control frame up. -/
theorem hears_of {m : Mach} {p : PortId} (body : List Byte) (h : m.receives p = true) (hr : (m.link p).resync = false) :
    m.hears p body (goodRx body) ((m.frameIn p).pmcReceived p (body.length + 4) false) ∧
    m.garbled p body (stompRx body) ((m.frameIn p).pmcReceived p (body.length + 4) false) :=
  ⟨⟨h, good_rx _ hr, rfl⟩, ⟨h, .inr (stomp_rx _ hr), rfl⟩⟩

theorem wit_control_frames (body : List Byte) :
    poolMach.hears 3 body (goodRx body) ((poolMach.frameIn 3).pmcReceived 3 (body.length + 4) false) ∧
    poolMach.garbled 3 body (stompRx body) ((poolMach.frameIn 3).pmcReceived 3 (body.length + 4) false) ∧
    (machIn .run).missed 3 body (goodRx body) :=
  ⟨(hears_of body (by decide) (by decide)).1, (hears_of body (by decide) (by decide)).2, .inl (by decide)⟩

theorem wit_control_state : ((poolMach.frameIn 3).hear 3).trained 3 = true ∧ ((machIn .run).hear 3).trained 3 = false ∧
    unlistedFrame (leBytes 1 0x77 ++ leBytes 1 1 ++ zeros 30) = some (leBytes 1 0x77 ++ leBytes 1 1 ++ zeros 26) ∧
    unlistedFrame (leBytes 1 0x10 ++ leBytes 1 1 ++ zeros 30) = none ∧
    (∀ k, k < 9 → pool (poolMach.link 3).avail k + (if k = 8 then aCredit.shared else aCredit.cells.getD k 0) ≤ pool (poolMach.link 3).farSize k) ∧
    ((List.range 9).all (fun k => 0 ≤ toSigned 32 (sub32 (if k = 8 then anAudit.shared else anAudit.cells.getD k 0) (pool (poolMach.link 3).rcvdRet k)))) = true ∧
    toSigned 32 (sub32 (({ anAudit with cells := [70] } : AuditFrame).cells.getD 0 0) (pool (poolMach.link 3).rcvdRet 0)) = 70 ∧
    (poolMach.put Reg.LNK.LEAK_LIMIT 9 3).get Reg.LNK.LEAK_LIMIT 3 < 70 ∧
    (poolMach.busyPort 3).isSet Reg.LNK.LOOP_OK 3 = false ∧ (poolMach.busyPort 3).otherNeighbour 3 aTrain = false ∧
    ((poolMach.updLink 3 (fun l => { l with everTrained := true })).busyPort 3).otherNeighbour 3 aTrain = true ∧ aTrain.action ≠ .full ∧
    (poolMach.link 3).train = none ∧ poolMach.linkState 3 = 2 ∧ (poolMach.link 3).pendingAck = none ∧
    behind16 0 (poolMach.get Reg.LNK.UNA 3) = false ∧
    behind16 0 ((poolMach.put Reg.LNK.NEXT_FSN 1 3).get Reg.LNK.NEXT_FSN 3) = true := by decide
theorem wit_serials : ({ aTrain with serial := Config.serial } : TrainFrame).serial = Config.serial ∧
    ({ aTrain with serial := Config.serial + 1 } : TrainFrame).serial ≠ Config.serial := by simp

def aTrainSt : TrainSt :=
  { action := .retrain, requester := true, reason := 0, lanes := 0, sends := 3, atc := 0, acked := false, good := 15 }
def timersMach : Mach := poolMach.updLink 3 (fun l => { l with
  ackDue := some 4, nakAt := some 5, timer := some 6, schedAt := some 7, reinjTotal := 2, train := some aTrainSt })

theorem wit_boundary : (poolMach.dropCtrl 3).linkState 3 = 2 ∧ ((poolMach.dropCtrl 3).link 3).train = none ∧
    (poolMach.ei 3).driversOff = false ∧ poolMach.linkState 3 = 2 ∧ (machIn .run).linkState 3 = 0 ∧
    (poolMach.put Reg.LNK.LINK_STATE 1 3).linkState 3 = 1 ∧
    nextCtrl (((poolMach.queueCtrl 3 .credit).dropCtrl 3).link 3).ctrl = some .credit ∧
    (((poolMach.queueCtrl 3 .credit).dropCtrl 3).link 3).train = none ∧ ((poolMach.dropCtrl 3).link 3).ctrl = [] ∧
    ((poolMach.dropCtrl 3).link 3).schedExit = false ∧
    (((poolMach.updLink 3 (fun l => { l with schedExit := true })).dropCtrl 3).link 3).schedExit = true ∧
    (((poolMach.updLink 3 (fun l => { l with rp := some 0 })).dropCtrl 3).link 3).rp = some 0 := by decide

theorem wit_link_timers : poolMach.linkState 3 = 2 ∧ (machIn .run).linkState 3 ≠ 2 ∧
    (timersMach.link 3).ackDue = some 4 ∧ (timersMach.link 3).freeDue = none ∧ (poolMach.link 3).ackDue = none ∧
    ((poolMach.freeCells 3 2 1).link 3).freeDue.isSome = true ∧ ((poolMach.freeCells 3 2 1).link 3).ackDue = none ∧
    (timersMach.link 3).toReturn.any (fun c => max 1 (timersMach.get Reg.LNK.CREDIT_BATCH 3) ≤ c.2) = false ∧
    ((poolMach.freeCells 3 2 500).link 3).toReturn.any (fun c => max 1 (poolMach.get Reg.LNK.CREDIT_BATCH 3) ≤ c.2) = true ∧
    (timersMach.link 3).nakAt = some 5 ∧ (timersMach.link 3).timer = some 6 ∧ (poolMach.link 3).nakAt = none ∧
    (poolMach.link 3).timer = none ∧ timersMach.isSet Reg.LNK.AUDIT_EN 3 = true ∧
    (timersMach.put Reg.LNK.AUDIT_EN 0 3).isSet Reg.LNK.AUDIT_EN 3 = false ∧ timersMach.passes pf Reg.LNK.AUDIT_NOW 0 = true ∧
    (timersMach.put Reg.LNK.LINK_STATE 3 3).linkState 3 = 3 ∧ (machIn .run).linkState 3 < 2 := by decide

theorem wit_link_actions : (timersMach.link 3).schedAt = some 7 ∧ timersMach.linkState 3 = 2 ∧ (timersMach.ei 3).driversOff = false ∧
    (timersMach.link 3).schedExit = false ∧ ((timersMach.updLink 3 (fun l => { l with schedExit := true })).link 3).schedExit = true ∧
    (poolMach.link 3).schedAt = none ∧ (timersMach.link 3).train = some aTrainSt ∧ aTrainSt.requester = true ∧
    aTrainSt.acked = false ∧ 0 < aTrainSt.sends ∧ 3 ≤ aTrainSt.sends ∧ aTrainSt.action ≠ .full ∧
    0 < (timersMach.link 3).reinjTotal ∧ (timersMach.link 3).reinject = [] ∧ (poolMach.link 3).reinjTotal = 0 := by decide
/-- One packet selected on port 3, which holds credit for it. -/
def offerMach : Mach := (poolMach.updLink 3 (fun l => { l with avail := [(2, 9)] })).updRp 3 (fun x => { x with
  sel := [{ arr := { id := 1, pkt := lkuPkt, from_ := .port 3, vc := 2, shared := false, atc := 0, len := 64 }, hop := .minimal, dim := 0,
            vc := 2, atc := 0 }] })

theorem wit_offer : ((offerMach.dropCtrl 3).offers 3).length = 1 ∧ ((offerMach.dropCtrl 3).link 3).ctrl = [] ∧
    ((offerMach.dropCtrl 3).link 3).rp = none ∧ ((offerMach.dropCtrl 3).link 3).schedExit = false ∧
    ((offerMach.dropCtrl 3).offers 3).all (fun x => !(offerMach.dropCtrl 3).expired 0 x.sel.arr.pkt) = true := by decide

/-- Port 3 enabled in RUN and DOWN; and port 0 UP at x1 of x4, on lane 0. -/
def downMach : Mach := (machIn .run).put Reg.LNK.PORT_EN 1 3
def narrowMach : Mach :=
  ((((machIn .run).put Reg.LNK.LINK_STATE 2 0).put Reg.LNK.ACTIVE 1 0).put Reg.LNK.WIDTH 1 0).put Reg.LNK.TARGET_LANES 3 0

/-- Lanes 0 and 1 of port 3 lock, at every rate. -/
def twoLanes : LanesIn := { locked := 3, skew := [] }

/-- Port 0 waits for lane 1 of a width change to lanes 0 and 1. -/
def addSt : TrainSt :=
  { action := .width, requester := true, reason := 4, lanes := 3, sends := 1, atc := 0, acked := true, alignAt := some 5 }
def addMach : Mach := narrowMach.updLink 0 (fun l => { l with train := some addSt })

theorem wit_training : downMach.mayTrain 3 = true ∧ downMach.linkState 3 ≤ 1 ∧ (downMach.link 3).train = none ∧
    downMach.linkState 3 = 0 ∧ (downMach.put Reg.LNK.PORT_EN 0 3).mayTrain 3 = false ∧ (downMach.startFull 3).vcSum 3 ≤ 8192 ∧
    8192 < ((downMach.put (Reg.LNK.VC_CELLS 0) 8000 3).startFull 3).vcSum 3 ∧
    downMach.lanesWith 3 (downMach.wakeLanes 3 { locked := 0, skew := [] }).2 (fun _ => true) = 0 ∧
    downMach.lanesWith 3 (downMach.wakeLanes 3 twoLanes).2 (fun _ => true) ≠ 0 := by decide

theorem wit_link_writes : narrowMach.passes pf Reg.LNK.RETRAIN 0 = true ∧ narrowMach.linkState 0 = 2 ∧
    downMach.passes pf Reg.LNK.RETRAIN 0 = true ∧ downMach.linkState 0 ≠ 2 ∧ narrowMach.passes pf Reg.LNK.WIDTH_CHANGE 0 = true ∧
    targetOk (narrowMach.get Reg.LNK.TARGET_LANES 0) = true ∧ targetOk 5 = false ∧ narrowMach.isSet Reg.LNK.AUTO_WIDTH_UP 0 = true ∧
    narrowMach.get Reg.LNK.WIDTH 0 < narrowMach.widthMax 0 ∧
    narrowMach.get Reg.LNK.WIDTH 0 < popCount (chooseLanes (narrowMach.widthMax 0) 15) ∧
    (narrowMach.put Reg.LNK.AUTO_WIDTH_UP 0 0).isSet Reg.LNK.AUTO_WIDTH_UP 0 = false := by decide

theorem wit_port_commands : (addMach.link 0).train = some addSt ∧ addMach.adding 0 = true ∧ addMach.lateAdded 0 = [] ∧ addMach.toAdd 0 = [1] ∧
    (2 : BitVec 4).getLsbD (addMach.physOf 0 1 % 4) = true ∧ addMach.isSet Reg.LAN.CW_LOCK (addMach.physOf 0 1) = false ∧
    (addMach.lockAdded 0 2).isSet Reg.LAN.CW_LOCK (addMach.physOf 0 1) = true ∧
    (addMach.toAdd 0).all (bit 1) = false ∧ (addMach.toAdd 0).all (bit 3) = true ∧
    ((((addMach.put Reg.LAN.CW_LOCK 1 1).toAdd 0).filter (fun k => (addMach.put Reg.LAN.CW_LOCK 1 1).isSet Reg.LAN.CW_LOCK
      ((addMach.put Reg.LAN.CW_LOCK 1 1).physOf 0 k))).foldl (fun a k => a + 2 ^ k) 1) = 3 ∧
    (timersMach.link 3).train = some aTrainSt ∧ aTrainSt.alignAt = none ∧ narrowMach.passes pf Reg.LNK.PORT_EN 0 = true ∧
    (downMach.uncontainPort 3).mayTrain 3 = true ∧ (downMach.uncontainPort 3).linkState 3 = 0 ∧ narrowMach.linkState 0 ≠ 5 ∧
    (narrowMach.put Reg.LNK.LINK_STATE 5 0).linkState 0 = 5 ∧
    narrowMach.passes pf Reg.LNK.WIDTH_MAX 0 = true ∧ narrowMach.get Reg.LNK.WIDTH 0 ≤ narrowMach.widthMax 0 ∧
    ((narrowMach.put Reg.LNK.WIDTH 4 0).put Reg.LNK.WIDTH_MAX 1 0).widthMax 0 <
      ((narrowMach.put Reg.LNK.WIDTH 4 0).put Reg.LNK.WIDTH_MAX 1 0).get Reg.LNK.WIDTH 0 ∧
    narrowMach.passes pf Reg.LNK.CNT_CLR 0 = true := by decide

/-- A module of one dimension and four coordinates at DA 0, with port 5 UP and usable towards coordinate 1. -/
def routeMach : Mach :=
  { ((((((((machIn .run).put Reg.RTE.W0 2).put Reg.RTE.S0_M1 3).put Reg.RTE.CFG_OK 1).put Reg.LNK.LINK_STATE 2 5).put
      Reg.LNK.ACTIVE 15 5).put Reg.LNK.WIDTH 4 5).put Reg.RTE.ROUTE_EN 1 5) with
    idle := [(5, { driversOff := false })] }
def anArr (from_ : Ingress) (dst hops : Nat) : Arrival :=
  { id := 7, pkt := { lkuPkt with hdr := { aHdr with kind := 0x20, dst := dst, hops := hops } }, from_ := from_, vc := 0, shared := false
    atc := 0, len := 64 }

/-- The same with ports 5 and 6 mapped as the two members towards coordinate 1. -/
def partnerMach : Mach := ((((((((routeMach.put Reg.RTE.V0 1 1).put Reg.RTE.MEMBER0 5 1).put Reg.RTE.V1 1 1).put Reg.RTE.MEMBER1 6 1).put
    Reg.LNK.LINK_STATE 2 6).put Reg.LNK.ACTIVE 15 6).put Reg.LNK.WIDTH 4 6).put Reg.RTE.ROUTE_EN 1 6).updEi 6
  (fun _ => { driversOff := false })
/-- A packet selected on port 5, on its adaptive VC, that is not yet eligible anywhere else. -/
def selMach : Mach := routeMach.updRp 5 (fun x => { x with
  sel := [{ arr := anArr (.port 5) 16 0, hop := .minimal, dim := 0, vc := 1, atc := 0, escAt := 400 }] })

theorem wit_route : takeFirst (fun (a : Arrival) => a.from_ == .port 5) [anArr (.port 5) 0 0] = some (anArr (.port 5) 0 0, []) ∧
    takeFirst (fun (a : Arrival) => a.from_ == .port 4) [anArr (.port 5) 0 0] = none ∧
    (anArr (.port 5) 0 0).replayOf = none ∧
    routeMach.headerValid (anArr (.port 5) 0 0) = true ∧ routeMach.headerValid { anArr (.port 5) 0 0 with vc := 3 } = false ∧
    routeMach.expired 0 (anArr (.port 5) 0 0).pkt = false ∧ (routeMach.unaligned 0).isEmpty = true ∧
    (routeMach.unaligned 16).isEmpty = false ∧ routeMach.headerValid (anArr (.port 5) 16 0) = true ∧
    routeMach.chooseHop 0 (anArr (.port 5) 16 0).pkt = none ∧ max 8 (routeMach.get Reg.RTE.HOP_MAX) ≤ 200 ∧
    (anArr (.port 5) 16 0).pkt.hdr.hops < max 8 (routeMach.get Reg.RTE.HOP_MAX) ∧
    routeMach.passes pf Reg.RTE.ROUTE_EN 0 = true ∧ routeMach.passes pf Reg.RTE.CNT_CLR 0 = true := by decide

theorem wit_route_age : (routeMach.put Reg.TIM.STATE 1).expired 0
    { (anArr (.port 5) 16 0).pkt with hdr := { aHdr with injTs := 1000000000 } } = true := by decide

theorem wit_route_partner : routeMach.partnerOfPort 4 (anArr (.port 5) 16 0).pkt 0 = none ∧
    (partnerMach.partnerOfPort 6 (anArr (.port 5) 16 0).pkt 1).isSome = true ∧
    (partnerMach.chooseHop 0 (anArr (.port 4) 16 0).pkt).isSome = true := by decide

theorem wit_route_rest : ((selMach.rp 5).sel.find? (fun x => x.arr.id == 7 && x.alsoOn.isNone && x.vc % 2 == 1)).isSome = true ∧
    (selMach.rp 5).sel.find? (fun x => x.arr.id == 8 && x.alsoOn.isNone && x.vc % 2 == 1) = none ∧
    selMach.escapeHop (anArr (.port 5) 16 0).pkt = none ∧ (partnerMach.escapeHop (anArr (.port 4) 16 0).pkt).isSome = true ∧
    (routeMach.route (anArr (.port 5) 0 0)).rte.local_ = [(0, [{ anArr (.port 5) 0 0 with path := [] }])] ∧
    Tbl.get routeMach.rte.local_ 0 [] = [] ∧ routeMach.inUse 4 = false ∧ partnerMach.inUse 5 = true ∧
    (routeMach.put Reg.RTE.CABLE_ERR 1 0).isSet Reg.RTE.CABLE_ERR 0 = true ∧ routeMach.isSet Reg.RTE.CABLE_ERR 0 = false := by decide +kernel

/-- The module with port 5 mapped towards coordinate 1 and in CONFIG, where the check may run. -/
def mapMach : Mach := (routeMach.put Reg.RTE.V0 1 1).put Reg.RTE.MEMBER0 5 1
def aBeacon : Beacon := { da := 1, seq := 0, dims := 1, port := 5, stamp := 0, levels := [] }

theorem wit_beacon_in (body : List Byte) : mapMach.hears 5 body (goodRx body) ((mapMach.frameIn 5).pmcReceived 5 (body.length + 4) false) ∧
    mapMach.garbled 5 body (stompRx body) ((mapMach.frameIn 5).pmcReceived 5 (body.length + 4) false) ∧
    mapMach.missed 4 body (goodRx body) :=
  ⟨(hears_of body (by decide) (by decide)).1, (hears_of body (by decide) (by decide)).2, .inl (by decide)⟩

theorem wit_beacon : routeMach.isSet Reg.RTE.FF_EN = true ∧ (routeMach.put Reg.RTE.FF_EN 0).isSet Reg.RTE.FF_EN = false ∧
    routeMach.trained 5 = true ∧ (routeMach.ei 5).driversOff = false ∧ mapMach.inUse 5 = true ∧
    ((mapMach.put Reg.RTE.CABLE_ERR 1 5)).inUse 5 = false ∧
    mapMach.entryOf 5 = some 1 ∧ mapMach.expectedDa 1 = 1 ∧ mapMach.isSet Reg.RTE.CABLE_ERR 5 = false ∧
    (mapMach.put Reg.RTE.CABLE_ERR 1 5).isSet Reg.RTE.CABLE_ERR 5 = true ∧ (mapMach.rp 5).trainedSinceErr = false ∧
    ((mapMach.updRp 5 (fun x => { x with trainedSinceErr := true })).rp 5).trainedSinceErr = true ∧
    mapMach.usable 5 = true ∧ mapMach.isSet Reg.RTE.STALE 5 = false ∧ mapMach.beaconAge 5 = none ∧ mapMach.entryOf 6 = none ∧
    mapMach.usable 4 = false ∧ mapMach.passes pf Reg.RTE.CFG_CHECK 0 = true := by decide
theorem wit_cfg_err : ((State.reset.m.put Reg.RTE.W0 0).put Reg.RTE.W1 0).cfgErr = 1 := by decide
theorem wit_cfg_ok : ((((State.reset.m.put Reg.RTE.W0 2).put Reg.RTE.S0_M1 3).put Reg.RTE.V0 1 1).put Reg.RTE.MEMBER0 5 1).cfgErr = 0 := by
  decide +kernel

/-- A work ring of slot 0's PF, and the block in RUN with it as ring 5 and a completion ring 1 of the same function. -/
def aRing : WorkRing :=
  { slot := 0, func := 0, base := 4096, sizeLog2 := 8, txe := 0, super_ := true, wbEn := false, wbAddr := 0, pd := 3, page := 0
    schq := 0, defCr := 1 }
def aCr : ComplRing :=
  { slot := 0, func := 0, base := 8192, sizeLog2 := 4, twoWrite := false, polled := false, vector := 0, page := 0, modTime := 0
    modCount := 0 }
def ringMach : Mach :=
  { (machIn .run) with hif := { (machIn .run).hif with
      wrs := [(5, aRing)], crs := [(1, aCr)], funcs := [(0, { bme := true })] } }
def anEntry (op : Nat) (body : EntryBody) : Entry :=
  { opcode := op, flags := 1, len := 1, own := true, workId := 7, cr := 1, flow := 0, arg := 0, body := body, inline := [], clean := true }

theorem wit_entries : (ringMach.takeWork 5 (anEntry 0 .none)).isSome = true ∧ ringMach.opHeld 0 = false ∧
    (List.all [0x10, 0x11, 0x12, 0x20, 0x21, 0x22, 0x30, 0x40, 0x41, 0x42, 0x50, 0x51] (fun op => !ringMach.opHeld op &&
      (ringMach.takeWork 5 (anEntry op .none)).isSome && (entryBad (anEntry op .none)).isNone)) = true ∧
    ringMach.enginesRun = true ∧ entryBad (anEntry 0 .none) = none ∧ entryBad { anEntry 0 .none with clean := false } = some 3 ∧
    entryBad { anEntry 0x13 .none with arg := 0x200 } = none ∧ ringMach.opHeld 0x13 = false ∧
    (ringMach.takeWork 5 (anEntry 0x13 .none)).isSome = true ∧ 10 < 0x20B % 256 ∧ ringMach.eidValid 0 = true ∧
    ringMach.eidValid 1048576 = false ∧ (recvOf 5 0 aRing (anEntry 0x21 (.recv 0 0 0 0 0 0))).isSome = true ∧
    ringMach.wr 5 = some aRing ∧ ringMach.mat.posted = [] ∧ ringMach.heldBy 0 0 0 0 .held = none ∧ ringMach.heldBy 0 0 0 0 .lost = none ∧
    aRing.super_ = true ∧ ringMach.cr 1 = some aCr ∧ ringMach.mayScan aRing = true ∧ (anEntry 1 .none).own = aRing.phase ∧
    aRing.pos + (anEntry 1 .none).len ≤ 2 ^ aRing.sizeLog2 := by decide
theorem wit_entries_kept : ringMach.keeps 5 (anEntry 0x10 .none) 0x00 ∧ ringMach.refuses 6 (anEntry 0x10 .none) 0x10 ∧
    ringMach.wr 6 = none ∧ lenError aRing { anEntry 0x10 .none with len := 17 } ≠ none ∧
    ringMach.takes aRing { anEntry 0x10 .none with len := 17 } = true ∧
    ringMach.hif.work.any (fun x => x.ring == 5 && !x.started) = false ∧ lenError aRing (anEntry 0x10 .none) = none :=
  ⟨.inl (by decide), ⟨by decide, by decide, by decide, by decide, by decide⟩, by decide, by decide, by decide, by decide, by decide⟩

/-- A lock that the function holds, and a receive that is posted. -/
def heldMach : Mach :=
  { ringMach with
    lka := { ringMach.lka with held := [{ q := 0, tag := 1, slot := 0, fn := 0, da := 0, lock := 9, st := .held },
      { q := 0, tag := 2, slot := 0, fn := 0, da := 0, lock := 8, st := .lost }] }
    mat := { ringMach.mat with
      domains := [(2, { slot := 0, func := 0, commBits := 16, active := true, nextPost := 0 })]
      posted := [{ ring := 5, seq := 0, workId := 7, order := 0, domain := 2, src := none, bits := 0, ignore := 0, addr := 0, cap := 0, pd := 3, func := 0 }] } }

theorem wit_held : (heldMach.heldBy 0 0 0 9 .held).isSome = true ∧ heldMach.heldBy 0 0 0 8 .held = none ∧
    (heldMach.heldBy 0 0 0 8 .lost).isSome = true ∧ ({ aRing with super_ := false } : WorkRing).super_ = false ∧
    (heldMach.mat.posted.find? (fun r => r.workId == 7 && r.ring == 5 &&
      (heldMach.domain r.domain).map (fun d => (d.slot, d.func)) == some (aRing.slot, aRing.func))).isSome = true := by decide

/-- Outstanding reads of the three kinds, beside a completion ring with a completion to signal. -/
def aRead (id : Nat) (walk : Option Nat) (p : Purpose) : HostRead :=
  { id := id, op := { slot := 0, func := 0, pd := 3, va := 0, len := 64, kind := 0, data := none, purpose := p }, segs := [], atc := 0, walk := walk, sent := true }
def readMach : Mach :=
  { ringMach with hif := { ringMach.hif with
      reads := [aRead 1 none (.ringHeader 5 0 0), aRead 2 none (.payload 0 0 0), aRead 3 (some 4) (.payload 0 0 0), aRead 6 none (.ringBody 5 0 0 [])],
      crs := [(1, { aCr with unsig := 2, timer := some 9 })] } }

theorem wit_doorbells : (readMach.put Reg.HIF.BIFURCATED 0 0).slotPresent 1 = false ∧ readMach.slotPresent 0 = true ∧ readMach.wrOfPage 0 0 9 = none ∧
    readMach.crOfPage 0 0 9 = none ∧ readMach.wrOfPage 0 0 0 = some 5 ∧ readMach.crOfPage 0 0 0 = some 1 ∧
    headCount aCr 0 = some 0 ∧ headCount aCr 1 = none ∧ ((readMach.wakeQuad 0).cr 1).isSome = true ∧ aCr.armed = true ∧
    ({ aCr with unsig := 2 } : ComplRing).unsig = 2 ∧ max 1 aCr.modCount ≤ 2 ∧ ({ aCr with modCount := 1 } : ComplRing).modCount = 1 ∧
    (readMach.hif.reads.find? (fun r => r.id == 1 && r.sent && r.walk.isNone)).isSome = true ∧
    (readMach.hif.reads.find? (fun r => r.id == 2 && r.sent && r.walk.isNone && !ringPurpose r.op.purpose)).isSome = true ∧
    readMach.hif.reads.find? (fun r => r.id == 9 && r.sent && r.walk.isNone && !ringPurpose r.op.purpose) = none ∧
    (readMach.hif.reads.find? (fun r => r.id == 3 && r.sent)).isSome = true ∧ readMach.wr 5 = some aRing ∧ aRing.paused = false ∧
    (({ aRing with paused := true } : WorkRing).paused = true) ∧ readMach.inflight 5 < 4096 ∧
    ((readMach.cr 1).bind (·.timer)) = some 9 ∧ 0 < vectorsOf 0 ∧ (readMach.func 0 0).pba.contains 0 = false ∧
    ((readMach.updFunc 0 0 (fun f => { f with pba := [0] })).func 0 0).pba.contains 0 = true := by decide

/-- Ring 0 is the one both index registers name at reset; ring 0 here is a work ring and a completion ring of slot 0. -/
def ring0Mach : Mach := { ringMach with hif := { ringMach.hif with wrs := [(0, aRing)], crs := [(0, aCr)] } }
/-- A free pair of rings whose staging fields are good: 16 entries, base 0, completion ring 1. -/
def stageMach : Mach := (((ringMach.put Reg.HIF.SIZE_LOG2 4).put Reg.HIF.CR_SIZE_LOG2 4).put Reg.HIF.WR_DB_PAGE 9).put Reg.HIF.CR_DB_PAGE 9

theorem wit_rings : ring0Mach.passes pf Reg.HIF.WR_CMD 0 = true ∧ ring0Mach.passes pf Reg.HIF.CR_CMD 0 = true ∧
    (ring0Mach.acted pf Reg.HIF.WR_CMD 1).wrCreateErr 0 0 = 5 ∧ (ring0Mach.acted pf Reg.HIF.CR_CMD 1).crCreateErr 0 0 = 5 ∧
    ((stageMach.put Reg.HIF.WR_DEF_CR 1).acted pf Reg.HIF.WR_CMD 1).wrCreateErr 0 0 = 0 ∧
    (stageMach.acted pf Reg.HIF.CR_CMD 1).crCreateErr 0 0 = 0 ∧
    (stageMach.acted pf Reg.HIF.WR_CMD 2).wr 0 = none ∧ (stageMach.acted pf Reg.HIF.WR_CMD 3).wr 0 = none ∧
    (ring0Mach.acted pf Reg.HIF.WR_CMD 2).wr 0 = some aRing ∧ (ring0Mach.acted pf Reg.HIF.WR_CMD 3).wr 0 = some aRing ∧
    aRing.slot = pf.slotOf ∧ aRing.slot ≠ (Requester.pf0 2).slotOf ∧
    ring0Mach.passes (.pf0 2) Reg.HIF.WR_CMD 0 = true ∧ ring0Mach.passes (.pf0 2) Reg.HIF.CR_CMD 0 = true ∧ aCr.slot ≠ (Requester.pf0 2).slotOf ∧ (stageMach.acted pf Reg.HIF.CR_CMD 2).cr 0 = none := by decide
theorem wit_rings_2 : (stageMach.acted pf Reg.HIF.CR_CMD 3).cr 0 = none ∧ (stageMach.acted pf Reg.HIF.CR_CMD 4).cr 0 = none ∧
    (ring0Mach.acted pf Reg.HIF.CR_CMD 2).cr 0 = some aCr ∧ (ring0Mach.acted pf Reg.HIF.CR_CMD 3).cr 0 = some aCr ∧
    (ring0Mach.acted pf Reg.HIF.CR_CMD 4).cr 0 = some aCr ∧ aCr.slot = pf.slotOf ∧
    (ring0Mach.put Reg.HIF.CR_ERR 0 0).isSet Reg.HIF.POLLED 0 = false ∧
    vectorsOf 1 ≤ (ring0Mach.put Reg.HIF.VECTOR 64 0).get Reg.HIF.VECTOR 0 ∧
    (ring0Mach.put Reg.HIF.CR_ERR 0 0).get Reg.HIF.VECTOR 0 < vectorsOf aCr.func ∧ ({ aRing with st := 2 } : WorkRing).st = 2 ∧
    ring0Mach.inflight 0 = 0 ∧ ring0Mach.heldOf 0 = false ∧ aRing.st ≠ 2 ∧ ring0Mach.passes pf Reg.HIF.CNT_CLR 0 = true := by decide

theorem wit_functions_late : (ringMach.updFunc 0 0 (fun f => { f with late := true })).awake 0 0 = true ∧
    ((ringMach.updFunc 0 0 (fun f => { f with late := true })).func 0 0).late = true ∧
    ((ringMach.updFunc 0 0 (fun f => { f with late := true })).crsOf 0 0).any (fun n =>
      ((ringMach.updFunc 0 0 (fun f => { f with late := true })).cr n).any (fun c => c.late && c.xwait)) = false ∧
    ((ringMach.updCr 1 (fun c => { c with late := true, xwait := true })).crsOf 0 0).any (fun n =>
      ((ringMach.updCr 1 (fun c => { c with late := true, xwait := true })).cr n).any (fun c => c.late && c.xwait)) = true ∧
    (ringMach.put Reg.HIF.BIFURCATED 0 0).isSet Reg.HIF.BIFURCATED 0 = false := by decide

theorem wit_functions : ringMach.slotPresent 0 = true ∧ (ringMach.put Reg.HIF.BIFURCATED 0 0).slotPresent 1 = false ∧
    (ringMach.func 0 0).bme = true ∧ (ringMach.func 0 1).bme = false ∧ (ringMach.func 0 0).d3 = false ∧
    ((ringMach.updFunc 0 0 (fun f => { f with d3 := true })).func 0 0).d3 = true ∧ ringMach.awake 0 0 = true ∧ ringMach.awake 0 1 = false ∧
    Tbl.get ringMach.hif.perst 0 false = false ∧ Tbl.get [(0, true)] 0 false = true ∧ ringMach.isSet Reg.HIF.BIFURCATED 0 = true ∧
    (5 < 7 ∧ 7 ≤ 7) ∧ (ringMach.put Reg.HIF.SPEED_H0 7 0).get Reg.HIF.SPEED_H0 0 ≠ 0 ∧ ringMach.get Reg.HIF.SPEED_H0 0 = 0 ∧
    ringMach.get Reg.HIF.SPEED_H1 0 = 0 ∧ ringMach.tim.osc = none ∧ (1 : Fin 256) ≠ 0 := by decide

/-- Slot 0 with PD 0 loaded under VMID 0, an invalidation that waits for nothing, and an audit walk with its outcome. -/
def aTrans : Trans :=
  { pd := 0, va := 0, size := 4096, pa := 4096, ipa := 0, r1 := true, w1 := true, u1 := true, s1 := false, x1 := false, r2 := true
    w2 := true, dev1 := false, dev2 := false, lvl1 := 2, lvl2 := 2, s1On := false, super_ := false, wxExcl := false }
def aPd : Pd := { slot := 0, s1En := false, s1Root := 0, vmid := 0, func := 0, super_ := false, wxExcl := false }
def aVmid : Vmid := { slot := 0, s2En := false, s2Root := 0 }
def anInval : Inval :=
  { id := 5, slot := 0, fn := 0, scope := 0, target := 0, addr := 0, pages := 1, walks := [], reads := [], implicit := false }
def aWalk (id : Nat) : Walk :=
  { id := id, quad := 0, pdNum := 0, pd := aPd, vm := aVmid, va := 0, kind := 2, atc := .stage1 0, table := 0, ipa := 0, leaf1 := none
    waiters := [] }
def xltMach : Mach :=
  { readMach with xlt := { readMach.xlt with
      pds := [(0, aPd)], vmids := [(0, aVmid)], invs := [(5, anInval)], cache := [(0, [(0, aTrans)])],
      walks := [aWalk 4, { aWalk 8 with audit := some aTrans, result := some (some aTrans, none) }] } }

theorem wit_translation : xltMach.passes pf Reg.XLT.PD_CMD 0 = true ∧ xltMach.passes pf Reg.XLT.VMID_CMD 0 = true ∧
    xltMach.passes pf Reg.XLT.INV_GO 0 = true ∧ xltMach.passes pf Reg.XLT.CNT_CLR 0 = true ∧
    (xltMach.acted pf Reg.XLT.PD_CMD 1).pdLoadErr 0 0 = 0 ∧ (xltMach.acted pf Reg.XLT.PD_CMD 1).pdLoadErr 2 0 = 4 ∧
    (xltMach.acted pf Reg.XLT.PD_CMD 2).pdErr 0 0 = 0 ∧ (xltMach.acted pf Reg.XLT.PD_CMD 2).pdErr 2 0 = 4 ∧
    Tbl.find (readMach.acted pf Reg.XLT.VMID_CMD 1).xlt.vmids 0 = none ∧
    readMach.get Reg.XLT.S2_ROOT_LO 0 % 4096 = 0 ∧ (readMach.put Reg.XLT.S2_ROOT_LO 8 0).get Reg.XLT.S2_ROOT_LO 0 % 4096 ≠ 0 ∧
    Tbl.find (xltMach.acted pf Reg.XLT.VMID_CMD 2).xlt.vmids 0 = some aVmid ∧ aVmid.slot = pf.slotOf ∧ aVmid.slot ≠ (Requester.pf0 2).slotOf := by
  decide
theorem wit_translation_2 : xltMach.xlt.pds.vals.any (fun p => p.vmid == 0) = true ∧ xltMach.xlt.pds.vals.any (fun p => p.vmid == 9) = false ∧
    xltMach.invErr 0 0 0 0 = 1 ∧ xltMach.invErr 0 1 0 0 = 0 ∧ Tbl.find xltMach.xlt.invs 5 = some anInval ∧ xltMach.invEnded anInval = true ∧
    xltMach.invEnded { anInval with walks := [4] } = false ∧ xltMach.hif.reads.find? (fun r => r.id == 3 && r.sent) = some (aRead 3 (some 4) (.payload 0 0 0)) ∧
    xltMach.xlt.walks.find? (fun w => w.id == 4) = some (aWalk 4) ∧ xltMach.get Reg.XLT.AUDIT_PERIOD ≠ 0 ∧
    (xltMach.put Reg.XLT.AUDIT_PERIOD 0).get Reg.XLT.AUDIT_PERIOD = 0 ∧
    (xltMach.xlt.walks.find? (fun w => w.id == 8 && w.audit.isSome && w.result.isSome)).isSome = true ∧
    (Tbl.get xltMach.xlt.cache 0 []).any (fun c => c.2 == aTrans) = true ∧ (Tbl.get xltMach.xlt.cache 1 []).any (fun c => c.2 == aTrans) = false ∧
    auditDiffers aTrans (some aTrans, none) = false ∧ auditDiffers aTrans (none, none) = true := by decide

/-- Packets of the two instances of a direction to slot 0, and the block with a window, a context and a GET. -/
def aRsx (psn msn len : Nat) (op : RsxOp) : RsxHdr :=
  { opn := true, ackReq := true, retx := false, poison := false, epoch := 3, psn := psn, msn := msn, totalLen := len, offset := 0
    pktCount := 1, openTs := 7, op := op }
def anRsx (kind : Nat) (h : RsxHdr) (data : List Byte) : Packet :=
  { hdr := { aHdr with kind := kind, src := 33, payLen := data.length, injTs := 5 }, body := .rsx h, payload := data }
def aWindow : Window :=
  { slot := 0, pd := 0, func := 0, base := 4096, len := 64, rd := true, wr := true, atm := true, valid := true, peer := none }
def anRx : RxHalf := { inst := 1, epoch := 3, openTs := 7, lastTs := 2 }
def aTx : TxHalf := { epoch := 3, openTs := 7, cwnd := 4160, owdAt := 0, nextPsn := 2, una := 0 }
def cxnMach : Mach :=
  { xltMach with
    cxn := { xltMach.cxn with
      windows := [(9, aWindow), (10, { aWindow with valid := false })]
      gets := [{ uid := 77, cx := 33, msn := some 4, ring := 5, seq := 0, pd := 0, func := 0, addr := 4096, total := 8 }]
      ctxs := [(33, { slot := 0, peer := 33, tx := some aTx, rx := some anRx, lastAct := 0 })] } }
def writePkt : Packet := anRsx 1 (aRsx 0 0 1 (.window 9 0)) [0x5A]

theorem wit_instance : cxnMach.liveRx 33 = some anRx ∧ xltMach.liveRx 33 = none ∧ pktCx writePkt = 33 ∧ pktSlot writePkt = 0 ∧
    (xltMach.getCtx 0 33).2 = true ∧ ahead32 5 2 = true ∧ ahead32 5 9 = false ∧ behind32 4294967295 anRx.epsn = true ∧
    sub32 2048 anRx.epsn = 2048 ∧ sub32 2047 anRx.epsn < 2048 ∧ Tbl.find anRx.bits 0 = none ∧
    cxnMach.target writePkt (aRsx 0 0 1 (.window 9 0)) = some (0, 0) ∧ cxnMach.target writePkt (aRsx 0 0 1 (.window 10 0)) = none ∧
    (cxnMach.func 0 0).barred = false ∧ cxnMach.awake 0 0 = true ∧ xltMach.awake 0 1 = false ∧
    cxnMach.windowGood writePkt (aRsx 0 0 64 (.window 9 0)) 9 0 = true ∧ cxnMach.windowGood writePkt (aRsx 0 0 65 (.window 9 0)) 9 0 = false ∧
    cxnMach.slotPresent 0 = true ∧ (ringMach.put Reg.HIF.BIFURCATED 0 0).slotPresent 1 = false ∧ cxnMach.netModes = true ∧ writePkt.hdr.dst / 16 = cxnMach.ownDa ∧
    (cxnMach.delivered writePkt).isSome = true ∧ writePkt ∉ cxnMach.rte.inbox ∧
    (cxnMach.takeIn { writePkt with hdr := { writePkt.hdr with injTs := 1 } } { aRsx 0 0 1 (.window 9 0) with openTs := 8 }).2 = false := by
  decide

theorem wit_admitted : (cxnMach.admitted (anRsx 1 (aRsx 0 0 2 (.window 9 0)) [0]) (aRsx 0 0 2 (.window 9 0))).any (fun c => c.2.1.mat.isNone) = true ∧
    pktSound (anRsx 1 (aRsx 0 0 2 (.window 9 0)) [0]) (aRsx 0 0 2 (.window 9 0)) = false ∧ (cxnMach.takeIn writePkt (aRsx 0 0 1 (.window 9 0))).2 = true ∧
    (machIn .lockout).netModes = false ∧ cxnMach.ownDa ≠ 4 := by decide +kernel

/-- What an accepted packet of one of these kinds meets there. -/
def acceptedIs (k : Packet) (h : RsxHdr) (p : Mach → RxMsg → Bool → Bool) : Bool :=
  match cxnMach.accepted k h with | some (v, x, f) => p v x f | none => false

theorem wit_write : acceptedIs writePkt (aRsx 0 0 1 (.window 9 0)) (fun v _ f =>
    f && (v.validate writePkt (aRsx 0 0 1 (.window 9 0)) f).2.isSome) = true := by decide +kernel
theorem wit_write_barred : acceptedIs (anRsx 1 (aRsx 0 0 1 (.window 10 0)) [0]) (aRsx 0 0 1 (.window 10 0)) (fun v _ f =>
    (v.validate (anRsx 1 (aRsx 0 0 1 (.window 10 0)) [0]) (aRsx 0 0 1 (.window 10 0)) f).2.isNone) = true := by decide
theorem wit_write_flag : acceptedIs (anRsx 2 (aRsx 0 0 8 (.window 9 0)) (zeros 8)) (aRsx 0 0 8 (.window 9 0)) (fun v _ f =>
    (v.validate (anRsx 2 (aRsx 0 0 8 (.window 9 0)) (zeros 8)) (aRsx 0 0 8 (.window 9 0)) f).2.isSome &&
    (v.rxOf 33).any (fun r => r.finMsn == 0 && r.finMsn != 1)) = true := by decide +kernel
theorem wit_read_req : acceptedIs (anRsx 3 (aRsx 0 0 8 (.window 9 0)) []) (aRsx 0 0 8 (.window 9 0)) (fun v _ _ =>
    (v.needTx 0 33).2) = true := by decide +kernel
theorem wit_read_rsp : acceptedIs (anRsx 4 (aRsx 0 0 1 (.readRsp 4)) [0]) (aRsx 0 0 1 (.readRsp 4)) (fun v _ _ =>
    (v.getOf 33 4).isSome && (v.getOf 33 5).isNone) = true := by decide +kernel
theorem wit_result : acceptedIs (anRsx 8 (aRsx 0 0 0 (.result 4 1 0 1)) []) (aRsx 0 0 0 (.result 4 1 0 1)) (fun v _ _ =>
    ((v.txOf 33).bind (fun t => t.byMsn 4)).isNone) = true := by decide

def anAnswer (kind : Nat) (op : RsxOp) : Packet := anRsx kind (aRsx 0 0 0 op) []
/-- A context whose timers run and whose RX half has a hole. -/
def timedMach : Mach :=
  { cxnMach with cxn := { cxnMach.cxn with ctxs := [(33, { slot := 0, peer := 33, lastAct := 0, tx := some { aTx with timer := some 9, rnrUntil := [(9, 0)], rnrHeld := [(0, 5)] }, rx := some { anRx with bits := [(1, 0)], ackOld := some 5, ackDone := some 6 } })] } }

theorem wit_answers : (cxnMach.delivered (anAnswer 5 (.ack 0 0 0))).bind (fun u => u.txOf 33) = some aTx ∧ aTx.epoch = 3 ∧ aTx.openTs = 7 ∧
    behind32 2 aTx.nextPsn = false ∧ behind32 4294967295 aTx.una = true ∧ behind32 0 aTx.una = false ∧ behind32 1 aTx.nextPsn = true ∧
    aTx.outstanding 1 = true ∧ aTx.outstanding 2 = false ∧ aTx.rounds + 1 ≤ cxnMach.retryMax ∧
    cxnMach.retryMax < { aTx with rounds := 300 }.rounds + 1 ∧ cxnMach.outlived aTx = [] ∧ aTx.una ≠ aTx.nextPsn ∧
    (timedMach.txOf 33).any (fun t => t.timer.isSome && !t.rnrUntil.isEmpty && t.heldLongest.isSome) = true ∧
    aTx.timer = none ∧ aTx.rnrUntil = [] ∧ aTx.heldLongest = none ∧ xltMach.txOf 33 = none ∧ xltMach.rxOf 33 = none ∧
    anRx.ackOld = none ∧ anRx.ackDone = none ∧ anRx.aboveHole = none ∧ aTx.epoch ≠ 4 ∧
    (timedMach.rxOf 33).any (fun r => r.ackOld.isSome && r.ackDone.isSome && r.aboveHole.isSome && r.nakFor != some r.epsn) = true := by
  decide

theorem wit_windows : cxnMach.passes pf Reg.CXN.WIN_CMD 9 = false ∧ cxnMach.passes pf Reg.CXN.WIN_CMD 0 = true ∧
    (cxnMach.put Reg.CXN.WIN_IDX 9 0).passes pf Reg.CXN.WIN_CMD 9 = true ∧ (cxnMach.put Reg.CXN.WIN_IDX 10 0).passes pf Reg.CXN.WIN_CMD 10 = true ∧
    cxnMach.winErr 0 9 = 3 ∧ cxnMach.winErr 2 9 = 4 ∧ cxnMach.winErr 0 0 = 1 ∧ (cxnMach.put Reg.CXN.WIN_LEN_LO 8 0).winErr 0 0 = 0 ∧
    (cxnMach.put Reg.CXN.WIN_LEN_LO 8 0).winErr 2 0 = 2 ∧ ((cxnMach.put Reg.CXN.WIN_LEN_LO 8 0).put Reg.CXN.WIN_PD 3 0).winErr 0 0 = 2 ∧
    cxnMach.passes pf Reg.CXN.CTX_LOOKUP 0 = true ∧ cxKey 0 ((cxnMach.put Reg.CXN.CTX_PEER 33 0).get Reg.CXN.CTX_PEER 0) = 33 ∧
    (cxnMach.ctx 33).any (fun c => !cxnMach.ctxExpired 33 c) = true ∧ cxnMach.ctx 0 = none ∧ cxnMach.passes pf Reg.CXN.CNT_CLR 0 = true := by
  decide

/-- Messages of matching of a domain with one posted receive: one unexpected, one held, one bound. -/
def aRecv : Recv :=
  { ring := 5, seq := 0, workId := 7, order := 0, domain := 2, src := none, bits := 0, ignore := 0, addr := 4096, cap := 8, pd := 0
    func := 0 }
def aMat (id : Nat) (st : MatState) : MatMsg :=
  { id := id, cx := 33, inst := 1, msn := id, psn0 := 0, count := 1, src := 33, domain := 2, bits := 0, orderTs := 9, total := 4
    rts := false, sendLen := 0, st := st }
def aDomain : Domain := { slot := 0, func := 0, commBits := 16, active := true, nextPost := 1 }
def matMach : Mach :=
  { cxnMach with mat := { cxnMach.mat with
      domains := [(2, aDomain)], posted := [aRecv], heldRecv := [{ aRecv with seq := 1 }],
      msgs := [aMat 0 .held, aMat 50 .unexpected, { aMat 60 (.bound aRecv) with rts := true, pullMsn := some 6 }]
      sends := [{ uid := 90, cx := 33, msn := some 3, ring := 5, seq := 0, pd := 0, func := 0, addr := 4096, len := 8 }] } }

theorem wit_match : aRecv.ignore < 2 ^ 64 ∧ (16 : Nat) ≤ 32 ∧ ignoreMask 16 (2 ^ 64 - 1) = 2 ^ 48 - 1 ∧
    (chooseUnexpected (matMach.unexpectedFor aRecv)).isSome = true ∧ aRecv.matches (aMat 50 .unexpected) = true ∧
    ({ aRecv with src := some 33 } : Recv).exact = true ∧ ({ aRecv with src := some 33 } : Recv).matches (aMat 50 .unexpected) = true ∧
    (∀ r ∈ matMach.mat.posted, r.bits < 2 ^ 64) ∧ matMach.mat.posted.Pairwise (fun a b => a.domain = b.domain → a.order < b.order) ∧
    matMach.findPosted (aMat 0 .held) = some aRecv := by decide

/-- What an accepted two-sided packet meets there. -/
def matIs (k : Packet) (h : RsxHdr) (p : Mach → RxMsg → Bool → Bool) : Bool :=
  match matMach.accepted k h with | some (v, x, f) => p v x f | none => false
def eagerHdr : RsxHdr := aRsx 0 1 1 (.match_ 2 0 0 0 0)
def eagerPkt : Packet := anRsx 9 eagerHdr [0x5A]

def pullHdr (req : Nat) (abort : Bool) : RsxHdr := aRsx 0 1 0 (.pullReq req 8 abort)
def pullPkt (req : Nat) (abort : Bool) : Packet := anRsx 11 (pullHdr req abort) []
/-- The same packet with POISON, and matching with message 60 in a given state. -/
def poisoned (h : RsxHdr) : RsxHdr := { h with poison := true }
/-- What EAGER, and PULL_RSP for request 6, meet once their message is in a given state. -/
def entered (v : Mach) (f : Bool) : Mach := if f then v.enterMat eagerPkt eagerHdr else v

theorem wit_eager : matIs eagerPkt eagerHdr (fun v x f => x.fault.isNone && ((entered v f).matOf 33 1).any (fun y => y.st == .held)) = true ∧
    matIs (anRsx 9 (poisoned eagerHdr) [0x5A]) (poisoned eagerHdr) (fun _ _ _ => true) = true ∧
    (match ({ matMach with mat := { matMach.mat with msgs := [], domains := matMach.mat.domains } } : Mach).accepted
        (anRsx 9 (aRsx 0 0 1 (.match_ 2 0 0 0 0)) [0x5A]) (aRsx 0 0 1 (.match_ 2 0 0 0 0)) with
      | some (v, _, f) => f && ((v.enterMat (anRsx 9 (aRsx 0 0 1 (.match_ 2 0 0 0 0)) [0x5A]) (aRsx 0 0 1 (.match_ 2 0 0 0 0))).matOf 33 0).any
          (fun y => match y.st with | .bound _ => true | _ => false)
      | none => false) = true := by decide +kernel

theorem wit_two_sided : matIs (anRsx 10 (aRsx 0 0 8 (.match_ 2 0 0 0 9000)) (zeros 8)) (aRsx 0 0 8 (.match_ 2 0 0 0 9000)) (fun _ _ f => f) = true ∧
    matIs (anRsx 10 (poisoned (aRsx 0 0 8 (.match_ 2 0 0 0 9000))) (zeros 8)) (poisoned (aRsx 0 0 8 (.match_ 2 0 0 0 9000))) (fun _ _ _ => true) = true ∧
    matIs (pullPkt 3 false) (pullHdr 3 false) (fun v _ _ => (v.mat.sends.find? (fun (p : PendSend) => p.cx == 33 && p.msn == some 3)).isSome) = true ∧
    matIs (pullPkt 3 true) (pullHdr 3 true) (fun v _ _ => (v.mat.sends.find? (fun (p : PendSend) => p.cx == 33 && p.msn == some 3)).isSome) = true ∧
    matIs (pullPkt 4 false) (pullHdr 4 false) (fun v _ _ => (v.mat.sends.find? (fun (p : PendSend) => p.cx == 33 && p.msn == some 4)).isNone) = true ∧
    matIs (pullPkt 4 true) (pullHdr 4 true) (fun _ _ _ => true) = true ∧
    matIs (anRsx 11 (poisoned (pullHdr 3 false)) []) (poisoned (pullHdr 3 false)) (fun _ _ _ => true) = true ∧
    matIs (anRsx 12 (aRsx 0 1 1 (.pullRsp 6)) [1]) (aRsx 0 1 1 (.pullRsp 6)) (fun v _ _ =>
      (v.pullOf 33 7).isNone && (v.pullOf 33 6).any (fun y => y.st == .bound aRecv)) = true ∧
    matIs (anRsx 12 (poisoned (aRsx 0 1 1 (.pullRsp 6))) [1]) (poisoned (aRsx 0 1 1 (.pullRsp 6))) (fun _ _ _ => true) = true := by decide +kernel

theorem wit_ready : (matMach.matMsg 0).isSome = true ∧ (matMach.findPosted (aMat 0 .held)).isSome = true ∧
    (cxnMach.findPosted (aMat 0 .held)).isNone = true ∧ (matMach.rxOf 33).any (fun r => r.passMsn == 0) = true ∧
    (xltMach.passOrder 33).rxOf 33 = none ∧ ((matMach.passOrder 33).rxOf 33).any (fun r => r.passMsn == 0 && r.inst == 1) = true ∧
    ((matMach.passOrder 33).heldAt 33 1 0).isSome = true ∧ (matMach.passOrder 33).heldAt 33 1 8 = none := by decide

theorem wit_domains : matMach.passes pf Reg.MAT.DOM_CMD 0 = true ∧ matMach.domain 0 = none ∧
    matMach.reach pf Reg.MAT.DOM_CMD = matMach ∧ matMach.fnPresent 0 (matMach.get Reg.MAT.DOM_FUNC 0) = true ∧
    (matMach.put Reg.MAT.DOM_FUNC 300 0).fnPresent 0 ((matMach.put Reg.MAT.DOM_FUNC 300 0).get Reg.MAT.DOM_FUNC 0) = false ∧
    (matMach.put Reg.MAT.DOM_IDX 2 0).passes pf Reg.MAT.DOM_CMD 2 = true ∧ matMach.domain 2 = some aDomain ∧ aDomain.active = true ∧
    aDomain.slot = pf.slotOf ∧ aDomain.slot ≠ (Requester.pf0 2).slotOf ∧ matMach.passes pf Reg.MAT.CNT_CLR 0 = true := by
  decide

theorem wit_posting : matMach.domain aRecv.domain = some aDomain ∧ matMach.domain 7 = none ∧
    (aDomain.slot = aRing.slot ∧ aDomain.func = aRing.func) ∧ matMach.postedIn 0 < 4194304 ∧
    matMach.mat.heldRecv.find? (fun r => match matMach.wr r.ring with | some w => quadOfSlot w.slot == 0 | none => false) =
      some { aRecv with seq := 1 } ∧
    cxnMach.mat.heldRecv.find? (fun r => match cxnMach.wr r.ring with | some w => quadOfSlot w.slot == 0 | none => false) = none ∧
    (matMach.mat.heldRecv.erase { aRecv with seq := 1 }).any (fun x => x.ring == 5) = false ∧
    ([{ aRecv with seq := 1 }, { aRecv with seq := 2 }].erase { aRecv with seq := 1 }).any (fun x => x.ring == aRecv.ring) = true ∧
    (matMach.takeRecv { aRecv with seq := 1 } aRing).lka.waiting.any (fun x => x.1 == 5) = false ∧
    (chooseUnexpected (matMach.unexpectedFor aRecv)).isSome = true ∧ (chooseUnexpected (cxnMach.unexpectedFor aRecv)).isNone = true := by
  decide

/-- A quadrant whose posted receives stand at their limit. -/
def fullMach : Mach :=
  { cxnMach with mat := { cxnMach.mat with domains := [(2, aDomain)], posted := List.replicate 4194304 aRecv, heldRecv := [{ aRecv with seq := 1 }] } }

theorem wit_full : 4194304 ≤ fullMach.postedIn 0 ∧ (fullMach.unexpectedFor { aRecv with ignore := ignoreMask 16 0 }).isEmpty = true ∧
    fullMach.mat.heldRecv.find? (fun r => match fullMach.wr r.ring with | some w => quadOfSlot w.slot == 0 | none => false) =
      some { aRecv with seq := 1 } := by
  refine ⟨?_, by decide, by decide⟩
  have h : (match fullMach.wr aRecv.ring with | some w => quadOfSlot w.slot == 0 | none => false) = true := by decide
  have e : ∀ n, ((List.replicate n aRecv).filter (fun r => match fullMach.wr r.ring with
      | some w => quadOfSlot w.slot == 0 | none => false)).length = n := by
    intro n
    induction n with
    | zero => rfl
    | succ n ih => rw [List.replicate_succ, List.filter_cons]; simp [h, ih]
  show 4194304 ≤ _
  exact Nat.le_of_eq (e 4194304).symm

theorem wit_folds : (3 : Nat) < 4 ∧ (2 ^ 32 - 1 : Nat) < 2 ^ 32 ∧ combine 0 1 false 1 (2 ^ 32 - 1) = (2 ^ 32 - 1, 0) ∧
    combine 1 1 false 1 (2 ^ 32 - 1) = (1, 0) ∧ combine 0 0 false 1 (2 ^ 32 - 1) = (0, 0) := by decide

/-- Group 6 of slot 0's module: rank 0 here, rank 1 at EID 33. -/
def anEdge : CollEdge := { eid := 33, credit := some 9, timer := some 9, abortAt := some 9 }
def aRank : CollRank := { rank := 0, slot := 0, parent := none, children := [1] }
def aCollOp : CollOp :=
  { seq := 0, ring := 5, work := 0, op := 3, dtype := 1, redop := 0, promote := false, root := 0, count := 4, src := 0, dst := 0, pd := 0
    func := 0, post := 3 }
def aGroup : CollGroup :=
  { slot := 0, pd := 0, func := 0, homeQ := 0, gen := 4, window := 8, size := 2, reading := false, eids := [0, 33]
    ranks := [{ aRank with ops := [aCollOp] }], edges := [(edgeKey 0 1 false, anEdge)] }
def collHdr (n : Nat) : CollHdr :=
  { group := n, gen := 4, op := 3, promoted := false, last := true, x := false, esn := 0, opSeq := 0, dtype := 1, redop := 0, count := 4
    chunk := 0, srcRank := 1, fpFlags := 0, reason := 0, echo := false, root := 0 }
def collOf (h : CollHdr) (kind : Nat) : Packet :=
  { hdr := { aHdr with kind := kind, src := 33 }, body := .coll h, payload := if kind < 0x12 then zeros 16 else [] }
def collPktOf (kind n : Nat) : Packet := collOf (collHdr n) kind
def abortOf (n : Nat) : CollHdr := { collHdr n with reason := 2 }
/-- The chunk that holds slot ESN 1 of group 8's edge, and group 9 whose edge keeps a chunk and waits for credit. -/
def aChunk : CollChunk :=
  { esn := 1, up := true, opSeq := 0, op := 3, promoted := false, last := true, dtype := 1, redop := 0, count := 4, root := 0
    chunk := 0, flags := 0, data := [], injTs := 0 }
def busyEdge : CollEdge := { anEdge with kept := [{ aChunk with esn := 0 }], sNext := 1, nakFor := some 0 }

def collMach : Mach :=
  { matMach with groups := [(6, aGroup), (7, { aGroup with aborted := some 2 }),
      (8, { aGroup with edges := [(edgeKey 0 1 false, { anEdge with slots := [aChunk] })] }),
      (9, { aGroup with edges := [(edgeKey 0 1 false, busyEdge)] }), (10, { aGroup with reading := true })] }
/-- A packet meets this group and edge there. -/
def collIs (h : CollHdr) (kind : Nat) (p : CollGroup → Nat → Bool) : Bool :=
  match collMach.reaches (collOf h kind) h with | some (_, _, g, ek) => p g ek | none => false
/-- A packet is delivered and meets this group. -/
def collGets (h : CollHdr) (kind : Nat) (p : CollGroup → Bool) : Bool :=
  ((collMach.delivered (collOf h kind)).bind (fun u => u.grp (h.group % 4096))).any p

theorem wit_coll_drops : (collMach.delivered (collPktOf 0x10 6)).isSome = true ∧
    ((collMach.delivered (collPktOf 0x10 5)).bind (fun u => u.grp 5)).isNone = true ∧
    collGets (collHdr 10) 0x10 (fun g => g.reading) = true ∧ collGets (collHdr 6) 0x15 (fun g => !g.reading) = true ∧
    collGets { collHdr 6 with rsv := 1 } 0x10 (fun g => !g.reading) = true ∧ ({ collHdr 6 with rsv := 1 } : CollHdr).zero 0x10 = false ∧
    collGets { collHdr 6 with gen := 5 } 0x10 (fun g => g.gen == 4) = true ∧
    collGets (collHdr 6) 0x10 (fun g => (g.ranks.find? (fun r => g.eids.getD r.rank 0 == aHdr.dst + 1)).isNone) = true ∧
    collGets { collHdr 6 with srcRank := 2 } 0x10 (fun g => g.ranks.all (fun r => !g.hasEdge r 0x10 { collHdr 6 with srcRank := 2 })) = true ∧
    collMach.netModes = true ∧ aHdr.dst / 16 = collMach.ownDa := by decide

theorem wit_coll : collIs (collHdr 6) 0x10 (fun g _ => g.aborted.isNone) = true ∧ collIs (collHdr 6) 0x12 (fun g _ => g.aborted.isNone) = true ∧
    collIs { collHdr 9 with esn := 0 } 0x13 (fun g ek => (g.edge ek).kept.any (fun c => c.esn == 0)) = true ∧
    collIs { collHdr 9 with esn := 3 } 0x13 (fun g ek => !(g.edge ek).kept.any (fun c => c.esn == 3)) = true ∧
    collIs (abortOf 6) 0x14 (fun g _ => g.aborted.isNone) = true ∧
    collIs (abortOf 7) 0x14 (fun g ek => g.aborted == some 2 && !(g.edge ek).answered) = true := by decide

theorem wit_coll_timers : (aGroup.rank (edgeRank (edgeKey 0 1 false))).isSome = true ∧ timerEdge 0 2 = edgeKey 0 1 false ∧
    (aGroup.edge (edgeKey 0 1 false)) = anEdge ∧ behind32 (2 ^ 32 - 1) anEdge.rCum = true ∧ behind32 0 anEdge.rCum = false ∧
    aGroup.window ≤ sub32 8 anEdge.rCum ∧ sub32 7 anEdge.rCum < aGroup.window ∧ anEdge.nakFor = none ∧ anEdge.answered = false ∧
    sub32 0 anEdge.sCum = 0 ∧ sub32 1 busyEdge.sCum = 1 ∧ sub32 busyEdge.sNext busyEdge.sCum = 1 ∧ anEdge.hole 8 = none ∧
    ((collMach.grp 8).bind (fun g => (g.edge (edgeKey 0 1 false)).hole g.window)) = some (0, 0) ∧
    ({ anEdge with slots := [aChunk], nakFor := some 0 } : CollEdge).hole 8 = some (0, 0) ∧
    (collMach.put Reg.COL.OP_TIMEOUT 5 6).get Reg.COL.OP_TIMEOUT 6 ≠ 0 ∧ collMach.get Reg.COL.OP_TIMEOUT 7 = 0 ∧
    aGroup.ranks.flatMap (fun k => k.ops.map (fun o => o.post)) = [3] ∧ collMach.grp 5 = none ∧
    ((collMach.grp 7).bind (fun g => g.aborted)) = some 2 := by decide

theorem wit_groups : collMach.passes pf Reg.COL.GRP_CMD 0 = true ∧ Tbl.find collMach.groups 0 = none ∧ collMach.grp 0 = none ∧
    (collMach.put Reg.COL.GRP_IDX 6 0).passes pf Reg.COL.GRP_CMD 6 = true ∧ Tbl.find collMach.groups 6 = some aGroup ∧
    collMach.grpFree 6 = false ∧ aGroup.slot = pf.slotOf ∧ aGroup.slot ≠ (Requester.pf0 2).slotOf ∧ aGroup.reading = false ∧
    (collMach.grp 10).any (fun g => g.reading && g.slot == 0) = true ∧ (collMach.put Reg.COL.GRP_SIZE 0 0).get Reg.COL.GRP_SIZE 0 = 0 ∧
    collMach.reach pf Reg.COL.GRP_CMD = collMach ∧ 1 ≤ collMach.get Reg.COL.GRP_SIZE 0 ∧ collMach.get Reg.COL.GRP_SIZE 0 ≤ 1048576 ∧
    (Tbl.find collMach.xlt.pds (collMach.get Reg.COL.GRP_PD 0)).isSome = true ∧ aGroup.aborted = none ∧
    collMach.tableErr 0 { aGroup with reading := true } (rankEntries 1 (zeros 8)) = 0 ∧
    collMach.tableErr 0 { aGroup with reading := true } (rankEntries 2 (zeros 16)) = 6 ∧
    collMach.passes pf Reg.COL.CNT_CLR 0 = true := by decide

def collEntry (n op : Nat) : Entry :=
  { anEntry 0x30 (.coll op 1 0 false 0 4096 8192 4) with arg := n }
/-- A finished operation of rank 0, a BARRIER, and one of another COUNT whose chunk waits. -/
def doneOp : CollOp := { aCollOp with down := 1 }
def oddRank : CollRank := { aRank with ops := [{ aCollOp with count := 5 }] }
def oddGroup : CollGroup := { aGroup with edges := [(edgeKey 0 1 false, { anEdge with slots := [aChunk] })], ranks := [oddRank] }

theorem wit_coll_entry : collMach.grp 5 = none ∧ (collMach.grp 6).any (fun g => (g.ranks.find? (fun k => k.slot == aRing.slot)).isSome &&
      (g.ranks.find? (fun k => k.slot == 2)).isNone && !g.reading && g.aborted.isNone && collValid 3 1 0 false 0 g.size &&
      !collValid 4 1 0 false 0 g.size && (g.rank 0).any (fun k => (g.mismatch k).isNone)) = true ∧
    (collMach.grp 7).any (fun g => !g.reading && g.aborted == some 2) = true ∧ (collMach.grp 10).any (fun g => g.reading) = true ∧
    (collEntry 6 3).arg % 4096 = 6 ∧ oddGroup.mismatch oddRank = some 1 ∧
    aGroup.finished 0 aCollOp = false ∧ aGroup.finished 0 doneOp = true ∧ doneOp.op ≠ 0 ∧ doneOp.receives 0 = true ∧
    aGroup.finished 0 { doneOp with op := 0 } = true := by decide

/-- Lock 9 held by EID 33 with one waiter, leased and due; a lock that slot 0 waits for, and its request. -/
def lockHdr : LkuHdr := { code := 0, b25 := 0, lockId := 9, tag := 1, gen := 4, queued := 0, offset := 0, op1 := 0, op2 := 0 }
def aLkReq : LkReq :=
  { q := 0, tag := 2, ring := 5, seq := 0, slot := 0, dst := 33, kind := 0x20, hdr := lockHdr, flow := 0, minOnly := false, queue := 0
    due := some 9, probe := some 9, busy := some 9, timeout := some 9 }
def lockMach : Mach :=
  { collMach with lka := { collMach.lka with
      locks := [(9, { held := some (33, 1), gen := 4, lease := some 900, resend := some 9, waiters := [(34, 7)] })]
      held := [{ q := 0, tag := 1, slot := 0, fn := 0, da := 0, lock := 9, st := .held, renew := some 8 },
               { q := 0, tag := 2, slot := 0, fn := 0, da := 2, lock := 9, st := .waiting }]
      reqs := [aLkReq, { aLkReq with tag := 3, kind := 0x28, resultAddr := 0, due := none }] } }
def lockPkt (kind : Nat) : Packet := { hdr := { aHdr with kind := kind, src := 33 }, body := .lku lockHdr, payload := [] }

theorem wit_locks : (lockMach.delivered (lockPkt 0x20)).isSome = true ∧ (lockPkt 0x2A).hdr.zero = true ∧
    (List.range 7).all (fun i => ({ lockHdr with gen := if i == 0 || i == 2 || i == 4 then 0 else 4 } : LkuHdr).zero (0x20 + i)) = true ∧
    lockHdr.zero 0x20 = false ∧ (lockMach.delivered (lockPkt 0x27)).isSome = true ∧ (lockMach.delivered (lockPkt 0x2B)).isSome = true ∧
    (lockMach.delivered (lockPkt 0x26)).bind (fun u => (u.lock 9).held) = some (33, 1) ∧ (lockMach.lock 9).gen = 4 ∧
    (lockMach.lock 8).held = none ∧ (lockMach.lock 8).waiters = [] ∧ (lockMach.lock 9).waiters.findIdx? (fun w => w == (34, 7)) = some 0 ∧
    (lockMach.lock 9).held ≠ some (34, 7) ∧ lockMach.waitersIn 0 < 262144 ∧ (lockMach.lock 9).waiters.contains (34, 7) = true ∧
    (lockMach.lock 9).waiters.findIdx? (fun w => w == (35, 7)) = none ∧ (lockMach.lock 9).waiters.contains (35, 7) = false ∧
    (lockMach.lock 9).resend = some 9 ∧ (lockMach.lock 9).lease = some 900 ∧ lockMach.passes pf Reg.LKA.FORCE 0 = true ∧
    ((lockMach.bump Reg.LKA.FORCES 1 0).lock 9).held = some (33, 1) ∧ ((lockMach.bump Reg.LKA.FORCES 1 0).lock 8).held = none := by
  decide

/-- A quadrant with `n` waiters. -/
def crowdMach (n : Nat) : Mach :=
  { lockMach with lka := { lockMach.lka with locks := [(9, { held := some (33, 1), gen := 4, waiters := List.replicate n (34, 7) })] } }

theorem wit_crowd : 262144 ≤ (crowdMach 262144).waitersIn 0 ∧ ((crowdMach 262144).lock 9).held = some (33, 1) ∧
    ((crowdMach 262144).lock 9).waiters.findIdx? (fun w => w == (35, 7)) = none := by
  have h : ∀ n, (crowdMach n).waitersIn 0 = n ∧ ((crowdMach n).lock 9).held = some (33, 1) ∧
      ((crowdMach n).lock 9).waiters.findIdx? (fun w => w == (35, 7)) = none := by
    intro n
    refine ⟨by simp [Mach.waitersIn, crowdMach, lockQuad], by simp [crowdMach, Mach.lock, Tbl.get, Tbl.find], ?_⟩
    rw [List.findIdx?_eq_none_iff]
    intro x hx
    have hx : x ∈ List.replicate n (34, 7) := by simpa [crowdMach, Mach.lock, Tbl.get, Tbl.find] using hx
    rw [List.eq_of_mem_replicate hx]; rfl
  exact ⟨Nat.le_of_eq (h _).1.symm, (h _).2.1, (h _).2.2⟩

theorem wit_requests : (lockMach.delivered (lockPkt 0x25)).isSome = true ∧ lockMach.lkReq 0 2 = some aLkReq ∧
    (lockMach.heldLock 0 2).any (fun h => h.st == .waiting) = true ∧ lockMach.heldLock 0 8 = none ∧
    (lockMach.heldLock 0 1).any (fun h => h.st == .held) = true ∧ aLkReq.resends < lockMach.retryMax ∧
    lockMach.retryMax ≤ { aLkReq with resends := 300 }.resends ∧ aLkReq.timeout = some 9 ∧ aLkReq.due = some 9 ∧ aLkReq.probe = some 9 ∧
    aLkReq.busy = some 9 ∧ lockMach.clk < aLkReq.busySince.getD lockMach.clk + lockMach.rnrTimeout' ∧
    ({ lockMach with clk := lockMach.rnrTimeout' }).rnrTimeout' ≤ ({ lockMach with clk := lockMach.rnrTimeout' }).clk ∧
    lockMach.lka.held.filterMap (fun h => h.renew) = [8] ∧ lockMach.passes pf Reg.LKA.CNT_CLR 0 = true ∧
    (({ lockMach with lka := { lockMach.lka with reqs := [{ aLkReq with kind := 0x21 }] } }).lkReq 0 2).isSome = true ∧
    lockMach.lkReq 0 9 = none ∧ (lockMach.lkReq 0 3).any (fun x => x.due.isNone) = true ∧ collMach.lka.held.filterMap (fun h => h.renew) = [] ∧
    (lockMach.delivered (lockPkt 0x25)).isSome = true ∧ lockHdr.zero 0x25 = true ∧
    (({ lockMach with lka := { lockMach.lka with reqs := [{ aLkReq with kind := 0x22, withdraw := some 7 }] } }).lkReq 0 2).isSome = true := by
  decide

/-- Results that are kept and in progress, and a packet for window 9. -/
def atHdr : LkuHdr :=
  { code := 0, b25 := 3, lockId := 0, tag := 3, gen := 0, queued := 9, offset := 8, op1 := 5, op2 := 0 }
def atPkt (kind : Nat) : Packet := { hdr := { aHdr with kind := kind, src := 33 }, body := .lku atHdr, payload := [] }
def anAtom (tag : Nat) (st : AtState) : AtEntry :=
  { src := 33, tag := tag, slot := 0, aop := 0, size := 8, pd := 0, func := 0, va := 0, op1 := 0, op2 := 0, st := st }
def atomMach : Mach := { lockMach with lka := { lockMach.lka with atoms := [anAtom 4 .done, anAtom 5 .reading] } }

theorem wit_atomics : (atomMach.delivered (atPkt 0x28)).isSome = true ∧ atomMach.slotPresent 0 = true ∧ atomMach.atom 0 33 3 = none ∧
    (atomMach.atom 0 33 4).any (fun x => x.st == .done) = true ∧ (atomMach.atom 0 33 5).any (fun x => x.st != .done) = true ∧
    (atomMach.lka.atoms.filter (fun x => quadOfSlot x.slot == 0)).length < 65536 ∧ atomMach.atomWindow (atPkt 0x28) atHdr 8 = some aWindow ∧
    atomMach.atomWindow (atPkt 0x28) { atHdr with queued := 10 } 8 = none ∧ (atomMach.func 0 0).barred = false ∧ atomMach.awake 0 0 = true ∧
    (((atomMach.lkuSend 0 0 33 0x2A (lkuHdr 0 3)).1.lkReq 0 3).any (fun x => x.kind == 0x28 && x.resultAddr == 0)) = true ∧
    (atomMach.lkuSend 0 0 33 0x2A (lkuHdr 0 3)).1.lkReq 0 8 = none ∧ atomicValue 6 4 (2 ^ 32 - 1) 1 0 = 2 ^ 32 - 1 ∧
    atomicValue 8 4 (2 ^ 32 - 1) 1 0 = 1 := by decide

theorem wit_atomic_headers : atHdr.zero 0x28 = true ∧ ({ atHdr with queued := 0, offset := 0, b25 := 0, code := 0 } : LkuHdr).zero 0x29 = true ∧
    (lkuHdr 0 3).zero 0x2A = true ∧ ({ atHdr with lockId := 1 } : LkuHdr).zero 0x28 = false := by decide

/-- What a host access of slot 0 in a PD answers there: PD 0 has no stage, PD 1 needs a walk, and PD 7 is not enabled. -/
def walkMach : Mach :=
  { atomMach with xlt := { atomMach.xlt with pds := [(0, aPd), (1, { aPd with s1En := true })] } }
def accessIs (pd : Nat) (p : HostResult → Bool) : Bool :=
  p (walkMach.hostAccess { slot := 0, func := 0, pd := pd, va := 4096, len := 8, kind := 4, data := some (zeros 8), purpose := .atomicResult 5 0 0 }).2

theorem wit_atomic_access : accessIs 0 (fun a => a == .issued) = true ∧ accessIs 1 (fun a => a == .waiting) = true ∧
    accessIs 7 (fun a => match a with | .fault _ => true | _ => false) = true := by decide

/-- A packet that waits in queue 0 of quadrant 0, a parked queue, and a swap that is armed. -/
def schMach : Mach :=
  { (atomMach.offer 0 (some 0) { pkt := writePkt }) with
    sch := { (atomMach.offer 0 (some 0) { pkt := writePkt }).sch with
      parked := [(0, [{ key := 3, coarse := false, due := 20000000, t := 5 }])], swapAt := some (0, 0) } }

theorem wit_sched : schMach.netModes = true ∧ (machIn .attest).netModes = false ∧ ((schMach.countWaits 0).pickGrant 0).2.isSome = true ∧
    ((atomMach.countWaits 0).pickGrant 0).2.isNone = true ∧ schMach.gated = false ∧ (schMach.put Reg.SCH.GATE_EN 1).gated = true ∧
    schMach.nextSlot 0 = some 20000000 ∧ atomMach.nextSlot 0 = none ∧ schMach.passes pf Reg.SCH.GATE_SWAP 0 = true ∧
    schMach.sch.swapAt = some (0, 0) ∧ atomMach.sch.swapAt = none ∧
    schMach.passes pf Reg.SCH.GATE_EN 0 = true ∧ schMach.passes pf Reg.SCH.CNT_CLR 0 = true := by decide
/-- A packet of TC3 that waits, and the TC3 limiter parked. -/
def tc3Pkt : Packet := { writePkt with hdr := { writePkt.hdr with tc := 3 } }
def tc3Mach : Mach := atomMach.offer 0 (some 0) { pkt := tc3Pkt }
def tc3Held : Mach :=
  { tc3Mach with sch := { tc3Mach.sch with parked := [(0, [{ key := tc3Id 0, coarse := false, due := 20000000, t := 5 }])] } }
theorem wit_pick : (tc3Mach.pickGroup 0 3).isSome = true ∧ tc3Mach.isParked 0 (tc3Id 0) = false ∧ (tc3Mach.grantIn 0 3).isSome = true ∧
    (tc3Held.pickGroup 0 3).isSome = true ∧ tc3Held.isParked 0 (tc3Id 0) = true ∧ (tc3Held.bump Reg.SCH.TC3_HELD 1 0).pickTc 0 = none ∧
    (schMach.pickGroup 0 3).isSome = false ∧ (schMach.pickTc 0).any (fun c => ((schMach.setDrr (tcList 0) c.list).grantIn 0 c.m).isSome) = true := by
  decide
/-- Gates that close a TC: open for 1 µs of a cycle of 2. -/
def gatedMach : Mach :=
  { (schMach.put Reg.SCH.GATE_EN 1) with
    sch := { schMach.sch with gates := { entries := [{ ns := 1000, open_ := 1 }, { ns := 1000, open_ := 14 }], base := 0, cycle := 2000 } } }
/-- The same gates with a packet of TC1 that waits, at a time when its gate is shut. -/
def shutMach : Mach :=
  { (atomMach.offer 0 (some 0) { pkt := { writePkt with hdr := { writePkt.hdr with tc := 1 } } }).put Reg.SCH.GATE_EN 1 with
    sch := { (atomMach.offer 0 (some 0) { pkt := { writePkt with hdr := { writePkt.hdr with tc := 1 } } }).sch with gates := gatedMach.sch.gates } }
theorem wit_gates : gatedMach.gated = true ∧ gatedMach.sch.gates.alwaysOpen 0 = false ∧
    (gatedMach.sch.gates.runAt 0 (gatedMach.sch.gates.pos 0)) = some (0, 16000) ∧ gatedMach.neverFits 0 64 = false ∧
    (gatedMach.sch.gates.runAt 1 (gatedMach.sch.gates.pos 0)) = none ∧ gatedMach.fits 0 0 64 = true ∧ gatedMach.fits 0 1 64 = false ∧
    (shutMach.sch.fifo.any (fun c => c.1 == fifoKey 0 1 && c.2.any (fun o => !o.waited && !shutMach.fits 0 1 (shutMach.cost o.pkt)))) = true := by
  decide

/-- In DRAIN, class 1 swaps and stands in STANDBY, class 2 is LOADING, and a scan of lane 12 is deferred. -/
def aTable : ClsTable := { variant := 1, version := 2, steps := 3 }
def swapMach : Mach :=
  { (machIn .drain) with
    seqr := { (machIn .drain).seqr with
      swaps := [(1, { variant := 1, role := 1, loaded := some aTable }), (2, { variant := 1, role := 1 })]
      avail := [(1, 3), (2, 3), (3, 3)], repairs := [(1, 2 ^ 35)], passAt := [(0, (0, 3))] }
    hive := { (machIn .drain).hive with deferred := [(4, 12)] } }

theorem wit_swaps : (machIn .drain).passes pf Reg.SEQ.SWAP 1 = true ∧ swapMode (machIn .drain).mode = true ∧
    1 ∉ (machIn .drain).seqr.swaps.keys ∧ swapMach.passes pf Reg.SEQ.SWAP 1 = true ∧ 1 ∈ swapMach.seqr.swaps.keys ∧
    (machIn .run).passes pf Reg.SEQ.SWAP 1 = true ∧ swapMode (machIn .run).mode = false ∧ swapMach.seqr.swaps ≠ [] ∧
    bit (Tbl.get swapMach.seqr.avail 3 0) (swapMach.get Reg.SEQ.VAR_SEL 3) = true ∧
    bit (Tbl.get swapMach.seqr.avail 4 0) 3 = false ∧
    Tbl.find swapMach.seqr.swaps (EngClass.code .rxe) = some { variant := 1, role := 1 } ∧
    swapMach.hive.deferred.find? swapMach.mayStart = some (4, 12) ∧ (machIn .drain).hive.deferred.find? (machIn .drain).mayStart = none ∧
    swapMach.passes pf Reg.SEQ.CNT_CLR 0 = true := by decide

/-- A patrol at 128 in quadrant 0 that has skipped the bank of address 0, and records of what it found. -/
def patrolMach : Mach :=
  { swapMach with seqr := { swapMach.seqr with
      patrol := [(0, 128)], skipped := [(0, [bankKey 0])], corr := [(0, (3, 0, 3))], sramBad := [(0, 8)], hot := [(0, 1), (1, 1)]
      repairQ := [2 ^ 35], overran := [1] } }

theorem wit_patrols : swapMach.get Reg.SEQ.SCRUB_HBM_PERIOD ≠ 0 ∧ (swapMach.put Reg.SEQ.SCRUB_HBM_PERIOD 0).get Reg.SEQ.SCRUB_HBM_PERIOD = 0 ∧
    Tbl.find swapMach.seqr.repairs 1 = some (2 ^ 35) ∧ Tbl.find swapMach.seqr.repairs 0 = none ∧
    patrolMach.hourNow = 0 ∧ Tbl.find patrolMach.seqr.corr 0 = some (3, 0, 3) ∧ Tbl.find swapMach.seqr.corr 0 = none ∧
    swapMach.get Reg.SEQ.SCRUB_SRAM_PERIOD ≠ 0 ∧ swapMach.seqr.sramBad = [] ∧ (0, 8) ∈ patrolMach.seqr.sramBad ∧
    Tbl.find swapMach.seqr.passAt 0 = some (0, 3) ∧ Tbl.find swapMach.seqr.passAt 1 = none ∧
    swapMach.scrubPeriod ≠ 0 ∧ (swapMach.put Reg.SEQ.SCRUB_HBM_PERIOD 0).scrubPeriod = 0 ∧ swapMach.seqr.overran = [] ∧ 1 ∈ patrolMach.seqr.overran ∧
    swapMach.passes pf Reg.SEQ.REPAIR_GO 0 = true ∧ hbmStack (2 ^ 35) = 1 ∧ swapMach.seqr.repairQ = [] ∧ swapMach.seqr.hot = [] ∧
    swapMach.tempAlert < 900 := by decide

theorem wit_patrol_places : patrolMach.patrolBack 0 128 = false ∧ (128 : Nat) ≤ 192 % 2 ^ 35 ∧
    swapMach.patrolBack 0 0 = false ∧ (2 ^ 35 : Nat) ≤ (2 ^ 35 - 64) % 2 ^ 35 / 64 * 64 + 64 ∧ rowPasses (2, 4) 5 = 3 ∧ rowPasses (0, 0) 5 = 1 ∧
    (0, 1) ∈ patrolMach.seqr.hot ∧ (patrolMach.seqr.hot.filter (· != (0, 1))).any (fun h => h.1 == 0) = false ∧
    bit (patrolMach.get Reg.SEQ.REFRESH_X4) 0 = false ∧ bit ((patrolMach.put Reg.SEQ.REFRESH_X4 1).get Reg.SEQ.REFRESH_X4) 0 = true := by
  decide

theorem wit_patrol_banks : patrolMach.patrolBack 0 0 = true ∧
    (Tbl.find swapMach.seqr.repairs 1).any (fun b => bankKey b == bankKey (hbmAddr 1 0)) = true ∧
    patrolMach.seqr.repairQ.any (fun b => bankKey b == bankKey (2 ^ 35)) = true := by
  have h : Tbl.find swapMach.seqr.repairs 1 = some (hbmAddr 1 0) := by decide
  refine ⟨by simp [Mach.patrolBack, patrolMach, Tbl.get, Tbl.find], by simp [h], by simp [patrolMach]⟩

/-- While class 2's table is swapped, its packets wait at local delivery (R321). -/
theorem wit_kind_held : swapMach.netModes = true ∧ swapMach.kindHeld 1 = true ∧ swapMach.kindHeld 0x10 = false ∧
    (swapMach.mayStart (4, 12)) = true ∧ (Tbl.find swapMach.seqr.swaps (EngClass.code .txe)).any (fun w => w.loaded.isSome) = true ∧
    Tbl.find swapMach.seqr.swaps (EngClass.code .lku) = none := by decide

/-- The block with feed A in a state. -/
def feedMach (st : Nat) : Mach :=
  ((machIn .run).put Reg.PWR.STATE st 0).updFeed 0 (fun x => { x with timer := some 9, pinLow := some 3 })

theorem wit_feeds_still : (feedMach 4).feedState 0 ≠ 1 ∧ (feedMach 4).feedState 0 ≠ 2 ∧ (feedMach 4).feedState 0 ≠ 3 ∧
    (feedMach 1).feedState 0 ≠ 4 ∧ (feedMach 1).feedState 0 ≠ 5 ∧ (feedMach 1).feedState 0 ≠ 6 ∧ ((machIn .run).feed 0).timer = none ∧
    (feedMach 4).expiresWithin 0 (100 * Config.usCycles) = true ∧
    ((feedMach 4).updFeed 0 (fun x => { x with timer := some (200 * Config.usCycles) })).expiresWithin 0 (100 * Config.usCycles) = false ∧
    (({ (feedMach 5).put Reg.PWR.CAUSE 2 0 with clk := 7 }).updFeed 0 (fun x => { x with since := 7 })).expiredNow 0 = true ∧
    (feedMach 5).expiredNow 0 = false ∧ ((feedMach 6).updFeed 0 (fun x => { x with pinLow := none, vinLow := none })).latchDue 0 = none ∧
    ((feedMach 6).updFeed 0 (fun x => { x with vinLow := none })).latchDue 0 = some (3 + 10 * Config.msCycles) ∧
    ((feedMach 5).put Reg.PWR.RETRIES_USED 0 0).feedState 0 = 5 := by decide

theorem wit_feeds : Sys2Proof.Machine.Feed.idx .a = 0 ∧ (feedMach 1).feedState 0 = 1 ∧ (feedMach 4).feedState 0 = 4 ∧
    ((feedMach 4).put Reg.PWR.EN_PIN 1 0).feedEnabled 0 = true ∧ ((feedMach 4).put Reg.PWR.EN_PIN 0 0).feedEnabled 0 = false ∧
    ((feedMach 4).put Reg.PWR.TIMER_RUN 1 0).isSet Reg.PWR.TIMER_RUN 0 = true ∧ (feedMach 4).isSet Reg.PWR.TIMER_RUN 0 = false ∧
    ((feedMach 3).feed 0).timer = some 9 ∧ ((feedMach 5).elapseTo Config.secCycles).isSet Reg.PWR.IN_RANGE 0 = false ∧
    (((feedMach 5).put Reg.PWR.IN_RANGE 1 0).elapseTo Config.secCycles).isSet Reg.PWR.IN_RANGE 0 = true ∧
    ((feedMach 6).latchDue 0).isSome = true ∧ (feedMach 6).get Reg.PWR.CAUSE 0 ≠ 4 ∧
    ((feedMach 6).put Reg.PWR.CAUSE 4 0).get Reg.PWR.CAUSE 0 = 4 ∧ (feedMach 6).passes pf Reg.PWR.FEED_CLR 0 = true ∧ ((feedMach 4).put Reg.PWR.RETRIES_USED 0 0).feedState 0 ≠ 5 ∧
    (feedMach 6).passes pf Reg.PWR.CNT_CLR 0 = true ∧ (feedMach 4).get Reg.PWR.RETRIES_USED 0 < ((feedMach 4).put Reg.PWR.RETRY_MAX 3 0).get Reg.PWR.RETRY_MAX 0 ∧
    ((feedMach 4).put Reg.PWR.RETRY_MAX 0 0).get Reg.PWR.RETRY_MAX 0 ≤ (feedMach 4).get Reg.PWR.RETRIES_USED 0 := by decide

/-- Two samples of the last second above PWR_LIMIT. -/
def hotPower : Mach := { (machIn .run) with pwr := { (machIn .run).pwr with powers := [(0, 9400), (0, 9600)] } }

/-- Rails: none up and good, three groups begun, and going down. -/
def railMach (groups : Nat) (falling : Bool) : Mach :=
  { (machIn .run) with pwr := { (machIn .run).pwr with goodAt := some 5, bothAt := some 5, groups := groups, falling := falling } }

theorem wit_rails : ((railMach 0 false).put Reg.PWR.PGOOD 0).isSet Reg.PWR.PGOOD = false ∧
    ((railMach 3 false).put Reg.PWR.PGOOD 1).isSet Reg.PWR.PGOOD = true ∧ (railMach 3 false).pwr.stuck = false ∧
    (railMach 7 false).pwr.groups + 1 = 8 ∧ (railMach 3 true).pwr.falling = true ∧ railGroup 2 = 3 ∧ railGroup 25 = 8 ∧
    (5, FUnit.none) ∉ (railMach 3 true).flt.active ∧ (9, FUnit.none) ∉ (railMach 3 true).flt.active ∧
    ((feedMach 4).put Reg.PWR.STATE 4 1).feedState 1 = 4 ∧ bit (((machIn .run).put Reg.PWR.RAIL_OK 0).get Reg.PWR.RAIL_OK) 2 = false ∧
    bit (((machIn .run).put Reg.PWR.RAIL_OK 4).get Reg.PWR.RAIL_OK) 2 = true ∧ groupRails 3 = 60 := by decide

theorem wit_rails_clauses :
    ((railMach 3 false).put Reg.PWR.PGOOD 1).railStarting 2 = true ∧ ((railMach 3 false).put Reg.PWR.PGOOD 1).railStarting 6 = false ∧
    ((railMach 3 false).put Reg.PWR.PGOOD 1).isSet Reg.PWR.RAILS_UP = false ∧ ((railMach 3 false).put Reg.PWR.RAILS_UP 1).isSet Reg.PWR.RAILS_UP = true ∧
    (railMach 8 false).pwr.groups + 1 = 9 ∧ { (railMach 3 true).pwr with stuck := true }.stuck = true ∧ (machIn .run).pwr.goodAt = none ∧
    (railMach 3 false).pwr.groups ≠ 0 ∧ (((machIn .run).updFeed 0 (fun x => { x with pinLow := none, vinLow := none })).reboth).pwr.bothAt = none ∧ (feedMach 4).feedState 1 ≠ 4 ∧
    (5, FUnit.none) ∈ ((machIn .run).raise 5 .none).flt.active ∧ (9, FUnit.none) ∈ ((machIn .run).raise 9 .none).flt.active ∧
    hotPower.powerLimit < hotPower.powerAvg ∧ hotPower.recentPower = [(0, 9400), (0, 9600)] ∧ hotPower.powerAvg = 9500 ∧
    (machIn .run).powerAvg ≤ (machIn .run).powerLimit ∧ (machIn .run).recentPower = [] ∧ (9, FUnit.none) ∉ hotPower.flt.active ∧ (machIn .run).pwr.limits = [] ∧
    ((machIn .run).limitSet 500).pwr.limits = [(0, 500)] ∧ ((machIn .run).limitSet 500).powerLimit = 5000 ∧
    (railMach 8 true).pwr.groups = 8 := by decide

theorem wit_mode_requests : (machIn .config).passes pf Reg.GLB.MODE_REQ 0 = true ∧ (machIn .dormant).passes pf Reg.GLB.MODE_REQ 0 = true ∧
    (machIn .safe).passes pf Reg.GLB.MODE_REQ 0 = true ∧ (machIn .drain).passes pf Reg.GLB.MODE_REQ 0 = true ∧
    ((machIn .config).acted pf Reg.GLB.MODE_REQ 0).modeBusy 0 .alone = false ∧ ((machIn .config).acted pf Reg.GLB.MODE_REQ 0).mode = .config ∧
    ((machIn .drain).acted pf Reg.GLB.MODE_REQ 2).isDrained = true ∧ ((machIn .dormant).acted pf Reg.GLB.MODE_REQ 2).mode = .dormant ∧
    ({ (machIn .drain) with mat := { sends := [{ uid := 1, cx := 0, msn := none, ring := 0, seq := 0, pd := 0, func := 0, addr := 0, len := 0 }] } }.acted pf Reg.GLB.MODE_REQ 2).isDrained = false ∧
    ((machIn .safe).acted pf Reg.GLB.MODE_REQ 2).mayLeaveSafe = false ∧
    ({ (machIn .safe) with flt := { (machIn .safe).flt with acked := true } }.acted pf Reg.GLB.MODE_REQ 2).mayLeaveSafe = true ∧
    ((machIn .train).acted pf Reg.GLB.MODE_REQ 4).mode = .train ∧ ((machIn .run).acted pf Reg.GLB.MODE_REQ 5).mode = .run ∧
    (machIn .run).passes pf { Reg.GLB.MODE_REQ with rights := Role.installer } 0 = true ∧
    ((machIn .run).acted pf { Reg.GLB.MODE_REQ with rights := Role.installer } 7).mode ≠ .lockout ∧
    (machIn .run).modeBusy 2 .reaction = true ∧ (4, (machIn .config).mode.code) = (4, 2) := by decide

theorem wit_startup : (machIn .attest).mode = .attest ∧ (machIn .attest).boot.attestOk = false ∧ (machIn .attest).boot.lockMarker = false ∧
    (machIn .train).mode = .train ∧ ((machIn .train).put Reg.GLB.REQ_TIME_LOCK 0).ready = true ∧
    ((machIn .train).elapseTo 500).ready = false ∧ (machIn .drain).isDrained = true ∧ (machIn .drain).boot.drainSeen = false ∧
    (((machIn .train).enterMode .config 0).isSet Reg.GLB.AUTO_START = false) ∧
    ((((machIn .train).put Reg.GLB.AUTO_START 1).enterMode .config 0).isSet Reg.GLB.AUTO_START = true) := by decide +kernel

theorem wit_startup_clauses : ({ (machIn .attest) with boot := { (machIn .attest).boot with attestOk := true } }).boot.attestOk = true ∧
    (machIn .run).mode ≠ .attest ∧ (machIn .run).mode ≠ .train ∧ (machIn .run).mode ≠ .drain ∧
    ({ (machIn .drain) with mat := { sends := [{ uid := 1, cx := 0, msn := none, ring := 0, seq := 0, pd := 0, func := 0, addr := 0, len := 0 }] } }).isDrained = false ∧
    ({ (machIn .drain) with boot := { (machIn .drain).boot with drainSeen := true } }).boot.drainSeen = true ∧
    ({ (machIn .attest) with boot := { (machIn .attest).boot with lockMarker := true } }).boot.lockMarker = true ∧
    (machIn .train).boot.started = false ∧ (((machIn .train).enterMode .run 0).boot.started = true) ∧
    (swapMode .config && !swapMode .train) = true ∧ (netMode .run && !netMode .config) = true ∧
    ((((machIn .config).put Reg.GLB.AUTO_START 1).runCfgCheck).isSet Reg.RTE.CFG_OK = false) := by decide

theorem wit_resets : (machIn .config).passes pf Reg.GLB.WARM_RESET 0 = true ∧ ((machIn .config).acted pf Reg.GLB.WARM_RESET 1).mode = .config ∧
    ((machIn .safe).acted pf Reg.GLB.WARM_RESET 1).mode = .safe ∧ ((machIn .safe).acted pf Reg.GLB.WARM_RESET 1).mayLeaveSafe = false ∧
    ({ (machIn .safe) with flt := { (machIn .safe).flt with acked := true } }.acted pf Reg.GLB.WARM_RESET 1).mayLeaveSafe = true ∧
    ((machIn .run).acted pf Reg.GLB.WARM_RESET 1).mode ∉ [Mode.config, .drain, .safe] ∧
    ((machIn .config).record 0x0020 5 [2]).warmed.mode = .config ∧ ((machIn .safe).record 0x0020 5 [6]).warmed.mode ≠ .config ∧
    (machIn .run).passes pf Reg.GLB.MODULE_RESET 0 = true ∧ persistentKey (Reg.GLB.AUTO_START.key 0) = true ∧
    warmKeeps (Reg.TIM.STATE.key 0) = false ∧ warmKeeps (Reg.EVR.SUPPRESSED.key 0) = true ∧ indexKey (Reg.EVR.SUPPRESSED.key 0) = false := by
  decide

/-- A detection of a source of kind E, and one of kind L. -/
def aDet : Detection := { fs := 21, unit := .port 3, detail := 0, hgt := 0, atc := 5, origin := 0 }
def lDet : Detection := { aDet with fs := 28 }
/-- The block with a detection on its wires, and with a handling open. -/
def wiredMach : Mach := { (machIn .run) with flt := { (machIn .run).flt with wires := [aDet] } }
def handledMach : Mach := wiredMach.openHandling aDet 1

theorem wit_faults_clauses :
    (28, FUnit.port 3) ∈ ({ (machIn .run) with flt := { (machIn .run).flt with active := [(28, .port 3)] } } : Mach).flt.active ∧
    fsLevel 28 = true ∧ (machIn .run).sevOf 124 = 4 ∧ handledMach.flt.handling.elim false (fun h => decide (h.sev < 3)) = true ∧
    handledMach.flt.handling.elim true (fun h => decide (h.sev < 1)) = false ∧
    (machIn .run).isSet Reg.FLT.IRQ_EN = false ∧ ((machIn .run).put Reg.FLT.IRQ_EN 1).isSet Reg.FLT.IRQ_EN = true ∧
    (machIn .run).get Reg.FLT.IRQ_VEC < vectorsOf 0 ∧ (machIn .run).slotPresent 0 = true ∧ (machIn .run).get Reg.FLT.IRQ_SLOT = 0 ∧
    (machIn .run).isSet Reg.FLT.GATES_OFF = false ∧ ((machIn .run).put Reg.FLT.GATES_OFF 1).isSet Reg.FLT.GATES_OFF = true ∧
    (machIn .safe).faultN = true ∧ ((machIn .run).raise 48 (.port 3)).faultN = true ∧
    ((((machIn .run).put Reg.FLT.FAULTN 1 24).put Reg.FLT.STICKY 1 24).faultN = true) ∧ fsReserved 24 = false ∧
    ((machIn .run).collect { aDet with fs := 48 }).faultN = true ∧ 16 ≤ (List.range 16).length := by decide

theorem wit_faults : fsReserved 127 = true ∧ fsReserved aDet.fs = false ∧ aDet ∈ wiredMach.flt.wires ∧ lDet ∉ wiredMach.flt.wires ∧
    fsLevel aDet.fs = false ∧ fsLevel lDet.fs = true ∧ (lDet.fs, lDet.unit) ∉ wiredMach.flt.active ∧
    firstWire wiredMach.flt.wires = some aDet ∧ (machIn .run).flt.wires = [] ∧ wiredMach.sevOf aDet.fs = 1 ∧
    wiredMach.sevOf 24 = 0 ∧ wiredMach.sevOf 7 = 3 ∧ wiredMach.flt.handling = none ∧ handledMach.flt.handling.isSome = true ∧
    (machIn .run).passes pf (Reg.FLT.FORCE 2) 0 = true ∧ (machIn .attest).mode = .attest ∧ (machIn .safe).mode = .safe ∧
    (machIn .lockout).mode = .lockout ∧ (machIn .run).mode ≠ .lockout ∧ (machIn .run).faultN = false := by decide

theorem wit_handlings : (machIn .run).passes pf Reg.FLT.FLT_ACK 0 = true ∧ (machIn .run).evr.held.length < 4 ∧
    4 ≤ ({ (machIn .run) with evr := { (machIn .run).evr with held := handledMach.evr.queue ++ handledMach.evr.queue ++ handledMach.evr.queue ++ handledMach.evr.queue } } : Mach).evr.held.length ∧
    handledMach.flt.handling.isSome = true ∧ handledMach.evr.openRec.isSome = true ∧
    (machIn .run).passes pf Reg.FLT.STICKY 0 = true ∧ (machIn .run).passes pf (Reg.FLT.STICKY_BANK 1) 0 = true ∧
    (machIn .run).passes pf Reg.FLT.SLOT_CONT 0 = true ∧ (machIn .run).passes pf Reg.FLT.CNT_CLR 0 = true ∧
    Tbl.find (wiredMach.collect aDet).flt.lastSet 21 = some 0 ∧ bit (((machIn .run).containSlot 3).get Reg.FLT.SLOT_CONT) 3 = true ∧
    (28, FUnit.port 3) ∈ ((machIn .run).raise 28 (.port 3)).flt.active ∧ (94, FUnit.none) ∈ ((machIn .run).raise 94 .none).flt.active ∧
    (7, FUnit.rail 2) ∈ ((machIn .run).raise 7 (.rail 2)).flt.active ∧ railGroup 2 ≤ (railMach 3 false).pwr.groups := by decide

theorem wit_handlings_clauses : (wiredMach.collect aDet).setAnew 21 = true ∧
    { (wiredMach.collect aDet) with clk := 2 * Config.aonCycles }.setAnew 21 = false ∧ Tbl.find (machIn .run).flt.lastSet 21 = none ∧
    (machIn .run).flt.handling = none ∧ bit ((machIn .run).get Reg.FLT.SLOT_CONT) 3 = false ∧ (28, FUnit.port 3) ∉ (machIn .run).flt.active ∧
    (95, FUnit.none) ∈ ((machIn .run).raise 95 .none).flt.active ∧ (railMach 3 false).pwr.groups < railGroup 25 ∧
    ((railMach 3 false).put Reg.PWR.PGOOD 1).isSet Reg.PWR.PGOOD = true ∧ ((railMach 3 false).put Reg.PWR.PGOOD 0).isSet Reg.PWR.PGOOD = false ∧
    ((railMach 8 false).put Reg.PWR.RAIL_OK (2 ^ 26 - 2)).get Reg.PWR.RAIL_OK ||| 2 ^ 0 = 2 ^ 26 - 1 := by decide

/-- The block with one record in its queue; with 224; and with suppressed and lost records. -/
def queuedMach : Mach := (machIn .run).record 0x1101 4 []
def ladenMach : Mach := { queuedMach with evr := { queuedMach.evr with queue := List.flatten (List.replicate 224 queuedMach.evr.queue) } }
def packedMach : Mach :=
  let r := queuedMach.evr.queue.map (fun (x : Rec) => { x with reserved := true })
  { ladenMach with evr := { ladenMach.evr with queue := ladenMach.evr.queue ++ List.flatten (List.replicate 32 r) } }
def lossMach : Mach :=
  { (machIn .run) with evr := { (machIn .run).evr with lostNow := 2, supp := [(0x4020, 3, 0)]
                                                       buckets := [(0x4020, { credit := 0, atc := 0 })] } }

theorem wit_records : (machIn .run).evr.roomExempt = true ∧ (machIn .run).evr.waiting = [] ∧ packedMach.evr.roomExempt = false ∧
    neverWaits 1 = true ∧ neverWaits 0x9001 = false ∧ (lossMach.bucket 0x4020).credit < Config.hgtSec ∧
    Config.hgtSec ≤ ((machIn .run).bucket 0x4020).credit ∧ (machIn .run).evr.plainUsed < 224 ∧ 224 ≤ ladenMach.evr.plainUsed ∧
    queuedMach.evr.queue.length = 1 ∧ (machIn .run).evr.queue = [] ∧ ((machIn .run).burstRate 0x4020).2 ≠ 0 ∧
    (((machIn .run).put Reg.EVR.RL_RATE 0).burstRate 0x4020).2 = 0 ∧ ({ queuedMach with evr := { queuedMach.evr with held := queuedMach.evr.queue, waiting := queuedMach.evr.queue } } : Mach).evr.held ≠ [] ∧
    neverWaits 0x2015 = true ∧ (machIn .run).evr.coversOpen 128 = false ∧ (machIn .run).evr.openRec = none ∧
    ({ handledMach.evr with keepFull := true, ringNext := 0, openRec := handledMach.evr.openRec.map (fun r => { r with place := 16777216, keep := false }) } : Evr).coversOpen 128 = true ∧
    (machIn .run).lostFirst.evr.roomExempt = true ∧ lossMach.evr.lostNow ≠ 0 ∧
    lossMach.evr.supp = (0x4020, 3, 0) :: [] ∧ (machIn .run).passes pf Reg.EVR.CNT_CLR 0 = true ∧
    (machIn .run).evr.keepFull = false := by decide +kernel

theorem wit_rec_read : (machIn .run).passes pf Reg.EVR.RD_GO 0 = true ∧ (machIn .run).evr.written 0 = false ∧
    queuedMach.evr.written 0 = false ∧ ({ queuedMach.evr with queue := [] } : Evr).written 0 = true ∧
    (({ queuedMach.evr with queue := [] } : Evr).find 0).isSome = true ∧
    ({ queuedMach.evr with queue := [], where_ := [] } : Evr).find 0 = none ∧
    recordGood 0 ((queuedMach.evr.queue.map (fun (x : Rec) => x.toBytes)).flatten) = true ∧ recordGood 1 [] = false ∧
    (machIn .run).passes pf Reg.EVR.LEDGER_GO 0 = true ∧ (machIn .run).evr.ledger ≤ 0 ∧ (machIn .run).passes pf Reg.EVR.VERIFY_GO 0 = true ∧
    (machIn .run).evr.verBusy = false ∧ (({ (machIn .run) with evr := { (machIn .run).evr with verBusy := true, ledger := 4 } }) : Mach).evr.verBusy = true ∧
    (some 9).any (fun k => decide (k < 0 ∨ 4 ≤ k)) = true := by decide +kernel

/-- The block whose function 0 exports from record 0, with one record written. -/
def exportMach : Mach :=
  { queuedMach with evr := { queuedMach.evr with
      queue := [], exports := [(0, { busy := true, next := 0, upTo := 1, atc := 0, limit := 1024, pd := 3 })] } }

theorem wit_exports : (machIn .run).passes pf Reg.EVR.EXP_GO 0 = true ∧ ((machIn .run).export_ 0).busy = false ∧
    (exportMach.export_ 0).busy = true ∧ (exportMach.export_ 0).wait = false ∧
    (exportMach.export_ 0).next < (exportMach.export_ 0).upTo ∧ exportMach.evr.written 0 = true ∧
    (exportMach.evr.find 0).isSome = true ∧ ({ exportMach.evr with where_ := [] } : Evr).find 0 = none ∧ queuedMach.evr.written 0 = false ∧
    Tbl.find (machIn .run).xlt.pds 0 = none ∧ Tbl.find ringMach.xlt.pds 3 = none ∧
    (exportMach.hostAccess (exportMach.exportOp 0 (exportMach.export_ 0) (zeros 64))).2 = .fault { stage := 1, level := 0, kind := 0, addr := 0 } ∧
    (({ exportMach with xlt := xltMach.xlt } : Mach).hostAccess (exportMach.exportOp 0 { exportMach.export_ 0 with pd := 0 } (zeros 64))).2 = .issued ∧
    (({ exportMach with xlt := { xltMach.xlt with cache := [] } } : Mach).hostAccess (exportMach.exportOp 0 { exportMach.export_ 0 with pd := 0 } (zeros 64))).2 = .waiting ∧
    { exportMach.export_ 0 with wait := true }.wait = true := by decide

theorem wit_no_register : (machIn .config).pathAwake pf = true ∧ (machIn .dormant).pathAwake pf = true ∧
    (machIn .dormant).mode.decodes (decoded 0x10000 / 65536) = false ∧ (machIn .dormant).mode ≠ .lockout ∧
    (machIn .lockout).mode = .lockout := by decide

/-- OWN_DA, a register of one INSTALLER field: with a grant its write passes, without one it is refused. -/
theorem wit_ordinary : (machIn .run).pathAwake pf = true ∧ 0x40008 < 0x120000 ∧
    (machIn .run).mode.decodes (decoded 0x40008 / 65536) = true ∧ (machIn .run).mode ≠ .lockout ∧
    regFields (decoded 0x40008) = [Reg.RTE.OWN_DA] ∧ Reg.RTE.OWN_DA.acc = .rw ∧ Reg.RTE.OWN_DA.off = decoded 0x40008 ∧
    actsAt (decoded 0x40008) = false ∧ 0x40008 ∉ [0x10000, 0x40024, 0x40034, 0x40040] ∧
    (machIn .run).streamTaken pf (decoded 0x40008) = none ∧ (machIn .run).inst pf Reg.RTE.OWN_DA = some 0 ∧
    (machIn .run).view pf Reg.RTE.OWN_DA 0 = none ∧ ((machIn .run).roleOf pf).covers Reg.RTE.OWN_DA.rights = true ∧
    (machIn .run).mustWait pf Reg.RTE.OWN_DA Reg.RTE.OWN_DA.priv = false ∧
    ((machIn .run).roleOf (.pf0 2)).covers Reg.RTE.OWN_DA.rights = false ∧ (machIn .run).behindWrite (.pf0 2) Reg.RTE.OWN_DA.block = false ∧
    ((machIn .run).stall pf 0x40008 1 0xFFFFFFFF).behindWrite pf Reg.RTE.OWN_DA.block = true ∧
    regFields (decoded 0x20008) ≠ [] := by decide

/-- A privileged write with no room for its record waits; an index beyond the range reaches no field. -/
theorem wit_ordinary_waits : packedMach.mustWait pf Reg.RTE.OWN_DA true = true ∧ packedMach.behindWrite pf Reg.RTE.OWN_DA.block = false := by
  decide +kernel

/-- TIM's HGT pair at 0x0008: the low word is in the list, the high word is not, and a copy may be held. -/
theorem wit_high_word : (machIn .run).pathAwake pf = true ∧ (machIn .run).mode.decodes (decoded 0x10008 / 65536) = true ∧
    decoded 0x10008 ≠ 0x2000C ∧ lowWords.contains (decoded 0x10008) = true ∧ lowWords.contains (decoded 0x1000C) = false ∧
    Tbl.find (machIn .run).hold (holdKey pf (decoded 0x1000C)) = none ∧
    Tbl.find ({ (machIn .run) with hold := [(holdKey pf 0x1000C, 7)] } : Mach).hold (holdKey pf (decoded 0x1000C)) = some 7 := by
  decide

/-- A read of an AON window behind a privileged write that waits. -/
theorem wit_read_waits : aonBlock (decoded 0xD0048 / 65536) = true ∧ ((machIn .run).stall pf 0xD0048 1 0xFFFFFFFF).aonWaits pf = true ∧
    (machIn .run).aonWaits pf = false ∧ aonBlock (decoded 0x10008 / 65536) = false := by decide

/-- Session 3 over I3C, of MAKER. -/
def sessState (md : Mode) : State :=
  { (stIn md) with m := { (machIn md) with rol := { (machIn md).rol with sessions :=
      [(3, { via := .i3c, role := .maker, keySlot := none, mutualAuth := true, done := true, keyHash := [], last := 0 })] } } }
/-- A message inside that session. -/
def inSess : Path := { via := .i3c, sess := some 3 }

theorem wit_spdm : (sessState .run).m.mgmtHeard inSess = true ∧ inSess.sess ≠ none ∧
    (stIn .run).m.mgmtHeard { via := .smbus } = true ∧ (7 : Nat) ≠ 0 ∧ (∃ bs, (stIn .run).measurementBlocks 0 = some bs) := by
  refine ⟨by decide, by decide, by decide, by decide, _, rfl⟩

theorem wit_spdm_unheard : (stIn .run).m.mgmtHeard inSess = false ∧ (stIn .run).measurementBlocks 12 = none ∧
    (stIn .run).m.boot.recovery = false ∧ inSess.via ≠ .smbus ∧
    ({ (machIn .run) with boot := { (machIn .run).boot with recovery := true } } : Mach).mgmtHeard inSess = false ∧
    ({ (machIn .run) with rol := { (machIn .run).rol with i3cAddr := some 9 } } : Mach).mgmtHeard { via := .smbus } = false := by decide

/-- As `sessState`, with the session waiting for FINISH, and SMBus busy until cycle 5. -/
def halfOpen : State :=
  { (stIn .run) with m := { (machIn .run) with rol := { (machIn .run).rol with busy := [(1, 5)], sessions :=
      [(3, { via := .i3c, role := .operator, keySlot := some 4, mutualAuth := true, done := false, keyHash := [], last := 0 })] } } }

theorem wit_sessions : halfOpen.m.mgmtHeard { via := .i3c } = true ∧ (halfOpen.m.heard { via := .i3c }).authBusy .i3c = false ∧
    (halfOpen.m.heard { via := .i3c }).freeSession = some 0 ∧ (halfOpen.m.heard { via := .smbus }).authBusy .smbus = true ∧
    halfOpen.m.mgmtHeard { via := .smbus } = true ∧
    Tbl.find (halfOpen.m.heard { via := .i3c }).rol.sessions 3 = some
      { via := .i3c, role := .operator, keySlot := some 4, mutualAuth := true, done := false, keyHash := [], last := 0 } ∧
    (sessState .run).m.mgmtHeard inSess = true ∧ inSess.sess = some 3 ∧
    (Tbl.find (sessState .run).m.rol.sessions 3).isSome = true ∧ (Tbl.find (stIn .run).m.rol.grants 0).isSome = true ∧
    Tbl.find halfOpen.m.rol.busy (transportKey .smbus) = some 5 ∧ Tbl.find halfOpen.m.rol.sessions 4 = none ∧
    Tbl.find halfOpen.m.rol.grants 4 = none ∧ Tbl.find halfOpen.m.rol.busy (transportKey .i3c) = none ∧
    ({ halfOpen.m with rol := { halfOpen.m.rol with sessions := (List.range 16).map (fun k =>
      (k, { via := .i3c, role := .none, keySlot := none, mutualAuth := false, done := true, keyHash := [], last := 0 })) } } : Mach).freeSession = none := by decide

/-- DORMANT, with the same session and a key enrolled in slot 0 of another. -/
theorem wit_role_commands : (sessState .dormant).m.commands inSess .operator = true ∧
    ((sessState .dormant).m.heard inSess).mode = .dormant ∧ ((sessState .dormant).m.heard inSess).evr.held.length < 4 ∧
    (sessState .run).m.commands inSess .installer = true ∧ (sessState .run).m.commands inSess .maker = true ∧
    (sessState .run).m.commands inSess .none = true ∧ 5 ≤ ((sessState .run).m.heard inSess).grantMax ∧
    ((sessState .run).m.heard inSess).slotPresent 2 = true ∧ ((sessState .run).m.heard inSess).rol.grants.length < 4 ∧
    ((sessState .run).m.heard inSess).rol.claimed = false ∧ (machIn .run).passes pf Reg.ROL.ROLE_DROP 0 = true ∧
    ((stIn .run).m.heard { via := .i3c }).pathRole { via := .i3c } = .none ∧ (stIn .run).m.mgmtHeard { via := .i3c } = true ∧
    ((sessState .lockout).m.heard inSess).mode = .lockout ∧ (sessState .lockout).m.mgmtHeard inSess = true ∧
    (((sessState .lockout).m.heard inSess).pathRole inSess).covers .maker = true ∧
    ((sessState .run).m.heard inSess).modeBusy 2 .reaction = true ∧ ((sessState .run).m.heard inSess).modeBusy 2 .alone = false ∧
    ((sessState .run).m.heard inSess).mode ≠ .dormant ∧ ({ via := .doe 3, sess := some 3 } : Path).via = .doe 3 ∧
    ({ (sessState .run).m with rol := { (sessState .run).m.rol with sessions :=
      [(3, { via := .doe 3, role := .maker, keySlot := none, mutualAuth := true, done := true, keyHash := [], last := 0 })] } } : Mach).commands
        { via := .doe 3, sess := some 3 } .installer = true ∧
    (stIn .run).m.commands { via := .i3c } .none = true ∧ Tbl.find (stIn .run).m.rol.grants 5 = none ∧
    ({ (sessState .run).m.rol with grants := [(0, { sess := 0, role := .maker, ends := 9 }), (1, { sess := 0, role := .maker, ends := 9 }),
      (2, { sess := 0, role := .maker, ends := 9 }), (3, { sess := 0, role := .maker, ends := 9 })] } : Rol).grants.length = 4 := by decide

theorem wit_mctp : (sessState .run).m.mgmtHeard inSess = true ∧
    (((sessState .run).m.heard inSess).pathRole inSess).covers .operator = true ∧ 0x10008 % 4 = 0 ∧
    ((sessState .run).m.heard inSess).mode ≠ .lockout ∧
    (stIn .run).m.mgmtHeard { via := .i3c } = true ∧ (((stIn .run).m.heard { via := .i3c }).pathRole { via := .i3c }).covers .operator = false ∧
    0 < (({ (machIn .run) with evr := { ledger := 1 } } : Mach).heard { via := .i3c }).evr.ledger ∧
    ({ (machIn .run) with evr := { ledger := 1 } } : Mach).mgmtHeard { via := .i3c } = true ∧
    (machIn .run).passes pf Reg.ROL.CNT_CLR 0 = true ∧ (stIn .run).m.mgmtHeard inSess = false ∧
    ({ (machIn .run) with boot := { (machIn .run).boot with recovery := true } } : Mach).boot.recovery = true ∧
    ((sessState .lockout).m.heard inSess).mode = .lockout ∧ (machIn .lockout).mode = .lockout ∧
    ((machIn .run).heard { via := .i3c }).evr.ledger ≤ 0 := by decide

/-- The block with bank 3 counting, PC2 at its last value, a wrap of PC1 due, a snapshot armed and stream 4 running. -/
def countMach : Mach :=
  { (machIn .run).put64 (Reg.PMC.PC_LO 2) (Reg.PMC.PC_HI 2) (2 ^ 48 - 1) 3 with
    pmc := { on := [3], due := [(3, 1, 7)], snapAt := some 9, streams := [(4, { slot := 0, seq := 0, due := 20 })] } }

theorem wit_counters : (machIn .run).passes pf Reg.PMC.SNAP 0 = true ∧ (machIn .run).passes pf Reg.PMC.SNAP_ALL 0 = true ∧
    (machIn .run).passes pf Reg.PMC.SNAP_ARM 0 = true ∧ (machIn .run).passes pf Reg.PMC.CLR 0 = true ∧
    (machIn .run).pmc.snapAt = none ∧ countMach.pmc.snapAt = some 9 ∧ (3, 1, 7) ∈ countMach.pmc.due ∧ 3 ∈ countMach.pmc.on ∧
    countMach.pcChained 3 2 = false ∧ (countMach.put (Reg.PMC.CHAIN 3) 1 3).pcChained 3 3 = true ∧ countMach.pc 3 2 = 2 ^ 48 - 1 ∧
    countMach.pc 3 0 ≠ 2 ^ 48 - 1 ∧ (Tbl.find countMach.pmc.streams 4).isSome = true ∧ Tbl.find countMach.pmc.streams 5 = none ∧
    (countMach.streamPd 4 0) = none ∧ (({ countMach with xlt := xltMach.xlt } : Mach).streamPd 4 0).isSome = true := by decide

/-- Stream 4 of `countMach` runs for slot 0 over a PD of slot 0. -/
def streamMach : Mach := { countMach with xlt := xltMach.xlt }

/-- The access of a write of stream 4's next record, as STREAM_PERIOD makes it after the body's write. -/
def recordWrite (m : Mach) (i j : Nat) : Mach × HostResult :=
  m.hostAccess (m.streamOp 4 { slot := 0, seq := 0, due := 20 } aPd i j)

theorem wit_stream_write : (recordWrite (streamMach.elapseTo 20) 8 128).2 = .issued ∧
    (recordWrite (recordWrite (streamMach.elapseTo 20) 8 128).1 0 8).2 = .issued ∧
    (recordWrite (({ streamMach with xlt := xltMach.xlt } : Mach).put64 Reg.PMC.STR_VA_LO Reg.PMC.STR_VA_HI (2 ^ 60) 4) 8 128).2 =
      .fault { stage := 2, level := 0, kind := 0, addr := 2 ^ 60 + 8 } := by decide

theorem wit_stream : (countMach.passes pf Reg.PMC.SNAP 3 = true ∨ countMach.passes pf Reg.PMC.SNAP 0 = true) ∧
    ((countMach.put Reg.PMC.OVF_IRQ_EN 4 3).pcAdd 3 2 1 9).pmc.due = [(3, 1, 7), (3, 2, 9)] ∧ (countMach.pcAdd 3 2 1 9).get Reg.PMC.OVF 3 = 4 ∧
    countMach.pc 3 0 + 1 < 2 ^ 48 ∧ (3, 0, 0) ∉ countMach.pmc.due ∧ (3, 2, 0) ∉ countMach.pmc.due ∧
    (countMach.pcAdd 3 2 1 countMach.clk).clearOvf 3 4 = countMach.pcAdd 3 2 1 countMach.clk ∧
    ((countMach.pcAdd 3 2 1 (countMach.clk + 1)).clearOvf 3 4).get Reg.PMC.OVF 3 = 0 ∧
    (streamMach.elapseTo 20).streamPd 4 0 ≠ none ∧ (countMach.elapseTo 20).streamPd 4 0 = none ∧
    countMach.pathAwake (.pf0 1) = true ∧ countMach.mode.decodes 17 = true ∧ countMach.mode ≠ .lockout ∧
    ((streamMach.put Reg.PMC.STR_IDX 4 1).roleOf (.pf0 1)).covers .operator = true ∧
    (countMach.put Reg.PMC.STR_IDX 4 1).get Reg.PMC.STR_IDX (Requester.pf0 1).fnKey = 4 := by decide


/-! ### The spec's worked examples -/

/-- R84's check value: the CRC-32C of the nine ASCII bytes "123456789" is 0xE306_9283. -/
theorem test_crc_check_value : crc32c [0x31, 0x32, 0x33, 0x34, 0x35, 0x36, 0x37, 0x38, 0x39] = 0xE3069283#32 := by decide +kernel

/-- R56: the generator is the product of x − α^j for j from 0 to 29. -/
theorem test_generator_has_its_roots :
    rsGenerator = (List.range 30).foldl (fun p j => polyTimesRoot p (alpha j)) [1] := by decide

/-- R56: a message whose last symbol alone is 1 has the generator's lower coefficients as its parity. -/
theorem test_parity_of_the_last_symbol : rsParity (List.replicate 513 0 ++ [1]) = rsGenerator.drop 1 := by decide +kernel

/-- R32's example: at HGT 0x0123_4567_89AB a packet carries INJ_TS 0x3456_789A, 34,662 ns old at low word 0x3457_0000. -/
theorem test_injection_stamp_and_age :
    ({ (machIn .run) with tim := { (machIn .run).tim with hgt := { q0 := 0x0123456789AB * 2 ^ 32 } } } : Mach).stamp 0 = 0x3456789A ∧
    sub32 0x34570000 0x3456789A = 34662 := by decide

/-- File 01's example: host slot 9 is the upper half of HP4, in Q2; port NP100 has lanes 400 to 403, in Q3. -/
theorem test_slot_and_port_places : quadOfSlot 9 = 2 ∧ quadOfPort 100 = 3 ∧ portOfLane 400 = 100 ∧ portOfLane 403 = 100 := by decide

/-- Table 18-6, steps 2 to 5: PWR 0x0004 resets to 0x1804_0000; with the grant, writing 0x1808_0000 makes FAULT_TIME 8, counts in
AON_WSEQ, and is recorded as 0x9001 with the old and the new word. -/
theorem test_granted_change_to_a_feed_timer :
    let s := (State.regWrite (stIn .run) pf 0xD0004 0x18080000).1
    (machIn .run).storedWord 0xD0004 0 = 0x18040000 ∧ s.m.storedWord 0xD0004 0 = 0x18080000 ∧ s.m.get Reg.PWR.FAULT_TIME 0 = 8 ∧
    s.m.get Reg.ROL.AON_WSEQ 0 = 1 ∧ s.m.get Reg.ROL.AON_ASEQ 0 = 1 ∧
    s.m.evr.queue.map (fun (x : Rec) => (x.code, slice x.toBytes 32 16)) =
      [(0x9001, leBytes 4 0xD0004 ++ leBytes 4 0x18040000 ++ leBytes 4 0x18080000 ++ leBytes 4 0x18080000)] := by decide

/-- The end of that example: with OPERATOR only, a write to the alias 0x0084 changes nothing, and 0x9801 names offset 0x0004 of PWR
and refused bit 0. -/
theorem test_alias_write_refused :
    let s := (State.regWrite { (stIn .run) with m := ({ (machIn .run) with rol := {} } : Mach).put Reg.ROL.OP_SLOTS 0xFFFF } pf 0xD0084 0x18040001).1
    s.m.storedWord 0xD0004 0 = 0x18040000 ∧
    s.m.evr.queue.map (fun (x : Rec) => (x.code, x.body)) = [(0x9801, .plain [0xD0004, 0x18040001, 1])] := by decide

/-- Table 16-10: FS23 and FS21 of NP40 have been detected. -/
def twoErrors : Mach :=
  ((machIn .run).collect ⟨23, .port 40, 0, 0, 0, 4, false⟩).collect ⟨21, .port 40, 0, 0, 0, 4, false⟩

/-- Its steps 1 and 3: one handling, which lists 23 and 21 with MERGED 1, and one record. -/
theorem test_two_errors_merge :
    twoErrors.flt.handling.any (fun h => h.first == 23 && h.list == [23, 21] && h.merged == 1 && h.sev == 1 && !h.escalated) = true ∧
    twoErrors.evr.queue.map (·.code) = [0x2017] ∧ twoErrors.mode = .run := by decide

/-- Its steps 4 to 7: FS7 merges, MERGED 2, severity 3, ESCALATED; the SAFE reaction closes the handling. -/
theorem test_third_error_escalates :
    let m := twoErrors.collect ⟨7, .rail 3, 0, 0, 0, 4, false⟩
    m.flt.handling.isNone = true ∧
    m.flt.last.any (fun h => h.first == 23 && h.list == [23, 21, 7] && h.merged == 2 && h.sev == 3 && h.escalated) = true := by
  decide +kernel

/-- The burst of lifetime discards of file 17: a full bucket gives 16 records of one instant, and the 17th is suppressed. -/
theorem test_bucket_gives_sixteen_records :
    let m := (List.range 17).foldl (fun (a : Mach) _ => a.record 0x4020 0 []) (machIn .run)
    m.evr.queue.length = 16 ∧ Tbl.find m.evr.supp 0x4020 = some (1, 0) ∧ m.get Reg.EVR.SUPPRESSED = 1 := by decide +kernel

/-- The example after R226, at the defaults: with BASE 1,150 ns and CWND 262,144 B an ACK with OWD 8,150 ns makes CWND 168,521 B; a later
one that advances UNA by 33,280 B with OWD 2,900 ns makes it 169,342 B. -/
theorem test_window_example :
    let m := (machIn .run).put Reg.TIM.STATE 1
    let t : TxHalf := { epoch := 0, openTs := 0, cwnd := 262144, owdAt := 0, owdPrev := some 1150 }
    (m.window t 0 8150).cwnd = 168521 ∧ (m.window { t with cwnd := 168521 } 33280 2900).cwnd = 169342 := by decide

/-- R266 to R268: in BF16, 1.0 (0x3F80) and 1.0 make 2.0 (0x4000) exactly; infinity and its negative make the quiet NaN, invalid. -/
theorem test_bf16_sums : bf16.add 0x3F80 0x3F80 = (0x4000, 0) ∧ bf16.add 0x7F80 0xFF80 = (0x7FC0, fpInvalid) := by decide

/-! ### Ill-formed commands: one for each check -/

/-- Small parts of commands. -/
def aView : TimeView := ⟨0, 0, 0, 0, 0⟩
def aTime : TimeFrame := ⟨0, 0, aView, 0, 0, 0, 0⟩
def plainEntry : Entry := ⟨0, 0, 0, true, 0, 0, 0, 0, .none, [], true⟩
def wfTrain : TrainFrame :=
  ⟨.req, .full, 0, 0, 15, 4, 7, 0, 0, 0, false, List.replicate 8 0, 0, [], List.replicate 8 0, 0⟩
def aCicada : CicadaIn := ⟨List.replicate 9 0, [0, 0], [0, 0], 0, List.replicate 26 0, List.replicate 26 0⟩
def aBoot : BootIn :=
  ⟨⟨true, 0, 0⟩, ⟨true, 0, 0⟩, 0, List.replicate 5 ⟨true, true, 0, 0, 1⟩, true, 0, false, false, none, true, none, 0⟩
def mcu : Path := ⟨.i3c, none⟩
def eye : EyeScan := ⟨List.replicate 289 0⟩
def rx0 : Rx := { crc := 0 }
def longRx : Rx := { crc := 2 ^ 32 }
def aBlock : AlignBlock := { lane := 0, fecEn := true, precode := true, ready := true, rate := 0, index := 0, inverted := false }

theorem test_parts_are_well_formed : aTime.wf = true ∧ plainEntry.wf = true ∧ wfTrain.wf = true ∧ aCicada.wf = true ∧ aBoot.wf = true ∧
    eye.wf = true ∧ rx0.wf = true ∧ aBlock.wf = true ∧ aHdr.wf = true ∧ lkuPkt.wf = true := by decide +kernel

theorem test_ill_formed_units : (Instr.dieLinkDown 1 1).wf = false ∧ (Instr.dieLinkGate 2 2).wf = false ∧
    (Instr.engineWake ⟨.mte, 0, 4⟩).wf = false ∧ (Instr.engineGateClose ⟨.lku, 0, 1⟩).wf = false ∧
    (Instr.yarrowStep ⟨.cle, 0, 2⟩ ⟨none, 0, 0, 0, false, 0⟩).wf = false ∧
    (Instr.conditionEnd 28 (.port 128)).wf = false ∧ (Instr.conditionEnd 1 (.feed 2)).wf = false ∧
    (Instr.conditionEnd 7 (.rail 26)).wf = false ∧ (Instr.conditionEnd 70 (.slot 16)).wf = false ∧
    (Instr.conditionEnd 67 (.ring 0 65536)).wf = false ∧ (Instr.railFault 26).wf = false ∧ (Instr.railGroupStart 10).wf = false ∧
    (Instr.railGroupDischarge 0).wf = false ∧ (Instr.faultDetection (some ⟨128, .none, 0, 0, 0, 4, false⟩)).wf = false := by decide

theorem test_ill_formed_time_and_lanes : (Instr.timeReq 0 ⟨{ aTime with exch := 256 }, rx0⟩).wf = false ∧ (Instr.timeReq 0 ⟨aTime, longRx⟩).wf = false ∧
    (Instr.timeRsp 0 ⟨{ aTime with view := { aView with hops := 16 } }, rx0⟩).wf = false ∧ (Instr.rootLost 256 0).wf = false ∧
    (Instr.ptmRequest 0 (2 ^ 32)).wf = false ∧ (Instr.codewordReceive 0 ⟨[0]⟩).wf = false ∧
    (Instr.codewordReceive 0 ⟨List.replicate 2720 4⟩).wf = false ∧
    (Instr.alignBlock 0 { aBlock with rate := 4 }).wf = false ∧ (Instr.wakeBurstReceive 0 [0]).wf = false ∧
    (Instr.scanComplete 0 eye ⟨[]⟩ eye).wf = false ∧ (Instr.fullTraining 0 { locked := 15, skew := [] }).wf = false ∧
    (Instr.prbsLock 0 [4]).wf = false ∧ (Instr.hostPortLinkUp 0 ⟨4, 8⟩ ⟨0, 0⟩).wf = false := by decide +kernel

theorem test_ill_formed_frames : (Instr.dataFrame 0 ⟨8, false, false, 0, 0, lkuPkt, 0⟩ rx0).wf = false ∧
    (Instr.dataFrame 0 ⟨0, false, false, 0, 0, lkuPkt, 2 ^ 19⟩ rx0).wf = false ∧
    (Instr.creditFrame 0 ⟨0, true, 0, []⟩ rx0).wf = false ∧ (Instr.nakFrame 0 ⟨0, 256⟩ rx0).wf = false ∧
    (Instr.auditFrame 0 ⟨0, 0, [], false⟩ rx0).wf = false ∧ (Instr.trainFrame 0 { wfTrain with rates := 8 } rx0).wf = false ∧
    (Instr.trainFrame 0 { wfTrain with credits := [] } rx0).wf = false ∧ (Instr.beaconReceive 0 ⟨0, 5, 0, 0, 0, []⟩ rx0).wf = false ∧
    (Instr.unknownControlFrame 0 [] longRx).wf = false := by decide

theorem test_ill_formed_packets : (Instr.lkAcq { lkuPkt with payload := [0] }).wf = false ∧
    (Instr.lkAcq { lkuPkt with hdr := { lkuPkt.hdr with version := 2 } }).wf = false ∧
    (Instr.lkAcq { lkuPkt with hdr := { lkuPkt.hdr with rsv := 1 } }).wf = false ∧ (Instr.lkRel lkuPkt).wf = false ∧
    (Instr.atReq { lkuPkt with hdr := { lkuPkt.hdr with kind := 40, src := 2 ^ 20 } }).wf = false ∧
    (Instr.writePacket (rsxPkt 1 (.window (2 ^ 20) 0))).wf = false ∧ (Instr.rtoExpiry (2 ^ 24)).wf = false ∧
    (Instr.collRto 4096 0 0).wf = false ∧ (Instr.lockProbe 0 (2 ^ 32)).wf = false ∧ (Instr.resultTableExpiry 0 (2 ^ 20) 0).wf = false := by decide

theorem test_ill_formed_entries : (Instr.nop 65536 plainEntry).wf = false ∧ (Instr.pad 0 plainEntry).wf = false ∧
    (Instr.nop 0 { plainEntry with cr := 16384 }).wf = false ∧
    (Instr.fence 0 { plainEntry with opcode := 80, body := .lock 0 65536 0 }).wf = false ∧ (Instr.moderationTimerExpiry 16384).wf = false ∧
    (Instr.msixUnmask 0 0 2048).wf = false ∧ (Instr.wrDoorbell 0 0 65536).wf = false := by decide

theorem test_ill_formed_management : (Instr.regRead mcu 256 1 0).wf = false ∧ (Instr.regWrite mcu 0 (2 ^ 32) 0).wf = false ∧
    (Instr.keyEnrol mcu 0 []).wf = false ∧ (Instr.roleGrant mcu 256 1).wf = false ∧ (Instr.ledgerRead mcu 0 256).wf = false ∧
    (Instr.evrRead mcu 65536 0).wf = false ∧ (Instr.getCertificate mcu 8 0 0).wf = false ∧
    (Instr.vendorDefinedRequest mcu (.unknown 256)).wf = false ∧ (Instr.dynamicAddressAssignment 128).wf = false := by decide

theorem test_ill_formed_maintenance : (Instr.registerWrite pf (2 ^ 24) true 0).wf = false ∧ (Instr.counterOverflow 36 0).wf = false ∧
    (Instr.streamPeriod 32).wf = false ∧ (Instr.hbmPatrolRead 0 ⟨2 ^ 35, .clean⟩).wf = false ∧
    (Instr.swapLoaded .txe ⟨true, 0, 8193⟩).wf = false ∧ (Instr.cicadaSample { aCicada with temps := [] }).wf = false ∧
    (Instr.pgoodRise { aBoot with tables := [] }).wf = false ∧ (Instr.verifyComplete (some (2 ^ 32))).wf = false := by decide

end Sys2Proof.Tests
end

section
/-! The register accesses of file 00: where a read or a write of a requester reaches no register, what a write of a register of
one stored field does (R8 to R11, R426 to R429), and the holding copies of 64-bit quantities (R6). -/

namespace Sys2Proof.Machine

/-! ### Which windows the accesses reach -/

/-- The AON windows are decoded in every mode (R356). -/
theorem Mode.decodes_of_aonBlock (md : Mode) {b : Nat} (h : aonBlock b = true) : md.decodes b = true := by
  simp only [aonBlock, Bool.or_eq_true, decide_eq_true_eq] at h
  obtain (rfl | rfl) | rfl := h <;> rfl

/-! ### Register writes -/

/-- A write of a whole word completes with what `State.regWrite` says of the block. -/
theorem completes_registerWrite {s : State} {r : Requester} {off k : Nat} {v : Word} {m : Mach}
    (h : s.regWrite r off v.toNat = ({ s with m := m }, k)) : Completes (.registerWrite r off true v) s m := by
  change execRegisterWrite r off true v s = _
  simp [execRegisterWrite, h]

/-- Outside LOCKOUT a write that is not of a whole word has no effect (R5). -/
theorem completes_registerWrite_part {s : State} {r : Requester} (ha : s.m.pathAwake r = true) (hl : s.m.mode ≠ .lockout)
    (off : Nat) (v : Word) : Completes (.registerWrite r off false v) s s.m := by
  change execRegisterWrite r off false v s = _
  simp [execRegisterWrite, Mach.wakeFor_awake ha, hl, ok]

/-- In LOCKOUT every write is ignored and recorded, of whatever width (R356). -/
theorem completes_registerWrite_lockout {s : State} {r : Requester} (ha : s.m.pathAwake r = true) (hl : s.m.mode = .lockout)
    (off : Nat) (whole : Bool) (v : Word) : Completes (.registerWrite r off whole v) s
      (s.m.ignoreAt r (if off < 0x120000 then decoded off else off) v.toNat) := by
  change execRegisterWrite r off whole v s = _
  simp [execRegisterWrite, State.regWrite, Mach.wakeFor_awake ha, hl]

/-- Outside LOCKOUT a write beyond the register space, or to a window that is not decoded, is ignored (R11, R356). -/
theorem State.regWrite_undecoded {s : State} {r : Requester} {off : Nat} (ha : s.m.pathAwake r = true)
    (hl : s.m.mode ≠ .lockout) (h : 0x120000 ≤ off ∨ s.m.mode.decodes (decoded off / 65536) = false) (v : Nat) :
    s.regWrite r off v = (s, 0) := by
  simp [State.regWrite, Mach.wakeFor_awake ha, hl, h]

/-! ### A register of one stored field -/

/-- An offset at which requester `r` finds a register of one RW or RS field `f`, without action bits and without a stream of
another slot, in a mode that takes its writes. -/
structure Mach.OneField (m : Mach) (r : Requester) (off : Nat) (f : Field) : Prop where
  awake : m.pathAwake r = true
  inSpace : off < 0x120000
  window : m.mode.decodes (decoded off / 65536) = true
  unlocked : m.mode ≠ .lockout
  fields : regFields (decoded off) = [f]
  stored : f.acc = .rw ∨ f.acc = .rs
  place : f.off = decoded off
  noAction : actsAt (decoded off) = false
  noStream : m.streamTaken r (decoded off) = none

/-- The part of a written word that falls on a field. -/
def Field.cut (f : Field) (v : Nat) : Nat := v / 2 ^ f.lo % 2 ^ f.width

section StoredField
variable {f : Field} (hf : f.acc = .rw ∨ f.acc = .rs)
include hf

/-- A stored field takes its bits of the word (Table 0-3). -/
theorem newValue_of_stored (old v : Nat) : newValue f old v = f.cut v := by
  rcases hf with h | h <;> simp [newValue, h, Field.cut]

/-- Every write reaches a stored field. -/
theorem Field.reached_of_stored (v : Nat) : f.reached v = true := by
  rcases hf with h | h <;> simp [Field.reached, h]

/-- What is refused of a write to a stored field is the bits that would have changed (R426). -/
theorem refusedBits_of_stored (old v : Nat) : refusedBits f old v = (old ^^^ f.cut v) * 2 ^ f.lo := by
  rcases hf with h | h <;> simp [refusedBits, newValue, h, Field.cut]

/-- A stored field with no value of its own at the read reads as what it holds. -/
theorem Mach.readField_of_stored {m : Mach} {r : Requester} {i : Nat} (hv : m.view r f i = none) :
    m.readField r f i = m.get f i % 2 ^ f.width := by
  rcases hf with h | h <;> simp [Mach.readField, h, hv]

end StoredField

/-- But at the severities of R378, a field asks for the role of its table, whatever the value. -/
theorem roleNeeded_of_off_ne {f : Field} (h : f.off ≠ 0xE0004) (i v : Nat) : roleNeeded f i v = f.rights := by
  simp [roleNeeded, h]

/-- The register of the severities holds more than one field. -/
theorem regFields_severity_ne (f : Field) : regFields 0xE0004 ≠ [f] := by
  have h : (regFields 0xE0004).length ≠ 1 := by decide
  intro e
  exact h (by rw [e]; rfl)

section OneField
variable {m : Mach} {r : Requester} {off i : Nat} {f : Field}

/-- A register of one field is not that of the severities: it asks for the role of its table. -/
theorem Mach.OneField.roleNeeded (h : m.OneField r off f) (i v : Nat) : roleNeeded f i v = f.rights :=
  roleNeeded_of_off_ne (fun e => regFields_severity_ne f (by rw [← e, h.place]; exact h.fields)) i v

theorem Mach.OneField.block (h : m.OneField r off f) : decoded off / 65536 = f.block := by
  rw [← h.place]; rfl

/-- A field reached with an index out of range is not written (R433). -/
theorem State.regWrite_oneField_unreached {s : State} (h : s.m.OneField r off f) (hi : s.m.inst r f = none) (v : Nat) :
    s.regWrite r off v = (s, 0) := by
  have hro : f.acc ≠ .ro := by rcases h.stored with e | e <;> simp [e]
  simp [State.regWrite, Mach.wakeFor_awake h.awake, h.unlocked, h.window, h.fields, hro, hi]

/-- A write that reaches a register of one field is a write of its setting. -/
theorem State.regWrite_oneField {s : State} (h : s.m.OneField r off f) (hi : s.m.inst r f = some i) (v : Nat) :
    s.regWrite r off v = ({ s with m := (s.m.writeSettings r (decoded off) v [(f, i)] f i).1 },
      (s.m.writeSettings r (decoded off) v [(f, i)] f i).2) := by
  have hro : f.acc ≠ .ro := by rcases h.stored with e | e <;> simp [e]
  simp [State.regWrite, Mach.wakeFor_awake h.awake, h.unlocked, h.window, Nat.not_le_of_lt h.inSpace, h.fields, hro, hi,
    h.noAction, h.noStream]

/-- The buckets are settled before one of the recorder's rate settings changes. -/
def Mach.rateSettled (m : Mach) (d : Nat) : Mach :=
  if d = 0xF0024 || d = 0xF002C || d = 0xF0030 then m.settleBuckets else m

/-- A write of a function that has an earlier one to the block waiting joins it (R17, R428). -/
theorem Mach.writeSettings_behind (h : m.OneField r off f) (hb : m.behindWrite r f.block = true) (v : Nat)
    (fs : List (Field × Nat)) : m.writeSettings r (decoded off) v fs f i = (m.stall r (decoded off) v 0xFFFFFFFF, 0) := by
  simp [Mach.writeSettings, h.block, hb]

section InTurn
variable (h : m.OneField r off f) (hv : m.view r f i = none) (hb : m.behindWrite r f.block = false) (v : Nat)
include h hb

/-- A write within the role's rights waits for room for its record (R428). -/
theorem Mach.writeSettings_waits (hc : (m.roleOf r).covers f.rights = true) (hw : m.mustWait r f f.priv = true) :
    m.writeSettings r (decoded off) v [(f, i)] f i = (m.stall r (decoded off) v 0xFFFFFFFF, 0) := by
  unfold Field.priv at hw
  simp [Mach.writeSettings, h.block, hb, h.roleNeeded, Field.reached_of_stored h.stored, hc, hw]

/-- A write within the role's rights stores the value at the machine that has taken it up, and has its live effect. -/
theorem Mach.writeSettings_stores (hc : (m.roleOf r).covers f.rights = true) (hw : m.mustWait r f f.priv = false) (u : Mach)
    (hu : u = (m.taken r f (m.readWord r (decoded off)) v ((m.put f (f.cut v) i).readWord r (decoded off))).rateSettled
      (decoded off)) :
    m.writeSettings r (decoded off) v [(f, i)] f i =
      (Mach.liveWrite u (u.put f (f.cut v) i) r (decoded off) i (f.cut v * 2 ^ f.lo), 0) := by
  have hw1 : f.acc ≠ .w1c := by rcases h.stored with e | e <;> simp [e]
  have seen : v / 2 ^ f.lo % 2 ^ f.width = f.cut v := rfl
  unfold Field.priv at hw
  simp [Mach.writeSettings, h.block, hb, h.roleNeeded, Field.reached_of_stored h.stored, newValue_of_stored h.stored, hc, hw, hw1,
    seen, hu, Mach.rateSettled, Mach.taken, Field.priv]

include hv

/-- A write beyond the role's rights leaves the fields as they were, and is recorded where it would have changed one (R426). -/
theorem Mach.writeSettings_refused (hc : (m.roleOf r).covers f.rights = false) (bits : Nat)
    (hbits : bits = (m.get f i % 2 ^ f.width ^^^ f.cut v) * 2 ^ f.lo) :
    m.writeSettings r (decoded off) v [(f, i)] f i =
      ((if bits = 0 then m.crossAon r f else (m.crossAon r f).refuseWrite r (decoded off) v bits).rateSettled (decoded off), bits) := by
  have hw : m.mustWait r f false = false := by simp [Mach.mustWait, hb]
  subst hbits
  simp [Mach.writeSettings, h.block, hb, h.roleNeeded, Field.reached_of_stored h.stored, refusedBits_of_stored h.stored,
    Mach.readField_of_stored h.stored hv, hc, hw, Mach.rateSettled]

end InTurn

end OneField

/-- The offsets at which a write has a live effect beside storing the value. -/
def liveOffsets : List Nat :=
  [0x10000, 0x10034, 0x10038, 0x20004, 0x20040, 0x20044, 0x20054, 0x30004, 0x40024, 0x40034, 0x40040, 0x60080, 0x60090, 0xC00A8,
   0xD0004, 0xD0048, 0xD0064, 0x110004, 0x110018, 0x1100E4]

/-- At every other offset a write does no more than store. -/
theorem Mach.liveWrite_of_not_mem {d : Nat} (h : d ∉ liveOffsets) (m0 m : Mach) (r : Requester) (i v : Nat) :
    Mach.liveWrite m0 m r d i v = m := by
  unfold Mach.liveWrite
  split
  case h_21 => rfl
  all_goals exact absurd (by decide) h

/-! ### Register reads -/

/-- A read that waits for no AON write answers what `Mach.registerRead` says. -/
theorem completes_registerRead {s : State} {r : Requester} {off : Nat} {whole : Bool}
    (h : whole = false ∨ 0x120000 ≤ off ∨ aonBlock (decoded off / 65536) = false ∨ s.m.aonWaits r = false) :
    Completes (.registerRead r off whole) s (s.m.registerRead r off whole) := by
  have goesOn : (whole && decide (off < 0x120000) && aonBlock (decoded off / 65536) && s.m.aonWaits r) = false := by
    rcases h with h | h | h | h
    · simp [h]
    · simp [Nat.not_lt_of_le h]
    · simp [h]
    · simp [h]
  change execRegisterRead r off whole s = _
  simp [execRegisterRead, goesOn, ok]

/-- A read of an AON window behind a write of the function that waits joins those that wait (R429). -/
theorem completes_registerRead_stalled {s : State} {r : Requester} {off : Nat} (ha : s.m.pathAwake r = true)
    (ho : off < 0x120000) (hb : aonBlock (decoded off / 65536) = true) (hw : s.m.aonWaits r = true) :
    Completes (.registerRead r off true) s { s.m with evr := { s.m.evr with
      stalled := s.m.evr.stalled ++ [{ req := r, off := off, val := 0, read := true }] } } := by
  change execRegisterRead r off true s = _
  simp [execRegisterRead, Mach.wakeFor_awake ha, ho, hb, hw, ok]

/-- A read that reaches no register answers 0 and changes nothing (R5, R11, R356). -/
theorem Mach.regRead_undecoded {m : Mach} {r : Requester} {off : Nat} {whole : Bool} (ha : m.pathAwake r = true)
    (h : whole = false ∨ 0x120000 ≤ off ∨ m.mode.decodes (decoded off / 65536) = false) : m.regRead r off whole = (0, m) := by
  rcases h with h | h | h <;> simp [Mach.regRead, Mach.wakeFor_awake ha, h]

/-- Such a read does not wait behind a write either: the AON windows are always decoded. -/
theorem completes_registerRead_undecoded {s : State} {r : Requester} {off : Nat} {whole : Bool} (ha : s.m.pathAwake r = true)
    (h : whole = false ∨ 0x120000 ≤ off ∨ s.m.mode.decodes (decoded off / 65536) = false) :
    Completes (.registerRead r off whole) s (s.m.emit (.readValue r off 0)) := by
  have noAon : s.m.mode.decodes (decoded off / 65536) = false → aonBlock (decoded off / 65536) = false := fun hd =>
    Bool.eq_false_iff.2 (fun hb => by simp [Mode.decodes_of_aonBlock _ hb] at hd)
  have answer := completes_registerRead (s := s) (r := r) (h.imp_right (Or.imp_right (fun hd => Or.inl (noAon hd))))
  simpa [Mach.registerRead, Mach.regRead_undecoded ha h] using answer

/-- The machine once a read has come to the register at a decoded offset: over the die-to-die link where its block stands in
another quadrant (Table 1-3), and without leaving the quadrant for the shadow of the AON die. -/
def Mach.readAt (m : Mach) (r : Requester) (d : Nat) : Mach :=
  (regFields d).head?.elim m (fun f => if aonBlock f.block then m else m.reach r f)

/-- The machine once the eye readings have drawn their free value. -/
def Mach.eyeDrawn (m : Mach) (d : Nat) : Mach := if d = 0x2000C then m.fresh.2 else m

section ReadsRegister
variable {m : Mach} {r : Requester} {off : Nat} (ha : m.pathAwake r = true) (ho : off < 0x120000)
  (hd : m.mode.decodes (decoded off / 65536) = true)
include ha ho hd

/-- What a read of a register does, once it has come there. -/
theorem Mach.regRead_decoded : m.regRead r off true =
    let d := decoded off
    let u := m.readAt r d
    if lowWords.contains d then
      (u.readShown r d, { u.eyeDrawn d with hold := Tbl.set (u.eyeDrawn d).hold (holdKey r (d + 4)) (u.readShown r (d + 4)) })
    else match Tbl.find u.hold (holdKey r d) with
    | some v => (v, { u.eyeDrawn d with hold := Tbl.del (u.eyeDrawn d).hold (holdKey r d) })
    | none => (u.readShown r d, u.eyeDrawn d) := by
  have hg : (!true || decide (0x120000 ≤ off) || !m.mode.decodes (decoded off / 65536)) = false := by simp [Nat.not_le_of_lt ho, hd]
  simp only [Mach.regRead, Mach.wakeFor_awake ha, hg, Bool.false_eq_true, if_false, apply_ite Prod.snd, Mach.readAt,
    Mach.eyeDrawn]
  cases regFields (decoded off) <;> rfl

/-- Reading a low word latches the high word for the reading function (R6). -/
theorem Mach.registerRead_low {u w : Mach} (hu : u = m.readAt r (decoded off)) (hw : w = u.eyeDrawn (decoded off))
    (hl : lowWords.contains (decoded off) = true) : m.registerRead r off true =
      { w with hold := Tbl.set w.hold (holdKey r (decoded off + 4)) (u.readShown r (decoded off + 4)) }.emit
        (.readValue r off (BitVec.ofNat 32 (u.readShown r (decoded off)))) := by
  subst hw hu
  simp only [Mach.registerRead, Mach.regRead_decoded ha ho hd, hl, if_true]

/-- A read of a register with a copy held for the function returns the copy and uses it up (R6). -/
theorem Mach.registerRead_held {u w : Mach} {v : Nat} (hu : u = m.readAt r (decoded off)) (hw : w = u.eyeDrawn (decoded off))
    (hl : lowWords.contains (decoded off) = false) (hv : Tbl.find u.hold (holdKey r (decoded off)) = some v) :
    m.registerRead r off true =
      { w with hold := Tbl.del w.hold (holdKey r (decoded off)) }.emit (.readValue r off (BitVec.ofNat 32 v)) := by
  subst hw hu
  simp only [Mach.registerRead, Mach.regRead_decoded ha ho hd, hl, hv, Bool.false_eq_true, if_false]

/-- Any other read returns the value and leaves every copy. -/
theorem Mach.registerRead_value {u w : Mach} (hu : u = m.readAt r (decoded off)) (hw : w = u.eyeDrawn (decoded off))
    (hl : lowWords.contains (decoded off) = false) (hv : Tbl.find u.hold (holdKey r (decoded off)) = none) :
    m.registerRead r off true = w.emit (.readValue r off (BitVec.ofNat 32 (u.readShown r (decoded off)))) := by
  subst hw hu
  simp only [Mach.registerRead, Mach.regRead_decoded ha ho hd, hl, hv, Bool.false_eq_true, if_false]

end ReadsRegister

/-- The AON windows, and AON_ASEQ, read as the shadow (R8, R429). -/
theorem Mach.readShown_of_shadowed {d : Nat} (h : aonBlock (d / 65536) = true ∨ d = Reg.ROL.AON_ASEQ.off) (m : Mach)
    (r : Requester) : m.readShown r d = m.seen.readWord r d := by
  simp [Mach.readShown, h]

/-- Every other register reads as it stands. -/
theorem Mach.readShown_of_not_shadowed {d : Nat} (hb : aonBlock (d / 65536) = false) (hd : d ≠ Reg.ROL.AON_ASEQ.off) (m : Mach)
    (r : Requester) : m.readShown r d = m.readWord r d := by
  simp [Mach.readShown, hb, hd]

/-! ### The statements -/

/-- Settles O49: a write without a register is not taken up, a read without one answers 0 (an AON window, where a read could
wait, is decoded in every mode), and LOCKOUT records every write. -/
theorem accessesWithoutARegisterReadZeroAndIgnoreWrites : Obligations.AccessesWithoutARegisterReadZeroAndIgnoreWrites := by
  intro s r off whole v ha
  refine ⟨fun h => ⟨fun hl => ?_, completes_registerRead_undecoded ha h⟩,
    fun hl => completes_registerWrite_lockout ha hl off whole v⟩
  cases whole with
  | false => exact completes_registerWrite_part ha hl off v
  | true => exact completes_registerWrite (State.regWrite_undecoded ha hl (by simpa using h) v.toNat)

/-- Settles O50: the write comes to `Mach.writeSettings` with the one field, and each outcome is one of its cases. -/
theorem ordinaryRegisterWritesStoreOrAreRefused : Obligations.OrdinaryRegisterWritesStoreOrAreRefused := by
  refine ⟨?_, fun m0 m r d i v hd => Mach.liveWrite_of_not_mem hd m0 m r i v⟩
  intro s r off d i x f v ha ho hd hw hl hf hs hp hn ht hx
  subst hd hx
  have h : s.m.OneField r off f := ⟨ha, ho, hw, hl, hf, hs, hp, hn, ht⟩
  have written : ∀ {u : Mach} {k : Nat}, s.m.inst r f = some i →
      s.m.writeSettings r (decoded off) v.toNat [(f, i)] f i = (u, k) → Completes (.registerWrite r off true v) s u :=
    fun hi e => completes_registerWrite ((State.regWrite_oneField h hi v.toNat).trans (by rw [e]))
  refine ⟨fun hi => completes_registerWrite (State.regWrite_oneField_unreached h hi v.toNat),
    fun hi hb => written hi (Mach.writeSettings_behind h hb v.toNat _), fun hi hv hb => ⟨fun hc hm => ?_, ?_, ?_⟩⟩
  · exact written hi (Mach.writeSettings_waits h hb v.toNat hc hm)
  · rintro w u hc hm rfl hu
    exact written hi (Mach.writeSettings_stores h hb v.toNat hc hm u hu)
  · rintro w u hc rfl rfl
    exact written hi (Mach.writeSettings_refused h hv hb v.toNat hc _ rfl)

/-- Settles O51: a read that comes to its register is one of the three cases of `Mach.regRead_decoded`. -/
theorem highWordReadsReturnTheLatchedCopy : Obligations.HighWordReadsReturnTheLatchedCopy := by
  refine ⟨?_, fun m r d => ⟨fun h => Mach.readShown_of_shadowed h m r, fun hb hd => Mach.readShown_of_not_shadowed hb hd m r⟩⟩
  intro s r off d u w ha ho hd hm
  subst hd
  refine ⟨completes_registerRead_stalled ha ho, fun hn hu hw => ?_⟩
  have answer := completes_registerRead (s := s) (r := r) (off := off) (whole := true) (.inr (.inr hn))
  refine ⟨fun hl => ?_, fun hl v hv => ?_, fun hl hv => ?_⟩
  · rwa [Mach.registerRead_low ha ho hm hu hw hl] at answer
  · rwa [Mach.registerRead_held ha ho hm hu hw hl hv] at answer
  · rwa [Mach.registerRead_value ha ho hm hu hw hl hv] at answer

end Sys2Proof.Machine
end

section
/-! Quadrants, engines and die-to-die links of file 01: what the passing of time leaves as it was, what an event of a bank that
does not count does (R439), and what the die-to-die links (R15, R24), the engines' clock gates (R24, R26, R468), the Yarrow
(R20 to R22) and the quadrants' PLLs (R25, R26) do. -/

namespace Sys2Proof.Machine

/-! ### Counting leaves the clock as it is -/

@[simp] theorem Mach.setPc_clk (m : Mach) (b k v : Nat) : (m.setPc b k v).clk = m.clk := rfl

@[simp] theorem Mach.pcOverflow_clk (m : Mach) (b k atc : Nat) : (m.pcOverflow b k atc).clk = m.clk := by
  simp only [Mach.pcOverflow]
  split <;> rfl

@[simp] theorem Mach.pcAdd_clk (m : Mach) (b k n atc : Nat) : (m.pcAdd b k n atc).clk = m.clk := by
  simp only [Mach.pcAdd]
  split
  · simp
  · split <;> simp

@[simp] theorem Mach.bankTick_clk (m : Mach) (n b : Nat) : (m.bankTick n b).clk = m.clk := by
  simp only [Mach.bankTick]
  split
  · rfl
  · refine List.foldlRecOn (motive := fun a : Mach => a.clk = m.clk) _ _ rfl (fun a ha k _ => ?_)
    split
    · exact ha
    · exact (a.pcAdd_clk ..).trans ha

@[simp] theorem Mach.pmcTick_clk (m : Mach) (n : Nat) : (m.pmcTick n).clk = m.clk :=
  List.foldlRecOn (motive := fun a : Mach => a.clk = m.clk) _ _ rfl (fun a ha b _ => (a.bankTick_clk n b).trans ha)

/-! ### The passing of time -/

@[simp] theorem Mach.elapse_clk (m : Mach) (n : Nat) : (m.elapse n).clk = m.clk + n := by
  simp [Mach.elapse]

/-- Where no bank counts, a cycle counts nothing (R439). -/
theorem Mach.pmcTick_of_off {m : Mach} (h : m.pmc.on = []) (n : Nat) : m.pmcTick n = m := by
  simp [Mach.pmcTick, h]

theorem Mach.elapse_regs_of_off {m : Mach} (h : m.pmc.on = []) (n : Nat) : (m.elapse n).regs = m.regs := by
  simp [Mach.elapse, Mach.pmcTick_of_off h]

/-- Each quadrant's counter is what `Mach.advanced` says (R29, R34). -/
theorem Mach.elapse_acc_of_off {m : Mach} (h : m.pmc.on = []) (n : Nat) {q : Nat} (hq : q < 4) :
    (m.elapse n).tim.hgt.acc q = m.advanced n q := by
  simp only [Mach.elapse, Mach.pmcTick_of_off h]
  match q, hq with
  | 0, _ | 1, _ | 2, _ | 3, _ => rfl

/-- An event of a bank that does not count changes nothing (R439). -/
theorem Mach.pmcEvent_of_off {m : Mach} {b : Nat} (h : m.pmc.on.contains b = false) (ev n : Nat) (takes : Nat → Bool) :
    m.pmcEvent b ev n takes = m := by
  unfold Mach.pmcEvent
  rw [if_pos (by rw [h]; rfl)]

/-- Nor do the events of a flag vector. -/
theorem Mach.pmcFlags_of_off {m : Mach} {b : Nat} (h : m.pmc.on.contains b = false) (v : BitVec 32) (ks : List Nat) :
    ks.foldl (fun (a : Mach) k => if v.getLsbD k then a.pmcEvent b 0x0C 1 (fun arg => arg % 32 == k) else a) m = m := by
  induction ks with
  | nil => rfl
  | cons k ks ih => rw [List.foldl_cons, Mach.pmcEvent_of_off h, ite_self, ih]

/-! ### Die-to-die links -/

section DieLinks
variable {m : Mach} {a b : Nat}

theorem Mach.dieLinkDown_of_up (h : (m.dieLink a b).down = false) : m.dieLinkDown a b =
    (({ m with die := Tbl.set m.die (dieKey a b) { m.dieLink a b with down := true } }).raise 56 .none (dieKey a b) a).record
      0x4050 a [a, b] := by
  simp only [Mach.dieLinkDown, h, Bool.false_eq_true, if_false]
  rfl

theorem Mach.dieLinkDown_of_down (h : (m.dieLink a b).down = true) : m.dieLinkDown a b = m := by
  simp [Mach.dieLinkDown, h]

theorem Mach.dieLinkGate_of_quiet (h : (m.dieLink a b).lastTraffic + 2000 ≤ m.clk) : m.dieLinkGate a b =
    { m with die := Tbl.set m.die (dieKey a b) { m.dieLink a b with gated := true, gateAt := m.clk } } :=
  if_pos h

theorem Mach.dieLinkGate_of_traffic (h : m.clk < (m.dieLink a b).lastTraffic + 2000) : m.dieLinkGate a b = m :=
  if_neg (Nat.not_le_of_lt h)

end DieLinks

/-- Between two quadrants, DIE_LINK_DOWN does what `Mach.dieLinkDown` says. -/
theorem completes_dieLinkDown {s : State} {a b : Quad} {m : Mach} (hab : a ≠ b) (h : s.m.dieLinkDown a b = m) :
    Completes (.dieLinkDown a b) s m := by
  change execDieLinkDown a b s = _
  simp [execDieLinkDown, hab, h, ok]

/-- Between two quadrants, DIE_LINK_GATE does what `Mach.dieLinkGate` says. -/
theorem completes_dieLinkGate {s : State} {a b : Quad} {m : Mach} (hab : a ≠ b) (h : s.m.dieLinkGate a b = m) :
    Completes (.dieLinkGate a b) s m := by
  change execDieLinkGate a b s = _
  simp [execDieLinkGate, hab, h, ok]

/-- No link joins a quadrant to itself. -/
theorem dieLink_commands_fault (s : State) (a : Quad) :
    exec (.dieLinkDown a a) s = .fault .noSuchDieLink ∧ exec (.dieLinkGate a a) s = .fault .noSuchDieLink :=
  ⟨if_pos rfl, if_pos rfl⟩

/-! ### Engines' clock gates -/

section Gates
variable {m : Mach} {e : Engine}

theorem Mach.gateClose_of_idle (hen : m.isSet Reg.GLB.GATE_EN = true) (hb : m.engBusy e = false)
    (hg : (m.eng e).gated = false) :
    m.gateClose e = m.setEng e { m.eng e with gated := true, gateAt := m.clk } := by
  simp [Mach.gateClose, hen, hb, hg]

theorem Mach.gateClose_of_busy (hb : m.engBusy e = true) : m.gateClose e = m := by
  simp [Mach.gateClose, hb]

/-- Past the first cycle, a gate that closed in an earlier one opens after 20 ns, and one closing now does not close (R24, R26). -/
theorem Mach.wakeEngine_of_gated (hg : (m.eng e).gated = true) (hc : 0 < m.clk) (hs : m.mode ≠ .safe) (hl : m.mode ≠ .lockout) :
    m.wakeEngine e = (m.setEng e { m.eng e with
      gated := false
      usableAt := max (m.eng e).usableAt (if (m.eng e).gateAt = m.clk then m.clk else m.clk + 40) }).pmcEngine
        e.q e.cls 0x0A 1 := by
  simp [Mach.wakeEngine, hg, hc, hs, hl]

/-- In SAFE and LOCKOUT every engine stays gated (R381). -/
theorem Mach.wakeEngine_of_stopped_mode (h : m.mode = .safe ∨ m.mode = .lockout) : m.wakeEngine e = m := by
  rcases h with h | h <;> simp [Mach.wakeEngine, h]

end Gates

/-- On an engine that exists, ENGINE_GATE_CLOSE does what `Mach.gateClose` says. -/
theorem completes_engineGateClose {s : State} {e : Engine} {m : Mach} (he : engExists e = true) (h : s.m.gateClose e = m) :
    Completes (.engineGateClose e) s m := by
  change execEngineGateClose e s = _
  simp [execEngineGateClose, he, h, ok]

/-- On an engine that exists, ENGINE_WAKE does what `Mach.wakeEngine` says. -/
theorem completes_engineWake {s : State} {e : Engine} {m : Mach} (he : engExists e = true) (h : s.m.wakeEngine e = m) :
    Completes (.engineWake e) s m := by
  change execEngineWake e s = _
  simp [execEngineWake, he, h, ok]

/-- The engine commands have no meaning on an engine that its class does not have (Table 1-4). -/
theorem engine_commands_fault {e : Engine} (he : engExists e = false) (s : State) (w : StepWord) :
    exec (.engineGateClose e) s = .fault .noSuchEngine ∧ exec (.engineWake e) s = .fault .noSuchEngine ∧
    exec (.yarrowStep e w) s = .fault .noSuchEngine := by
  change execEngineGateClose e s = _ ∧ execEngineWake e s = _ ∧ execYarrowStep e w s = _
  simp [execEngineGateClose, execEngineWake, execYarrowStep, he]

/-! ### The Yarrow -/

/-- A slot in cycle `t` holds where the step tests DONE while its command is outstanding, and issues otherwise (R20, R21). -/
theorem Eng.slot_at (x : Eng) (w : StepWord) (t : Nat) : { x.slot w with lastStep := some t } =
    if w.flag = 0 ∧ x.outstanding ≠ none ∧ x.flags.getLsbD 0 = false then
      { x with flags := w.raised &&& 0x807FFFFF#32, waiting := true, lastStep := some t }
    else { x with
      step := if x.flags.getLsbD w.flag then w.onSet else w.onClear
      flags := w.raised &&& 0x807FFFFF#32
      outstanding := w.command.or (if x.flags.getLsbD 0 then none else x.outstanding)
      waiting := false, lastStep := some t } := by
  have holds : (w.flag.val = 0 && x.outstanding.isSome && !x.flags.getLsbD 0) = true ↔
      w.flag = 0 ∧ x.outstanding ≠ none ∧ x.flags.getLsbD 0 = false := by
    simp only [Bool.and_eq_true, decide_eq_true_eq, Bool.not_eq_true', Option.isSome_iff_ne_none, Fin.ext_iff, and_assoc]
    rfl
  unfold Eng.slot
  simp only [holds]
  split <;> rfl

/-- A step with good parity, the first of its cycle, takes one slot; the bank that does not count sees none of its events. -/
theorem completes_yarrowStep {s : State} {e : Engine} {w : StepWord} (he : engExists e = true) (hr : s.m.engRuns e = true)
    (hp : w.parity = false) (hl : (s.m.eng e).lastStep ≠ some s.m.clk)
    (hb : s.m.pmc.on.contains (engBank e.q e.cls) = false) :
    Completes (.yarrowStep e w) s (s.m.setEng e { (s.m.eng e).slot w with lastStep := some s.m.clk }) := by
  change execYarrowStep e w s = _
  have off (x : Eng) : (s.m.setEng e x).pmc.on.contains (engBank e.q e.cls) = false := hb
  simp only [execYarrowStep, he, hr, hp, hl, Bool.not_true, Bool.false_eq_true, if_false,
    Mach.pmcFlags_of_off (off _), Mach.pmcEvent_of_off (off _), ite_self, ok]

/-- A Yarrow that does not run issues nothing. -/
theorem completes_yarrowStep_of_not_runs {s : State} {e : Engine} (he : engExists e = true) (hr : s.m.engRuns e = false)
    (w : StepWord) : Completes (.yarrowStep e w) s s.m := by
  change execYarrowStep e w s = _
  simp [execYarrowStep, he, hr, ok]

/-! ### Quadrants -/

/-- A running quadrant parks where R25 lets it. -/
theorem completes_quadrantPark {s : State} {q : Quad} (hm : s.m.mode ≠ .dormant) (hr : (Tbl.get s.m.quads q {}).park = 0)
    (hq : s.m.mayPark q = true) :
    Completes (.quadrantPark q) s (s.m.park q (s.m.isSet Reg.GLB.PARK_COLD)) := by
  change execQuadrantPark q s = _
  simp [execQuadrantPark, hm, hr, hq, ok]

/-- A quadrant parked warm in an earlier cycle starts its PLL (R25). -/
theorem Mach.wakeQuad_of_warm {m : Mach} {q : Nat} (hw : (Tbl.get m.quads q {}).park = 1)
    (hp : (Tbl.get m.quads q {}).parkedAt ≠ m.clk) :
    m.wakeQuad q = { m with quads := Tbl.set m.quads q { park := 0, parkedAt := 0, usableAt := m.clk + 4000 } } := by
  simp [Mach.wakeQuad, hw, hp, Config.usCycles]

theorem Mach.wakeQuad_of_running {m : Mach} {q : Nat} (hr : (Tbl.get m.quads q {}).park = 0) : m.wakeQuad q = m :=
  if_pos hr

theorem completes_quadrantWake {s : State} {q : Quad} {m : Mach} (h : s.m.wakeQuad q = m) :
    Completes (.quadrantWake q) s m :=
  h ▸ rfl

/-! ### The statements -/

/-- Settles O2: an idle step is `Mach.elapse` by one cycle, and counting never moves the clock. -/
theorem idleStepLetsOneCyclePass : Obligations.IdleStepLetsOneCyclePass := by
  intro s hs
  refine ⟨_, step_idle hs, s.m.elapse_clk 1, rfl, hs, fun hon => ⟨Mach.elapse_regs_of_off hon 1, fun q hq => ?_⟩⟩
  rw [Mach.elapse_acc_of_off hon 1 hq, Mach.advanced, Nat.one_mul]

/-- Settles O5: each clause is its command's law with the law of the operation that it runs. -/
theorem quadrantsEnginesAndDieLinksDoAsFileOneSays : Obligations.QuadrantsEnginesAndDieLinksDoAsFileOneSays := by
  refine ⟨fun s a b hab h => ?linkDown, fun s a b hab h => ?linkStaysDown, fun s a b hab h => ?linkGates,
    fun s a b hab h => ?linkInUse, dieLink_commands_fault, fun s e he hen hb hg => ?gateCloses, fun s e he hb => ?gateBusy,
    fun s e he hg hc hs hl => ?wakes, fun s e he h => ?staysGated, fun s e w he hr hp hl hb => ?steps,
    fun s e w he hr => ?stands, fun s e w he => engine_commands_fault he s w, fun s q hm hr hq => ?parks,
    fun s q hw hp => ?wakesWarm, fun s q hr => ?runsOn⟩
  case linkDown => exact completes_dieLinkDown hab (Mach.dieLinkDown_of_up h)
  case linkStaysDown => exact completes_dieLinkDown hab (Mach.dieLinkDown_of_down h)
  case linkGates => exact completes_dieLinkGate hab (Mach.dieLinkGate_of_quiet h)
  case linkInUse => exact completes_dieLinkGate hab (Mach.dieLinkGate_of_traffic h)
  case gateCloses => exact completes_engineGateClose he (Mach.gateClose_of_idle hen hb hg)
  case gateBusy => exact completes_engineGateClose he (Mach.gateClose_of_busy hb)
  case wakes => exact completes_engineWake he (Mach.wakeEngine_of_gated hg hc hs hl)
  case staysGated => exact completes_engineWake he (Mach.wakeEngine_of_stopped_mode h)
  case steps =>
    rw [← Eng.slot_at]
    exact completes_yarrowStep he hr hp hl hb
  case stands => exact completes_yarrowStep_of_not_runs he hr w
  case parks => exact completes_quadrantPark hm hr hq
  case wakesWarm => exact completes_quadrantWake (Mach.wakeQuad_of_warm hw hp)
  case runsOn => exact completes_quadrantWake (Mach.wakeQuad_of_running hr)

end Sys2Proof.Machine
end

section
/-! Global time of file 02: the exchange on each link (R36 to R38), the choice of root and parent (R39 to R42), the root's number
and its loss (R39, R40), the holdover limit (R42), PPS and PTM (R44 to R47), and STEP (R35). -/

namespace Sys2Proof.Machine

/-! ### The exchange on a link -/

/-- TIME_EXCHANGE_START queues a TIME_REQ where exchanges run on the port (R36). -/
theorem completes_timeExchangeStart {s : State} {p : PortId} {m : Mach}
    (h : (if s.m.exchanges p = true then s.m.queueCtrl p .timeReq else s.m) = m) :
    Completes (.timeExchangeStart p) s m :=
  h ▸ rfl

/-- A TIME_REQ that is heard is answered where exchanges run on the port (R36). -/
theorem completes_timeReq {s : State} {p : PortId} {f : TimeFrame} {rx : Rx} {u m : Mach}
    (hear : s.m.hears p (TimeFrame.wire 0x20 f) rx u)
    (h : (if u.exchanges p = true then (u.seeNeighbour p f).queueCtrl p (.timeRsp f (u.hgt (quadOfPort p))) else u) = m) :
    Completes (.timeReq p ⟨f, rx⟩) s m := by
  change execTimeReq p ⟨f, rx⟩ s = _
  rw [execTimeReq, Mach.ctrlIn_hears hear, h]
  rfl

/-- A TIME_RSP answers the port's last request: exchanges run on the port, and its EXCH_ID and t1 are the request's (Table 4-6). -/
def Mach.rspMatches (m : Mach) (p : Nat) (f : TimeFrame) : Prop :=
  m.exchanges p = true ∧ (m.timPort p).t1 = some f.t1 ∧ (m.timPort p).exch = f.exch

/-- A TIME_RSP that is heard and answers the port's last request is measured. -/
theorem completes_timeRsp_of_matches {s : State} {p : PortId} {f : TimeFrame} {rx : Rx} {u m : Mach}
    (hear : s.m.hears p (TimeFrame.wire 0x21 f) rx u) (answers : u.rspMatches p f) (h : u.timeRsp p f f.t1 = m) :
    Completes (.timeRsp p ⟨f, rx⟩) s m := by
  obtain ⟨runs, ht1, hexch⟩ := answers
  change execTimeRsp p ⟨f, rx⟩ s = _
  simp [execTimeRsp, Mach.ctrlIn_hears hear, runs, ht1, hexch, h, ok]

/-- Any other TIME_RSP that is heard is only counted. -/
theorem completes_timeRsp_of_not_matches {s : State} {p : PortId} {f : TimeFrame} {rx : Rx} {u : Mach}
    (hear : s.m.hears p (TimeFrame.wire 0x21 f) rx u) (other : ¬ u.rspMatches p f) :
    Completes (.timeRsp p ⟨f, rx⟩) s u := by
  change execTimeRsp p ⟨f, rx⟩ s = _
  rw [execTimeRsp, Mach.ctrlIn_hears hear]
  cases ht1 : (u.timPort p).t1 with
  | none => rfl
  | some t1 =>
    have unused : ¬ ((u.exchanges p = true ∧ (u.timPort p).exch = f.exch) ∧ f.t1 = t1) :=
      fun ⟨⟨runs, hexch⟩, e⟩ => other ⟨runs, e ▸ ht1, hexch⟩
    simp [unused, ok]

/-- The delay that a response measures, heard at t4 = HGT (R37): half of (t4 − t1) − (t3 − t2), in HGT LSBs. -/
def Mach.rspDelay (m : Mach) (p : Nat) (f : TimeFrame) : Int :=
  (toSigned 64 (m.hgt (quadOfPort p) + 2 ^ 64 - f.t1 % 2 ^ 64) - toSigned 64 (f.t3 + 2 ^ 64 - f.t2 % 2 ^ 64)).fdiv 2

/-- The offset that a response measures (R37): half of (t2 − t1) + (t3 − t4), less ASYM. -/
def Mach.rspOffset (m : Mach) (p : Nat) (f : TimeFrame) : Int :=
  (toSigned 64 (f.t2 + 2 ^ 64 - f.t1 % 2 ^ 64) - toSigned 64 (m.hgt (quadOfPort p) + 2 ^ 64 - f.t3 % 2 ^ 64)).fdiv 2
    - toSigned 16 (m.timPort p).asym

/-- The machine once a response has used the port's last request up. -/
def Mach.rspTaken (m : Mach) (p : Nat) (f : TimeFrame) : Mach :=
  (m.seeNeighbour p f).updTim p (fun x => { x with t1 := none })

/-- The machine once a response's delay has joined those of the port, and DELAY is their median. -/
def Mach.delayJoined (m : Mach) (p : Nat) (f : TimeFrame) : Mach :=
  let ds := (m.rspDelay p f :: (m.timPort p).delays).take 8
  ((m.rspTaken p f).updTim p (fun x =>
    { x with delays := ds, discards := 0, accepted := some (m.seeNeighbour p f).clk })).put
      Reg.TIM.DELAY (ofSigned 32 (medianInt ds)) p

/-- The two outcomes of a response (R37): a delay far from the port's median is discarded, and the eighth discard in a row empties
the delays; any other is accepted, and the offset of the parent port is followed (R38, R42). -/
theorem Mach.timeRsp_eq (m : Mach) (p : Nat) (f : TimeFrame) : m.timeRsp p f f.t1 =
    if (m.timPort p).delays ≠ [] ∧ 8 < (m.rspDelay p f - medianInt (m.timPort p).delays).natAbs then
      (m.rspTaken p f).updTim p (fun x =>
        if 8 ≤ x.discards + 1 then { x with delays := [], discards := 0 } else { x with discards := x.discards + 1 })
    else
      let u := m.delayJoined p f
      if u.get Reg.TIM.PARENT = p ∧ u.isRoot = false ∧ u.get Reg.TIM.STATE ≠ 2 then u.followParent (m.rspOffset p f) else u := by
  have far (d : Int) : (!(m.timPort p).delays.isEmpty && decide (8 < (d - medianInt (m.timPort p).delays).natAbs)) = true ↔
      (m.timPort p).delays ≠ [] ∧ 8 < (d - medianInt (m.timPort p).delays).natAbs := by
    simp
  have follows (u : Mach) : (decide (u.get Reg.TIM.PARENT = p) && !u.isRoot && u.get Reg.TIM.STATE != 2) = true ↔
      u.get Reg.TIM.PARENT = p ∧ u.isRoot = false ∧ u.get Reg.TIM.STATE ≠ 2 := by
    simp [and_assoc]
  exact ite_congr (propext (far _)) (fun _ => rfl) (fun _ => ite_congr (propext (follows _)) (fun _ => rfl) (fun _ => rfl))

/-! ### Root and parent -/

/-- With no candidate the module leaves PPS_IN, and enters HOLDOVER unless it is in it (R42). -/
theorem Mach.select_none {m u : Mach} (hc : m.takeTimSettings.candidates = []) (hu : u = m.takeTimSettings.leavePps) :
    m.select = if u.get Reg.TIM.STATE = 2 then u
      else ((u.put Reg.TIM.STATE 2).raise 104 .none 0 u.refQuad).record 0x5010 u.refQuad [] := by
  subst hu
  simp only [Mach.select, hc]

section Candidates
variable {m u t w : Mach} {c best : Cand} {cs : List Cand} (hu : u = m.takeTimSettings) (hc : u.candidates = c :: cs)
  (hb : best = cs.foldl (fun a b => if b.less a then b else a) c) (ht : t = u.endHoldover.takeRoot best)
include hu hc hb ht

/-- A module that is the smallest candidate is root with its own ROOT_SEQ (R39), and stays with PPS_IN only under PPS_IN_EN (R44). -/
theorem Mach.select_self (hp : best.port = 255) {v : Mach}
    (hv : v = { t with tim := { t.tim with everLocked := true } }.put Reg.TIM.ROOT_SEQ t.tim.ownSeq)
    (hw : w = if v.tim.ppsEn then v else v.leavePps) :
    m.select = if u.get Reg.TIM.STATE = 3 ∨ u.get Reg.TIM.STATE = 4 then w else w.put Reg.TIM.STATE 3 := by
  subst hu ht hv hw
  simp only [Mach.select, hc, ← hb, hp, if_true, Bool.or_eq_true, decide_eq_true_eq]

/-- A port that is the smallest candidate is the parent, and the ROOT_SEQ kept for its root comes into force (R39). -/
theorem Mach.select_parent (hp : best.port ≠ 255) {v : Mach} (hv : v = t.leavePps)
    (hw : w = match (v.tim.roots.find? (fun x => x.prio == best.prio && x.serial == best.serial)).bind (fun x => x.seq) with
      | some q => v.put Reg.TIM.ROOT_SEQ q
      | none => v) :
    m.select = if u.get Reg.TIM.STATE = 1 ∨ u.get Reg.TIM.STATE = 0 then w
      else { w.put Reg.TIM.STATE 0 with tim := { w.tim with goodRun := 0 } } := by
  subst hu ht
  cases kept : v.tim.roots.find? (fun x => x.prio == best.prio && x.serial == best.serial) with
  | none =>
    simp only [Mach.select, hc, ← hb, ← hv, hp, hw, kept, Option.bind_none, if_false, Bool.or_eq_true, decide_eq_true_eq]
  | some x =>
    cases seq : x.seq with
    | none | some q =>
      simp only [Mach.select, hc, ← hb, ← hv, hp, hw, kept, Option.bind_some, seq, if_false, Bool.or_eq_true, decide_eq_true_eq]

end Candidates

/-- PARENT_SELECTION selects (R39). -/
theorem completes_parentSelection {s : State} {m : Mach} (h : s.m.select = m) : Completes .parentSelection s m :=
  h ▸ rfl

/-- PARENT_LOSS_TIMEOUT forgets the parent's exchange and selects (R38). -/
theorem exec_parentLossTimeout {s t : State} {at_ : Nat} (hp : s.m.get Reg.TIM.PARENT < 128)
    (ha : (s.m.timPort (s.m.get Reg.TIM.PARENT)).accepted = some at_)
    (ht : t = { s with m :=
      (s.m.elapseTo (at_ + s.m.lossTimeout)).updTim (s.m.get Reg.TIM.PARENT) (fun x => { x with accepted := none }) }) :
    exec .parentLossTimeout s = exec .parentSelection t := by
  subst ht
  change execParentLossTimeout s = execParentSelection _
  simp only [execParentLossTimeout, execParentSelection, ha, hp, if_true, ok]

/-- Without a parent port, or without an accepted exchange of it, PARENT_LOSS_TIMEOUT does nothing. -/
theorem completes_parentLossTimeout_idle {s : State}
    (h : 128 ≤ s.m.get Reg.TIM.PARENT ∨ (s.m.timPort (s.m.get Reg.TIM.PARENT)).accepted = none) :
    Completes .parentLossTimeout s s.m := by
  change execParentLossTimeout s = _
  rcases h with h | h
  · simp only [execParentLossTimeout, if_neg (Nat.not_lt_of_le h)]
    split <;> rfl
  · simp only [execParentLossTimeout, h, ok]

/-! ### The root's number and its loss -/

/-- A root adds 1 to its ROOT_SEQ modulo 65,536 (R39). -/
theorem completes_rootSeqIncrement_of_root {s : State} (h : s.m.isRoot = true) : Completes .rootSeqIncrement s
    ({ s.m with tim := { s.m.tim with ownSeq := (s.m.tim.ownSeq + 1) % 65536 } }.put Reg.TIM.ROOT_SEQ
      ((s.m.tim.ownSeq + 1) % 65536)) := by
  change execRootSeqIncrement s = _
  simp only [execRootSeqIncrement, h, if_true, ok]

theorem completes_rootSeqIncrement_of_not_root {s : State} (h : s.m.isRoot = false) : Completes .rootSeqIncrement s s.m := by
  change execRootSeqIncrement s = _
  simp [execRootSeqIncrement, h, ok]

/-- The record of a root that is not marked lost (R40). -/
def RootSeen.stands (prio serial : Nat) (x : RootSeen) : Bool :=
  x.prio == prio && x.serial == serial && x.lostUntil.isNone

/-- A root that is not marked lost is, once its timeout has passed: its ROOT_SEQ is discarded, and it is ignored for twice the
timeout (R40). -/
theorem completes_rootLost {s : State} {prio serial : Nat} {x : RootSeen} {u : Mach}
    (h : s.m.tim.roots.find? (RootSeen.stands prio serial) = some x) (hu : u = s.m.elapseTo (x.changedAt + s.m.lossTimeout)) :
    Completes (.rootLost prio serial) s { u with tim := { u.tim with roots :=
      (modifyFirst (RootSeen.stands prio serial) (fun x => { x with seq := none, lostUntil := some (u.clk + 2 * u.lossTimeout) })
        u.tim.roots) } } := by
  subst hu
  change execRootLost prio serial s = _
  unfold RootSeen.stands at h
  simp only [execRootLost, h, ok]
  rfl

theorem completes_rootLost_unknown {s : State} {prio serial : Nat}
    (h : s.m.tim.roots.find? (RootSeen.stands prio serial) = none) : Completes (.rootLost prio serial) s s.m := by
  change execRootLost prio serial s = _
  unfold RootSeen.stands at h
  simp only [execRootLost, h, ok]

/-! ### The holdover limit -/

/-- The limit passes once in a HOLDOVER whose drift is known (R42). -/
theorem completes_holdoverLimitPassed {s : State} {u : Mach} (hs : s.m.get Reg.TIM.STATE = 2) (hl : s.m.tim.limitHit = false)
    (hd : 0 < s.m.get Reg.TIM.HOLD_DRIFT)
    (hu : u = s.m.elapseTo
      (s.m.tim.lastGood + 2 * s.m.get Reg.TIM.HOLD_LIMIT * 1000000000 / s.m.get Reg.TIM.HOLD_DRIFT + 1)) :
    Completes .holdoverLimitPassed s
      { (u.raise 105 .none 0 u.refQuad).record 0x5012 u.refQuad [] with tim := { u.tim with limitHit := true } } := by
  subst hu
  change execHoldoverLimitPassed s = _
  simp only [execHoldoverLimitPassed, hs, hl, hd, decide_true, Bool.not_false, Bool.and_self, if_true, ok]

/-! ### PPS_IN -/

/-- The machine once a root has noted an edge to discipline to (R44). -/
def Mach.ppsNoted (m : Mach) : Mach := { m with tim := { m.tim with ppsLast := some m.clk, ppsArmed := false } }

/-- An edge is stamped into PPS_IN, and a root with PPS_IN_EN in force disciplines to it (R44). -/
theorem completes_ppsInEdge {s : State} {u m : Mach} (hu : u = s.m.put64 Reg.TIM.PPS_IN_LO Reg.TIM.PPS_IN_HI s.m.hgtRef)
    (h : (if (u.isRoot && u.tim.ppsEn) = true then u.ppsRoot else u) = m) : Completes .ppsInEdge s m := by
  subst hu h
  rfl

/-- How a root disciplines to an edge (R44): an armed one off the second is stepped to where R35 lets HGT step, any other is slewed
to or found misaligned. -/
theorem Mach.ppsRoot_eq (m : Mach) : m.ppsRoot =
    if m.tim.ppsArmed = true ∧ m.secondError ≠ 0 ∧ (m.mode ≠ .run ∨ m.secondError < 0) then
      (m.ppsNoted.stepBy (-m.secondError)).ppsLocked
    else if 16000 < m.secondError.natAbs then
      (if m.ppsNoted.get Reg.TIM.STATE = 4 then m.ppsNoted.ppsBad else m.ppsNoted.drive (-m.secondError))
    else m.ppsNoted.ppsLocked.drive (-m.secondError) := by
  have steps : (m.tim.ppsArmed && m.secondError != 0 && (m.mode != .run || decide (m.secondError < 0))) = true ↔
      m.tim.ppsArmed = true ∧ m.secondError ≠ 0 ∧ (m.mode ≠ .run ∨ m.secondError < 0) := by
    simp [and_assoc]
  exact ite_congr (propext steps) (fun _ => rfl) (fun _ => rfl)

/-- Edges missing for two seconds leave a ROOT_PPS without its reference (R44). -/
theorem completes_ppsInMissing {s : State} {t : Nat} (ht : s.m.tim.ppsLast = some t) (hs : s.m.get Reg.TIM.STATE = 4) :
    Completes .ppsInMissing s (s.m.elapseTo (t + 2 * 2000000000 + 2000)).ppsBad := by
  change execPpsInMissing s = _
  simp only [execPpsInMissing, ht, hs, if_true, ok, Config.secCycles, Config.usCycles]

/-! ### PPS_OUT, CLK_OUT and PTM -/

/-- The machine at its next whole second, where CLK_OUT has taken its setting up (R46). -/
def Mach.atSecond (m : Mach) : Mach :=
  let e := m.elapseTo m.nextSecondAt
  { e with tim := { e.tim with clkHz := e.clkSetting, clkStop := none } }

/-- PPS_OUT rises at the whole second where it is driven, and is low otherwise (R45). -/
theorem completes_ppsOutPulse {s : State} {u m : Mach} (hu : u = s.m.atSecond)
    (h : (if u.ppsDrives = true then { u with tim := { u.tim with
        ppsHigh := true, ppsOut := some (u.clk + clamp 1 500 (u.get Reg.TIM.WIDTH) * 2000000) } }.emit (.ppsEdge u.hgtRef)
      else { u with tim := { u.tim with ppsHigh := false, ppsOut := none } }) = m) : Completes .ppsOutPulse s m := by
  subst hu h
  rfl

/-- A half that is present is a PTM Responder (R47). -/
theorem completes_ptmRequest {s : State} {slot : Slot} {rt : Nat} {m : Mach}
    (h : (if s.m.slotPresent slot = true then s.m.emit (.ptm slot (s.m.hgt (quadOfSlot slot) / 16) (rt / 2)) else s.m) = m) :
    Completes (.ptmRequest slot rt) s m := by
  change execPtmRequest slot rt s = _
  simp only [execPtmRequest, Config.ptmResponder, Bool.and_true, h, ok]

/-! ### STEP -/

theorem Mode.steps_iff (md : Mode) : md.steps = true ↔ md = .config ∨ md = .train ∨ md = .drain := by
  simp [Mode.steps, or_assoc]

/-- STEP of a mode that lets HGT step loads SET (R35). -/
theorem completes_step_loads {s : State} {r : Requester} {i : Nat} (h : s.m.passes r Reg.TIM.STEP i = true)
    (hm : s.m.mode.steps = true) : Completes (.step r) s (s.m.acted r Reg.TIM.STEP 1).loadSet :=
  congrArg (ok s) (Mach.actionIf_passes h 1 hm _)

/-- STEP of any other mode is ignored and recorded (R35, Table 18-7). -/
theorem completes_step_ignored {s : State} {r : Requester} {i : Nat} (h : s.m.passes r Reg.TIM.STEP i = true)
    (hm : s.m.mode.steps = false) : Completes (.step r) s ((s.m.crossAon r Reg.TIM.STEP).ignoreWrite r Reg.TIM.STEP 1) :=
  congrArg (ok s) (Mach.actionIf_ignored h 1 hm _)

/-! ### The statements -/

/-- Settles O6: a response is taken up where it answers the last request, and the outcomes
of `Mach.timeRsp_eq` are the branches of R37. -/
theorem timeExchangesMeasureDelayAndOffset : Obligations.TimeExchangesMeasureDelayAndOffset := by
  refine ⟨fun s p h => completes_timeExchangeStart (if_pos h),
    fun s p h => completes_timeExchangeStart (if_neg (Bool.eq_false_iff.1 h)),
    fun s p f rx u hear => ⟨fun h => completes_timeReq hear (if_pos h),
      fun h => completes_timeReq hear (if_neg (Bool.eq_false_iff.1 h))⟩, ?_, ?_⟩
  · rintro s p f rx m x delay offset ds hear runs rfl ht1 hexch rfl rfl rfl
    refine ⟨?_, fun hne far => ?_⟩
    · rintro near u rfl
      have accepted : ¬ ((m.timPort p).delays ≠ [] ∧ 8 < (m.rspDelay p f - medianInt (m.timPort p).delays).natAbs) :=
        fun ⟨hne, far⟩ => near.elim hne (Nat.not_le_of_lt far)
      exact completes_timeRsp_of_matches hear ⟨runs, ht1, hexch⟩ ((m.timeRsp_eq p f).trans (if_neg accepted))
    · exact completes_timeRsp_of_matches hear ⟨runs, ht1, hexch⟩ ((m.timeRsp_eq p f).trans (if_pos ⟨hne, far⟩))
  · refine fun s p f rx u hear h => completes_timeRsp_of_not_matches hear ?_
    rintro ⟨runs, ht1, hexch⟩
    rcases h with h | h | h
    · exact h ht1
    · exact h hexch
    · simp [runs] at h

/-- Settles O7: each clause is the branch of `Mach.select` that its candidates name. -/
theorem parentSelectionFollowsTheBestCandidate : Obligations.ParentSelectionFollowsTheBestCandidate := by
  refine ⟨?_, ?_, fun s t at_ => exec_parentLossTimeout, fun s => completes_parentLossTimeout_idle⟩
  · rintro s u rfl hc
    have selected := Mach.select_none hc rfl
    exact ⟨fun hs => completes_parentSelection (selected.trans (if_pos hs)),
      fun hs => completes_parentSelection (selected.trans (if_neg hs))⟩
  · intro s u c cs best hu hc hb
    refine ⟨fun hp v w hv hw => ?_, fun hp v w hv hw => ?_⟩
    · have selected := Mach.select_self hu hc hb rfl hp hv hw
      exact ⟨fun was => completes_parentSelection (selected.trans (if_pos was)),
        fun h3 h4 => completes_parentSelection (selected.trans (if_neg (not_or.2 ⟨h3, h4⟩)))⟩
    · have selected := Mach.select_parent hu hc hb rfl hp hv hw
      exact ⟨fun was => completes_parentSelection (selected.trans (if_pos was.symm)),
        fun h0 h1 => completes_parentSelection (selected.trans (if_neg (not_or.2 ⟨h1, h0⟩)))⟩

/-- Settles O8: each clause is its command's law; an edge that a root disciplines to is one of the cases of `Mach.ppsRoot_eq`. -/
theorem rootHoldoverPpsAndStepDoAsFileTwoSays : Obligations.RootHoldoverPpsAndStepDoAsFileTwoSays := by
  refine ⟨fun s => completes_rootSeqIncrement_of_root, fun s => completes_rootSeqIncrement_of_not_root,
    fun s prio serial x u h hu => completes_rootLost h hu, fun s prio serial h => completes_rootLost_unknown h,
    fun s u => completes_holdoverLimitPassed, ?edge, ?missing, ?pulse, fun s slot rt => ⟨fun h => completes_ptmRequest (if_pos h),
      fun h => completes_ptmRequest (if_neg (Bool.eq_false_iff.1 h))⟩, fun s r i h => ⟨?loads, ?ignored⟩⟩
  case edge =>
    intro s u v hu hv
    obtain rfl : v = u.ppsNoted := hv
    refine ⟨fun h => completes_ppsInEdge hu (if_neg (by rcases h with h | h <;> simp [h])), fun hr he => ?_⟩
    have disciplined := completes_ppsInEdge hu ((if_pos (by simp [hr, he])).trans u.ppsRoot_eq)
    refine ⟨fun ha he0 hm => ?_, fun h => ?_⟩
    · rwa [if_pos ⟨ha, he0, hm⟩] at disciplined
    · have slews : ¬ (u.tim.ppsArmed = true ∧ u.secondError ≠ 0 ∧ (u.mode ≠ .run ∨ u.secondError < 0)) := by
        rintro ⟨ha, he0, hm⟩
        rcases h with h | h | ⟨hrun, hpast⟩
        · simp [ha] at h
        · exact he0 h
        · exact hm.elim (· hrun) (Int.not_lt.2 hpast)
      rw [if_neg slews] at disciplined
      refine ⟨fun near => ?_, fun far hs => ?_, fun far hs => ?_⟩
      · rwa [if_neg (Nat.not_lt_of_le near)] at disciplined
      · rwa [if_pos far, if_pos hs] at disciplined
      · rwa [if_pos far, if_neg hs] at disciplined
  case missing =>
    rintro s t u ht hs rfl
    exact completes_ppsInMissing ht hs
  case pulse =>
    rintro s e u rfl hu
    exact ⟨fun h => completes_ppsOutPulse hu (if_pos h), fun h => completes_ppsOutPulse hu (if_neg (Bool.eq_false_iff.1 h))⟩
  case loads =>
    rintro hm u v rfl rfl
    exact completes_step_loads h ((Mode.steps_iff _).2 hm)
  case ignored =>
    intro hm
    exact completes_step_ignored h (by rcases hm with hm | hm <;> rw [hm] <;> rfl)

end Sys2Proof.Machine
end

section
/-! Codewords on the lanes of file 03: their decoding and counts (R55, R56, Table 3-8), lock and its loss (R58, R68, R79), the lane
counters (R76), the pattern checker (R75) and the interval of FEC_LIMIT (R79). -/

namespace Sys2Proof.Machine

/-! ### The counts of a codeword (Table 3-8) -/

section Counts
variable (m : Mach) (l : LaneId)

theorem Mach.countCodeword_corrected {n : Nat} (h : 0 < n) : m.countCodeword l (some n) =
    ((m.bump Reg.LAN.CW_CORR 1 l).bump Reg.LAN.SYM_CORR n l).pmcPort (portOfLane l) 0x28 1 :=
  if_pos h

theorem Mach.countCodeword_clean : m.countCodeword l (some 0) = m := rfl

theorem Mach.countCodeword_uncorrectable : m.countCodeword l none =
    ((m.bump Reg.LAN.CW_UNCORR 1 l).pmcPort (portOfLane l) 0x29 1).updLane l (fun x => { x with uncorrSec := x.uncorrSec + 1 }) :=
  rfl

end Counts

/-! ### Codeword lock (R58) -/

/-- A lane that is regained is recorded where it was lost (R79). -/
theorem Mach.regain_eq {m u : Mach} {l : Nat}
    (hu : u = (((m.put Reg.LAN.SIG_DET 1 l).put Reg.LAN.CDR_LOCK 1 l).put Reg.LAN.CW_LOCK 1 l).updLane l (fun x =>
      { x with lost := false, goodRun := 0, badRun := 0, seekSince := none })) :
    m.regain l = if (m.lane l).lost = true then u.record 0x3002 (quadOfLane l) [l] else u := by
  subst hu
  rfl

section Lock
variable {m : Mach} {l : LaneId}

theorem Mach.trackLock_fourth_good (h : m.isSet Reg.LAN.CW_LOCK l = false) (h3 : (m.lane l).goodRun = 3) :
    m.trackLock l true = m.regain l := by
  have last : ¬ (m.lane l).goodRun + 1 < 4 := by omega
  simp only [Mach.trackLock, h, Bool.not_true, Bool.false_eq_true, if_false, last]

theorem Mach.trackLock_good_of_unlocked (h : m.isSet Reg.LAN.CW_LOCK l = false) (h3 : (m.lane l).goodRun < 3) :
    m.trackLock l true = m.updLane l (fun x => { x with goodRun := x.goodRun + 1 }) := by
  have more : (m.lane l).goodRun + 1 < 4 := by omega
  simp only [Mach.trackLock, h, Bool.not_true, Bool.false_eq_true, if_false, more, if_true]

theorem Mach.trackLock_good_of_locked (h : m.isSet Reg.LAN.CW_LOCK l = true) :
    m.trackLock l true = m.updLane l (fun x => { x with badRun := 0 }) := by
  simp only [Mach.trackLock, h, if_true]

theorem Mach.trackLock_bad_of_locked (h : m.isSet Reg.LAN.CW_LOCK l = true) (h7 : (m.lane l).badRun < 7) :
    m.trackLock l false = m.updLane l (fun x => { x with badRun := x.badRun + 1 }) := by
  have more : (m.lane l).badRun + 1 < 8 := by omega
  simp only [Mach.trackLock, h, Bool.false_eq_true, if_false, more, if_true]

theorem Mach.trackLock_eighth_bad (h : m.isSet Reg.LAN.CW_LOCK l = true) (h7 : (m.lane l).badRun = 7) :
    m.trackLock l false = (m.put Reg.LAN.CW_LOCK 0 l).updLane l (fun x =>
      { x with badRun := 0, goodRun := 0, seekSince := some m.clk }) := by
  have last : ¬ (m.lane l).badRun + 1 < 8 := by omega
  simp only [Mach.trackLock, h, Bool.false_eq_true, if_false, last, if_true]

end Lock

/-- No width change goes on where none waits for added lanes (R108). -/
theorem Mach.tryAdd_of_not_adding {m : Mach} {p : Nat} (h : m.adding p = false) : m.tryAdd p = m := by
  simp only [Mach.tryAdd, h, Bool.false_and, Bool.false_eq_true, if_false]

/-! ### Codewords (R55, R56) -/

theorem completes_codewordReceive_of_idle {s : State} {l : LaneId} (h : s.m.isSet Reg.LAN.EI l = true) (c : Codeword) :
    Completes (.codewordReceive l c) s s.m :=
  congrArg (ok s) (if_pos h)

/-- An awake lane decodes and descrambles a codeword, counts it under FEC and lock, and tracks its lock by it. -/
theorem completes_codewordReceive_of_awake {s : State} {l : LaneId} {c : Codeword} {fec : Bool} {g : List Nat} {u v : Mach}
    {d : Decoded} {b : List Block × List Bool} (h : s.m.isSet Reg.LAN.EI l = false)
    (hfec : fec = s.m.isSet Reg.LAN.FEC (portOfLane l)) (hin : (g, u) = s.m.laneIn l c.symbols) (hd : d = decodeCodeword fec g)
    (hv : v = if fec = true ∧ u.isSet Reg.LAN.CW_LOCK l = true then u.countCodeword l d.errors else u)
    (hb : b = descrambleBlocks (v.lane l).rxHist d.blocks) :
    Completes (.codewordReceive l c) s
      (((v.updLane l (fun x => { x with rxBlocks := b.1, rxHist := b.2, rxErr := fec && d.errors.isNone })).trackLock l
        (if fec then d.errors.isSome else d.fillOk)).tryAdd (portOfLane l)) := by
  change ok s (s.m.codeword l c) = _
  simp only [← Bool.and_eq_true] at hv
  simp only [Mach.codeword, h, Bool.false_eq_true, if_false, ← hfec, ← hin, ← hd, ← hv, ← hb]
  rfl

/-! ### The loss of a lane (R58, R68, R79) -/

/-- An active lane of a trained port that is lost leaves the port the widest good set (R79, R108). -/
theorem Mach.loseLane_eq {m u : Mach} {l : LaneId} {p : PortId} (hp : p = Fin.ofNat 128 (portOfLane l))
    (ha : m.laneActive l = true) (hl : (m.lane l).lost = false) (ht : m.trained p = true)
    (hu : u = ((((m.updLane l (fun x => { x with lost := true, goodRun := 0, seekSince := none })).raise 16 (.port p) l
      (quadOfLane l)).record 0x3001 (quadOfLane l) [l.val]).put Reg.LAN.CW_LOCK 0 l)) :
    m.loseLane l =
      if chooseLanes (u.widthMax p) (u.goodLanes p) = 0 then u.linkDown p 3
      else if u.linkState p = 2 then u.startAction p .width 3 (chooseLanes (u.widthMax p) (u.goodLanes p))
      else u.updLink p (fun k => { k with train := k.train.map (fun t =>
        { t with lanes := chooseLanes (u.widthMax p) (u.goodLanes p), good := u.goodLanes p }) }) := by
  have loses : (!m.laneActive l || (m.lane l).lost || !m.trained p) = false := by
    simp only [ha, hl, ht, Bool.not_true, Bool.or_self]
  simp only [Mach.loseLane, ← hp, loses, Bool.false_eq_true, if_false, ← hu]

section LaneLost
variable {s : State} {l : LaneId} (ha : s.m.laneActive l = true) (ht : s.m.trained (portOfLane l) = true)
include ha ht

/-- A lane whose lock is lost is lost 1 µs later. -/
theorem completes_laneLost_of_seeking {t : Nat} (h : (s.m.lane l).seekSince = some t) :
    Completes (.laneLost ⟨l, false⟩) s ((s.m.elapseTo (t + 2000)).loseLane l) := by
  change execLaneLost ⟨l, false⟩ s = _
  simp only [execLaneLost, ha, ht, Bool.and_self, if_true, Bool.false_eq_true, if_false, h, ok, Config.usCycles]

theorem completes_laneLost_of_not_seeking (h : (s.m.lane l).seekSince = none) :
    Completes (.laneLost ⟨l, false⟩) s s.m := by
  change execLaneLost ⟨l, false⟩ s = _
  simp only [execLaneLost, ha, ht, Bool.and_self, if_true, Bool.false_eq_true, if_false, h, ok]

/-- A lane that loses its signal is lost at once. -/
theorem completes_laneLost_of_signal : Completes (.laneLost ⟨l, true⟩) s
    (((s.m.put Reg.LAN.SIG_DET 0 l).put Reg.LAN.CDR_LOCK 0 l).loseLane l) := by
  change execLaneLost ⟨l, true⟩ s = _
  simp only [execLaneLost, ha, ht, Bool.and_self, if_true, ok]

end LaneLost

/-! ### Counters, checker and interval (R75, R76, R79) -/

/-- LANE_CNT_CLR clears the counters of R76 at the register. -/
theorem completes_laneCntClr {s : State} {r : Requester} {i : Nat} (h : s.m.passes r Reg.LAN.CNT_CLR i = true) :
    Completes (.laneCntClr r) s ((s.m.reach r Reg.LAN.CNT_CLR).clear laneCounters i) := by
  rw [← Mach.acted_plain rfl rfl 1]
  exact congrArg (ok s) (Mach.action_passes h 1 _)

/-- An awake lane under PRBS_CHK_EN gives its checker the symbols as `Mach.laneIn` turns and decodes them. -/
theorem completes_prbsLock_of_checking {s : State} {l : LaneId} {syms g : List Nat} {u : Mach} (hin : (g, u) = s.m.laneIn l syms)
    (hc : s.m.isSet Reg.LAN.PRBS_CHK_EN l = true) (he : s.m.isSet Reg.LAN.EI l = false) :
    Completes (.prbsLock l syms) s (g.foldl (fun (a : Mach) y => a.prbsSymbol l (ungray y)) u) := by
  change execPrbsLock l syms s = _
  simp only [execPrbsLock, hc, he, Bool.not_false, Bool.and_self, if_true, ← hin, ok]

theorem completes_prbsLock_of_not_checking {s : State} {l : LaneId}
    (h : s.m.isSet Reg.LAN.PRBS_CHK_EN l = false ∨ s.m.isSet Reg.LAN.EI l = true) (syms : List Nat) :
    Completes (.prbsLock l syms) s s.m := by
  have ignores : ¬ (s.m.isSet Reg.LAN.PRBS_CHK_EN l && !s.m.isSet Reg.LAN.EI l) = true := by
    simp only [Bool.and_eq_true, Bool.not_eq_true']
    rintro ⟨hc, he⟩
    exact h.elim (Bool.eq_false_iff.1 · hc) (Bool.eq_false_iff.1 he)
  exact congrArg (ok s) (if_neg ignores)

/-- At its interval's end a lane starts a new count, and the old one is reported where it passed a nonzero limit (R79). -/
theorem completes_fecIntervalEnd {s : State} {l : LaneId} {u m : Mach}
    (hu : u = s.m.updLane l (fun x => { x with uncorrSec := 0, fecLim := s.m.get Reg.LAN.FEC_LIMIT }))
    (h : (if 0 < (s.m.lane l).fecLim ∧ (s.m.lane l).fecLim < (s.m.lane l).uncorrSec then
      (u.raise 18 (.port (portOfLane l)) l (quadOfLane l)).record 0x3030 (quadOfLane l) [l.val, (s.m.lane l).uncorrSec]
      else u) = m) : Completes (.fecIntervalEnd l) s m := by
  subst hu h
  change execFecIntervalEnd l s = _
  simp only [execFecIntervalEnd, Bool.and_eq_true, decide_eq_true_eq, ok]

/-! ### The statement -/

/-- Settles O9: each clause is its command's law, or the law of the operation on a machine that it runs. -/
theorem codewordsLockAndLoseALane : Obligations.CodewordsLockAndLoseALane := by
  refine ⟨fun s l c h => completes_codewordReceive_of_idle h c,
    fun s l c fec g u v d b h hfec hin hd hv hb => completes_codewordReceive_of_awake h hfec hin hd hv hb, fun m l => ?lock,
    fun m p h => Mach.tryAdd_of_not_adding h, fun s l ha ht => ⟨fun t h => completes_laneLost_of_seeking ha ht h,
      completes_laneLost_of_not_seeking ha ht, completes_laneLost_of_signal ha ht⟩, fun s l => rfl,
    fun m u l p hp ha hl ht hu => ?loses, fun s r i h => completes_laneCntClr h, fun s l syms g u hin =>
      ⟨completes_prbsLock_of_checking hin, fun h => completes_prbsLock_of_not_checking h syms⟩, fun s l u hu => ?interval⟩
  case lock =>
    refine ⟨fun n h => m.countCodeword_corrected l h, m.countCodeword_clean l, m.countCodeword_uncorrectable l,
      fun u hu hun h3 => ?_, Mach.trackLock_good_of_unlocked, Mach.trackLock_good_of_locked, Mach.trackLock_bad_of_locked,
      Mach.trackLock_eighth_bad⟩
    rw [Mach.trackLock_fourth_good hun h3, Mach.regain_eq hu]
    exact ⟨fun lost => if_pos lost, fun kept => if_neg (Bool.eq_false_iff.1 kept)⟩
  case loses =>
    rw [Mach.loseLane_eq hp ha hl ht hu]
    exact ⟨fun down => if_pos down, fun good up => (if_neg good).trans (if_pos up),
      fun good busy => (if_neg good).trans (if_neg busy)⟩
  case interval =>
    refine ⟨fun h0 hn => completes_fecIntervalEnd hu (if_pos ⟨h0, hn⟩), fun h => completes_fecIntervalEnd hu (if_neg ?_)⟩
    omega

end Sys2Proof.Machine
end

section
/-! ALIGN blocks on the lanes of file 03 (R57, R61 to R63, R74), electrical idle and the exit from it (R69 to R74), and margin scans
(R77, R78). -/

namespace Sys2Proof.Machine

/-! ### ALIGN blocks -/

theorem completes_alignBlock_of_idle {s : State} {l : LaneId} (h : s.m.isSet Reg.LAN.EI l = true) (b : AlignBlock) :
    Completes (.alignBlock l b) s s.m :=
  congrArg (ok s) (if_pos h)

/-- An awake lane takes an ALIGN block up as `Mach.align` says. -/
theorem completes_alignBlock_of_awake {s : State} {l : LaneId} {b : AlignBlock} {m : Mach}
    (h : s.m.isSet Reg.LAN.EI l = false) (hm : s.m.align l b = m) : Completes (.alignBlock l b) s m :=
  congrArg (ok s) ((if_neg (Bool.eq_false_iff.1 h)).trans hm)

/-! ### Idle notices (R69) -/

/-- EI_DELAY acts unless it is 0, clamped to its range and in CORECLK cycles (Table 3-8). -/
theorem Mach.eiDelay_eq (m : Mach) (p : Nat) : m.eiDelay p =
    if m.get Reg.LAN.EI_DELAY p = 0 then none else some (clamp 100 1000000 (m.get Reg.LAN.EI_DELAY p) * 2) := by
  unfold Mach.eiDelay
  split
  case h_1 h => exact (if_pos h).symm
  case h_2 h => exact (if_neg h).symm

theorem completes_idleNoticeSend_of_not_ready {s : State} {p : PortId}
    (h : s.m.get Reg.LAN.EI_DELAY p = 0 ∨ s.m.idleReady p = false ∨ (s.m.ei p).sentNotice = true) :
    Completes (.idleNoticeSend p) s s.m := by
  change execIdleNoticeSend p s = _
  by_cases h0 : s.m.get Reg.LAN.EI_DELAY p = 0
  · simp only [execIdleNoticeSend, Mach.eiDelay_eq, h0, if_true, ok]
  · have stays : ¬ (s.m.idleReady p && !(s.m.ei p).sentNotice) = true := by
      simp only [Bool.and_eq_true, Bool.not_eq_true']
      rintro ⟨hr, hs⟩
      exact (h.resolve_left h0).elim (Bool.eq_false_iff.1 · hr) (Bool.eq_false_iff.1 hs)
    simp only [execIdleNoticeSend, Mach.eiDelay_eq, h0, stays, Bool.false_eq_true, if_false, ok]

theorem completes_idleNoticeSend_of_ready {s : State} {p : PortId} (h0 : s.m.get Reg.LAN.EI_DELAY p ≠ 0)
    (hr : s.m.idleReady p = true) (hs : (s.m.ei p).sentNotice = false) :
    Completes (.idleNoticeSend p) s ((((s.m.elapseTo ((s.m.ei p).quietSince +
      clamp 100 1000000 (s.m.get Reg.LAN.EI_DELAY p) * 2)).updEi p (fun e => { e with sentNotice := true })).sendNotice
      p).idleIfBoth p) := by
  change execIdleNoticeSend p s = _
  simp only [execIdleNoticeSend, Mach.eiDelay_eq, h0, if_false, hr, hs, Bool.not_false, Bool.and_self, if_true, ok]

theorem completes_idleNoticeReceive_of_up {s : State} {p : PortId} (hu : s.m.linkState p = 2) (hd : (s.m.ei p).driversOff = false) :
    Completes (.idleNoticeReceive p) s (((s.m.frameIn p).updEi p (fun e => { e with rcvdNotice := true })).idleIfBoth p) := by
  change execIdleNoticeReceive p s = _
  simp only [execIdleNoticeReceive, hu, decide_true, hd, Bool.not_false, Bool.and_self, if_true, ok]

theorem completes_idleNoticeReceive_of_not_up {s : State} {p : PortId}
    (h : s.m.linkState p ≠ 2 ∨ (s.m.ei p).driversOff = true) : Completes (.idleNoticeReceive p) s s.m := by
  have ignores : ¬ (decide (s.m.linkState p = 2) && !(s.m.ei p).driversOff) = true := by
    simp only [Bool.and_eq_true, decide_eq_true_eq, Bool.not_eq_true']
    rintro ⟨hu, hd⟩
    exact h.elim (· hu) (Bool.eq_false_iff.1 hd)
  exact congrArg (ok s) (if_neg ignores)

/-- The drivers turn off under both notices, but not with EI_DELAY 0 nor under a scan (R69, R78). -/
theorem Mach.idleIfBoth_eq (m : Mach) (p : Nat) : m.idleIfBoth p =
    if (m.ei p).sentNotice = true ∧ (m.ei p).rcvdNotice = true ∧ m.get Reg.LAN.EI_DELAY p ≠ 0 ∧ m.scanOn p = false
    then m.driversOff p else m := by
  have delays : (m.eiDelay p).isSome = true ↔ m.get Reg.LAN.EI_DELAY p ≠ 0 := by
    rw [Mach.eiDelay_eq]
    split
    case isTrue h0 => exact iff_of_false Bool.false_ne_true (· h0)
    case isFalse h0 => exact iff_of_true rfl h0
  simp only [Mach.idleIfBoth, Bool.and_eq_true, Bool.not_eq_true', delays, and_assoc]

/-! ### The exit from electrical idle (R70 to R74) -/

theorem completes_eiExitRequest {s : State} {p : PortId} {m : Mach}
    (h : (if s.m.exitWanted p = true then s.m.exitIdle p else s.m) = m) : Completes (.eiExitRequest p) s m :=
  congrArg (ok s) h

/-- Past the first cycle, a turn-off in this very cycle is cancelled, and a port that has been off sends a wake burst (R26, R70). -/
theorem Mach.exitIdle_eq {m : Mach} {p : PortId} (ht : m.trained p = true) (hd : (m.ei p).driversOff = true)
    (hb : (m.ei p).bursts = 0) (hc : 0 < m.clk) : m.exitIdle p =
      if (m.ei p).offAt = m.clk then m.driversOn p
      else ((m.wakeForPort p).updEi p (fun e => { e with bursts := 1, burstAt := (m.wakeForPort p).clk })).sendWake p := by
  simp only [Mach.exitIdle, ht, hd, hb, hc, decide_true, Bool.and_self, Bool.and_true, if_true, decide_eq_true_eq]

/-- The precoders of a port's receive lanes restart from 0 at a wake burst (R61). -/
def Mach.restartPrecoders (m : Mach) (p : PortId) : Mach :=
  (List.range 4).foldl (fun (a : Mach) k => a.updLane (4 * p.val + k) (fun x => { x with rxPrev := 0 })) m

theorem completes_wakeBurstReceive_of_off {s : State} {p : PortId} {skew : List Nat} {u : Mach} (ht : s.m.trained p = true)
    (hd : (s.m.ei p).driversOff = true) (hu : u = if (s.m.ei p).bursts = 0 then (s.m.wakeForPort p).sendWake p else s.m) :
    Completes (.wakeBurstReceive p skew) s (((u.restartPrecoders p).driversOn p).skewCheck p skew) := by
  have answers : (s.m.trained p && (s.m.ei p).driversOff) = true := by
    simp only [ht, hd, Bool.and_self]
  subst hu
  exact congrArg (ok s) (if_pos answers)

theorem completes_wakeBurstReceive_of_not_off {s : State} {p : PortId}
    (h : s.m.trained p = false ∨ (s.m.ei p).driversOff = false) (skew : List Nat) :
    Completes (.wakeBurstReceive p skew) s s.m := by
  have ignores : ¬ (s.m.trained p && (s.m.ei p).driversOff) = true := by
    rw [Bool.and_eq_true]
    rintro ⟨ht, hd⟩
    exact h.elim (Bool.eq_false_iff.1 · ht) (Bool.eq_false_iff.1 · hd)
  exact congrArg (ok s) (if_neg ignores)

/-- The first burst without an answer is repeated; the second takes the link down (R72). -/
theorem completes_wakeAnswerTimeout {s : State} {p : PortId} {u m : Mach}
    (hu : u = s.m.elapseTo ((s.m.ei p).burstAt + 25 * 2000)) (hd : (s.m.ei p).driversOff = true) (ht : s.m.trained p = true)
    (hb : 0 < (s.m.ei p).bursts)
    (h : (if (s.m.ei p).bursts = 1 then
        (u.updEi p (fun e => { e with bursts := 2, burstAt := u.clk })).sendBurst p (u.txLanes p)
      else ((u.raise 19 (.port p) 0 (quadOfPort p)).record 0x3004 (quadOfPort p) [p.val]).linkDown p 1) = m) :
    Completes (.wakeAnswerTimeout p) s m := by
  have waits : ((s.m.ei p).driversOff && decide (0 < (s.m.ei p).bursts) && s.m.trained p) = true := by
    simp only [hd, hb, ht, decide_true, Bool.and_self]
  subst hu
  exact congrArg (ok s) ((if_pos waits).trans h)

/-! ### Asking for a margin scan (R78) -/

/-- SCAN_START of a lane not under scan asks for its scan, once the write has come to the register. -/
theorem completes_scanStart {s : State} {r : Requester} {i : Nat} {u : Mach} (h : s.m.passes r Reg.LAN.SCAN_START i = true)
    (hu : u = s.m.reach r Reg.LAN.SCAN_START)
    (hl : (s.m.scans ++ s.m.scanWait).contains (s.m.idx r Reg.LAN.LANE_IDX) = false) :
    Completes (.scanStart r) s (u.askScan (Fin.ofNat 512 (u.idx r Reg.LAN.LANE_IDX))) := by
  rw [hu, ← Mach.acted_plain rfl rfl 1]
  exact congrArg (ok s) (Mach.actionIf_passes h 1 (by simp only [hl, Bool.not_false]) _)

section AskScan
variable {m : Mach} {l : LaneId}

/-- On an UP port of a quadrant without a scan the scan begins. -/
theorem Mach.askScan_of_free (hu : m.linkState (portOfLane l) = 2) (hq : m.scanning (quadOfLane l) = false) :
    m.askScan l = if m.isSet Reg.LAN.EI l = true then
        { m with scanWait := m.scanWait.filter (· != l.val) ++ [l.val] }.exitIdle (portOfLane l)
      else m.startScan l := by
  simp only [Mach.askScan, hu, hq]
  rfl

/-- Behind a link action of the port or another scan of the quadrant the scan is deferred. -/
theorem Mach.askScan_of_busy (h : m.linkState (portOfLane l) = 1 ∨ m.linkState (portOfLane l) = 3 ∨ m.linkState (portOfLane l) = 4 ∨
    m.scanning (quadOfLane l) = true) : m.askScan l =
      ((m.put Reg.LAN.SCAN_STATUS 2 (portOfLane l)).defer 4 l (quadOfLane l)).record 0x3021 (quadOfLane l) [l.val] :=
  if_pos (by simpa only [Bool.or_eq_true, decide_eq_true_eq, or_assoc] using h)

end AskScan

section ScanPeriod
variable {s : State} {q : Quad} {k : Nat}
  (hk : (List.range 128).find? (fun k => s.m.trained (portOfLane (128 * q.val + (Tbl.get s.m.hive.scanTurn q 0 + k) % 128)) &&
    s.m.laneActive (128 * q.val + (Tbl.get s.m.hive.scanTurn q 0 + k) % 128)) = some k)
include hk

/-- The next active lane of the quadrant has its turn, and the turn goes on behind it. -/
theorem completes_scanPeriodDue {n : Nat} {u : Mach} (hn : n = (Tbl.get s.m.hive.scanTurn q 0 + k) % 128)
    (hu : u = { s.m with hive := { s.m.hive with scanTurn := Tbl.set s.m.hive.scanTurn q ((n + 1) % 128) } })
    (hp : s.m.get Reg.LAN.SCAN_PERIOD ≠ 0) (hl : (u.scans ++ u.scanWait).contains (128 * q.val + n) = false) :
    Completes (.scanPeriodDue q) s (u.askScan (Fin.ofNat 512 (128 * q.val + n))) := by
  have unscanned : (s.m.scans ++ s.m.scanWait).contains (128 * q.val + n) = false := by
    rw [hu] at hl
    exact hl
  change execScanPeriodDue q s = _
  simp only [execScanPeriodDue, hk, hp, if_false, ← hn, ← hu, unscanned, Bool.false_eq_true, ok]

theorem completes_scanPeriodDue_of_stopped (hp : s.m.get Reg.LAN.SCAN_PERIOD = 0) : Completes (.scanPeriodDue q) s s.m := by
  change execScanPeriodDue q s = _
  simp only [execScanPeriodDue, hk, hp, if_true, ok]

end ScanPeriod

/-! ### The end of a margin scan (R77) -/

theorem completes_scanComplete_of_none {s : State} {l : LaneId} (h : s.m.scans.contains l.val = false) (a b c : EyeScan) :
    Completes (.scanComplete l a b c) s s.m :=
  congrArg (ok s) (if_neg (Bool.eq_false_iff.1 h))

/-- An eye of width `t.1` and height `t.2` falls short of MARGIN_MIN. -/
def Mach.fallsShort (m : Mach) (t : Nat × Nat) : Bool :=
  decide (t.1 < m.get Reg.LAN.W_MIN) || decide (t.2 < m.get Reg.LAN.H_MIN)

theorem Mach.any_fallsShort_iff (m : Mach) (eyes : List (Nat × Nat)) : eyes.any m.fallsShort = true ↔
    ∃ t ∈ eyes, t.1 < m.get Reg.LAN.W_MIN ∨ t.2 < m.get Reg.LAN.H_MIN := by
  simp only [List.any_eq_true, Mach.fallsShort, Bool.or_eq_true, decide_eq_true_eq]

theorem Mach.any_fallsShort_eq_false_iff (m : Mach) (eyes : List (Nat × Nat)) : eyes.any m.fallsShort = false ↔
    ∀ t ∈ eyes, m.get Reg.LAN.W_MIN ≤ t.1 ∧ m.get Reg.LAN.H_MIN ≤ t.2 := by
  simp only [List.any_eq_false, Mach.fallsShort, Bool.or_eq_true, decide_eq_true_eq, not_or, Nat.not_lt]

/-- The machine once a lane's scan has ended with eyes of these sizes: they are stored, and the lane adapts again (R67, R77). -/
def Mach.scanEnded (m : Mach) (l : LaneId) (x y z : Nat × Nat) : Mach :=
  let u := (((((({ m with scans := m.scans.filter (· != l.val), scanRuns := Tbl.del m.scanRuns l }.put Reg.LAN.EYE_U_W x.1 l).put
      Reg.LAN.EYE_U_H x.2 l).put Reg.LAN.EYE_M_W y.1 l).put Reg.LAN.EYE_M_H y.2 l).put Reg.LAN.EYE_L_W z.1 l).put
      Reg.LAN.EYE_L_H z.2 l)
  let w := (u.put Reg.LAN.SCAN_STATUS 3 (portOfLane l)).refreeze l
  w.updEi (portOfLane l) (fun e => { e with quietSince := w.clk })

/-- A scan that ends raises FS17 where one of its eyes falls short (R77). -/
theorem completes_scanComplete {s : State} {l : LaneId} {a b c : EyeScan} {run : List (Nat × Nat × Nat)} {x y z : Nat × Nat}
    {v m : Mach} (hs : s.m.scans.contains l.val = true) (hr : run = Tbl.get s.m.scanRuns l []) (hx : x = EyeScan.size run 0 a)
    (hy : y = EyeScan.size run 1 b) (hz : z = EyeScan.size run 2 c) (hv : v = s.m.scanEnded l x y z)
    (h : (if [x, y, z].any v.fallsShort = true then
      (v.raise 17 (.port (portOfLane l)) l (quadOfLane l)).record 0x3020 (quadOfLane l) [l.val] else v) = m) :
    Completes (.scanComplete l a b c) s m := by
  have short : (decide (x.1 < v.get Reg.LAN.W_MIN) || decide (y.1 < v.get Reg.LAN.W_MIN) || decide (z.1 < v.get Reg.LAN.W_MIN) ||
      decide (x.2 < v.get Reg.LAN.H_MIN) || decide (y.2 < v.get Reg.LAN.H_MIN) || decide (z.2 < v.get Reg.LAN.H_MIN)) =
      [x, y, z].any v.fallsShort := by
    simp only [List.any_cons, List.any_nil, Mach.fallsShort, Bool.or_false]
    ac_rfl
  rw [← h, ← short]
  subst hr hx hy hz hv
  exact congrArg (ok s) (if_pos hs)

/-! ### The statement -/

/-- Settles O10: each clause is its command's law, or the law of the operation on a machine that it runs. -/
theorem alignIdleAndMarginScansDoAsFileThreeSays : Obligations.AlignIdleAndMarginScansDoAsFileThreeSays := by
  refine ⟨?align, fun s p => ⟨completes_idleNoticeSend_of_not_ready, completes_idleNoticeSend_of_ready,
      completes_idleNoticeReceive_of_up, completes_idleNoticeReceive_of_not_up, fun h => completes_eiExitRequest (if_pos h),
      fun h => completes_eiExitRequest (if_neg (Bool.eq_false_iff.1 h)), fun skew u => completes_wakeBurstReceive_of_off,
      fun skew h => completes_wakeBurstReceive_of_not_off h skew, fun u hu hd ht => ⟨?repeats, ?fails⟩⟩,
    fun m p => ⟨?bothNotices, ?staysOn, ?exits⟩, fun s r i u => completes_scanStart,
    fun m l => ⟨?scans, ?waits, Mach.askScan_of_busy⟩,
    fun s q k n u hk hn hu => ⟨completes_scanPeriodDue hk hn hu, completes_scanPeriodDue_of_stopped hk⟩,
    fun s l a b c h => completes_scanComplete_of_none h a b c, ?scanEnds⟩
  case align =>
    rintro s l b p u v w x rfl rfl rfl rfl rfl
    exact ⟨fun h => completes_alignBlock_of_idle h b, fun h => completes_alignBlock_of_awake h rfl⟩
  case repeats =>
    exact fun once => completes_wakeAnswerTimeout hu hd ht (by omega) (if_pos once)
  case fails =>
    exact fun twice => completes_wakeAnswerTimeout hu hd ht (by omega) (if_neg (by omega))
  case bothNotices =>
    exact fun hs hr hd hn => (m.idleIfBoth_eq p).trans (if_pos ⟨hs, hr, hd, hn⟩)
  case staysOn =>
    refine fun h => (m.idleIfBoth_eq p).trans (if_neg ?_)
    rintro ⟨hs, hr, hd, hn⟩
    exact h.elim (Bool.eq_false_iff.1 · hs) (·.elim (Bool.eq_false_iff.1 · hr) (·.elim hd (Bool.eq_false_iff.1 hn)))
  case exits =>
    intro ht hd hb hc
    rw [Mach.exitIdle_eq ht hd hb hc]
    exact ⟨fun now => if_pos now, fun before => if_neg before⟩
  case scans =>
    exact fun hu hq he => (Mach.askScan_of_free hu hq).trans (if_neg (Bool.eq_false_iff.1 he))
  case waits =>
    exact fun hu hq he => (Mach.askScan_of_free hu hq).trans (if_pos he)
  case scanEnds =>
    rintro s l a b c run x y z u hs hr hx hy hz rfl w v rfl hv
    refine ⟨fun fits => ?_, fun short => ?_⟩
    · rw [← Mach.any_fallsShort_eq_false_iff] at fits
      exact completes_scanComplete hs hr hx hy hz hv (if_neg (Bool.eq_false_iff.1 fits))
    · rw [← Mach.any_fallsShort_iff] at short
      exact completes_scanComplete hs hr hx hy hz hv (if_pos short)

end Sys2Proof.Machine
end

section
/-! The receiver of the link of file 04: what is made of a frame (R59, R81, R83 to R85, R91), and what becomes of a data frame
(R85, R90, R91). -/

namespace Sys2Proof.Machine

/-! ### What is made of a frame -/

section Check
variable {m : Mach} {p : Nat} {rx : Rx} (body : List Byte) (fr : Bool)

/-- In RESYNC, what does not follow a non-frame block is discarded, or has a bad CRC where one stands within it (R81, R91). -/
theorem Mach.checkFrame_of_resync (hr : (m.link p).resync = true) (hb : rx.before = false) :
    m.checkFrame p body fr rx = if rx.within = 0 then .discarded else .bad :=
  if_pos (by simp only [hr, hb, Bool.not_false, Bool.and_self])

/-- Out of RESYNC a framing error comes before the CRC, and an errored codeword spoils the CRC (R59, R83, R84). -/
theorem Mach.checkFrame_of_synced (h : (m.link p).resync = false ∨ rx.before = true) :
    m.checkFrame p body fr rx =
      if fr = true then .framing
      else if rx.inLast = true ∧ m.anyErrored p = true then .bad
      else if rx.crc = (crc32c body).toNat then .good
      else if rx.crc = (stompCrc body).toNat then .stomp
      else .bad := by
  have synced : ((m.link p).resync && !rx.before) = false := by
    rcases h with h | h <;> simp only [h, Bool.not_true, Bool.false_and, Bool.and_false]
  simp only [Mach.checkFrame, synced, Bool.false_eq_true, if_false, Bool.and_eq_true]

end Check

/-! ### The data frame as it comes in -/

theorem completes_dataFrame_ignored {s : State} {p : PortId} {f : DataFrame} {rx : Rx}
    (h : s.m.receives p = false ∨ s.m.checkFrame p f.wire f.framingError rx = .discarded) :
    Completes (.dataFrame p f rx) s s.m := by
  change execDataFrame p f rx s = _
  unfold execDataFrame
  by_cases hr : s.m.receives p = true
  · have discarded := h.resolve_left (by simp only [hr, Bool.true_eq_false, not_false_eq_true])
    simp only [hr, discarded, Bool.not_true, Bool.false_eq_true, if_false, ok]
  · simp only [hr, Bool.not_false, if_true, ok]

/-- The packet of a frame whose CRC fails may have begun to leave: the port is trained, and the frame would have been accepted
(R85, R90). -/
def Mach.mayLeave (m : Mach) (p : Nat) (f : DataFrame) : Prop :=
  m.trained p = true ∧ f.fsn = m.get Reg.LNK.EXPECTED p ∧ (m.link p).overrun = false ∧
  pool (m.link p).occupied (poolOf f.vc f.shared) + cellsOf f.pktLen ≤ pool (m.link p).size (poolOf f.vc f.shared)

section DataFrame
variable {s : State} {p : PortId} {f : DataFrame} {rx : Rx} {u : Mach} (hr : s.m.receives p = true)
  (hu : u = (((s.m.frameIn p).busyPort p).updLink p (fun l => { l with lastData := s.m.clk })).pmcReceived p
    (Frame.bytes (.data f false)) true)
include hr hu

theorem completes_dataFrame_framing (hc : s.m.checkFrame p f.wire f.framingError rx = .framing) :
    Completes (.dataFrame p f rx) s (u.frameBad p 3) := by
  subst hu
  change execDataFrame p f rx s = _
  simp only [execDataFrame, hr, hc, Bool.not_true, Bool.false_eq_true, if_false, ok]

theorem completes_dataFrame_bad_of_mayLeave (hc : s.m.checkFrame p f.wire f.framingError rx = .bad) (h : u.mayLeave p f) :
    Completes (.dataFrame p f rx) s ((u.stompThrough p f).frameBad p 1) := by
  obtain ⟨ht, hf, ho, hp⟩ := h
  subst hu
  change execDataFrame p f rx s = _
  simp only [execDataFrame, hr, hc, Bool.not_true, Bool.false_eq_true, if_false, ht, hf, ho, hp, decide_true, Bool.not_false,
    Bool.and_self, if_true, ok]

theorem completes_dataFrame_bad_of_not_mayLeave (hc : s.m.checkFrame p f.wire f.framingError rx = .bad) (h : ¬ u.mayLeave p f) :
    Completes (.dataFrame p f rx) s (u.frameBad p 1) := by
  have stays : ¬ (((u.trained p = true ∧ f.fsn = u.get Reg.LNK.EXPECTED p) ∧
      pool (u.link p).occupied (poolOf f.vc f.shared) + cellsOf f.pktLen ≤ pool (u.link p).size (poolOf f.vc f.shared)) ∧
      (u.link p).overrun = false) :=
    fun ⟨⟨⟨ht, hf⟩, hp⟩, ho⟩ => h ⟨ht, hf, ho, hp⟩
  subst hu
  change execDataFrame p f rx s = _
  simp only [execDataFrame, hr, hc, Bool.not_true, Bool.false_eq_true, if_false, Bool.and_eq_true, decide_eq_true_eq,
    Bool.not_eq_true', stays, ok]

/-- A data frame whose CRC is good or a stomp is heard by a responder that waits, and goes on to a port then trained. -/
theorem completes_dataFrame_checked {st : Bool} {m : Mach}
    (hc : s.m.checkFrame p f.wire f.framingError rx = if st = true then .stomp else .good)
    (h : (if (u.hear p).trained p = true then (u.hear p).dataIn p f st else u.hear p) = m) :
    Completes (.dataFrame p f rx) s m := by
  subst hu h
  change execDataFrame p f rx s = _
  cases st <;> simp only [execDataFrame, hr, hc, Bool.not_true, Bool.false_eq_true, if_false, if_true, ok] <;> rfl

end DataFrame

/-! ### What a data frame does (R85, R90) -/

section DataIn
variable {m : Mach} {p : PortId} {f : DataFrame}

theorem Mach.dataIn_of_overrun (ho : (m.link p).overrun = true) (st : Bool) : m.dataIn p f st = m.bump Reg.LNK.GAP_DROP 1 p :=
  if_pos ho

theorem Mach.dataIn_at_expected (ho : (m.link p).overrun = false) (hf : f.fsn = m.get Reg.LNK.EXPECTED p) (st : Bool) :
    m.dataIn p f st =
      if st = true then m.acceptFrame p f false
      else if pool (m.link p).occupied (poolOf f.vc f.shared) + cellsOf f.pktLen ≤ pool (m.link p).size (poolOf f.vc f.shared)
        then m.acceptFrame p f true
      else m.creditOverrun p :=
  (if_neg (Bool.eq_false_iff.1 ho)).trans (if_pos hf)

theorem Mach.dataIn_off_expected (ho : (m.link p).overrun = false) (hf : f.fsn ≠ m.get Reg.LNK.EXPECTED p) (st : Bool) :
    m.dataIn p f st =
      if behind16 f.fsn (m.get Reg.LNK.EXPECTED p) = true then m.bump Reg.LNK.DUP_DROP 1 p
      else (m.bump Reg.LNK.GAP_DROP 1 p).nak p 2 :=
  (if_neg (Bool.eq_false_iff.1 ho)).trans (if_neg hf)

end DataIn

/-- A frame that is accepted moves EXPECTED on by one, whether its packet is kept or not. -/
theorem Mach.acceptFrame_expected (m : Mach) (p : PortId) (f : DataFrame) (keep : Bool) :
    (m.acceptFrame p f keep).get Reg.LNK.EXPECTED p = (m.get Reg.LNK.EXPECTED p + 1) % 65536 := by
  have stored := m.get_put_same Reg.LNK.EXPECTED ((m.get Reg.LNK.EXPECTED p + 1) % 65536) p
  cases keep <;> exact stored.trans (Nat.mod_mod _ 65536)

/-- A NAK goes out unless one is outstanding (R91). -/
theorem Mach.nak_eq (m : Mach) (p r : Nat) : m.nak p r =
    if (m.link p).nakAt ≠ none then m
    else (m.queueCtrl p (.nak r)).updLink p (fun l => { l with nakAt := some m.clk }) := by
  simp only [Mach.nak, Option.isSome_iff_ne_none]

/-! ### The statement -/

/-- Settles O11: what is made of a frame is `Mach.checkFrame_of_synced` out of RESYNC, and each outcome is its command's law with that
of `Mach.dataIn`. -/
theorem dataFramesAreAcceptedDroppedOrNaked : Obligations.DataFramesAreAcceptedDroppedOrNaked := by
  refine ⟨fun m p body fr rx => ⟨fun hr hb hw => ?discards, fun hr hb hw => ?within, fun h => ?synced⟩,
    fun s p f rx => completes_dataFrame_ignored,
    fun s p f rx u hr hu => ⟨fun hc => ?good, fun hc => ?stomp, completes_dataFrame_framing hr hu, fun hc => ?bad⟩, ?dataIn⟩
  case discards => rw [Mach.checkFrame_of_resync body fr hr hb, if_pos hw]
  case within => rw [Mach.checkFrame_of_resync body fr hr hb, if_neg hw]
  case synced =>
    rw [Mach.checkFrame_of_synced body fr h]
    refine ⟨fun hf => if_pos hf, fun hf hl he => ?_, fun hf hl => ?_⟩
    · rw [if_neg (Bool.eq_false_iff.1 hf), if_pos ⟨hl, he⟩]
    · have whole : ¬ (rx.inLast = true ∧ m.anyErrored p = true) :=
        fun ⟨last, errored⟩ => hl.elim (Bool.eq_false_iff.1 · last) (Bool.eq_false_iff.1 · errored)
      rw [if_neg (Bool.eq_false_iff.1 hf), if_neg whole]
      refine ⟨fun hg => if_pos hg, fun hg hs => ?_, fun hg hs => ?_⟩
      · rw [if_neg hg, if_pos hs]
      · rw [if_neg hg, if_neg hs]
  case good =>
    exact ⟨fun ht => completes_dataFrame_checked hr hu (st := false) hc (if_pos ht),
      fun ht => completes_dataFrame_checked hr hu (st := false) hc (if_neg (Bool.eq_false_iff.1 ht))⟩
  case stomp =>
    exact ⟨fun ht => completes_dataFrame_checked hr hu (st := true) hc (if_pos ht),
      fun ht => completes_dataFrame_checked hr hu (st := true) hc (if_neg (Bool.eq_false_iff.1 ht))⟩
  case bad =>
    refine ⟨fun ht hf ho hp => completes_dataFrame_bad_of_mayLeave hr hu hc ⟨ht, hf, ho, hp⟩,
      fun h => completes_dataFrame_bad_of_not_mayLeave hr hu hc ?_⟩
    rintro ⟨ht, hf, ho, hp⟩
    rcases h with h | h | h | h
    · exact Bool.eq_false_iff.1 h ht
    · exact h hf
    · exact Bool.eq_false_iff.1 ho h
    · exact Nat.not_lt_of_le hp h
  case dataIn =>
    rintro m p f k n rfl rfl
    refine ⟨Mach.dataIn_of_overrun, fun ho hf => ?_, fun ho hf st => ?_, m.acceptFrame_expected p f true, rfl,
      m.acceptFrame_expected p f false, rfl, ?_, fun r hn => ?_, fun r hn => ?_, fun r => rfl⟩
    · rw [Mach.dataIn_at_expected ho hf, Mach.dataIn_at_expected ho hf, if_neg Bool.false_ne_true]
      exact ⟨if_pos rfl, fun fits => if_pos fits, fun full => if_neg (Nat.not_le_of_lt full)⟩
    · rw [Mach.dataIn_off_expected ho hf]
      exact ⟨fun behind => if_pos behind, fun ahead => if_neg (Bool.eq_false_iff.1 ahead)⟩
    · rintro u rfl
      rfl
    · rw [Mach.nak_eq, if_neg (not_not_intro hn)]
    · rw [Mach.nak_eq, if_pos hn]

end Sys2Proof.Machine
end

section
/-! Control frames received on a port (file 04): those that are not seen or fail their CRC (R86, R91), acknowledgements (R94), the
returns of a CREDIT (R100), the comparison of an AUDIT (R101, R102), unlisted frames (R82), and TRAIN frames (R105, R109, R110). -/

namespace Sys2Proof.Machine

/-! ### Changing a link -/

/-- A change of a port's link is what it makes of that link. -/
theorem Mach.updLink_congr {m : Mach} {p : Nat} {f g : Link → Link} (h : f (m.link p) = g (m.link p)) :
    m.updLink p f = m.updLink p g :=
  congrArg (fun l => { m with links := Tbl.set m.links p l }) h

/-! ### Acknowledgements (R94) -/

/-- An acknowledgement between UNA and NEXT_FSN is kept where none is pending. -/
theorem Mach.ackIn_of_within {m : Mach} {p a : Nat} (hp : (m.link p).pendingAck = none)
    (hu : behind16 a (m.get Reg.LNK.UNA p) = false) (hn : behind16 a (m.get Reg.LNK.NEXT_FSN p) = true) :
    m.ackIn p a = m.updLink p (fun l => { l with pendingAck := some a }) := by
  have kept : (!behind16 a (m.get Reg.LNK.UNA p) && behind16 a (m.get Reg.LNK.NEXT_FSN p)) = true := by
    simp only [hu, hn, Bool.not_false, Bool.and_self]
  refine (if_pos kept).trans (Mach.updLink_congr ?_)
  simp only [hp]

theorem Mach.ackIn_of_outside {m : Mach} {p a : Nat}
    (h : behind16 a (m.get Reg.LNK.UNA p) = true ∨ behind16 a (m.get Reg.LNK.NEXT_FSN p) = false) : m.ackIn p a = m := by
  refine if_neg ?_
  rcases h with h | h <;> simp only [h, Bool.not_true, Bool.false_and, Bool.and_false, Bool.false_eq_true, not_false_eq_true]

/-! ### CREDIT frames (R94, R100) -/

/-- The returns of a CREDIT frame by pool: 0 to 7 those of the VCs, 8 the shared one. -/
def creditReturn (f : CreditFrame) (k : Nat) : Nat := if k = 8 then f.shared else f.cells.getD k 0

/-- The machine once every return of a CREDIT frame is in its pool and in the cumulative counts. -/
def Mach.credited (m : Mach) (p : Nat) (f : CreditFrame) : Mach :=
  m.updLink p (fun l => { l with
    avail := (List.range 9).foldl (fun t k => addPool t k (creditReturn f k)) l.avail
    rcvdRet := (List.range 9).foldl (fun t k => Tbl.set t k ((pool t k + creditReturn f k) % 4294967296)) l.rcvdRet })

/-- Returns that all fit their pools are added, and the acknowledgement is taken where it is valid. -/
theorem Mach.creditIn_of_fits {m : Mach} {p : Nat} {f : CreditFrame}
    (fits : ∀ k, k < 9 → pool (m.link p).avail k + creditReturn f k ≤ pool (m.link p).farSize k) :
    m.creditIn p f = if f.ackValid = true then (m.credited p f).ackIn p f.ackFsn else m.credited p f := by
  have within : ∀ k ∈ List.range 9, ¬ pool (m.link p).farSize k < pool (m.link p).avail k + creditReturn f k :=
    fun k hk => Nat.not_lt_of_le (fits k (List.mem_range.1 hk))
  have none_over : ((List.range 9).map (fun k => (k, creditReturn f k))).any (fun (k, n) =>
      decide (0 < n) && decide (pool (m.link p).farSize k < pool (m.link p).avail k + n)) = false := by
    simp only [List.any_map, List.any_eq_false, Function.comp, Bool.and_eq_true, decide_eq_true_eq]
    exact fun k hk ⟨_, passes⟩ => within k hk passes
  have added : m.updLink p (fun l => { l with
      avail := ((List.range 9).map (fun k => (k, creditReturn f k))).foldl (fun t (k, n) =>
        if pool l.farSize k < pool l.avail k + n then t else addPool t k n) l.avail
      rcvdRet := ((List.range 9).map (fun k => (k, creditReturn f k))).foldl (fun t (k, n) =>
        Tbl.set t k ((pool t k + n) % 4294967296)) l.rcvdRet }) = m.credited p f := by
    refine Mach.updLink_congr ?_
    simp only [List.foldl_map]
    congr 1
    exact List.foldl_rel (r := Eq) rfl (fun k hk t t' e => e ▸ if_neg (within k hk))
  unfold creditReturn at none_over added
  simp only [Mach.creditIn, none_over, added, Bool.false_eq_true, if_false]

/-- A CREDIT frame on a port that is trained once a waiting responder has heard the far end does what `Mach.creditIn` says. -/
theorem completes_creditFrame {s : State} {p : PortId} {f : CreditFrame} {rx : Rx} {u m : Mach}
    (hear : s.m.hears p f.wire rx u) (h : (if (u.hear p).trained p = true then (u.hear p).creditIn p f else u) = m) :
    Completes (.creditFrame p f rx) s m :=
  congrArg (ok s) ((Mach.ctrlIn_hears hear _).trans h)

/-! ### NAK frames (R94) -/

theorem completes_nakFrame {s : State} {p : PortId} {f : NakFrame} {rx : Rx} {u v m : Mach}
    (hear : s.m.hears p f.wire rx u) (hv : v = (u.busyPort p).hear p)
    (h : (if v.trained p = true then
      ((v.bump Reg.LNK.NAK_RX 1 p).ackIn p ((f.fsn + 65535) % 65536)).updLink p (fun l => { l with pendingNak := some f.fsn })
      else v) = m) : Completes (.nakFrame p f rx) s m := by
  subst hv
  exact congrArg (ok s) ((Mach.ctrlIn_hears hear _).trans h)

/-! ### AUDIT frames (R101, R102) -/

/-- An AUDIT's differences by pool: what the far end has returned in all, less what has come (R101). -/
def Mach.auditDiffs (m : Mach) (p : Nat) (f : AuditFrame) : List Int :=
  (List.range 9).map (fun k => toSigned 32 (sub32 (if k = 8 then f.shared else f.cells.getD k 0) (pool (m.link p).rcvdRet k)))

/-- The cells that an AUDIT finds lost, over all pools (R101). -/
def Mach.auditLeak (m : Mach) (p : Nat) (f : AuditFrame) : Nat := ((m.auditDiffs p f).map (fun d => d.toNat)).sum

/-- An AUDIT stores its leak; a mismatch is reported first, and then a leak above LEAK_LIMIT. -/
theorem Mach.auditIn_eq {m u v : Mach} {p : Nat} {f : AuditFrame}
    (hu : u = m.put Reg.LNK.LEAK_CELLS (min 16383 (m.auditLeak p f)) p)
    (hv : v = if f.rxMismatch = true ∨ ∃ d ∈ m.auditDiffs p f, d < 0 then u.creditMismatch p else u) :
    m.auditIn p f = if v.get Reg.LNK.LEAK_LIMIT p < m.auditLeak p f then
        ((v.raise 24 (.port p) (m.auditLeak p f) (quadOfPort p)).record 0x3131 (quadOfPort p)
          [p, m.auditLeak p f]).scheduleRetrain p
      else v := by
  have mismatch : (f.rxMismatch || (m.auditDiffs p f).any (fun d => decide (d < 0))) = true ↔
      f.rxMismatch = true ∨ ∃ d ∈ m.auditDiffs p f, d < 0 := by
    simp only [Bool.or_eq_true, List.any_eq_true, decide_eq_true_eq]
  simp only [← mismatch] at hv
  subst hv hu
  rfl

theorem completes_auditFrame {s : State} {p : PortId} {f : AuditFrame} {rx : Rx} {u m : Mach}
    (hear : s.m.hears p f.wire rx u) (h : (if u.trained p = true then u.auditIn p f else u) = m) :
    Completes (.auditFrame p f rx) s m :=
  congrArg (ok s) ((Mach.ctrlIn_hears hear _).trans h)

/-! ### Unlisted frames (R82) -/

/-- An unlisted control frame that holds its blocks comes in as a control frame, and is only counted. -/
theorem exec_unknownControlFrame {b body : List Byte} (h : unlistedFrame b = some body) (s : State) (p : PortId) (rx : Rx) :
    exec (.unknownControlFrame p b rx) s = ok s (s.m.ctrlIn p body rx (fun m => m.bump Reg.LNK.CTRL_DROP 1 p)) := by
  change execUnknownControlFrame p b rx s = _
  simp only [execUnknownControlFrame, h]

theorem completes_unknownControlFrame_of_listed {b : List Byte} (h : unlistedFrame b = none) (s : State) (p : PortId) (rx : Rx) :
    Completes (.unknownControlFrame p b rx) s s.m := by
  change execUnknownControlFrame p b rx s = _
  simp only [execUnknownControlFrame, h, ok]

/-! ### TRAIN frames (R105, R109, R110) -/

/-- A TRAIN frame that is heard restarts the port's idle count, and acts as `Mach.trainIn` says. -/
theorem completes_trainFrame {s : State} {p : PortId} {f : TrainFrame} {rx : Rx} {u m : Mach}
    (hear : s.m.hears p f.wire rx u) (h : u.trainIn p f = m) : Completes (.trainFrame p f rx) s m :=
  congrArg (ok s) ((Mach.ctrlIn_hears hear _).trans h)

section TrainIn
variable {u w : Mach} {p : PortId} {f : TrainFrame} (hw : w = u.busyPort p)
include hw

/-- A frame of the module's own with LOOP_OK clear takes the port to LOOPBACK (R110). -/
theorem Mach.trainIn_of_own (hs : f.serial = Config.serial) (hl : w.isSet Reg.LNK.LOOP_OK p = false) :
    u.trainIn p f = ((w.linkClear p 5).raise 28 (.port p) 0 (quadOfPort p)).record 0x3111 (quadOfPort p) [p.val] := by
  subst hw
  exact if_pos (by simp only [hs, hl, decide_true, Bool.not_false, Bool.and_self])

/-- A frame of the known neighbour acts by its phase; in a full training the neighbour is noted (R109). -/
theorem Mach.trainIn_of_known (hs : f.serial ≠ Config.serial) (hn : w.otherNeighbour p f = false) :
    u.trainIn p f = (if f.action = .full then w.setNeighbour p f.serial f.port else w).trainPhase p f := by
  subst hw
  simp only [Mach.trainIn, hs, hn, decide_false, Bool.false_and, Bool.false_eq_true, if_false]

/-- A frame of another neighbour is reported, and outside a full training starts one (R109). -/
theorem Mach.trainIn_of_other {v : Mach} (hs : f.serial ≠ Config.serial) (hn : w.otherNeighbour p f = true)
    (hv : v = ((w.raise 27 (.port p) f.port (quadOfPort p)).record 0x3142 (quadOfPort p)
      [p.val, f.serial, f.port]).setNeighbour p f.serial f.port) :
    u.trainIn p f = if f.action = .full then v.trainPhase p f else (v.linkDown p 6).startFull p := by
  subst hw hv
  simp only [Mach.trainIn, hs, hn, decide_false, Bool.false_and, Bool.false_eq_true, if_false, if_true]

end TrainIn

/-- A REQ of a retrain or a width change on an UP port without an action is answered (R105). -/
theorem Mach.trainReq_of_free {m : Mach} {p : PortId} {f : TrainFrame} (ht : (m.link p).train = none) (ha : f.action ≠ .full)
    (hu : m.linkState p = 2) : m.trainReq p f = m.respond p f none := by
  simp only [Mach.trainReq, ht, ha, hu, if_false, if_true]

/-! ### The statement -/

/-- Settles O12: each clause is its command's law, or the law of the operation on a machine that it runs. -/
theorem controlFramesActOnThePortAsFileFourSays : Obligations.ControlFramesActOnThePortAsFileFourSays := by
  refine ⟨fun s p rx => ?missed, fun s p rx u => ?garbled, fun s p rx u => ?heard, ?credit, ?audit, ?train, fun m p f => ?phase,
    fun m p a => ⟨Mach.ackIn_of_within, Mach.ackIn_of_outside⟩⟩
  case missed =>
    have ignored {body : List Byte} (h : s.m.missed p body rx) (act : Mach → Mach) :
        ok s (s.m.ctrlIn p body rx act) = ok s s.m := congrArg (ok s) (Mach.ctrlIn_missed h act)
    exact ⟨fun f h => ignored h _, fun f h => ignored h _, fun f h => ignored h _, fun f h => ignored h _,
      fun b body hb h => (exec_unknownControlFrame hb s p rx).trans (ignored h _), fun f h => ignored h _, fun f h => ignored h _⟩
  case garbled =>
    have nakked {body : List Byte} (h : s.m.garbled p body rx u) (act : Mach → Mach) :
        ok s (s.m.ctrlIn p body rx act) = ok s (u.frameBad p 1) := congrArg (ok s) (Mach.ctrlIn_garbled h act)
    exact ⟨fun f h => nakked h _, fun f h => nakked h _, fun f h => nakked h _, fun f h => nakked h _,
      fun b body hb h => (exec_unknownControlFrame hb s p rx).trans (nakked h _), fun f h => nakked h _, fun f h => nakked h _⟩
  case heard =>
    refine ⟨fun f hear => ⟨fun ht => completes_creditFrame hear (if_pos ht),
        fun ht => completes_creditFrame hear (if_neg (Bool.eq_false_iff.1 ht))⟩,
      fun f v hear hv => ⟨fun ht => completes_nakFrame hear hv (if_pos ht),
        fun ht => completes_nakFrame hear hv (if_neg (Bool.eq_false_iff.1 ht))⟩,
      fun f hear => ⟨fun ht => completes_auditFrame hear (if_pos ht),
        fun ht => completes_auditFrame hear (if_neg (Bool.eq_false_iff.1 ht))⟩,
      fun b body hb hear => (exec_unknownControlFrame hb s p rx).trans (congrArg (ok s) (Mach.ctrlIn_hears hear _)),
      fun b hb => completes_unknownControlFrame_of_listed hb s p rx⟩
  case credit =>
    rintro m u p f ret rfl fits rfl
    have taken := Mach.creditIn_of_fits fits
    exact ⟨fun valid => taken.trans (if_pos valid), fun invalid => taken.trans (if_neg (Bool.eq_false_iff.1 invalid))⟩
  case audit =>
    rintro m u p f ds leak rfl rfl hu
    refine ⟨fun hf hd => ?_, ?_⟩
    · have agrees : ¬ (f.rxMismatch = true ∨ ∃ d ∈ m.auditDiffs p f, d < 0) := by
        rintro (h | ⟨d, mem, negative⟩)
        · exact Bool.eq_false_iff.1 hf h
        · exact Int.not_lt.2 (hd d mem) negative
      have compared := Mach.auditIn_eq hu (if_neg agrees).symm
      exact ⟨fun fits => compared.trans (if_neg (Nat.not_lt_of_le fits)), fun leaks => compared.trans (if_pos leaks)⟩
    · rintro differs v rfl fits
      exact (Mach.auditIn_eq hu (if_pos differs).symm).trans (if_neg (Nat.not_lt_of_le fits))
  case train =>
    intro s p f rx u w hear hw
    refine ⟨fun hs hl => completes_trainFrame hear (Mach.trainIn_of_own hw hs hl), fun hs hn => ?_, fun hs hn v hv => ?_⟩
    · have acts := Mach.trainIn_of_known hw hs hn
      exact ⟨fun full => completes_trainFrame hear (acts.trans (by rw [if_pos full])),
        fun other => completes_trainFrame hear (acts.trans (by rw [if_neg other]))⟩
    · have acts := Mach.trainIn_of_other hw hs hn hv
      exact ⟨fun full => completes_trainFrame hear (acts.trans (if_pos full)),
        fun other => completes_trainFrame hear (acts.trans (if_neg other))⟩
  case phase =>
    refine ⟨fun h => ?_, fun h => ?_, fun h => ?_, fun h => ?_, Mach.trainReq_of_free⟩
    all_goals simp only [Mach.trainPhase, h]

end Sys2Proof.Machine
end

section
/-! The sender of the link of file 04: the frame boundary (R88, R94, R138 to R140), credits (R93), NAK_RESEND and the replay timer (R92,
R95), audits (R101, R103), scheduled retrains (R102), the timers of a link action (R105, R109), and the end of a reinjection (R112). -/

namespace Sys2Proof.Machine

/-! ### The frame boundary (R94) -/

section FrameBoundary
variable {s : State} {p : PortId}

theorem completes_frameBoundary_of_silent (h : (s.m.ei p).driversOff = true ∨ s.m.linkState p = 0 ∨ s.m.linkState p = 5) :
    Completes (.frameBoundary p) s s.m :=
  congrArg (ok s) (if_pos (by simpa only [Bool.or_eq_true, decide_eq_true_eq, or_assoc] using h))

/-- An awake port that is neither down nor in LOOPBACK sends; on an UP port a pending ACK and a pending NAK act first. -/
theorem completes_frameBoundary {m : Mach} (hd : (s.m.ei p).driversOff = false) (h0 : s.m.linkState p ≠ 0) (h5 : s.m.linkState p ≠ 5)
    (h : (if s.m.linkState p = 2 then ((s.m.applyAck p).applyNak p).sendNext p else s.m.sendNext p) = m) :
    Completes (.frameBoundary p) s m := by
  have sends : ¬ ((s.m.ei p).driversOff || decide (s.m.linkState p = 0) || decide (s.m.linkState p = 5)) = true := by
    simp only [hd, h0, h5, decide_false, Bool.or_self, Bool.false_eq_true, not_false_eq_true]
  exact congrArg (ok s) ((if_neg sends).trans h)

end FrameBoundary

/-! ### What an UP port without a link action sends (R88, R94, R102, R139) -/

section SendNext
variable {m u : Mach} {p : PortId} (hu : u = m.dropCtrl p) (hl : u.linkState p = 2) (ht : (u.link p).train = none)
include hu hl ht

/-- The control frame of least rank goes first. -/
theorem Mach.sendNext_of_ctrl {c : Ctrl} (hc : nextCtrl (u.link p).ctrl = some c) :
    m.sendNext p = (u.updLink p (fun l => { l with ctrl := l.ctrl.erase c })).sendCtrl p c := by
  subst hu
  simp [Mach.sendNext, hl, ht, hc]

section NoCtrl
variable (hc : (u.link p).ctrl = [])
include hc

/-- After an exit from idle the scheduled retrain comes before any data frame (R102). -/
theorem Mach.sendNext_of_schedExit (he : (u.link p).schedExit = true) : m.sendNext p = u := by
  subst hu
  simp [Mach.sendNext, hl, ht, hc, nextCtrl, he]

/-- A replay in progress comes before new packets. -/
theorem Mach.sendNext_of_replay (he : (u.link p).schedExit = false) {r : Nat} (hr : (u.link p).rp = some r) :
    m.sendNext p = u.sendCopy p r := by
  subst hu
  simp [Mach.sendNext, hl, ht, hc, nextCtrl, he, hr]

/-- The one packet that the output may choose goes, if it is not past LIFETIME. -/
theorem Mach.sendNext_of_offer (he : (u.link p).schedExit = false) (hr : (u.link p).rp = none) {x : VcOffer}
    (ho : u.offers p = [x]) {v : Mach}
    (hv : v = u.updRp x.home (fun y => { y with sel := y.sel.filter (fun z => z.arr.id != x.sel.arr.id) }))
    (hx : v.expired (quadOfPort p) x.sel.arr.pkt = false) : m.sendNext p = v.sendNew p x := by
  have tries : m.sendNext p = Mach.tryNew p (u.offers p).length u := by
    subst hu
    simp [Mach.sendNext, hl, ht, hc, nextCtrl, he, hr]
  have best : u.bestOffer p = some x := by
    simp only [Mach.bestOffer, ho, List.foldl_nil]
  subst hv
  rw [tries, ho]
  simp only [List.length_singleton, Mach.tryNew, best, hx, Bool.false_eq_true, if_false]

end NoCtrl

end SendNext

/-! ### Credits (R93) -/

/-- A pool holds a full batch of freed cells. -/
def Mach.fullBatch (m : Mach) (p : Nat) : Bool := (m.link p).toReturn.any (fun c => max 1 (m.get Reg.LNK.CREDIT_BATCH p) ≤ c.2)

/-- When a CREDIT falls due for the oldest accepted frame or freed cell that waits. -/
def Mach.creditDue (m : Mach) (p : Nat) : Option Nat := (m.link p).ackDue.merge min (m.link p).freeDue

section CreditSend
variable {s : State} {p : PortId}

theorem completes_creditSend_of_not_up (h : s.m.linkState p ≠ 2) : Completes (.creditSend p) s s.m :=
  congrArg (ok s) (if_pos (bne_iff_ne.2 h))

theorem completes_creditSend_of_batch (hl : s.m.linkState p = 2) (hb : s.m.fullBatch p = true) :
    Completes (.creditSend p) s (s.m.queueCtrl p .credit) :=
  congrArg (ok s) ((if_neg (fun down => bne_iff_ne.1 down hl)).trans (if_pos hb))

/-- Without a full batch a CREDIT goes when it falls due, and none goes where nothing waits. -/
theorem completes_creditSend_of_no_batch (hl : s.m.linkState p = 2) (hb : s.m.fullBatch p = false) :
    Completes (.creditSend p) s ((s.m.creditDue p).elim s.m (fun t => (s.m.elapseTo t).queueCtrl p .credit)) := by
  refine congrArg (ok s) ((if_neg (fun down => bne_iff_ne.1 down hl)).trans ((if_neg (Bool.eq_false_iff.1 hb)).trans ?_))
  unfold Mach.creditDue
  cases (s.m.link p).ackDue <;> cases (s.m.link p).freeDue <;> rfl

end CreditSend

/-! ### NAK_RESEND and the replay timer (R92, R95) -/

section Timers
variable {s : State} {p : PortId}

theorem completes_nakResendExpiry {t : Nat} {u : Mach} (h : (s.m.link p).nakAt = some t)
    (hu : u = s.m.elapseTo (t + 2 * max 100 (s.m.get Reg.LNK.NAK_RESEND p))) :
    Completes (.nakResendExpiry p) s ((u.updLink p (fun l => { l with nakAt := some u.clk })).queueCtrl p (.nak 4)) := by
  subst hu
  change execNakResendExpiry p s = _
  simp only [execNakResendExpiry, h, ok, Mach.nakResend]

theorem completes_nakResendExpiry_of_none (h : (s.m.link p).nakAt = none) : Completes (.nakResendExpiry p) s s.m := by
  change execNakResendExpiry p s = _
  simp only [execNakResendExpiry, h, ok]

theorem completes_replayTimeout {t : Nat} (h : (s.m.link p).timer = some t) : Completes (.replayTimeout p) s
    ((s.m.elapseTo t).updLink p (fun l => { l with timer := none, pendingNak := some (s.m.get Reg.LNK.UNA p) })) := by
  change execReplayTimeout p s = _
  simp only [execReplayTimeout, h, ok]

theorem completes_replayTimeout_of_none (h : (s.m.link p).timer = none) : Completes (.replayTimeout p) s s.m := by
  change execReplayTimeout p s = _
  simp only [execReplayTimeout, h, ok]

end Timers

/-! ### Audits (R101, R103) -/

theorem completes_auditTick {s : State} {p : PortId} {m : Mach}
    (h : (if s.m.isSet Reg.LNK.AUDIT_EN p = true then s.m.audit p else s.m) = m) : Completes (.auditTick p) s m :=
  congrArg (ok s) h

theorem completes_auditNow {s : State} {r : Requester} {i : Nat} (h : s.m.passes r Reg.LNK.AUDIT_NOW i = true) :
    Completes (.auditNow r) s ((s.m.reach r Reg.LNK.AUDIT_NOW).audit i) := by
  rw [← Mach.acted_plain rfl rfl 1]
  exact congrArg (ok s) (Mach.action_passes h 1 _)

section Audit
variable {m : Mach} {p : Nat}

theorem Mach.audit_of_up (h : m.linkState p = 2) : m.audit p = m.queueCtrl p .audit := by
  simp only [Mach.audit, h]

/-- An audit is deferred during a retrain or a width change (R103). -/
theorem Mach.audit_of_action (h : m.linkState p = 3 ∨ m.linkState p = 4) : m.audit p =
    ((m.put Reg.LNK.AUDIT_DEFERRED 1 p).defer 8 p (quadOfPort p)).record 0x3133 (quadOfPort p) [p] := by
  rcases h with h | h <;> simp only [Mach.audit, h]

theorem Mach.audit_of_untrained (h : m.linkState p < 2 ∨ 4 < m.linkState p) : m.audit p = m := by
  unfold Mach.audit
  split
  case h_4 => rfl
  all_goals omega

end Audit

/-! ### Scheduled retrains (R102) -/

section ScheduledRetrain
variable {s : State} {p : PortId}

/-- On an awake UP port a scheduled retrain starts at once after an exit from idle, and otherwise when its time has come. -/
theorem completes_scheduledRetrainStart {t : Nat} {u : Mach} (ht : (s.m.link p).schedAt = some t) (hl : s.m.linkState p = 2)
    (hd : (s.m.ei p).driversOff = false)
    (hu : u = if (s.m.link p).schedExit = true then s.m
      else s.m.elapseTo (min ((s.m.link p).lastData + 2 * 2000) (t + 10 * 2000000))) :
    Completes (.scheduledRetrainStart p) s (u.startAction p .retrain 1 0) := by
  subst hu
  change execScheduledRetrainStart p s = _
  simp only [execScheduledRetrainStart, ht, hl, hd, decide_true, Bool.not_false, Bool.and_self, if_true, ok, Config.usCycles,
    Config.msCycles]

theorem completes_scheduledRetrainStart_of_none (h : (s.m.link p).schedAt = none) :
    Completes (.scheduledRetrainStart p) s s.m := by
  change execScheduledRetrainStart p s = _
  simp only [execScheduledRetrainStart, h, ok]

end ScheduledRetrain

/-! ### The timers of a link action (R105, R109) -/

section LinkAction
variable {s : State} {p : PortId} {t : TrainSt} (ht : (s.m.link p).train = some t)
include ht

/-- A responder that misses its DONE retrains, a full training once the port has been taken as trained (R105). -/
theorem completes_doneTimeout {u : Mach} (hr : t.requester = false) (ha : t.acked = true) (hu : u = s.m.elapseTo (t.atc + 10 * 2000)) :
    Completes (.doneTimeout p) s
      ((if t.action = .full then u.finishFull p t.rate t.lanes else u).startAction p .retrain 7 0) := by
  subst hu
  change execDoneTimeout p s = _
  simp only [execDoneTimeout, ht, hr, ha, Bool.not_false, Bool.and_self, if_true, ok, Config.usCycles]

theorem completes_doneTimeout_of_not_waiting (h : t.requester = true ∨ t.acked = false) :
    Completes (.doneTimeout p) s s.m := by
  have waits : (!t.requester && t.acked) = false := by
    rcases h with h | h <;> simp only [h, Bool.not_true, Bool.false_and, Bool.and_false]
  change execDoneTimeout p s = _
  simp only [execDoneTimeout, ht, waits, Bool.false_eq_true, if_false, ok]

/-- A REQ that has been sent goes again without an ACK, but the third of a retrain or a width change takes the link down (R109). -/
theorem completes_trainReqResend {u v m : Mach} (hr : t.requester = true) (ha : t.acked = false) (hs : 0 < t.sends)
    (hu : u = s.m.elapseTo (t.atc + 10 * 2000))
    (hv : v = u.updLink p (fun l => { l with
      ctrl := l.ctrl.filter (fun c => c.rank != 1), train := some { t with atc := u.clk } }))
    (h : (if 3 ≤ t.sends ∧ t.action ≠ .full then u.linkDown p 6
      else v.queueCtrl p (.train (v.mkTrain p .req t.action t.reason t.good t.lanes t.rate))) = m) :
    Completes (.trainReqResend p) s m := by
  have waits : (t.requester && !t.acked && decide (0 < t.sends)) = true := by
    simp only [hr, ha, hs, Bool.not_false, decide_true, Bool.and_self]
  subst hv hu h
  change execTrainReqResend p s = _
  simp only [execTrainReqResend, ht, waits, if_true, Bool.and_eq_true, decide_eq_true_eq, bne_iff_ne, ok, Config.usCycles]

theorem completes_trainReqResend_of_not_waiting (h : t.requester = false ∨ t.acked = true ∨ t.sends = 0) :
    Completes (.trainReqResend p) s s.m := by
  have waits : (t.requester && !t.acked && decide (0 < t.sends)) = false := by
    rcases h with h | h | h <;>
      simp only [h, Bool.not_true, Bool.false_and, Bool.and_false, Nat.lt_irrefl, decide_false]
  change execTrainReqResend p s = _
  simp only [execTrainReqResend, ht, waits, Bool.false_eq_true, if_false, ok]

end LinkAction

/-! ### The end of a reinjection (R112) -/

theorem completes_reinjectionComplete {s : State} {p : PortId} {m : Mach}
    (h : (if 0 < (s.m.link p).reinjTotal ∧ (s.m.link p).reinject = [] then
      (s.m.updLink p (fun l => { l with reinjTotal := 0 })).record 0x3141 (quadOfPort p) [p.val, (s.m.link p).reinjTotal]
      else s.m) = m) : Completes (.reinjectionComplete p) s m := by
  subst h
  change execReinjectionComplete p s = _
  simp only [execReinjectionComplete, Bool.and_eq_true, decide_eq_true_eq, List.isEmpty_iff, ok]

/-! ### The statement -/

/-- Settles O13: each clause is its command's law, or the law of the operation on a machine that it runs. -/
theorem linkSenderTimersAndAuditsDoAsFileFourSays : Obligations.LinkSenderTimersAndAuditsDoAsFileFourSays := by
  refine ⟨fun s p => ⟨completes_frameBoundary_of_silent, fun hd hl => ?up, fun hd hl => ?training⟩,
    fun m u p hu hl ht => ⟨fun c hc => Mach.sendNext_of_ctrl hu hl ht hc, fun hc he => Mach.sendNext_of_schedExit hu hl ht hc he,
      fun r hc he hr => Mach.sendNext_of_replay hu hl ht hc he hr,
      fun x hc he hr ho v hv hx => Mach.sendNext_of_offer hu hl ht hc he hr ho hv hx⟩,
    fun s p hl => ⟨completes_creditSend_of_batch hl, fun hb => ?credit⟩, fun s p => completes_creditSend_of_not_up,
    fun s p => ⟨fun t u => completes_nakResendExpiry, completes_nakResendExpiry_of_none, fun t => completes_replayTimeout,
      completes_replayTimeout_of_none, fun h => completes_auditTick (if_pos h),
      fun h => completes_auditTick (if_neg (Bool.eq_false_iff.1 h))⟩, fun s r i => completes_auditNow,
    fun m p => ⟨Mach.audit_of_up, Mach.audit_of_action, Mach.audit_of_untrained⟩,
    fun s p => ⟨fun t ht hl hd => ?scheduled, completes_scheduledRetrainStart_of_none⟩,
    fun s p t ht => ⟨fun hr ha u hu => ?done, completes_doneTimeout_of_not_waiting ht, fun hr ha hs u hu =>
      ⟨fun h3 hf => completes_trainReqResend ht hr ha hs hu rfl (if_pos ⟨h3, hf⟩),
        fun h v hv => completes_trainReqResend ht hr ha hs hu hv (if_neg ?again)⟩,
      completes_trainReqResend_of_not_waiting ht⟩,
    fun s p => ⟨fun h0 he => completes_reinjectionComplete (if_pos ⟨h0, he⟩),
      fun h => completes_reinjectionComplete (if_neg ?reinjecting)⟩⟩
  case up => exact completes_frameBoundary hd (by omega) (by omega) (if_pos hl)
  case training => exact completes_frameBoundary hd (by omega) (by omega) (if_neg (by omega))
  case credit =>
    have goes := completes_creditSend_of_no_batch hl hb
    unfold Mach.creditDue at goes
    refine ⟨fun a ha hf => ?_, fun b ha hf => ?_, fun a b ha hf => ?_, fun ha hf => ?_⟩
    all_goals
      rw [ha, hf] at goes
      exact goes
  case scheduled =>
    refine ⟨fun exit => ?_, fun stays => ?_⟩
    · exact completes_scheduledRetrainStart ht hl hd (if_pos exit).symm
    · exact completes_scheduledRetrainStart ht hl hd (if_neg (Bool.eq_false_iff.1 stays)).symm
  case done =>
    have retrains := completes_doneTimeout ht hr ha hu
    refine ⟨fun other => ?_, fun full => ?_⟩
    · rwa [if_neg other] at retrains
    · rwa [if_pos full] at retrains
  case again =>
    rintro ⟨h3, hf⟩
    exact h.elim (Nat.not_lt_of_le h3) hf
  case reinjecting =>
    rintro ⟨h0, he⟩
    exact h.elim (Nat.ne_of_gt h0) (· he)

end Sys2Proof.Machine
end

section
/-! Full training, retrain and width change of file 04 (R98, R104, R105, R108, R111), the lanes that a width change adds (R108, R112),
and the port registers (R111, R114, R115). -/

namespace Sys2Proof.Machine

/-! ### Full training (R98, R104, R111) -/

section Commands
variable {s : State} {p : PortId} {x : LanesIn} {m : Mach}

/-- FULL_TRAINING trains an enabled port that is DOWN or TRAINING with no action in progress (R104). -/
theorem completes_fullTraining
    (h : (if s.m.mayTrain p = true ∧ s.m.linkState p ≤ 1 ∧ (s.m.link p).train = none then s.m.fullTraining p x else s.m) = m) :
    Completes (.fullTraining p x) s m := by
  subst h
  change execFullTraining p x s = _
  simp only [execFullTraining, Bool.and_eq_true, decide_eq_true_eq, Option.isNone_iff_eq_none, and_assoc, ok]

/-- TRAIN_RETRY_EXPIRY trains an enabled port that is DOWN or in LOOPBACK, TRAIN_RETRY after it went down (R111). -/
theorem completes_trainRetryExpiry
    (h : (if s.m.mayTrain p = true ∧ (s.m.linkState p = 0 ∨ s.m.linkState p = 5) then
      (s.m.elapseTo ((s.m.link p).downAt + 2000000 * clamp 10 60000 (s.m.get Reg.LNK.TRAIN_RETRY p))).fullTraining p x
      else s.m) = m) : Completes (.trainRetryExpiry p x) s m := by
  subst h
  change execTrainRetryExpiry p x s = _
  simp only [execTrainRetryExpiry, Bool.and_eq_true, Bool.or_eq_true, decide_eq_true_eq, Mach.trainRetry, Config.msCycles, ok]

end Commands

section FullTraining
variable {m u : Mach} {p : PortId} {x : LanesIn} (hu : u = if m.linkState p = 1 then m else m.startFull p)
include hu

/-- Pool sizes above 8,192 cells do not train (R98). -/
theorem Mach.fullTraining_of_oversized (hs : 8192 < u.vcSum p) : m.fullTraining p x = u.trainFail p 2 := by
  subst hu
  exact if_pos hs

/-- Otherwise a wake burst and ALIGN codewords go out and the lanes are woken; with a good lane the REQ is queued (R104). -/
theorem Mach.fullTraining_of_fits {v w y z : Mach} {on ls : List Nat} {good : Nat} (hs : u.vcSum p ≤ 8192)
    (hv : v = u.updEi p (fun _ => { driversOff := false, quietSince := u.clk }))
    (hon : on = (List.range 4).filter (fun k => v.isSet Reg.LAN.LANE_EN (v.physTx p k)))
    (hw : w = (v.sendBurst p on).sendAlign p on false) (hy : (y, ls) = w.wakeLanes p x)
    (hg : good = y.lanesWith p ls (fun _ => true))
    (hz : z = y.updLink p (fun l => { l with
      train := some { action := .full, requester := true, reason := 6, lanes := good, sends := 0, atc := y.clk, acked := false,
                      good := good, goodAt := [y.lanesWith p ls (fun i => x.lock0.getLsbD i),
                        y.lanesWith p ls (fun i => x.lock1.getLsbD i), good] } })) :
    m.fullTraining p x = if good = 0 then y.trainFail p 1
      else z.queueCtrl p (.train (z.mkTrain p .req .full 6 good good 0)) := by
  have sized : ¬ 8192 < u.vcSum p := Nat.not_lt_of_le hs
  subst hz hg
  simp only [Mach.fullTraining, ← hu, sized, if_false, ← hv, ← hon, ← hw, ← hy]

end FullTraining

/-! ### Retrain and width change by command (R105, R108) -/

/-- A write outside the AON die goes to the quadrant of its block. -/
theorem Mach.crossAon_plain {f : Field} (h : aonBlock f.block = false) (m : Mach) (r : Requester) : m.crossAon r f = m.reach r f := by
  simp only [Mach.crossAon, h, Bool.false_and, Bool.false_eq_true, if_false]

section Actions
variable {s : State} {r : Requester} {i : Nat}

theorem completes_retrain_of_up (h : s.m.passes r Reg.LNK.RETRAIN i = true) (hl : s.m.linkState i = 2) :
    Completes (.retrain r) s ((s.m.reach r Reg.LNK.RETRAIN).startAction i .retrain 0 0) := by
  rw [← Mach.acted_plain rfl rfl 1]
  exact congrArg (ok s) (Mach.actionIf_passes h 1 (decide_eq_true hl) _)

theorem completes_retrain_of_not_up (h : s.m.passes r Reg.LNK.RETRAIN i = true) (hl : s.m.linkState i ≠ 2) :
    Completes (.retrain r) s ((s.m.reach r Reg.LNK.RETRAIN).ignoreWrite r Reg.LNK.RETRAIN 1) := by
  rw [← Mach.crossAon_plain rfl]
  exact congrArg (ok s) (Mach.actionIf_ignored h 1 (decide_eq_false hl) _)

variable {u : Mach} (h : s.m.passes r Reg.LNK.WIDTH_CHANGE i = true) (hu : u = s.m.reach r Reg.LNK.WIDTH_CHANGE)
include h hu

theorem completes_widthChange_of_possible (hl : s.m.linkState i = 2) (ht : targetOk (s.m.get Reg.LNK.TARGET_LANES i) = true) :
    Completes (.widthChange r) s (u.startAction i .width 5 (u.get Reg.LNK.TARGET_LANES i)) := by
  rw [hu, ← Mach.acted_plain rfl rfl 1]
  exact congrArg (ok s) (Mach.actionIf_passes h 1 (by simp only [hl, ht, decide_true, Bool.and_self]) _)

theorem completes_widthChange_of_impossible (hn : s.m.linkState i ≠ 2 ∨ targetOk (s.m.get Reg.LNK.TARGET_LANES i) = false) :
    Completes (.widthChange r) s (u.ignoreWrite r Reg.LNK.WIDTH_CHANGE 1) := by
  rw [hu, ← Mach.crossAon_plain rfl]
  refine congrArg (ok s) (Mach.actionIf_ignored h 1 ?_ _)
  rcases hn with hn | hn <;> simp only [hn, decide_false, Bool.false_and, Bool.and_false]

end Actions

/-- The widest set that a port could have: of its enabled lanes, within WIDTH_MAX. -/
def Mach.couldHave (m : Mach) (p : Nat) : Nat :=
  chooseLanes (m.widthMax p) ((List.range 4).foldl (fun a k =>
    if m.isSet Reg.LAN.LANE_EN (m.physOf p k) then a + 2 ^ k else a) 0)

/-- AUTO_WIDTH_TRIAL tries the wider set of an UP port below WIDTH_MAX under AUTO_WIDTH_UP (R108). -/
theorem completes_autoWidthTrial {s : State} {p : PortId} {m : Mach}
    (h : (if s.m.linkState p = 2 ∧ s.m.isSet Reg.LNK.AUTO_WIDTH_UP p = true ∧ s.m.get Reg.LNK.WIDTH p < s.m.widthMax p ∧
        s.m.get Reg.LNK.WIDTH p < popCount (s.m.couldHave p) then s.m.startAction p .width 4 (s.m.couldHave p) else s.m) = m) :
    Completes (.autoWidthTrial p) s m := by
  subst h
  change execAutoWidthTrial p s = _
  simp only [execAutoWidthTrial, Bool.and_eq_true, decide_eq_true_eq, and_assoc, ok]
  rfl

/-! ### Lanes that a width change adds (R108) -/

section LaneAddTimeout
variable {s : State} {p : PortId} {t : TrainSt} (ht : (s.m.link p).train = some t) (locked : BitVec 4)
include ht

theorem completes_laneAddTimeout_of_adding {a : Nat} (ha : t.alignAt = some a) (hp : s.m.adding p = true) :
    Completes (.laneAddTimeout p locked) s (((s.m.lockAdded p locked).elapseTo (a + 2000)).addDone p) := by
  change execLaneAddTimeout p locked s = _
  simp only [execLaneAddTimeout, ht, ha, hp, if_true, ok, Config.usCycles]

theorem completes_laneAddTimeout_of_not_waiting (ha : t.alignAt = none) : Completes (.laneAddTimeout p locked) s s.m := by
  change execLaneAddTimeout p locked s = _
  simp only [execLaneAddTimeout, ht, ha, ok]

end LaneAddTimeout

/-- A mask that names no lane locks none. -/
theorem Mach.lockAdded_zero (m : Mach) (p : Nat) : m.lockAdded p 0 = m := by
  have none_locks : ((m.toAdd p).map (m.physOf p)).filter (fun l =>
      (0 : BitVec 4).getLsbD (l % 4) && !m.isSet Reg.LAN.CW_LOCK l) = [] := by
    simp only [List.filter_eq_nil_iff, BitVec.ofNat_eq_ofNat, BitVec.getLsbD_zero, Bool.false_and, Bool.false_eq_true,
      not_false_eq_true, implies_true]
  simp only [Mach.lockAdded, none_locks, List.foldl_nil]

section Added
variable {m : Mach} {p : Nat}

/-- The only lane that is added locks where the mask names it and it has no lock yet. -/
theorem Mach.lockAdded_singleton {k : Nat} (h : m.toAdd p = [k]) (locked : BitVec 4) : m.lockAdded p locked =
    if locked.getLsbD (m.physOf p k % 4) = true ∧ m.isSet Reg.LAN.CW_LOCK (m.physOf p k) = false then m.regain (m.physOf p k)
    else m := by
  simp only [Mach.lockAdded, h, List.map_cons, List.map_nil, List.filter_cons, List.filter_nil, Bool.and_eq_true,
    Bool.not_eq_true']
  split <;> rfl

/-- With no added lane skewed too far, the change goes on with the set asked for where all have locked, and otherwise with the widest
set among the active lanes and those that have (R108). -/
theorem Mach.addDone_of_aligned {t : TrainSt} {good : Nat} (ht : (m.link p).train = some t) (hl : m.lateAdded p = [])
    (hg : good = ((m.toAdd p).filter (fun k => m.isSet Reg.LAN.CW_LOCK (m.physOf p k))).foldl (fun a k => a + 2 ^ k)
      (m.get Reg.LNK.ACTIVE p)) :
    m.addDone p = m.queueDone p (if (m.toAdd p).all (bit good) = true then t.lanes else chooseLanes (m.widthMax p) good) 0 := by
  subst hg
  simp only [Mach.addDone, hl, List.contains_nil, Bool.not_false, Bool.and_true, List.foldl_nil, ht]

end Added

/-! ### The port registers (R111, R114, R115) -/

/-- PORT_EN 1 releases a contained port and trains one that is DOWN where ports train (Table 16-3, R111). -/
theorem Mach.portEnable_true (m : Mach) (i : Nat) : m.portEnable i true =
    if (m.uncontainPort i).mayTrain i = true ∧ (m.uncontainPort i).linkState i = 0 then (m.uncontainPort i).startFull i
    else m.uncontainPort i := by
  simp only [Mach.portEnable, if_true, Bool.and_eq_true, decide_eq_true_eq]

/-- PORT_EN 0 ends LOOPBACK, or takes the link down (R110, R111). -/
theorem Mach.portEnable_false (m : Mach) (i : Nat) : m.portEnable i false =
    if m.linkState i = 5 then (m.put Reg.LNK.LINK_STATE 0 i).endCondition 28 (.port (Fin.ofNat 128 i).val)
    else m.linkDown (Fin.ofNat 128 i) 0 := by
  simp only [Mach.portEnable, Bool.false_eq_true, if_false]

section PortRegisters
variable {s : State} {r : Requester} {i : Nat}

theorem completes_portEn {on : Bool} (h : s.m.passes r Reg.LNK.PORT_EN i = true) :
    Completes (.portEn r on) s ((s.m.stored r Reg.LNK.PORT_EN (b2n on) i).portEnable i on) :=
  congrArg (ok s) (Mach.setting_passes h _ _)

/-- WIDTH_MAX judges a trained port, and starts a width change of an UP port that is now too wide (R114, R115). -/
theorem completes_widthMax {v : Fin 8} {u w m : Mach} (h : s.m.passes r Reg.LNK.WIDTH_MAX i = true)
    (hu : u = s.m.stored r Reg.LNK.WIDTH_MAX v i) (hw : w = if u.trained i then u.judgeWidth i else u)
    (hm : (if w.linkState i = 2 ∧ w.widthMax i < w.get Reg.LNK.WIDTH i then
      w.startAction i .width 5 (chooseLanes (w.widthMax i) (w.goodLanes i)) else w) = m) : Completes (.widthMax r v) s m := by
  have acts : s.m.setting r Reg.LNK.WIDTH_MAX v Mach.widthMaxSet = w.narrow i := by
    rw [Mach.setting_passes h, ← hu, Mach.widthMaxSet, ← hw]
  rw [← hm]
  refine congrArg (ok s) (acts.trans ?_)
  simp only [Mach.narrow, Bool.and_eq_true, decide_eq_true_eq]

theorem completes_linkCntClr (h : s.m.passes r Reg.LNK.CNT_CLR i = true) : Completes (.linkCntClr r) s
    ((s.m.reach r Reg.LNK.CNT_CLR).clear [Reg.LNK.CRC_ERR, Reg.LNK.NAK_TX, Reg.LNK.NAK_RX, Reg.LNK.REPLAYS, Reg.LNK.REPLAY_FRAMES,
      Reg.LNK.DUP_DROP, Reg.LNK.GAP_DROP, Reg.LNK.CTRL_DROP, Reg.LNK.RETRAINS, Reg.LNK.WIDTH_CHANGES, Reg.LNK.COLLISIONS,
      Reg.LNK.STOMPS, Reg.LNK.REINJECTED] i) := by
  rw [← Mach.acted_plain rfl rfl 1]
  exact congrArg (ok s) (Mach.action_passes h 1 _)

end PortRegisters

/-! ### The statement -/

/-- Settles O14: each clause is its command's law, or the law of the operation on a machine that it runs. -/
theorem trainingWidthChangesAndPortCommandsDoAsFileFourSays :
    Obligations.TrainingWidthChangesAndPortCommandsDoAsFileFourSays := by
  refine ⟨fun s p x => ⟨fun hm hl ht => completes_fullTraining (if_pos ⟨hm, hl, ht⟩), fun h => completes_fullTraining (if_neg ?untrainable),
      fun hm hl => completes_trainRetryExpiry (if_pos ⟨hm, hl⟩), fun h => completes_trainRetryExpiry (if_neg ?noRetry)⟩,
    fun m p x u v w on ls y good hu hv hon hw hy hg => ⟨Mach.fullTraining_of_oversized hu, fun hs h0 => ?noLane,
      fun hs h0 z hz => ?requests, fun r => rfl⟩,
    fun s r i h => ⟨completes_retrain_of_up h, completes_retrain_of_not_up h⟩,
    fun s r i u h hu => ⟨completes_widthChange_of_possible h hu, completes_widthChange_of_impossible h hu⟩,
    ?trial, fun s p t ht => ⟨fun a locked => completes_laneAddTimeout_of_adding ht locked,
      fun locked => completes_laneAddTimeout_of_not_waiting ht locked⟩, Mach.lockAdded_zero,
    fun m p k locked h => ⟨fun hn hl => (Mach.lockAdded_singleton h locked).trans (if_pos ⟨hn, hl⟩),
      fun hl => (Mach.lockAdded_singleton h locked).trans (if_neg fun ⟨_, unlocked⟩ => Bool.eq_false_iff.1 unlocked hl)⟩,
    fun m p t good ht hl hg => ⟨fun all => ?allLocked, fun part => ?someLocked⟩, fun s r on i => completes_portEn,
    fun m i => ⟨fun hm hl => (m.portEnable_true i).trans (if_pos ⟨hm, hl⟩), fun h => (m.portEnable_true i).trans (if_neg ?released),
      fun hl => (m.portEnable_false i).trans (if_pos hl), fun hl => (m.portEnable_false i).trans (if_neg hl)⟩,
    fun s r v i u w h hu hw => ⟨fun hl hn => completes_widthMax h hu hw (if_pos ⟨hl, hn⟩),
      fun hn => completes_widthMax h hu hw (if_neg ?fits)⟩, fun s r i => completes_linkCntClr⟩
  case untrainable =>
    rintro ⟨hm, hl, ht⟩
    exact h.elim (Bool.eq_false_iff.1 · hm) (·.elim (Nat.not_lt_of_le hl) (· ht))
  case noRetry =>
    rintro ⟨hm, hl⟩
    exact h.elim (Bool.eq_false_iff.1 · hm) (fun ⟨h0, h5⟩ => hl.elim h0 h5)
  case noLane => exact (Mach.fullTraining_of_fits hu hs hv hon hw hy hg rfl).trans (if_pos h0)
  case requests => exact (Mach.fullTraining_of_fits hu hs hv hon hw hy hg hz).trans (if_neg h0)
  case trial =>
    rintro s p want rfl
    refine ⟨fun hl ha hw hn => completes_autoWidthTrial (if_pos ⟨hl, ha, hw, hn⟩), fun ha => completes_autoWidthTrial (if_neg ?_)⟩
    rintro ⟨_, auto, _, _⟩
    exact Bool.eq_false_iff.1 ha auto
  case allLocked => rw [Mach.addDone_of_aligned ht hl hg, if_pos all]
  case someLocked => rw [Mach.addDone_of_aligned ht hl hg, if_neg (Bool.eq_false_iff.1 part)]
  case released =>
    rintro ⟨hm, hl⟩
    exact h.elim (Bool.eq_false_iff.1 · hm) (· hl)
  case fits =>
    rintro ⟨hl, wide⟩
    exact hn.elim (· hl) (Nat.not_le_of_lt wide)

end Sys2Proof.Machine
end

section
/-! Routing of file 05: the check of a header and its discards (R121, R140, R141, R145), the hop it is selected on (R112, R127 to R130),
the escape hop (R131), local delivery (R143), ports out of use (R144), and the port's routing registers (R147). -/

namespace Sys2Proof.Machine

/-! ### An arrival is routed -/

/-- An arrival without a route is discarded (R145). -/
def Mach.dropUnrouted (m : Mach) (a : Arrival) : Mach :=
  ((m.pmcDiscard a.from_).freeArrival a).noRoute (ingQuad a.from_) a.pkt

section Route
variable {m : Mach} {a : Arrival}

/-- A packet past LIFETIME goes no further (R140). -/
theorem Mach.route_of_expired (h : m.expired (ingQuad a.from_) a.pkt = true) : m.route a = m.discardLifetime a :=
  if_pos h

variable (hx : m.expired (ingQuad a.from_) a.pkt = false)
include hx

/-- A packet of a port's replay buffer takes the port's partner route, if it has one (R112). -/
theorem Mach.route_of_replay {p : Nat} (hr : a.replayOf = some p) :
    m.route a = (m.partnerOfPort p a.pkt a.vc).elim (m.dropUnrouted a) (m.select_ a) := by
  simp only [Mach.route, hx, hr, Bool.false_eq_true, if_false]
  cases m.partnerOfPort p a.pkt a.vc <;> rfl

variable (hr : a.replayOf = none)
include hr

/-- A packet for this module joins the queue of its quadrant and TC, over the die links to it (R143). -/
theorem Mach.route_of_local {path : List Nat} (hd : (m.unaligned a.pkt.hdr.dst).isEmpty = true)
    (hp : path = m.diePath (ingQuad a.from_) (a.pkt.hdr.dst % 16 / 4) a.vc) :
    m.route a = { m.crossDies (ingQuad a.from_) path with rte := { (m.crossDies (ingQuad a.from_) path).rte with
      local_ := Tbl.modify (m.crossDies (ingQuad a.from_) path).rte.local_ (4 * (a.pkt.hdr.dst % 16 / 4) + a.pkt.hdr.tc) []
        (· ++ [{ a with path := path }]) } } := by
  subst hp
  simp only [Mach.route, hx, hr, hd, Bool.false_eq_true, if_false, if_true]

variable (hd : (m.unaligned a.pkt.hdr.dst).isEmpty = false)
include hd

/-- A packet for another module that a port brings with its hops used up is discarded (R141). -/
theorem Mach.route_of_hops {p : PortId} (hf : a.from_ = .port p) (hh : max 8 (m.get Reg.RTE.HOP_MAX) ≤ a.pkt.hdr.hops) :
    m.route a = ((((m.bump Reg.RTE.DISC_HOPS).pmcDiscard a.from_).freeArrival a).record 0x4021 (ingQuad a.from_)
      [a.pkt.hdr.src, a.pkt.hdr.dst]).raise 52 (.port p) a.pkt.hdr.dst (ingQuad a.from_) := by
  rw [hf] at hx ⊢
  simp only [Mach.route, hx, hr, hd, hf, hh, Bool.false_eq_true, if_false, if_true, ingUnit]

/-- Any other packet for another module takes the hop that is chosen for it, if there is one (R127 to R130). -/
theorem Mach.route_of_choice (hh : (∃ q, a.from_ = .engines q) ∨ a.pkt.hdr.hops < max 8 (m.get Reg.RTE.HOP_MAX)) :
    m.route a = (m.chooseHop (ingQuad a.from_) a.pkt).elim (m.dropUnrouted a) (fun h => (m.select_ a h).spendDraws) := by
  have goesOn (p : PortId) (hf : a.from_ = .port p) : ¬ max 8 (m.get Reg.RTE.HOP_MAX) ≤ a.pkt.hdr.hops := by
    rcases hh with ⟨q, he⟩ | hh
    · exact nomatch he.symm.trans hf
    · exact Nat.not_le_of_lt hh
  unfold Mach.dropUnrouted
  cases hf : a.from_ with
  | port p =>
    rw [hf] at hx
    simp only [Mach.route, hx, hr, hd, hf, goesOn p hf, Bool.false_eq_true, if_false]
    cases m.chooseHop (ingQuad (.port p)) a.pkt <;> rfl
  | engines q =>
    rw [hf] at hx
    simp only [Mach.route, hx, hr, hd, hf, Bool.false_eq_true, if_false]
    cases m.chooseHop (ingQuad (.engines q)) a.pkt <;> rfl

end Route

/-! ### ROUTE_SELECT -/

/-- The oldest header from an ingress is taken; one that is not valid is discarded (R121), and any other is routed. -/
theorem completes_routeSelect {s : State} {g : Ingress} {a : Arrival} {rest : List Arrival} {u m : Mach}
    (ht : takeFirst (fun (a : Arrival) => a.from_ == g) s.m.rte.arrivals = some (a, rest))
    (hu : u = { s.m with rte := { s.m.rte with arrivals := rest } })
    (h : (if a.replayOf = none ∧ u.headerValid a = false then
      ((((u.bump Reg.RTE.DISC_HDR).pmcDiscard a.from_).freeArrival a).record 0x4022 (ingQuad a.from_)
        [a.pkt.hdr.src, a.pkt.hdr.dst]).raise 54 (ingUnit a.from_) a.pkt.hdr.dst (ingQuad a.from_)
      else u.route a) = m) : Completes (.routeSelect g) s m := by
  subst hu h
  change execRouteSelect g s = _
  simp only [execRouteSelect, ht, ok, Bool.and_eq_true, Bool.not_eq_true', Option.isNone_iff_eq_none]

theorem completes_routeSelect_of_none {s : State} {g : Ingress}
    (h : takeFirst (fun (a : Arrival) => a.from_ == g) s.m.rte.arrivals = none) : Completes (.routeSelect g) s s.m := by
  change execRouteSelect g s = _
  simp only [execRouteSelect, h, ok]

/-! ### The escape hop (R131) -/

/-- A selection of packet `id` on an adaptive VC that its escape hop does not serve yet. -/
def Selected.lacksEscape (id : Nat) (x : Selected) : Bool :=
  x.arr.id == id && x.alsoOn.isNone && x.vc % 2 == 1

/-- The machine once a packet selected on port `p` is eligible on hop `h` too. -/
def Mach.alsoEscape (m : Mach) (p : PortId) (id : Nat) (h : Hop) : Mach :=
  m.updRp p (fun y => { y with
    sel := modifyFirst (Selected.lacksEscape id) (fun x => { x with alsoOn := some (h.port, h.kind, h.dim, h.vc) }) y.sel })

section EscWait
variable {s : State} {p : PortId} {id : Nat}

/-- At the time that a packet set as it was selected, its escape hop serves it too, if it has one. -/
theorem completes_escWaitExpiry {x : Selected} {u m : Mach} (hs : (s.m.rp p).sel.find? (Selected.lacksEscape id) = some x)
    (hu : u = s.m.elapseTo x.escAt) (h : (u.escapeHop x.arr.pkt).elim u (u.alsoEscape p id) = m) :
    Completes (.escWaitExpiry p id) s m := by
  subst hu h
  change execEscWaitExpiry p id s = _
  unfold Selected.lacksEscape at hs
  simp only [execEscWaitExpiry, hs, ok]
  cases (s.m.elapseTo x.escAt).escapeHop x.arr.pkt <;> rfl

theorem completes_escWaitExpiry_of_none (h : (s.m.rp p).sel.find? (Selected.lacksEscape id) = none) :
    Completes (.escWaitExpiry p id) s s.m := by
  change execEscWaitExpiry p id s = _
  unfold Selected.lacksEscape at h
  simp only [execEscWaitExpiry, h, ok]

end EscWait

/-! ### Local delivery (R140, R143) -/

/-- The machine whose local queue `key` holds `r`. -/
def Mach.withLocal (m : Mach) (key : Nat) (r : List Arrival) : Mach :=
  { m with rte := { m.rte with local_ := if r.isEmpty then Tbl.del m.rte.local_ key else Tbl.set m.rte.local_ key r } }

/-- The machine once a packet is in the inbox of the engines. -/
def Mach.toInbox (m : Mach) (k : Packet) : Mach := { m with rte := { m.rte with inbox := m.rte.inbox ++ [k] } }

section LocalDelivery
variable {s : State} {q : Quad} {tc : Fin 4}

/-- The oldest packet of a queue has come over the die links, and is aged again before the engines have it. -/
theorem completes_localDelivery {a : Arrival} {r : List Arrival} {t u m : Mach}
    (hq : Tbl.get s.m.rte.local_ (4 * q.val + tc.val) [] = a :: r)
    (ht : t = s.m.elapseTo (s.m.pathReady (ingQuad a.from_) a.path))
    (hu : u = (t.withLocal (4 * q.val + tc.val) r).ageFlag q a.pkt)
    (h : (if u.expired q a.pkt = true then u.discardLifetime a else ((u.freeArrival a).toInbox a.pkt).callEngine q a.pkt) = m) :
    Completes (.localDelivery q tc) s m := by
  subst ht hu h
  change execLocalDelivery q tc s = _
  simp only [execLocalDelivery, hq, ok]
  rfl

theorem completes_localDelivery_of_empty (h : Tbl.get s.m.rte.local_ (4 * q.val + tc.val) [] = []) :
    Completes (.localDelivery q tc) s s.m := by
  change execLocalDelivery q tc s = _
  simp only [execLocalDelivery, h, ok]

end LocalDelivery

/-! ### Ports out of use (R144) -/

/-- PORT_UNUSABLE leaves the packets of a port in use where they are. -/
theorem completes_portUnusable {s : State} {p : PortId} {m : Mach} (h : (if s.m.inUse p = true then s.m else s.m.reselect p) = m) :
    Completes (.portUnusable p) s m :=
  congrArg (ok s) h

/-! ### The port's routing registers (R147) -/

theorem Mach.routeEnable_true (m : Mach) (i : Nat) : m.routeEnable i true = m.updRp i (fun x => { x with freshFrom := m.clk }) :=
  rfl

/-- ROUTE_EN 0 takes the port out of use where CABLE_ERR had not done so already. -/
theorem Mach.routeEnable_false (m : Mach) (i : Nat) : m.routeEnable i false =
    if m.isSet Reg.RTE.CABLE_ERR i = true then m.reselect i else m.leaveUse (Fin.ofNat 128 i) :=
  rfl

section RouteRegisters
variable {s : State} {r : Requester} {i : Nat}

theorem completes_routeEn {on : Bool} {u m : Mach} (h : s.m.passes r Reg.RTE.ROUTE_EN i = true)
    (hu : u = s.m.stored r Reg.RTE.ROUTE_EN (b2n on) i) (hm : u.routeEnable i on = m) : Completes (.routeEn r on) s m := by
  subst hu hm
  exact congrArg (ok s) (Mach.setting_passes h _ _)

theorem completes_routeCntClr (h : s.m.passes r Reg.RTE.CNT_CLR i = true) : Completes (.routeCntClr r) s
    ((s.m.reach r Reg.RTE.CNT_CLR).clear [Reg.RTE.DISC_LIFETIME, Reg.RTE.DISC_HOPS, Reg.RTE.DISC_HDR, Reg.RTE.DISC_NOROUTE,
      Reg.RTE.HOPS_MIN, Reg.RTE.HOPS_NONMIN, Reg.RTE.HOPS_ESC, Reg.RTE.HOPS_DETOUR, Reg.RTE.ESC_FALLBACK]) := by
  rw [← Mach.acted_plain rfl rfl 1]
  exact congrArg (ok s) (Mach.action_passes h 1 _)

end RouteRegisters

/-! ### The statement -/

/-- Settles O15: each clause is its command's law, or the law of `Mach.route` for what stops or takes the packet. -/
theorem packetsAreCheckedRoutedAndDelivered : Obligations.PacketsAreCheckedRoutedAndDelivered := by
  refine ⟨fun s g a rest u ht hu => ⟨fun hr hv => completes_routeSelect ht hu (if_pos ⟨hr, hv⟩),
      fun h => completes_routeSelect ht hu (if_neg ?good)⟩, fun s g => completes_routeSelect_of_none, ?route,
    fun s p id => ⟨fun x u hs hu => ⟨fun hn => completes_escWaitExpiry hs hu (by rw [hn]; rfl),
      fun h hh => completes_escWaitExpiry hs hu (by rw [hh]; rfl)⟩, completes_escWaitExpiry_of_none⟩, fun s q tc => ⟨?delivery,
      completes_localDelivery_of_empty⟩, fun s p => ⟨fun h => completes_portUnusable (if_pos h),
      fun h => completes_portUnusable (if_neg (Bool.eq_false_iff.1 h))⟩,
    fun s r i h => ⟨fun u hu => completes_routeEn h hu (u.routeEnable_true i), fun u hu =>
      ⟨fun hc => completes_routeEn h hu ((u.routeEnable_false i).trans (if_pos hc)),
        fun hc => completes_routeEn h hu ((u.routeEnable_false i).trans (if_neg (Bool.eq_false_iff.1 hc)))⟩⟩,
    fun s r i => completes_routeCntClr⟩
  case good =>
    rintro ⟨hr, hv⟩
    exact h.elim (· hr) (Bool.eq_false_iff.1 hv)
  case route =>
    rintro m a q rfl
    refine ⟨Mach.route_of_expired, fun p hx hr => ?_, fun path hx hr hd => Mach.route_of_local hx hr hd,
      fun p hf hx hr hd => Mach.route_of_hops hx hr hd hf, fun hx hr hd hh => ?_, fun k => rfl⟩
    · rw [Mach.route_of_replay hx hr]
      exact ⟨fun h hh => by rw [hh]; rfl, fun hn => by rw [hn]; rfl⟩
    · rw [Mach.route_of_choice hx hr hd hh]
      exact ⟨fun h hh => by rw [hh]; rfl, fun hn => by rw [hn]; rfl⟩
  case delivery =>
    rintro a r t u v hq ht hu rfl
    exact ⟨fun hx => completes_localDelivery hq ht hu (if_pos hx),
      fun hx => completes_localDelivery hq ht hu (if_neg (Bool.eq_false_iff.1 hx))⟩

end Sys2Proof.Machine
end

section
/-! Beacons of file 05 (R133 to R135), the check of their DA (R126), and the configuration check (R118, R123). -/

namespace Sys2Proof.Machine

/-! ### Sending and taking a beacon -/

/-- BEACON_SEND queues a beacon on a trained, awake port under FF_EN (R133). -/
theorem completes_beaconSend {s : State} {p : PortId} {m : Mach}
    (h : (if s.m.isSet Reg.RTE.FF_EN = true ∧ s.m.trained p = true ∧ (s.m.ei p).driversOff = false then s.m.queueCtrl p .beacon
      else s.m) = m) : Completes (.beaconSend p) s m := by
  subst h
  change execBeaconSend p s = _
  simp only [execBeaconSend, Bool.and_eq_true, Bool.not_eq_true', and_assoc, ok]

section BeaconReceive
variable {s : State} {p : PortId} {b : Beacon} {rx : Rx}

/-- A good beacon is kept, ends what its absence had set, and has its DA checked (R126, R134, R135). -/
theorem completes_beaconReceive_of_hears {u v : Mach} (hear : s.m.hears p b.wire rx u) (hv : v = u.keepBeacon p b) :
    Completes (.beaconReceive p b rx) s (((v.put Reg.RTE.STALE 0 p).endCondition 53 (.port p)).checkDa p b.da) := by
  subst hv
  exact congrArg (ok s) (Mach.ctrlIn_hears hear _)

theorem completes_beaconReceive_of_garbled {u : Mach} (h : s.m.garbled p b.wire rx u) :
    Completes (.beaconReceive p b rx) s (u.frameBad p 1) :=
  congrArg (ok s) (Mach.ctrlIn_garbled h _)

theorem completes_beaconReceive_of_missed (h : s.m.missed p b.wire rx) : Completes (.beaconReceive p b rx) s s.m :=
  congrArg (ok s) (Mach.ctrlIn_missed h _)

end BeaconReceive

/-! ### The check of a beacon's DA (R126) -/

section CheckDa
variable {m : Mach} {p : PortId} {da : Nat}

theorem Mach.checkDa_of_unmapped (h : m.entryOf p = none) (da : Nat) : m.checkDa p da = m := by
  simp only [Mach.checkDa, h]

variable {e : Nat} (he : m.entryOf p = some e)
include he

/-- An unexpected DA is a wrong neighbour, and a port that was in use leaves it. -/
theorem Mach.checkDa_of_unexpected {u : Mach} (hd : da ≠ m.expectedDa e)
    (hu : u = ((((m.updRp p (fun x => { x with trainedSinceErr := false })).put Reg.RTE.CABLE_ERR 1 p).raise 48 (.port p) da
      (quadOfPort p)).record 0x4001 (quadOfPort p) [p.val, da])) :
    m.checkDa p da = if m.inUse p = true then u.leaveUse p else u := by
  subst hu
  simp only [Mach.checkDa, he, bne_iff_ne, ne_eq, hd, not_false_eq_true, if_true]

/-- The expected DA ends a CABLE_ERR once a full training has begun since. -/
theorem Mach.checkDa_of_expected (hd : da = m.expectedDa e) :
    m.checkDa p da = if m.isSet Reg.RTE.CABLE_ERR p = true ∧ (m.rp p).trainedSinceErr = true then
        (((m.put Reg.RTE.CABLE_ERR 0 p).updRp p (fun x => { x with trainedSinceErr := false, freshFrom := m.clk })).endCondition 48
          (.port p)).record 0x4004 (quadOfPort p) [p.val]
      else m := by
  simp only [Mach.checkDa, he, hd, bne_self_eq_false, Bool.false_eq_true, if_false, Bool.and_eq_true]

end CheckDa

/-! ### A beacon that stays away (R135) -/

/-- A usable, awake port is STALE when its beacon's age, or the time since the port became usable where that is less, reaches FF_STALE
periods. -/
theorem completes_beaconStale {s : State} {p : PortId} {fresh age : Nat} {u m : Mach}
    (hf : fresh = (s.m.clk - (s.m.rp p).freshFrom) / 2) (ha : age = (s.m.beaconAge p).elim fresh (min · fresh))
    (hu : u = s.m.elapse ((s.m.ffStale * s.m.ffPeriod - age) * 2))
    (h : (if s.m.usable p = true ∧ (s.m.ei p).driversOff = false ∧ s.m.isSet Reg.RTE.STALE p = false then
      ((u.put Reg.RTE.STALE 1 p).raise 53 (.port p) 0 (quadOfPort p)).record 0x4010 (quadOfPort p) [p.val]
      else s.m) = m) : Completes (.beaconStale p) s m := by
  subst hf ha hu h
  change execBeaconStale p s = _
  simp only [execBeaconStale, Bool.and_eq_true, Bool.not_eq_true', and_assoc, ok]
  cases s.m.beaconAge p <;> rfl

/-! ### The configuration check (R118, R123) -/

/-- CFG_CHECK stores what it finds; a failure is raised, and a success records the entries without a valid member. -/
theorem completes_cfgCheck {s : State} {r : Requester} {i : Nat} {u v m : Mach} (h : s.m.passes r Reg.RTE.CFG_CHECK i = true)
    (hu : u = s.m.acted r Reg.RTE.CFG_CHECK 1)
    (hv : v = (u.put Reg.RTE.CFG_OK (b2n (u.cfgErr = 0))).put Reg.RTE.CFG_ERR u.cfgErr)
    (hm : (if u.cfgErr ≠ 0 then (v.raise 49 .none u.cfgErr 0).record 0x4002 0 [u.cfgErr]
      else (pmEntries.filter (fun e => e / 64 < v.dims && e % 64 < v.cs (e / 64) && e % 64 != v.coord v.ownDa (e / 64) &&
        (v.namedMembers e).isEmpty)).foldl (fun (a : Mach) e => a.record 0x4003 0 [e]) v) = m) :
    Completes (.cfgCheck r) s m := by
  have checks : u.runCfgCheck = m := by
    subst hv hm
    simp only [Mach.runCfgCheck, bne_iff_ne]
  rw [← checks, hu]
  exact congrArg (ok s) (Mach.action_passes h 1 _)

/-! ### The statement -/

/-- Settles O16: each clause is its command's law, or the law of the check of a beacon's DA. -/
theorem beaconsAndTheConfigurationCheckDoAsFileFiveSays : Obligations.BeaconsAndTheConfigurationCheckDoAsFileFiveSays := by
  refine ⟨fun s p => ⟨fun hf ht hd => completes_beaconSend (if_pos ⟨hf, ht, hd⟩), fun h => completes_beaconSend (if_neg ?silent)⟩,
    fun s p b rx => ⟨fun u hear v => completes_beaconReceive_of_hears hear, fun u => completes_beaconReceive_of_garbled,
      completes_beaconReceive_of_missed⟩, fun m u p e da he => ⟨fun hd hu => ?unexpected,
      fun hd hc ht => (Mach.checkDa_of_expected he hd).trans (if_pos ⟨hc, ht⟩),
      fun hd h => (Mach.checkDa_of_expected he hd).trans (if_neg ?remains)⟩,
    fun m p da h => Mach.checkDa_of_unmapped h da, fun s p fresh age u hf ha hu =>
      ⟨fun hp hd hs => completes_beaconStale hf ha hu (if_pos ⟨hp, hd, hs⟩),
        fun h => completes_beaconStale hf ha hu (if_neg ?unconcerned)⟩,
    fun s r i u v h hu hv => ⟨fun hn => completes_cfgCheck h hu hv (if_pos hn),
      fun h0 => completes_cfgCheck h hu hv (if_neg (· h0))⟩⟩
  case silent =>
    rintro ⟨hf, ht, hd⟩
    simp [hf, ht, hd] at h
  case unexpected =>
    have checked := Mach.checkDa_of_unexpected he hd hu
    exact ⟨fun used => checked.trans (if_pos used), fun unused => checked.trans (if_neg (Bool.eq_false_iff.1 unused))⟩
  case remains =>
    rintro ⟨hc, ht⟩
    simp [hc, ht] at h
  case unconcerned =>
    rintro ⟨hp, hd, hs⟩
    simp [hp, hd, hs] at h

end Sys2Proof.Machine
end

section
/-! Work entries of file 06 as their commands hand them over (R154, R155, R157 to R159, R173), and how those of the other files
start (R212, R234, R254, R261, R283, R285, R291, R295). -/

namespace Sys2Proof.Machine

/-! ### A command that hands an entry over -/

/-- Command `i` hands entry `e` of a ring to the engines of opcode `op`, which do `act` with a good one that starts. -/
def Hands (i : Instr) (ring : Nat) (e : Entry) (op : Nat) (act : Mach → Nat → WorkRing → Mach) : Prop :=
  ∀ s : State, exec i s = ok s (s.m.runEntry ring e op act)

section Hands
variable {i : Instr} {s : State} {ring op seq : Nat} {e : Entry} {w : WorkRing} {u : Mach} {act : Mach → Nat → WorkRing → Mach}
  (hi : Hands i ring e op act)
include hi

theorem Hands.completes_of_keeps (h : s.m.keeps ring e op) : Completes i s s.m :=
  (hi s).trans (congrArg (ok s) (Mach.runEntry_kept h act))

theorem Hands.completes_of_refuses (h : s.m.refuses ring e op) : Completes i s (s.m.badLen ring e) := by
  obtain ⟨hop, free, front, run, untaken⟩ := h
  exact (hi s).trans (congrArg (ok s) (Mach.runEntry_untaken hop free front run untaken act))

theorem Hands.completes_of_bad {d : Nat} (hb : entryBad e = some d) (h : s.m.starts ring e op seq w u) :
    Completes i s (u.finishWork ring seq 0x0B d) :=
  (hi s).trans (congrArg (ok s) (Mach.runEntry_bad h hb act))

theorem Hands.completes_of_good (hb : entryBad e = none) (h : s.m.starts ring e op seq w u) : Completes i s (act u seq w) :=
  (hi s).trans (congrArg (ok s) (Mach.runEntry_good h hb act))

end Hands

section Arms
variable (ring : Nat) (e : Entry)

theorem hands_nop : Hands (.nop ring e) ring e 0x00 (fun m seq _ => m.finishWork ring seq 0 0) := fun _ => rfl
theorem hands_put : Hands (.put ring e) ring e 0x10 (fun m seq w => m.startRsx ring seq w e) := fun _ => rfl
theorem hands_putFlag : Hands (.putFlag ring e) ring e 0x11 (fun m seq w => m.startRsx ring seq w e) := fun _ => rfl
theorem hands_get : Hands (.get ring e) ring e 0x12 (fun m seq w => m.startRsx ring seq w e) := fun _ => rfl
theorem hands_send : Hands (.send ring e) ring e 0x20 (fun m seq w => m.startRsx ring seq w e) := fun _ => rfl
theorem hands_coll : Hands (.coll ring e) ring e 0x30 (fun m seq w => m.startColl ring seq w e) := fun _ => rfl
theorem hands_lockAcquire : Hands (.lockAcquire ring e) ring e 0x40 (fun m seq w => m.startAcquire ring seq w e) := fun _ => rfl
theorem hands_fence : Hands (.fence ring e) ring e 0x50 (fun m seq w =>
    (((m.updWr ring (fun x => { x with fenceAt := some seq })).stopScan ring w).pumpTxe w.slot w.txe).fenceDone ring) := fun _ => rfl

end Arms

/-- What holds of every command that hands an entry over holds of the fourteen that do (Table 6-6). -/
theorem forEach_hands {ring : Nat} {e : Entry} {P : Instr → Nat → Prop} (h : ∀ i op act, Hands i ring e op act → P i op) :
    P (.nop ring e) 0x00 ∧ P (.put ring e) 0x10 ∧ P (.putFlag ring e) 0x11 ∧ P (.get ring e) 0x12 ∧ P (.atomic ring e) 0x13 ∧
    P (.send ring e) 0x20 ∧ P (.recv ring e) 0x21 ∧ P (.recvCancel ring e) 0x22 ∧ P (.coll ring e) 0x30 ∧
    P (.lockAcquire ring e) 0x40 ∧ P (.lockRelease ring e) 0x41 ∧ P (.lockForce ring e) 0x42 ∧ P (.fence ring e) 0x50 ∧
    P (.sleepNotice ring e) 0x51 := by
  refine ⟨?_, ?_, ?_, ?_, ?_, ?_, ?_, ?_, ?_, ?_, ?_, ?_, ?_, ?_⟩ <;> exact h _ _ _ fun _ => rfl

/-! ### An entry whose LEN makes a ring error (R158) -/

section BadLen
variable {m : Mach} {ring : Nat} {e : Entry}

theorem Mach.badLen_of_free (h : m.wr ring = none) (e : Entry) : m.badLen ring e = m := by
  simp only [Mach.badLen, h]

theorem Mach.badLen_of_fits {w : WorkRing} (hw : m.wr ring = some w) (h : lenError w e = none) : m.badLen ring e = m := by
  simp only [Mach.badLen, hw, h]

/-- A LEN that does not fit is a ring error where the entry would be the next one taken. -/
theorem Mach.badLen_of_lenError {w : WorkRing} {d : Nat} (hw : m.wr ring = some w) (h : lenError w e = some d) :
    m.badLen ring e = if m.takes w e = true ∧ m.hif.work.any (fun x => x.ring == ring && !x.started) = false then
        (m.ringError ring w d (entryHeader e)).pumpTxe w.slot w.txe
      else m := by
  simp only [Mach.badLen, hw, h, Bool.and_eq_true, Bool.not_eq_true']

end BadLen

/-! ### Entries that start -/

/-- The receive that a RECV_CANCEL names: that of the work with its WORK_ID on ring `target`, by its function `fn` (R254). -/
def Recv.named (u : Mach) (workId target : Nat) (fn : Option (Nat × Nat)) (r : Recv) : Bool :=
  r.workId == workId && r.ring == target && (u.domain r.domain).map (fun d => (d.slot, d.func)) == fn

section Starts
variable {s : State} {ring seq : Nat} {e : Entry} {w : WorkRing} {u m : Mach} (hb : entryBad e = none)
include hb

/-- An ATOMIC asks its target where its AOP is known and its destination valid (R295). -/
theorem completes_atomic {dst win off ra a b q : Nat} (h : s.m.starts ring e 0x13 seq w u) (hq : q = quadOfSlot w.slot)
    (he : e.body = .atomic dst win off ra a b)
    (hm : (if 10 < e.arg % 256 then u.finishWork ring seq 0x0B 3
      else if u.eidValid dst = false then u.finishWork ring seq 0x03 0
      else (u.newTag q).2.startReq { reqOf q (u.newTag q).1 ring seq w e 0x28
          { lkuHdr 0 (u.newTag q).1 with
            code := e.arg % 256, b25 := e.arg / 256 % 256, queued := win, offset := off, op1 := a, op2 := b } with
        resultAddr := ra }) = m) : Completes (.atomic ring e) s m := by
  subst hq hm
  refine (Hands.completes_of_good (fun _ => rfl) hb h).trans ?_
  simp only [he, Bool.not_eq_true']

/-- A RECV goes to its domain (R234). -/
theorem completes_recv {r : Recv} (h : s.m.starts ring e 0x21 seq w u) (hr : recvOf ring seq w e = some r) :
    Completes (.recv ring e) s (u.takeRecv r w) := by
  refine (Hands.completes_of_good (fun _ => rfl) hb h).trans ?_
  simp only [hr]

/-- A RECV_CANCEL ends the receive that it names, if it is still posted, and says so in DATA (R254). -/
theorem completes_recvCancel {workId target : Nat} {fn : Option (Nat × Nat)} (h : s.m.starts ring e 0x22 seq w u)
    (he : e.body = .cancel workId target) (hf : fn = (u.wr target).map (fun t => (t.slot, t.func)))
    (hm : (u.mat.posted.find? (Recv.named u workId target fn)).elim (u.finishWork ring seq 0 0 0) (fun r =>
      (((u.unpost r).bump Reg.MAT.CANCELS 1 ((fn.map (·.1)).getD 0)).finishWork r.ring r.seq 0x08 0).finishWork ring seq 0 0 1) = m) :
    Completes (.recvCancel ring e) s m := by
  subst hf hm
  refine (Hands.completes_of_good (fun _ => rfl) hb h).trans ?_
  unfold Recv.named
  simp only [he]
  cases u.wr target <;> cases u.mat.posted.find? _ <;> rfl

section Lock
variable {dst lock z q : Nat} (he : e.body = .lock dst lock z) (hq : q = quadOfSlot w.slot)
include he hq

/-- A LOCK_RELEASE goes to the home of a lock that the function holds, and forgets one that it has lost (R285). -/
theorem completes_lockRelease (h : s.m.starts ring e 0x41 seq w u)
    (hm : ((u.heldBy w.slot w.func (dst / 16) lock .held).elim
      ((u.heldBy w.slot w.func (dst / 16) lock .lost).elim (u.finishWork ring seq 0x01 1)
        (fun x => ((u.dropHeld q x.tag).finishWork ring seq 0x01 1).resumeAcquires))
      (fun x => (((u.newTag q).2.updHeld q x.tag (fun x => { x with st := .releasing, renew := none })).startReq
        (reqOf q (u.newTag q).1 ring seq w e 0x21 { lkuHdr lock (u.newTag q).1 with gen := x.gen })).resumeAcquires)) = m) :
    Completes (.lockRelease ring e) s m := by
  subst hq hm
  refine (Hands.completes_of_good (fun _ => rfl) hb h).trans ?_
  simp only [he]
  cases u.heldBy w.slot w.func (dst / 16) lock .held with
  | some x => rfl
  | none => cases u.heldBy w.slot w.func (dst / 16) lock .lost <;> rfl

/-- A LOCK_FORCE goes to a valid home, from a supervisor ring only (R156, R291). -/
theorem completes_lockForce (h : s.m.starts ring e 0x42 seq w u)
    (hm : (if w.super_ = false then u.finishWork ring seq 0x0B 5
      else if u.eidValid dst = false then u.finishWork ring seq 0x03 0
      else ((u.newTag q).2.startReq (reqOf q (u.newTag q).1 ring seq w e 0x22 (lkuHdr lock (u.newTag q).1))).resumeAcquires) = m) :
    Completes (.lockForce ring e) s m := by
  subst hq hm
  refine (Hands.completes_of_good (fun _ => rfl) hb h).trans ?_
  simp only [he, Bool.not_eq_true']

end Lock

theorem completes_sleepNotice_of_free (h : s.m.starts ring e 0x51 seq w u) (hc : u.cr e.cr = none) :
    Completes (.sleepNotice ring e) s (u.finishWork ring seq 0 0) := by
  refine (Hands.completes_of_good (fun _ => rfl) hb h).trans ?_
  simp only [hc, Bool.false_eq_true, if_false]

/-- A SLEEP_NOTICE flushes the completion ring that it names where that is of its ring's function (R173). -/
theorem completes_sleepNotice {c : ComplRing} (h : s.m.starts ring e 0x51 seq w u) (hc : u.cr e.cr = some c)
    (hm : (if c.slot = w.slot ∧ c.func = w.func then u.flushCr e.cr else u).finishWork ring seq 0 0 = m) :
    Completes (.sleepNotice ring e) s m := by
  subst hm
  refine (Hands.completes_of_good (fun _ => rfl) hb h).trans ?_
  simp only [hc, Bool.and_eq_true, beq_iff_eq]

end Starts

/-! ### PAD (R154) -/

/-- The scan position moves past an owned PAD that stands at it and ends within the ring, while the ring waits for no read. -/
theorem completes_pad {s : State} {ring : Nat} {e : Entry} {w : WorkRing} {m : Mach} (hw : s.m.wr ring = some w)
    (hm : (if e.opcode = 1 ∧ e.own = w.phase ∧ s.m.mayScan w = true ∧ w.reading = false ∧ 1 ≤ e.len ∧ e.len ≤ 16 ∧
        w.pos + e.len ≤ 2 ^ w.sizeLog2 then s.m.updWr ring (fun w => w.advance e.len) else s.m) = m) :
    Completes (.pad ring e) s m := by
  subst hm
  change execPad ring e s = _
  simp only [execPad, hw, ok, Bool.and_eq_true, decide_eq_true_eq, Bool.not_eq_true', and_assoc]

theorem completes_pad_of_free {s : State} {ring : Nat} (h : s.m.wr ring = none) (e : Entry) : Completes (.pad ring e) s s.m := by
  change execPad ring e s = _
  simp only [execPad, h, ok]

/-! ### The statement -/

/-- Settles O17: a command hands its entry over by `Mach.runEntry`, and each outcome is its law or that of what the opcode starts. -/
theorem workEntriesStartTheirOperation : Obligations.WorkEntriesStartTheirOperation := by
  refine ⟨fun s ring e => forEach_hands (P := fun i op => s.m.keeps ring e op → Completes i s s.m)
      fun i op act hi => hi.completes_of_keeps,
    fun s ring e => forEach_hands (P := fun i op => s.m.refuses ring e op → Completes i s (s.m.badLen ring e))
      fun i op act hi => hi.completes_of_refuses,
    fun m ring e => ⟨fun w d hw hd ht hn => (Mach.badLen_of_lenError hw hd).trans (if_pos ⟨ht, hn⟩), ?badLen,
      (Mach.badLen_of_free · e)⟩,
    fun s ring seq e w u d hb => forEach_hands
      (P := fun i op => s.m.starts ring e op seq w u → Completes i s (u.finishWork ring seq 0x0B d))
      fun i op act hi => hi.completes_of_bad hb,
    fun s ring seq e w u hb => ⟨(hands_nop ring e).completes_of_good hb, (hands_put ring e).completes_of_good hb,
      (hands_putFlag ring e).completes_of_good hb, (hands_get ring e).completes_of_good hb, (hands_send ring e).completes_of_good hb,
      ?atomic, fun h r => completes_recv hb h, ?cancel, (hands_coll ring e).completes_of_good hb,
      (hands_lockAcquire ring e).completes_of_good hb, ?release, ?force, (hands_fence ring e).completes_of_good hb,
      completes_sleepNotice_of_free hb, ?sleepNotice⟩,
    fun s ring e => ⟨?pad, ?notPad, (completes_pad_of_free · e)⟩⟩
  case badLen =>
    intro w hw h
    cases hd : lenError w e with
    | none => exact Mach.badLen_of_fits hw hd
    | some d =>
      refine (Mach.badLen_of_lenError hw hd).trans (if_neg ?_)
      rintro ⟨ht, hn⟩
      simp [hd, ht, hn] at h
  case atomic =>
    intro h dst win off ra a b he
    refine ⟨fun ha => completes_atomic hb h rfl he (if_pos ha), fun ha hv => completes_atomic hb h rfl he ?_,
      fun ha hv => completes_atomic hb h rfl he ?_⟩
    · rw [if_neg (Nat.not_lt.2 ha), if_pos hv]
    · rw [if_neg (Nat.not_lt.2 ha), if_neg (by simp [hv])]
  case cancel =>
    intro h workId target fn he hf
    exact ⟨fun r hr => completes_recvCancel hb h he hf (by unfold Recv.named; rw [hr]; rfl),
      fun hr => completes_recvCancel hb h he hf (by unfold Recv.named; rw [hr]; rfl)⟩
  case release =>
    intro h dst lock z q he hq
    exact ⟨fun x hx => completes_lockRelease hb he hq h (by rw [hx]; rfl),
      fun x hx hl => completes_lockRelease hb he hq h (by rw [hx, hl]; rfl),
      fun hx hl => completes_lockRelease hb he hq h (by rw [hx, hl]; rfl)⟩
  case force =>
    intro h dst lock z q he hq
    exact ⟨fun hs => completes_lockForce hb he hq h (if_pos hs),
      fun hs hv => completes_lockForce hb he hq h (by simp [hs, hv]),
      fun hs hv => completes_lockForce hb he hq h (by simp [hs, hv])⟩
  case sleepNotice =>
    intro h c hc
    refine ⟨fun hs hf => completes_sleepNotice hb h hc (by rw [if_pos ⟨hs, hf⟩]), fun hn => completes_sleepNotice hb h hc ?_⟩
    rw [if_neg fun ⟨hs, hf⟩ => hn.elim (· hs) (· hf)]
  case pad =>
    intro w hw hop hown hscan hread h1 h16 hfit
    exact completes_pad hw (if_pos ⟨hop, hown, hscan, hread, h1, h16, hfit⟩)
  case notPad =>
    intro w hw h
    refine completes_pad hw (if_neg ?_)
    rintro ⟨hop, hown, hscan, hread, h1, h16, hfit⟩
    simp [hop, hown, hscan, hread] at h
    omega

end Sys2Proof.Machine
end

section
/-! Doorbells (R151, R152), the reads of a ring's scan (R157), interrupt moderation and vectors (R168, R169, R173), and what host reads
come back to (R466, R467). -/

namespace Sys2Proof.Machine

/-! ### Doorbells (R149, R151) -/

section Doorbell
variable {m : Mach} {slot : Nat}

theorem Mach.doorbell_of_absent (h : m.slotPresent slot = false) (ring : Option Nat) (act : Mach → Nat → Mach) :
    m.doorbell slot ring act = m := by
  simp only [Mach.doorbell, h, Bool.not_false, if_true]

/-- A doorbell of a page with no ring of its kind counts in DB_BAD; any other acts once the quadrant is awake. -/
theorem Mach.doorbell_of_present (h : m.slotPresent slot = true) (ring : Option Nat) (act : Mach → Nat → Mach) :
    m.doorbell slot ring act = ring.elim (m.bump Reg.HIF.DB_BAD 1 slot) (act (m.wakeQuad (quadOfSlot slot))) := by
  simp only [Mach.doorbell, h, Bool.not_true, Bool.false_eq_true, if_false]
  cases ring <;> rfl

end Doorbell

/-- Command `i` is a doorbell of a page of `slot` to the ring that `ring` finds there, which does `act`. -/
def Rings (i : Instr) (slot : Nat) (ring : Mach → Option Nat) (act : Mach → Nat → Mach) : Prop :=
  ∀ s : State, exec i s = ok s (s.m.doorbell slot (ring s.m) act)

section Rings
variable {i : Instr} {s : State} {slot : Nat} {ring : Mach → Option Nat} {act : Mach → Nat → Mach} (hi : Rings i slot ring act)
include hi

theorem Rings.completes_of_absent (h : s.m.slotPresent slot = false) : Completes i s s.m :=
  (hi s).trans (congrArg (ok s) (Mach.doorbell_of_absent h _ _))

variable (h : s.m.slotPresent slot = true)
include h

theorem Rings.completes_of_none (hn : ring s.m = none) : Completes i s (s.m.bump Reg.HIF.DB_BAD 1 slot) :=
  (hi s).trans (congrArg (ok s) ((Mach.doorbell_of_present h _ _).trans (by rw [hn]; rfl)))

theorem Rings.completes_of_some {n : Nat} {u m : Mach} (hn : ring s.m = some n) (hu : u = s.m.wakeQuad (quadOfSlot slot))
    (hm : act u n = m) : Completes i s m := by
  subst hu hm
  exact (hi s).trans (congrArg (ok s) ((Mach.doorbell_of_present h _ _).trans (by rw [hn]; rfl)))

end Rings

section Doorbells
variable (slot : Slot) (fn : Fin 256) (page : Nat)

theorem rings_wrDoorbell : Rings (.wrDoorbell slot fn page) slot (fun m => m.wrOfPage slot fn page) (fun m n =>
    ((m.bump Reg.HIF.DOORBELLS 1 slot).updWr n (fun w => { w with db := w.db + 1 })).readyScan n) :=
  fun _ => rfl

/-- The machine once the head of ring `n` stands at `h`, where a CR_HEAD value gives one (R152, R164). -/
def Mach.headTo (m : Mach) (slot n : Nat) (h : Option Nat) : Mach :=
  h.elim (m.bump Reg.HIF.DB_BAD 1 slot) (fun h => (m.updCr n (fun c => { c with head := h })).drainCr n)

theorem rings_crHead (v : Word) : Rings (.crHead slot fn page v) slot (fun m => m.crOfPage slot fn page) (fun m n =>
    m.headTo slot n ((m.cr n).bind (fun c => headCount c v))) := by
  intro s
  change execCrHead slot fn page v s = _
  unfold execCrHead Mach.headTo
  congr 2
  funext m n
  cases (m.cr n).bind (fun c => headCount c v) <;> rfl

theorem rings_crArm : Rings (.crArm slot fn page) slot (fun m => m.crOfPage slot fn page) Mach.arm := fun _ => rfl

theorem rings_sleepNoticeDoorbell : Rings (.sleepNoticeDoorbell slot fn page) slot (fun m => m.crOfPage slot fn page) Mach.flushCr :=
  fun _ => rfl

end Doorbells

/-! ### Moderation (R168, R173) -/

section Moderation
variable {m : Mach} {n : Nat} {c : ComplRing} (h : m.cr n = some c)
include h

theorem Mach.flushCr_of_ring : m.flushCr n = if c.armed = true ∧ 0 < c.unsig then m.crSend n else m := by
  simp only [Mach.flushCr, h, Bool.and_eq_true, decide_eq_true_eq]

/-- An armed ring sends with MOD_COUNT completions unsignalled, and with fewer starts its timer. -/
theorem Mach.arm_of_ring : m.arm n = if max 1 c.modCount ≤ c.unsig then (m.updCr n (fun c => { c with armed := true })).crSend n
    else if 0 < c.unsig then (m.updCr n (fun c => { c with armed := true })).crTimer n c
    else m.updCr n (fun c => { c with armed := true }) := by
  simp only [Mach.arm, h]

theorem Mach.crSend_of_ring {u : Mach} (hu : u = m.updCr n (fun c => { c with timer := none, armed := false, unsig := 0 })) :
    m.crSend n = if c.polled = true then u else u.interrupt c.slot c.func c.vector := by
  subst hu
  simp only [Mach.crSend, h]

end Moderation

section ModerationTimer
variable {s : State} {cr : Nat}

theorem completes_moderationTimerExpiry {t : Nat} (h : (s.m.cr cr).bind (·.timer) = some t) :
    Completes (.moderationTimerExpiry cr) s (((s.m.elapseTo t).updCr cr (fun c => { c with timer := none })).flushCr cr) := by
  change execModerationTimerExpiry cr s = _
  simp only [execModerationTimerExpiry, h, ok]

theorem completes_moderationTimerExpiry_of_none (h : (s.m.cr cr).bind (·.timer) = none) :
    Completes (.moderationTimerExpiry cr) s s.m := by
  change execModerationTimerExpiry cr s = _
  simp only [execModerationTimerExpiry, h, ok]

end ModerationTimer

/-! ### Vectors (R169) -/

section Unmask
variable {s : State} {slot : Slot} {fn : Fin 256} {vec : Nat}

/-- A vector that exists is unmasked, and one whose PBA bit was set sends its message. -/
theorem completes_msixUnmask {u m : Mach} (hv : vec < vectorsOf fn) (hs : s.m.slotPresent slot = true)
    (hu : u = s.m.updFunc slot fn (fun f => { f with unmasked := if f.unmasked.contains vec then f.unmasked else f.unmasked ++ [vec],
                                                     pba := f.pba.filter (· != vec) }))
    (hm : (if (s.m.func slot fn).pba.contains vec = true then u.interrupt slot fn vec else u) = m) :
    Completes (.msixUnmask slot fn vec) s m := by
  subst hu hm
  change execMsixUnmask slot fn vec s = _
  simp only [execMsixUnmask, hv, hs, ok, decide_true, Bool.and_true, if_true]

theorem completes_msixUnmask_of_no_vector (h : vectorsOf fn ≤ vec ∨ s.m.slotPresent slot = false) :
    Completes (.msixUnmask slot fn vec) s s.m := by
  refine congrArg (ok s) (if_neg ?_)
  rw [Bool.and_eq_true, decide_eq_true_eq]
  exact fun ⟨hv, hs⟩ => h.elim (Nat.not_le_of_lt hv) (Bool.eq_false_iff.1 · hs)

end Unmask

/-! ### The reads of a scan (R157) -/

section RingRead
variable {s : State} {id : Nat} {data : List Byte} {r : HostRead}

theorem completes_ringReadCompletion_of_none (h : s.m.hif.reads.find? (fun r => r.id == id && r.sent && r.walk.isNone) = none) :
    Completes (.ringReadCompletion id data) s s.m := by
  change execRingReadCompletion id data s = _
  simp only [execRingReadCompletion, h, ok]

variable (hr : s.m.hif.reads.find? (fun r => r.id == id && r.sent && r.walk.isNone) = some r)
include hr

theorem completes_ringReadCompletion_of_header {ring db pos : Nat} (hp : r.op.purpose = .ringHeader ring db pos) :
    Completes (.ringReadCompletion id data) s ((s.m.dropRead id).ringHeader ring db pos (slice data 0 64)) := by
  change execRingReadCompletion id data s = _
  simp only [execRingReadCompletion, hr, hp, ok]

theorem completes_ringReadCompletion_of_body {ring db pos : Nat} {header : List Byte} (hp : r.op.purpose = .ringBody ring db pos header) :
    Completes (.ringReadCompletion id data) s ((s.m.dropRead id).ringBody ring db pos header (slice data 0 r.op.len)) := by
  change execRingReadCompletion id data s = _
  simp only [execRingReadCompletion, hr, hp, ok]

/-- A read that no scan asked for is not a ring's. -/
theorem completes_ringReadCompletion_of_other (hp : ringPurpose r.op.purpose = false) : Completes (.ringReadCompletion id data) s s.m := by
  change execRingReadCompletion id data s = _
  simp only [execRingReadCompletion, hr, ok]
  split
  · rename_i e
    simp [ringPurpose, e] at hp
  · rename_i e
    simp [ringPurpose, e] at hp
  · rfl

end RingRead

section RingResume
variable {s : State} {ring : Nat}

/-- A ring that has paused goes on below 4,096 entries in flight. -/
theorem completes_ringResume {w : WorkRing} {m : Mach} (hw : s.m.wr ring = some w)
    (hm : (if w.paused = true ∧ s.m.inflight ring < 4096 then (s.m.updWr ring (fun w => { w with paused := false })).readyScan ring
      else s.m) = m) : Completes (.ringResume ring) s m := by
  subst hm
  change execRingResume ring s = _
  simp only [execRingResume, hw, ok, Bool.and_eq_true, decide_eq_true_eq]

theorem completes_ringResume_of_free (h : s.m.wr ring = none) : Completes (.ringResume ring) s s.m := by
  change execRingResume ring s = _
  simp only [execRingResume, h, ok]

end RingResume

/-! ### Data reads and failed reads (R466, R467) -/

section DataRead
variable {s : State} {id : Nat} {data : List Byte}

theorem completes_dataReadCompletion {r : HostRead}
    (h : s.m.hif.reads.find? (fun r => r.id == id && r.sent && r.walk.isNone && !ringPurpose r.op.purpose) = some r) :
    Completes (.dataReadCompletion id data) s ((s.m.dropRead id).readData r.op (slice data 0 r.op.len)) := by
  change execDataReadCompletion id data s = _
  simp only [execDataReadCompletion, h, ok]

theorem completes_dataReadCompletion_of_none
    (h : s.m.hif.reads.find? (fun r => r.id == id && r.sent && r.walk.isNone && !ringPurpose r.op.purpose) = none) :
    Completes (.dataReadCompletion id data) s s.m := by
  change execDataReadCompletion id data s = _
  simp only [execDataReadCompletion, h, ok]

end DataRead

section HostReadFailure
variable {s : State} {id : Nat} {why : ReadFailure}

theorem completes_hostReadFailure_of_none (h : s.m.hif.reads.find? (fun r => r.id == id && r.sent) = none) :
    Completes (.hostReadFailure id why) s s.m := by
  change execHostReadFailure id why s = _
  simp only [execHostReadFailure, h, ok]

/-- A read that fails, a timeout at its own time, is recorded, and fails its operation or ends its walk at once. -/
theorem exec_hostReadFailure {r : HostRead} {q : Nat} {t u : Mach} (hr : s.m.hif.reads.find? (fun r => r.id == id && r.sent) = some r)
    (hq : q = quadOfSlot r.op.slot) (ht : t = (if why = .timeout then s.m.elapseTo (s.m.timesOut r) else s.m))
    (hu : u = (((t.dropRead id).raise 66 (.slot r.op.slot) (failureCode why) q).record 0x6010 q
      [r.op.slot, r.op.func, failureCode why])) :
    exec (.hostReadFailure id why) s = r.walk.elim (ok s (u.readFailed r.op)) (fun wid =>
      (u.xlt.walks.find? (fun w => w.id == wid)).elim (ok s u) (fun w =>
        .next (State.goExports { s with m := u.walkFault w (Walk.readFault w) }))) := by
  subst hq ht hu
  change execHostReadFailure id why s = _
  simp only [execHostReadFailure, hr]
  cases r.walk with
  | none => rfl
  | some wid => dsimp only [Option.elim_some]; cases List.find? (fun (w : Walk) => w.id == wid) _ <;> rfl

end HostReadFailure

/-! ### The statement -/

/-- Settles O18: a doorbell is `Mach.doorbell`, and every other clause is its command's law or that of the ring operation. -/
theorem doorbellsScansAndInterruptsDoAsFileSixSays : Obligations.DoorbellsScansAndInterruptsDoAsFileSixSays := by
  refine ⟨fun s slot fn page v h => ⟨(rings_wrDoorbell slot fn page).completes_of_absent h,
      (rings_crHead slot fn page v).completes_of_absent h, (rings_crArm slot fn page).completes_of_absent h,
      (rings_sleepNoticeDoorbell slot fn page).completes_of_absent h⟩,
    fun s slot fn page v h => ?doorbells,
    fun m n c h => ⟨fun ha hc => (Mach.flushCr_of_ring h).trans (if_pos ⟨ha, hc⟩),
      fun hn => (Mach.flushCr_of_ring h).trans (if_neg ?quiet), fun h0 hc => ?armIdle, fun h0 hc => ?armTimer,
      fun hc => (Mach.arm_of_ring h).trans (if_pos hc),
      fun u hu => ⟨fun hp => (Mach.crSend_of_ring h hu).trans (if_pos hp),
        fun hp => (Mach.crSend_of_ring h hu).trans (if_neg (Bool.eq_false_iff.1 hp))⟩⟩,
    fun s id data => ⟨fun r ring db pos hr hp => completes_ringReadCompletion_of_header hr hp,
      fun r ring db pos header hr hp => completes_ringReadCompletion_of_body hr hp,
      fun r hr hp => completes_ringReadCompletion_of_other hr hp, completes_ringReadCompletion_of_none⟩,
    fun s ring => ⟨fun w hw hp hn => completes_ringResume hw (if_pos ⟨hp, hn⟩), fun w hw h => completes_ringResume hw (if_neg ?stays),
      completes_ringResume_of_free⟩,
    fun s cr => ⟨fun t => completes_moderationTimerExpiry, completes_moderationTimerExpiry_of_none⟩,
    fun s slot fn vec u hv hs hu => ⟨fun hp => completes_msixUnmask hv hs hu (if_pos hp),
      fun hp => completes_msixUnmask hv hs hu (if_neg (Bool.eq_false_iff.1 hp))⟩,
    fun s slot fn vec => completes_msixUnmask_of_no_vector,
    fun s id data => ⟨fun r => completes_dataReadCompletion, completes_dataReadCompletion_of_none⟩,
    fun s id why => ⟨completes_hostReadFailure_of_none, ?failure⟩⟩
  case doorbells =>
    have wr := rings_wrDoorbell slot fn page
    have head := rings_crHead slot fn page v
    have arm := rings_crArm slot fn page
    have sleep := rings_sleepNoticeDoorbell slot fn page
    refine ⟨wr.completes_of_none h,
      fun hn => ⟨head.completes_of_none h hn, arm.completes_of_none h hn, sleep.completes_of_none h hn⟩,
      fun n u hn hu => wr.completes_of_some h hn hu rfl,
      fun n u hn hu => ⟨fun c x hc hx => head.completes_of_some h hn hu (by rw [hc, Option.bind_some, hx]; rfl),
        fun c hc hx => head.completes_of_some h hn hu (by rw [hc, Option.bind_some, hx]; rfl),
        arm.completes_of_some h hn hu rfl, sleep.completes_of_some h hn hu rfl⟩,
      fun n u hn hu hc => head.completes_of_some h hn hu (by rw [hc]; rfl)⟩
  case quiet =>
    rintro ⟨ha, hc⟩
    exact hn.elim (Bool.eq_false_iff.1 · ha) (Nat.ne_of_gt hc)
  case armIdle => rw [Mach.arm_of_ring h, if_neg (by omega), if_neg (by omega)]
  case armTimer => rw [Mach.arm_of_ring h, if_neg (by omega), if_pos h0]
  case stays =>
    rintro ⟨hp, hn⟩
    exact h.elim (Bool.eq_false_iff.1 · hp) (Nat.not_le_of_lt hn)
  case failure =>
    intro r q t u hr hq ht hu
    have fails := exec_hostReadFailure hr hq ht hu
    exact ⟨fun hw => fails.trans (by rw [hw]; rfl), fun wid hw =>
      ⟨fun w hf => fails.trans (by rw [hw, Option.elim_some, hf]; rfl),
        fun hf => fails.trans (by rw [hw, Option.elim_some, hf]; rfl)⟩⟩

end Sys2Proof.Machine
end

section
/-! The creation and teardown of rings by WR_CMD and CR_CMD (R153, R161, R171, R172), the end of a DRAINING ring (R172), and the host
counters (R177). -/

namespace Sys2Proof.Machine

/-! ### A command on a ring (R171) -/

section OnRing
variable {m : Mach} {r : Requester} {n : Nat}

theorem Mach.onWr_of_free (h : m.wr n = none) (act : Mach → WorkRing → Mach) : m.onWr r n act = m.put Reg.HIF.WR_ERR 8 n := by
  simp only [Mach.onWr, h]

/-- A work ring obeys the commands of its own slot only. -/
theorem Mach.onWr_of_ring {w : WorkRing} (h : m.wr n = some w) (act : Mach → WorkRing → Mach) :
    m.onWr r n act = if w.slot ≠ r.slotOf then m.put Reg.HIF.WR_ERR 7 n else act (m.put Reg.HIF.WR_ERR 0 n) w := by
  simp only [Mach.onWr, h, bne_iff_ne]

theorem Mach.onCr_of_free (h : m.cr n = none) (act : Mach → ComplRing → Mach) : m.onCr r n act = m.put Reg.HIF.CR_ERR 8 n := by
  simp only [Mach.onCr, h]

/-- So does a completion ring. -/
theorem Mach.onCr_of_ring {c : ComplRing} (h : m.cr n = some c) (act : Mach → ComplRing → Mach) :
    m.onCr r n act = if c.slot ≠ r.slotOf then m.put Reg.HIF.CR_ERR 7 n else act (m.put Reg.HIF.CR_ERR 0 n) c := by
  simp only [Mach.onCr, h, bne_iff_ne]

end OnRing

/-- Command `i` is the value `v` of WR_CMD, and does `act` on a work ring of the requester's slot. -/
def ActsOnWr (i : Instr) (r : Requester) (v : Nat) (act : Mach → Nat → WorkRing → Mach) : Prop :=
  ∀ s : State, exec i s = ok s (s.m.action r Reg.HIF.WR_CMD v (fun m n => m.onWr r n (fun m w => act m n w)))

section ActsOnWr
variable {i : Instr} {s : State} {r : Requester} {v n : Nat} {act : Mach → Nat → WorkRing → Mach} {u : Mach} (hi : ActsOnWr i r v act)
  (hp : s.m.passes r Reg.HIF.WR_CMD n = true) (hu : u = s.m.acted r Reg.HIF.WR_CMD v)
include hi hp hu

theorem ActsOnWr.completes {m : Mach} (hm : u.onWr r n (fun m w => act m n w) = m) : Completes i s m := by
  subst hu hm
  exact (hi s).trans (congrArg (ok s) (Mach.action_passes hp v _))

theorem ActsOnWr.completes_of_free (h : u.wr n = none) : Completes i s (u.put Reg.HIF.WR_ERR 8 n) :=
  hi.completes hp hu (Mach.onWr_of_free h _)

theorem ActsOnWr.completes_of_foreign {w : WorkRing} (h : u.wr n = some w) (hs : w.slot ≠ r.slotOf) :
    Completes i s (u.put Reg.HIF.WR_ERR 7 n) :=
  hi.completes hp hu ((Mach.onWr_of_ring h _).trans (if_pos hs))

theorem ActsOnWr.completes_of_own {w : WorkRing} (h : u.wr n = some w) (hs : w.slot = r.slotOf) :
    Completes i s (act (u.put Reg.HIF.WR_ERR 0 n) n w) :=
  hi.completes hp hu ((Mach.onWr_of_ring h _).trans (if_neg (· hs)))

end ActsOnWr

/-- Command `i` is the value `v` of CR_CMD, and does `act` on a completion ring of the requester's slot. -/
def ActsOnCr (i : Instr) (r : Requester) (v : Nat) (act : Mach → Nat → ComplRing → Mach) : Prop :=
  ∀ s : State, exec i s = ok s (s.m.action r Reg.HIF.CR_CMD v (fun m n => m.onCr r n (fun m c => act m n c)))

section ActsOnCr
variable {i : Instr} {s : State} {r : Requester} {v n : Nat} {act : Mach → Nat → ComplRing → Mach} {u : Mach}
  (hi : ActsOnCr i r v act) (hp : s.m.passes r Reg.HIF.CR_CMD n = true) (hu : u = s.m.acted r Reg.HIF.CR_CMD v)
include hi hp hu

theorem ActsOnCr.completes {m : Mach} (hm : u.onCr r n (fun m c => act m n c) = m) : Completes i s m := by
  subst hu hm
  exact (hi s).trans (congrArg (ok s) (Mach.action_passes hp v _))

theorem ActsOnCr.completes_of_free (h : u.cr n = none) : Completes i s (u.put Reg.HIF.CR_ERR 8 n) :=
  hi.completes hp hu (Mach.onCr_of_free h _)

theorem ActsOnCr.completes_of_foreign {c : ComplRing} (h : u.cr n = some c) (hs : c.slot ≠ r.slotOf) :
    Completes i s (u.put Reg.HIF.CR_ERR 7 n) :=
  hi.completes hp hu ((Mach.onCr_of_ring h _).trans (if_pos hs))

theorem ActsOnCr.completes_of_own {c : ComplRing} (h : u.cr n = some c) (hs : c.slot = r.slotOf) :
    Completes i s (act (u.put Reg.HIF.CR_ERR 0 n) n c) :=
  hi.completes hp hu ((Mach.onCr_of_ring h _).trans (if_neg (· hs)))

end ActsOnCr

/-! ### Creation (R153, R161, R171) -/

section Create
variable {s : State} {r : Requester} {n : Nat} {u v m : Mach}

/-- WR_CREATE stores what stops it, or creates the ring from the staging fields and scans it once. -/
theorem completes_wrCreate (hp : s.m.passes r Reg.HIF.WR_CMD n = true) (hu : u = s.m.acted r Reg.HIF.WR_CMD 1)
    (hv : v = u.put Reg.HIF.WR_ERR (u.wrCreateErr r.slotOf n) n)
    (hm : (if u.wrCreateErr r.slotOf n ≠ 0 then v
      else ({ v with hif := { v.hif with wrs := Tbl.set v.hif.wrs n (v.stagedWr r.slotOf n) } }.unbar r.slotOf
        (v.stagedWr r.slotOf n).func).readyScan n) = m) : Completes (.wrCreate r) s m := by
  subst hu hv hm
  refine (congrArg (ok s) (Mach.action_passes hp 1 _)).trans ?_
  simp only [bne_iff_ne, ok]

/-- The completion ring that the staging fields describe (R161). -/
def Mach.stagedCr (m : Mach) (slot n : Nat) : ComplRing :=
  { slot := slot, func := m.get Reg.HIF.CR_FUNC n, base := m.get64 Reg.HIF.CR_BASE_LO Reg.HIF.CR_BASE_HI n,
    sizeLog2 := m.get Reg.HIF.CR_SIZE_LOG2 n, twoWrite := m.isSet Reg.HIF.TWO_WRITE n, polled := m.isSet Reg.HIF.POLLED n,
    vector := m.get Reg.HIF.VECTOR n, page := m.get Reg.HIF.CR_DB_PAGE n, modTime := m.get Reg.HIF.MOD_TIME n,
    modCount := m.get Reg.HIF.MOD_COUNT n }

/-- CR_CREATE stores what stops it, or creates the ring from the staging fields. -/
theorem completes_crCreate (hp : s.m.passes r Reg.HIF.CR_CMD n = true) (hu : u = s.m.acted r Reg.HIF.CR_CMD 1)
    (hv : v = u.put Reg.HIF.CR_ERR (u.crCreateErr r.slotOf n) n)
    (hm : (if u.crCreateErr r.slotOf n ≠ 0 then v
      else { v with hif := { v.hif with crs := Tbl.set v.hif.crs n (v.stagedCr r.slotOf n) } }.unbar r.slotOf
        (v.get Reg.HIF.CR_FUNC n)) = m) : Completes (.crCreate r) s m := by
  subst hu hv hm
  refine (congrArg (ok s) (Mach.action_passes hp 1 _)).trans ?_
  simp only [bne_iff_ne, ok, Mach.stagedCr]

end Create

/-! ### Work rings (R172, Table 6-18) -/

section WorkRings
variable (r : Requester)

/-- Acquires of a destroyed ring that wait for the held list end, and those that have been sent are withdrawn (R172). -/
def Mach.endAcquires (m : Mach) (n : Nat) : Mach :=
  let z := (m.lka.waiting.filter (fun x => x.1 == n)).foldl (fun (a : Mach) x => a.finishWork x.1 x.2 8 0)
    { m with lka := { m.lka with waiting := m.lka.waiting.filter (fun x => x.1 != n) } }
  (z.lka.reqs.filter (fun (x : LkReq) => x.ring == n && x.kind == 0x20)).foldl (fun (a : Mach) x => a.withdrawReq x.q x.tag 8) z

theorem actsOnWr_wrDestroy : ActsOnWr (.wrDestroy r) r 2 (fun m n w =>
    (((m.stopScan n w).updWr n (fun w => { w with st := 2, drainStop := false })).pumpTxe w.slot w.txe).endAcquires n) :=
  fun _ => rfl

theorem actsOnWr_wrReset : ActsOnWr (.wrReset r) r 3 (fun m n w => ((m.stopScan n w).pumpTxe w.slot w.txe).updWr n (fun w =>
    { w with pos := 0, phase := true, st := if w.st = 3 then 1 else w.st, drainStop := false, db := w.db + 1, rdDb := w.db + 1 })) :=
  fun _ => rfl

end WorkRings

section Drain
variable {s : State} {ring : Nat}

/-- WR_DRAIN_DONE frees a DRAINING ring with nothing in flight and no completion that waits (R172). -/
theorem completes_wrDrainDone {w : WorkRing} {m : Mach} (hw : s.m.wr ring = some w)
    (hm : (if w.st = 2 ∧ s.m.inflight ring = 0 ∧ s.m.heldOf ring = false then
        { s.m with hif := { s.m.hif with
          wrs := Tbl.del s.m.hif.wrs ring, seqBase := max s.m.hif.seqBase (w.seq + 1), dbBase := max s.m.hif.dbBase w.db } }
      else s.m) = m) : Completes (.wrDrainDone ring) s m := by
  subst hm
  change execWrDrainDone ring s = _
  simp only [execWrDrainDone, Mach.drainDone, hw, ok, Bool.and_eq_true, decide_eq_true_eq, Bool.not_eq_true', and_assoc]

theorem completes_wrDrainDone_of_free (h : s.m.wr ring = none) : Completes (.wrDrainDone ring) s s.m := by
  change execWrDrainDone ring s = _
  simp only [execWrDrainDone, Mach.drainDone, h, ok]

end Drain

/-! ### Completion rings (R172, Table 6-18) -/

section ComplRings
variable (r : Requester)

theorem actsOnCr_crDestroy : ActsOnCr (.crDestroy r) r 2 (fun m n _ => { m with hif := { m.hif with crs := Tbl.del m.hif.crs n } }) :=
  fun _ => rfl

/-- The staged moderation, vector and POLLED of a completion ring act. -/
def Mach.restage (m : Mach) (n : Nat) : Mach :=
  m.updCr n (fun c => { c with polled := m.isSet Reg.HIF.POLLED n, vector := m.get Reg.HIF.VECTOR n,
                               modTime := m.get Reg.HIF.MOD_TIME n, modCount := m.get Reg.HIF.MOD_COUNT n })

theorem actsOnCr_crModify : ActsOnCr (.crModify r) r 3 (fun m n c =>
    if !m.isSet Reg.HIF.POLLED n && vectorsOf c.func ≤ m.get Reg.HIF.VECTOR n then m.put Reg.HIF.CR_ERR 3 n else m.restage n) :=
  fun _ => rfl

theorem actsOnCr_crReset : ActsOnCr (.crReset r) r 4 (fun m n _ => m.updCr n (fun c =>
    { c with head := 0, tail := 0, overflow := false, held := [], xq := [], xwait := false })) :=
  fun _ => rfl

/-- CR_MODIFY refuses a vector beyond the function's table, unless the ring is to be polled. -/
theorem completes_crModify {s : State} {n : Nat} {u x m : Mach} {c : ComplRing} (hp : s.m.passes r Reg.HIF.CR_CMD n = true)
    (hu : u = s.m.acted r Reg.HIF.CR_CMD 3) (hc : u.cr n = some c) (hs : c.slot = r.slotOf) (hx : x = u.put Reg.HIF.CR_ERR 0 n)
    (hm : (if x.isSet Reg.HIF.POLLED n = false ∧ vectorsOf c.func ≤ x.get Reg.HIF.VECTOR n then x.put Reg.HIF.CR_ERR 3 n
      else x.restage n) = m) : Completes (.crModify r) s m := by
  subst hx hm
  have done := (actsOnCr_crModify r).completes_of_own hp hu hc hs
  simpa only [Bool.and_eq_true, Bool.not_eq_true', decide_eq_true_eq] using done

end ComplRings

/-! ### The host counters (R177) -/

theorem completes_hifCntClr {s : State} {r : Requester} {i : Nat} (h : s.m.passes r Reg.HIF.CNT_CLR i = true) :
    Completes (.hifCntClr r) s ((s.m.reach r Reg.HIF.CNT_CLR).clear [Reg.HIF.DOORBELLS, Reg.HIF.ENTRIES, Reg.HIF.COMPLETIONS,
      Reg.HIF.IRQS, Reg.HIF.OVF_DROP, Reg.HIF.DB_BAD, Reg.HIF.PME_SENT] i) := by
  rw [← Mach.acted_plain rfl rfl 1]
  exact congrArg (ok s) (Mach.action_passes h 1 _)

/-! ### The statement -/

/-- Settles O19: a command on a ring is `Mach.onWr` or `Mach.onCr`, and on a ring of its own slot does what its law says. -/
theorem ringsAreCreatedModifiedAndTornDown : Obligations.RingsAreCreatedModifiedAndTornDown := by
  refine ⟨fun s r n u v hp hu hv => ⟨fun he => completes_wrCreate hp hu hv (if_pos he),
      fun he => completes_wrCreate hp hu hv (if_neg (· he))⟩,
    fun s r n u v hp hu hv => ⟨fun he => completes_crCreate hp hu hv (if_pos he),
      fun he => completes_crCreate hp hu hv (if_neg (· he))⟩,
    fun s r n hp u v hu hv => ?work, fun s r n hp u v w hu hv hw => ?compl,
    fun s ring => ⟨fun w hw hst hn hh => completes_wrDrainDone hw (if_pos ⟨hst, hn, hh⟩),
      fun w hw h => completes_wrDrainDone hw (if_neg ?busy), completes_wrDrainDone_of_free⟩,
    fun s r i => completes_hifCntClr⟩
  case work =>
    have destroy := actsOnWr_wrDestroy r
    have reset := actsOnWr_wrReset r
    refine ⟨destroy.completes_of_free hp hu, reset.completes_of_free hp hv, fun w => destroy.completes_of_foreign hp hu,
      fun w => reset.completes_of_foreign hp hv, ?_, fun w => reset.completes_of_own hp hv⟩
    rintro w x y z hw hs rfl rfl rfl
    exact destroy.completes_of_own hp hu hw hs
  case compl =>
    have destroy := actsOnCr_crDestroy r
    have modify := actsOnCr_crModify r
    have reset := actsOnCr_crReset r
    refine ⟨destroy.completes_of_free hp hu, modify.completes_of_free hp hv, reset.completes_of_free hp hw,
      fun c => destroy.completes_of_foreign hp hu, fun c => modify.completes_of_foreign hp hv,
      fun c => reset.completes_of_foreign hp hw, fun c => destroy.completes_of_own hp hu,
      fun c x hc hs hx => ⟨fun hn hl => completes_crModify r hp hv hc hs hx (if_pos ⟨hn, hl⟩),
        fun h => completes_crModify r hp hv hc hs hx (if_neg ?_)⟩, fun c => reset.completes_of_own hp hw⟩
    rintro ⟨hn, hl⟩
    exact h.elim (Bool.eq_false_iff.1 hn) (Nat.not_lt_of_le hl)
  case busy =>
    rintro ⟨hst, hn, hh⟩
    exact h.elim (· hst) (·.elim (· hn) (Bool.eq_false_iff.1 hh))

end Sys2Proof.Machine
end

section
/-! Function power states and resets (R170, R174, R175, Table 6-15), host ports and their clocks (R148, R149, R176, R455, R456, Table
6-17), and REFCLK (R454). -/

namespace Sys2Proof.Machine

/-! ### Functions that stop and run again (R149, R170, Table 6-15) -/

section Functions
variable {s : State} {slot : Slot} {fn : Fin 256}

theorem completes_functionD3hotEntry {m : Mach} (hm : (if s.m.slotPresent slot = true then
      (s.m.updFunc slot fn (fun f => { f with d3 := true })).pauseScans slot fn
    else s.m) = m) : Completes (.functionD3hotEntry slot fn) s m :=
  congrArg (ok s) hm

theorem completes_busMasterEnableClear {m : Mach} (hm : (if s.m.slotPresent slot = true then
      (s.m.updFunc slot fn (fun f => { f with bme := false })).pauseScans slot fn
    else s.m) = m) : Completes (.busMasterEnableClear slot fn) s m :=
  congrArg (ok s) hm

/-- Bus Master Enable acts as it goes from 0 to 1. -/
theorem completes_busMasterEnableSet {m : Mach} (hm : (if s.m.slotPresent slot = true ∧ (s.m.func slot fn).bme = false then
      (((s.m.vfSeen slot fn).updFunc slot fn (fun f => { f with bme := true })).unbar slot fn).releaseFn slot fn
    else s.m) = m) : Completes (.busMasterEnableSet slot fn) s m := by
  subst hm
  change execBusMasterEnableSet slot fn s = _
  simp only [execBusMasterEnableSet, ok, Bool.and_eq_true, Bool.not_eq_true']

theorem completes_functionD0Return {m : Mach} (hm : (if (s.m.func slot fn).d3 = true then
      (s.m.updFunc slot fn (fun f => { f with d3 := false, pmeSts := false })).releaseFn slot fn
    else s.m) = m) : Completes (.functionD0Return slot fn) s m :=
  congrArg (ok s) hm

end Functions

section Release
variable {m : Mach} {slot fn : Nat}

theorem Mach.releaseFn_of_asleep (h : m.awake slot fn = false) : m.releaseFn slot fn = m := by
  simp only [Mach.releaseFn, h, Bool.not_false, if_true]

/-- A function that runs again writes its held completions, has its interrupts evaluated, and its rings scanned as by a doorbell. -/
theorem Mach.releaseFn_of_awake {u v w : Mach} (h : m.awake slot fn = true) (hu : u = m.updFunc slot fn (fun f => { f with late := true }))
    (hv : v = (u.crsOf slot fn).foldl (fun (a : Mach) n => a.updCr n (fun c => { c with late := true })) u)
    (hw : w = ((u.crsOf slot fn).foldl (fun (a : Mach) n => a.drainCr n) v).evalFn slot fn) :
    m.releaseFn slot fn = (w.wrsOf slot fn).foldl (fun (a : Mach) n => (a.updWr n (fun x => { x with db := x.db + 1 })).readyScan n) w := by
  subst hu hv hw
  simp only [Mach.releaseFn, h, Bool.not_true, Bool.false_eq_true, if_false]

/-- Its interrupts wait while a held completion waits for its translation. -/
theorem Mach.evalFn_of_late {u v : Mach} (hl : (m.func slot fn).late = true) (ha : m.awake slot fn = true)
    (hu : u = m.updFunc slot fn (fun f => { f with held := [], late := false })) (hv : v = (m.crsOf slot fn).foldl Mach.evalCr u) :
    m.evalFn slot fn = if (m.crsOf slot fn).any (fun n => (m.cr n).any (fun c => c.late && c.xwait)) = true then m
      else (m.func slot fn).held.foldl (fun (a : Mach) x => a.interrupt slot fn x) v := by
  subst hu hv
  simp only [Mach.evalFn, hl, ha, Bool.not_true, Bool.false_or]

end Release

/-! ### Function resets (R175) -/

section FunctionResets
variable {s : State} {slot : Slot}

theorem completes_flr_of_absent {fn : Fin 256} (h : s.m.slotPresent slot = false) : Completes (.flr slot fn) s s.m := by
  refine congrArg (ok s) (if_pos ?_)
  rw [h]; rfl

section Flr
variable (h : s.m.slotPresent slot = true)
include h

theorem completes_flr_of_vf {fn : Fin 256} (hf : fn ≠ 0) :
    Completes (.flr slot fn) s ((s.m.resetFn slot fn).record 0x6030 (quadOfSlot slot) [slot.val, fn.val]) := by
  have vf : fn.val ≠ 0 := fun h0 => hf (Fin.ext h0)
  change execFlr slot fn s = _
  simp only [execFlr, h, vf, ok, Bool.not_true, Bool.false_eq_true, if_false]

/-- FLR of PF0 also resets every VF, and ends the slot's sessions. -/
theorem completes_flr_of_pf0 : Completes (.flr slot 0) s
    ((((s.m.resetFn slot 0).resetVfs slot).slotSessions slot).record 0x6030 (quadOfSlot slot) [slot.val, 0]) := by
  change execFlr slot 0 s = _
  simp only [execFlr, h, ok, Bool.not_true, Bool.false_eq_true, if_false, Fin.val_zero, if_true]

end Flr

theorem completes_vfEnableClear {m : Mach} (hm : (if s.m.slotPresent slot = true then
      (s.m.resetVfs slot).record 0x6030 (quadOfSlot slot) [slot.val, 256]
    else s.m) = m) : Completes (.vfEnableClear slot) s m := by
  subst hm
  change execVfEnableClear slot s = _
  simp only [execVfEnableClear, ok]
  cases s.m.slotPresent slot <;> rfl

end FunctionResets

/-! ### Host-port resets (R149, R175, R176) -/

section PortResets
variable {hp : Nat} {m u v w : Mach}

/-- Every reset of a port resets both slots and clears what it trained to; all but a link that goes down also end sessions and
containment. -/
theorem Mach.resetPort_eq (hu : u = (m.resetSlot (2 * hp)).resetSlot (2 * hp + 1))
    (hv : v = ((((u.put Reg.HIF.SPEED_H0 0 hp).put Reg.HIF.WIDTH_H0 0 hp).put Reg.HIF.SPEED_H1 0 hp).put Reg.HIF.WIDTH_H1 0 hp).record
      0x6001 (hp / 2) [hp])
    (hw : w = (((v.slotSessions (2 * hp)).releaseSlot (2 * hp)).slotSessions (2 * hp + 1)).releaseSlot (2 * hp + 1))
    (kind : PortResetKind) : m.resetPort hp kind = match kind with
      | .linkDown => v
      | .hot => w.applyBifurc hp
      | .perst => { w with hif := { w.hif with perst := Tbl.set w.hif.perst hp true } } := by
  subst hu hv hw
  simp only [Mach.resetPort, List.foldl_cons, List.foldl_nil]
  cases kind <;> simp only [reduceCtorEq, if_true, if_false]

end PortResets

/-! ### Host ports that come up (R148, Table 6-17) -/

theorem completes_hostPortLinkUp_of_perst {s : State} {hp : HostPort} (h : Tbl.get s.m.hif.perst hp false = true) (h0 h1 : HalfLink) :
    Completes (.hostPortLinkUp hp h0 h1) s s.m :=
  if_pos h

/-- The machine at which the halves of a host port have trained to `h0` and `h1`, of `full` lanes each. -/
def Mach.trainedTo (m : Mach) (hp : Nat) (h0 h1 : HalfLink) (full : Nat) : Mach :=
  ((((((m.put Reg.HIF.SPEED_H0 h0.speed hp).put Reg.HIF.WIDTH_H0 h0.width hp).put Reg.HIF.SPEED_H1 h1.speed hp).put
    Reg.HIF.WIDTH_H1 h1.width hp).record 0x6002 (hp / 2) [hp]).halfUp (2 * hp) h0 (genOf (Tbl.get m.hif.gens hp 0)) full).halfUp
    (2 * hp + 1) h1 (genOf (Tbl.get m.hif.gens hp 0)) full

/-- A port that is not bifurcated comes up as one half of 16 lanes. -/
theorem completes_hostPortLinkUp {s : State} {hp : HostPort} {h0 h1 : HalfLink} {m : Mach} (h : Tbl.get s.m.hif.perst hp false = false)
    (hm : (if s.m.isSet Reg.HIF.BIFURCATED hp = true then s.m.trainedTo hp h0 h1 8
      else s.m.trainedTo hp h0 { speed := 0, width := 0 } 16) = m) :
    Completes (.hostPortLinkUp hp h0 h1) s m := by
  subst hm
  change execHostPortLinkUp hp h0 h1 s = _
  unfold execHostPortLinkUp Mach.trainedTo
  cases hb : s.m.isSet Reg.HIF.BIFURCATED hp <;> simp only [h, Bool.false_eq_true, if_true, if_false, ok]

section HalfUp
variable (m : Mach) (slot gen full : Nat) {h : HalfLink}

theorem Mach.halfUp_of_down (h0 : h.speed = 0) : m.halfUp slot h gen full = m := by
  simp [Mach.halfUp, HalfLink.degraded, h0]

/-- A half that trained is degraded below GEN_MAX or its full width. -/
theorem Mach.halfUp_of_trained (h0 : h.speed ≠ 0) : m.halfUp slot h gen full = if h.speed < gen ∨ h.width < full then
      (m.raise 65 (.slot slot) (16 * h.speed + h.width) (quadOfSlot slot)).record 0x6003 (quadOfSlot slot) [slot, h.speed, h.width]
    else m.endCondition 65 (.slot slot) := by
  simp [Mach.halfUp, HalfLink.degraded, h0]

end HalfUp

/-! ### Clocks (R454, R455) -/

theorem completes_pcieRefclkStop {s : State} {hp : HostPort} {m : Mach} (hm : (if Tbl.get s.m.hif.common hp false = true ∧
      (s.m.get Reg.HIF.SPEED_H0 hp ≠ 0 ∨ s.m.get Reg.HIF.SPEED_H1 hp ≠ 0) then s.m.resetPort hp .linkDown
    else s.m) = m) : Completes (.pcieRefclkStop hp) s m := by
  subst hm
  change execPcieRefclkStop hp s = _
  simp only [execPcieRefclkStop, ok, Bool.and_eq_true, Bool.or_eq_true, bne_iff_ne]

section Refclk
variable {s : State}

theorem completes_refclkLoss {m : Mach} (hm : (if s.m.tim.osc = none then
      ({ s.m with free := s.m.free + 1, tim := { s.m.tim with
        osc := some (oscillatorRate s.m.free), everLocked := false, goodRun := 0 } }.put Reg.TIM.STATE 0).raise 13 .none 0 4
    else s.m) = m) : Completes .refclkLoss s m := by
  subst hm
  change execRefclkLoss s = _
  unfold execRefclkLoss
  cases s.m.tim.osc <;> rfl

theorem completes_refclkReturn {m : Mach} (hm : (if s.m.tim.osc = none then s.m
    else { s.m with tim := { s.m.tim with osc := none, hgt :=
      { q0 := s.m.tim.aon, q1 := s.m.tim.aon, q2 := s.m.tim.aon, q3 := s.m.tim.aon } } }.endCondition 13 .none) = m) :
    Completes .refclkReturn s m := by
  subst hm
  change execRefclkReturn s = _
  unfold execRefclkReturn
  cases s.m.tim.osc <;> rfl

end Refclk

/-! ### The statement -/

/-- Settles O20: each clause is its command's law, or the law of the operation on a machine that it runs. -/
theorem functionsPortsAndClocksDoAsTheSpecSays : Obligations.FunctionsPortsAndClocksDoAsTheSpecSays := by
  refine ⟨fun s slot fn h => ⟨completes_functionD3hotEntry (if_pos h), completes_busMasterEnableClear (if_pos h),
      fun hb => completes_busMasterEnableSet (if_pos ⟨h, hb⟩), fun hb => completes_busMasterEnableSet (if_neg ?enabled),
      fun hf => completes_flr_of_vf h hf, completes_flr_of_pf0 h, completes_vfEnableClear (if_pos h)⟩,
    fun s slot fn => ⟨fun h => completes_functionD0Return (if_pos h),
      fun h => completes_functionD0Return (if_neg (Bool.eq_false_iff.1 h))⟩,
    fun m u v w slot fn => Mach.releaseFn_of_awake,
    fun m u v slot fn hl ha hu hv => ⟨fun hx => (Mach.evalFn_of_late hl ha hu hv).trans (if_pos hx),
      fun hx => (Mach.evalFn_of_late hl ha hu hv).trans (if_neg (Bool.eq_false_iff.1 hx))⟩,
    fun m slot fn => Mach.releaseFn_of_asleep, fun s slot fn h => ?absent,
    fun s hp u v hu hv => ?reset, fun s hp ref => rfl,
    fun s hp h0 h1 h => completes_hostPortLinkUp_of_perst h h0 h1,
    fun s hp h0 h1 h hb => completes_hostPortLinkUp h (if_neg (Bool.eq_false_iff.1 hb)),
    fun s hp h0 h1 h hb => completes_hostPortLinkUp h (if_pos hb),
    fun m slot gen full h h0 => m.halfUp_of_down slot gen full h0,
    fun m slot gen full h h0 => ⟨fun hd => (m.halfUp_of_trained slot gen full h0).trans (if_pos hd),
      fun hg hf => (m.halfUp_of_trained slot gen full h0).trans (if_neg (by omega))⟩,
    fun s hp => ⟨fun hc hs => completes_pcieRefclkStop (if_pos ⟨hc, hs⟩), fun h => completes_pcieRefclkStop (if_neg ?unclocked)⟩,
    fun s => ⟨fun h => completes_refclkLoss (if_pos h),
      fun h => ⟨completes_refclkLoss (if_neg h), completes_refclkReturn (if_neg h)⟩, fun h => completes_refclkReturn (if_pos h)⟩⟩
  case enabled => exact fun ⟨_, off⟩ => Bool.eq_false_iff.1 off hb
  case absent =>
    have gone := Bool.eq_false_iff.1 h
    exact ⟨completes_functionD3hotEntry (if_neg gone), completes_busMasterEnableSet (if_neg fun ⟨hs, _⟩ => gone hs),
      completes_busMasterEnableClear (if_neg gone), completes_flr_of_absent h, completes_vfEnableClear (if_neg gone)⟩
  case reset =>
    exact ⟨congrArg (ok s) (Mach.resetPort_eq hu hv rfl .linkDown), fun w hw =>
      ⟨congrArg (ok s) (Mach.resetPort_eq hu hv hw .hot), congrArg (ok s) (Mach.resetPort_eq hu hv hw .perst)⟩⟩
  case unclocked =>
    rintro ⟨hc, hs⟩
    simp [hc] at h
    omega

end Sys2Proof.Machine
end

section
/-! Packets of a connection as their commands bring them (R201, R321): delivered or kept back, dropped by what stands before acceptance
(R207, R216), or admitted. -/

namespace Sys2Proof.Machine

/-! ### Delivery (R321) -/

section Delivery
variable {m : Mach} {k : Packet}

/-- A packet whose engines take none is not delivered. -/
theorem Mach.delivered_of_held (h : m.kindHeld k.hdr.kind = true) : m.delivered k = none := by
  simp only [Mach.delivered, h, Bool.or_true, if_true]

/-- Neither is one that is for another module, or that comes while links do not run. -/
theorem Mach.delivered_of_foreign (h : m.netModes = false ∨ k.hdr.dst / 16 ≠ m.ownDa) : m.delivered k = none :=
  if_pos (by simpa [or_assoc] using Or.inl h)

/-- A packet for this module whose engines take none waits at local delivery, once. -/
theorem Mach.keepBack_of_held (hn : m.netModes = true) (hd : k.hdr.dst / 16 = m.ownDa) (hh : m.kindHeld k.hdr.kind = true) :
    m.keepBack k = if k ∈ m.rte.inbox then m else { m with rte := { m.rte with inbox := m.rte.inbox ++ [k] } } := by
  simp [Mach.keepBack, hn, hd, hh]

theorem Mach.keepBack_of_foreign (h : m.netModes = false ∨ k.hdr.dst / 16 ≠ m.ownDa) : m.keepBack k = m := by
  refine if_neg fun kept => ?_
  simp only [Bool.and_eq_true, beq_iff_eq] at kept
  obtain ⟨⟨⟨runs, own⟩, -⟩, -⟩ := kept
  exact h.elim (Bool.eq_false_iff.1 · runs) (· own)

end Delivery

/-! ### A command that brings a sequenced packet -/

/-- Command `i` brings packet `k` as one of kind `kind`, and does `act` with a sound one whose message goes on. -/
def Arrives (i : Instr) (k : Packet) (kind : Nat) (act : Mach → RsxHdr → RxMsg → Bool → Mach) : Prop :=
  ∀ s : State, exec i s = ok s (s.m.arrive k kind act)

/-- Nine commands bring sequenced packets (Table 5-3). -/
theorem sequenced_of_arrives {k : Packet} {s : State} {m : Mach}
    (h : ∀ i kind act, Arrives i k kind act → k.hdr.kind = kind → Completes i s m) : Sequenced k s m := by
  refine ⟨?_, ?_, ?_, ?_, ?_, ?_, ?_, ?_, ?_⟩ <;> exact h _ _ _ fun _ => rfl

section Arrives
variable {i : Instr} {s : State} {k : Packet} {kind : Nat} {act : Mach → RsxHdr → RxMsg → Bool → Mach} (hi : Arrives i k kind act)
include hi

theorem Arrives.completes_of_undelivered (hk : k.hdr.kind = kind) (hd : s.m.delivered k = none) :
    Completes i s (s.m.keepBack k) := by
  refine (hi s).trans (congrArg (ok s) ?_)
  simp only [Mach.arrive, hk, hd, bne_self_eq_false, Bool.false_and, Bool.false_eq_true, if_false]
  cases k.body <;> rfl

variable {h : RsxHdr} (hb : k.body = .rsx h)
include hb

/-- A packet that is not admitted leaves the machine that its checks left, and work that waited for a context may go on (R205). -/
theorem Arrives.completes_of_dropped {u w : Mach} (hk : k.hdr.kind = kind) (hd : s.m.delivered k = some u)
    (hw : u.takeIn k h = (w, false)) : Completes i s w.retryHeld := by
  refine (hi s).trans (congrArg (ok s) ?_)
  simp only [Mach.arrive, hk, hb, hd, Mach.receive, hw, bne_self_eq_false, Bool.false_and, Bool.false_eq_true, if_false]

section Admitted
variable {v : Mach} {x : RxMsg} {first : Bool} (ha : s.m.admitted k h = some (v, x, first))
include ha

/-- An admitted packet that is not as its table says, or does not agree with its message, is a protocol error (R212); the reserved kinds
0x0D to 0x0F come to the WRITE command as such. -/
theorem Arrives.completes_of_unsound {u m : Mach} (hk : k.hdr.kind = kind ∨ (kind = 1 ∧ 0x0D ≤ k.hdr.kind ∧ k.hdr.kind ≤ 0x0F))
    (hs : pktSound k h = false ∨ pktAgrees x k h = false)
    (hu : u = v.protocolError k h) (hm : x.mat.elim u (u.breakMat · 0x0B 3) = m) :
    Completes i s ((m.finPsn (pktCx k) (v.rxInst (pktCx k)) h.psn).settled k h) := by
  subst hm hu
  have comes : (k.hdr.kind != kind && !(kind = 1 && 0x0D ≤ k.hdr.kind && k.hdr.kind ≤ 0x0F)) = false := by
    rcases hk with hk | ⟨h1, hlo, hhi⟩
    · simp [hk]
    · simp [h1, hlo, hhi]
  have broken : (pktSound k h && pktAgrees x k h) = false := by rcases hs with hs | hs <;> simp [hs]
  refine (hi s).trans (congrArg (ok s) ((Mach.arrive_admitted comes hb ha act).trans ?_))
  simp only [broken, Bool.not_false, if_true]
  cases x.mat <;> simp only [Option.elim_none, Option.elim_some]

variable (hk : k.hdr.kind = kind)
include hk

/-- A sound packet of a message that has faulted only finishes. -/
theorem Arrives.completes_of_faulted (hs : pktSound k h = true) (hg : pktAgrees x k h = true) (hf : x.fault ≠ none)
    (hm : x.mat = none) : Completes i s ((v.finPsn (pktCx k) (v.rxInst (pktCx k)) h.psn).settled k h) := by
  refine (hi s).trans (congrArg (ok s) ((Mach.arrive_admitted (by simp [hk]) hb ha act).trans ?_))
  simp [hs, hg, hm, Option.isSome_iff_ne_none.2 hf]

end Admitted

/-- An accepted packet has its kind's effect, and what follows (R216). -/
theorem Arrives.completes_of_accepted {v m : Mach} {x : RxMsg} {first : Bool} (hk : k.hdr.kind = kind)
    (ha : s.m.accepted k h = some (v, x, first)) (hm : act v h x first = m) : Completes i s (m.settled k h) := by
  subst hm
  exact (hi s).trans (congrArg (ok s) (Mach.arrive_accepted hk hb ha act))

end Arrives

/-! ### A command that brings an unsequenced packet -/

/-- Command `i` brings packet `k` as one of the unsequenced kind `kind`, and does `act` where it names the current TX half. -/
def Answers (i : Instr) (k : Packet) (kind : Nat) (act : Mach → Nat → TxHalf → RsxHdr → Mach) : Prop :=
  ∀ s : State, exec i s = ok s (s.m.answer k kind act)

/-- Three commands bring unsequenced packets (Table 5-3). -/
theorem unsequenced_of_answers {k : Packet} {s : State} {m : Mach}
    (h : ∀ i kind act, Answers i k kind act → k.hdr.kind = kind → Completes i s m) : Unsequenced k s m := by
  refine ⟨?_, ?_, ?_⟩ <;> exact h _ _ _ fun _ => rfl

section Answers
variable {i : Instr} {s : State} {k : Packet} {kind : Nat} {act : Mach → Nat → TxHalf → RsxHdr → Mach} (hi : Answers i k kind act)
include hi

theorem Answers.completes_of_undelivered (hk : k.hdr.kind = kind) (hd : s.m.delivered k = none) :
    Completes i s (s.m.keepBack k) := by
  refine (hi s).trans (congrArg (ok s) ?_)
  simp only [Mach.answer, hk, hd, bne_self_eq_false, Bool.false_eq_true, if_false]
  cases k.body <;> rfl

/-- A packet that names the current TX half acts on it (R211). -/
theorem Answers.completes_of_answered {h : RsxHdr} {t : TxHalf} {v m : Mach} (ha : s.m.answered k kind h t v)
    (hm : act v (pktCx k) t h = m) : Completes i s m.retryHeld := by
  subst hm
  exact (hi s).trans (congrArg (ok s) (Mach.answer_answered ha act))

section Unanswered
variable {h : RsxHdr} {u : Mach} (hk : k.hdr.kind = kind) (hb : k.body = .rsx h) (hd : s.m.delivered k = some u)
include hk hb hd

theorem Answers.completes_of_closed (ht : u.txOf (pktCx k) = none) : Completes i s u := by
  refine (hi s).trans (congrArg (ok s) ?_)
  simp only [Mach.answer, hk, hb, hd, ht, bne_self_eq_false, Bool.false_eq_true, if_false]

/-- One that names another half, or of an expired context, only brings the context to its engine (R204, R211). -/
theorem Answers.completes_of_stranger {t : TxHalf} {v : Mach} (ht : u.txOf (pktCx k) = some t)
    (hv : v = u.useCtx (u.rxeFor (pktCx k)) (pktCx k))
    (hn : ¬ (t.epoch = h.epoch ∧ t.openTs = h.openTs ∧ v.ctxGone (pktCx k) = false)) : Completes i s v := by
  subst hv
  refine (hi s).trans (congrArg (ok s) ?_)
  simp only [Mach.answer, hk, hb, hd, ht, bne_self_eq_false, Bool.false_eq_true, if_false]
  exact if_neg (by simpa [and_assoc] using hn)

end Unanswered

end Answers

/-! ### Packets that no engine takes now -/

section NoEngine
variable {s : State} {k : Packet}

/-- A packet that is not delivered is at most kept back, of whichever kind it is. -/
theorem keptBack_of_undelivered {m : Mach} (hd : s.m.delivered k = none) (hm : s.m.keepBack k = m) :
    Sequenced k s m ∧ Unsequenced k s m := by
  subst hm
  exact ⟨sequenced_of_arrives fun _ _ _ hi hk => hi.completes_of_undelivered hk hd,
    unsequenced_of_answers fun _ _ _ hi hk => hi.completes_of_undelivered hk hd⟩

end NoEngine

end Sys2Proof.Machine
end

section
/-! What stands before the acceptance of a sequenced packet (file 08): the check of the RX half (R207), the bitmap, the target function
and the message slot (R216), and the check of a window (R214). -/

namespace Sys2Proof.Machine

section Packet
variable {m : Mach} {k : Packet} {h : RsxHdr}

/-! ### The check of the RX half (R207) -/

section InstanceCheck

/-- Without a live RX half a packet without OPEN is refused with an EPOCH_NAK. -/
theorem Mach.instanceCheck_of_closed (hl : m.liveRx (pktCx k) = none) (ho : h.opn = false) :
    m.instanceCheck k h = ((m.epochNak k h).touch (pktCx k), false) := by
  simp only [Mach.instanceCheck, hl, ho, Bool.not_false, if_true]

/-- One with OPEN creates it where a context entry can be had (R205). -/
theorem Mach.instanceCheck_of_opening {u : Mach} {got : Bool} (hl : m.liveRx (pktCx k) = none) (ho : h.opn = true)
    (hg : m.getCtx (pktSlot k) k.hdr.src = (u, got)) : m.instanceCheck k h =
      if got = true then (u.createRx k h, true) else (u.sendNak (pktSlot k) k.hdr.src h.epoch h.openTs h.psn 3, false) := by
  simp only [Mach.instanceCheck, hl, ho, hg, Bool.not_true, Bool.false_eq_true, if_false]
  cases got <;> rfl

variable {r : RxHalf} (hl : m.liveRx (pktCx k) = some r)
include hl

theorem Mach.instanceCheck_of_same (he : r.epoch = h.epoch) (ht : r.openTs = h.openTs) : m.instanceCheck k h = (m, true) := by
  simp only [Mach.instanceCheck, hl, he, ht, decide_true, Bool.and_self, if_true]

/-- A packet that names another half is stale, unless it is ahead of what this one has received; one that is ahead replaces it where it
has OPEN (Table 8-2). -/
theorem Mach.instanceCheck_of_other (hn : ¬ (r.epoch = h.epoch ∧ r.openTs = h.openTs)) : m.instanceCheck k h =
    if ahead32 k.hdr.injTs r.lastTs = false then (m.bump Reg.CXN.STALE_DROP 1 (pktSlot k), false)
    else if h.opn = false then ((m.epochNak k h).touch (pktCx k), false)
    else ((((m.abandonRx (pktCx k)).record 0x7001 (quadOfSlot (pktSlot k)) [pktSlot k, k.hdr.src]).bump Reg.CXN.REPLACES 1
      (pktSlot k)).createRx k h, true) := by
  simp only [Mach.instanceCheck, hl, Bool.and_eq_true, decide_eq_true_eq, hn, if_false, Bool.not_eq_true']

end InstanceCheck

/-! ### The bitmap (R216) -/

/-- The machine whose RXE shows how a packet's PSN stands to EPSN: SEQ_AHEAD, SEQ_DUP (R21). -/
def Mach.seqFlagged (m : Mach) (k : Packet) (h : RsxHdr) (r : RxHalf) : Mach :=
  m.flag (m.rxeFor (pktCx k)) (if behind32 h.psn r.epsn then [18] else if h.psn = r.epsn then [] else [17]) [17, 18]

section BitmapCheck
variable {r : RxHalf}

theorem Mach.bitmapCheck_of_duplicate (hd : behind32 h.psn r.epsn = true ∨ (Tbl.find r.bits h.psn).isSome = true) :
    m.bitmapCheck k h r = ((m.seqFlagged k h r).bump Reg.CXN.DUP_DROP 1 (pktSlot k), false) :=
  if_pos (Bool.or_eq_true_iff.2 hd)

/-- A PSN that is neither behind nor received goes on within the bitmap's 2,048 bits. -/
theorem Mach.bitmapCheck_of_new (hb : behind32 h.psn r.epsn = false) (hn : Tbl.find r.bits h.psn = none) :
    m.bitmapCheck k h r = (m.seqFlagged k h r, decide (sub32 h.psn r.epsn < 2048)) :=
  if_neg (by simp [hb, hn])

end BitmapCheck

/-! ### The target function (R216 step 1) -/

section TargetCheck

theorem Mach.targetCheck_of_none (ht : m.target k h = none) : m.targetCheck k h = (m, true) := by
  simp only [Mach.targetCheck, ht]

/-- A function that has been reset discards the packet; one that does not run refuses it, after PME in D3hot (Table 6-15). -/
theorem Mach.targetCheck_of_target {t f : Nat} (ht : m.target k h = some (t, f)) : m.targetCheck k h =
    if (m.func t f).barred = true then (m, false)
    else if m.awake t f = true then (m, true)
    else ((if (m.func t f).d3 then m.pme t f else m).sendNak (pktSlot k) k.hdr.src h.epoch h.openTs h.psn 2, false) := by
  simp only [Mach.targetCheck, ht]

end TargetCheck

/-! ### The window of a message (R214) -/

/-- What a window asks of a message of packet `k` at `off` that it allows (R214). -/
def Window.admits (w : Window) (k : Packet) (h : RsxHdr) (off : Nat) : Prop :=
  w.valid = true ∧ w.slot = k.hdr.dst % 16 ∧ (w.peer = none ∨ w.peer = some k.hdr.src) ∧ (k.hdr.kind = 3 → w.rd = true) ∧
  (k.hdr.kind ≠ 3 → w.wr = true) ∧ off + h.totalLen ≤ w.len ∧ (k.hdr.kind = 2 → h.totalLen = 8 ∧ (w.base + off) % 8 = 0)

theorem Mach.windowGood_iff {win off : Nat} :
    m.windowGood k h win off = true ↔ ∃ w, Tbl.find m.cxn.windows win = some w ∧ w.admits k h off := by
  unfold Mach.windowGood Window.admits
  cases Tbl.find m.cxn.windows win with
  | none => simp
  | some w =>
    have right : (if k.hdr.kind = 3 then w.rd else w.wr) = true ↔ (k.hdr.kind = 3 → w.rd = true) ∧ (k.hdr.kind ≠ 3 → w.wr = true) := by
      by_cases read : k.hdr.kind = 3 <;> simp [read]
    have aligned : (k.hdr.kind != 2 || (h.totalLen == 8 && (w.base + off) % 8 == 0)) = true ↔
        (k.hdr.kind = 2 → h.totalLen = 8 ∧ (w.base + off) % 8 = 0) := by
      by_cases flag : k.hdr.kind = 2 <;> simp [flag]
    cases peer : w.peer <;> simp [right, aligned, peer, pktSlot, and_assoc]

section Validate
variable {win off : Nat} (ho : h.op = .window win off)
include ho

/-- A first packet that its window refuses faults the message with WINDOW_INVALID. -/
theorem Mach.validate_of_refused (hg : m.windowGood k h win off = false) :
    m.validate k h true = (m.faultRx (pktCx k) h.msn 0x0D 0 true, none) := by
  simp only [Mach.validate, ho, hg, Bool.not_false, Bool.and_self, if_true]

/-- One that it allows gives the message its window. -/
theorem Mach.validate_of_admitted {w : Window} {u : Mach} (hu : u = m.updRxMsg (pktCx k) h.msn (fun x => { x with win := some win }))
    (hg : m.windowGood k h win off = true) (hw : Tbl.find u.cxn.windows win = some w) :
    m.validate k h true = (u, some (w, off)) := by
  subst hu
  simp only [Mach.validate, ho, hg, hw, Bool.not_true, Bool.and_false, Bool.false_eq_true, if_false, if_true, Option.map_some]

end Validate

/-! ### The message slot (R216 step 2, R217) -/

section SlotCheck
variable {r : RxHalf}

theorem Mach.slotCheck_of_known (hy : r.msgs.any (fun (y : RxMsg) => y.msn == h.msn) = true) : m.slotCheck k h r = (m, true) := by
  simp only [Mach.slotCheck, hy, if_true]

variable (hy : r.msgs.any (fun (y : RxMsg) => y.msn == h.msn) = false)
include hy

theorem Mach.slotCheck_of_full {s q : Nat} (hs : s = pktSlot k) (hq : q = quadOfSlot s) (hf : rxSlots ≤ r.msgs.length) :
    m.slotCheck k h r =
      (((m.raise 81 .none 2 q).record 0x7003 q [s, k.hdr.src]).sendNak s k.hdr.src h.epoch h.openTs h.psn 3, false) := by
  subst hq hs
  simp only [Mach.slotCheck, hy, hf, Bool.false_eq_true, if_false, if_true]

variable (hr : r.msgs.length < rxSlots)
include hr

/-- A WRITE_FLAG behind an unfinished MSN needs a place to be held (R217). -/
theorem Mach.slotCheck_of_flag {s q : Nat} (hs : s = pktSlot k) (hq : q = quadOfSlot s) (hk : k.hdr.kind = 2) : m.slotCheck k h r =
    if r.finMsn ≠ h.msn ∧ flagSlots ≤ m.flagsHeld q then ((m.raise 81 .none 3 q).record 0x7003 q [s, k.hdr.src], false)
    else (m, true) := by
  subst hq hs
  simp [Mach.slotCheck, hy, Nat.not_le_of_lt hr, hk]

/-- A sound EAGER or RTS goes on to the check of its domain and its store (R239, R251). -/
theorem Mach.slotCheck_of_match {u : Mach} (hk : k.hdr.kind = 9 ∨ k.hdr.kind = 10) (hu : u = m.passOrder (pktCx k)) :
    m.slotCheck k h r = if pktSound k h = true then (u.rxOf (pktCx k)).elim (u, false) (u.matCheck k h) else (m, true) := by
  subst hu
  have notFlag : k.hdr.kind ≠ 2 := by omega
  simp only [Mach.slotCheck, hy, Nat.not_le_of_lt hr, notFlag, hk, Bool.false_eq_true, if_false, decide_false, Bool.false_and,
    Bool.and_eq_true, Bool.or_eq_true, decide_eq_true_eq, true_and]
  cases (m.passOrder (pktCx k)).rxOf (pktCx k) <;> rfl

theorem Mach.slotCheck_of_plain (h2 : k.hdr.kind ≠ 2) (h9 : k.hdr.kind ≠ 9) (h10 : k.hdr.kind ≠ 10) : m.slotCheck k h r = (m, true) := by
  simp [Mach.slotCheck, hy, Nat.not_le_of_lt hr, h2, h9, h10]

end SlotCheck

/-! ### The checks in their order (R216) -/

section TakeRx
variable {r : RxHalf} {u v : Mach}

theorem Mach.takeRx_of_bitmap (hb : m.bitmapCheck k h r = (u, false)) : m.takeRx k h r = (u, false) := by
  simp only [Mach.takeRx, hb, Bool.not_false, if_true]

/-- A packet within the bitmap whose function takes it needs a message slot. -/
theorem Mach.takeRx_of_target {good : Bool} (hb : m.bitmapCheck k h r = (u, true)) (ht : u.targetCheck k h = (v, good)) :
    m.takeRx k h r = if good = true then v.slotCheck k h r else (v, false) := by
  simp only [Mach.takeRx, hb, ht, Bool.not_true, Bool.false_eq_true, if_false]
  cases good <;> rfl

end TakeRx

section TakeIn

theorem Mach.takeIn_of_absent (hs : m.slotPresent (pktSlot k) = false) :
    m.takeIn k h = (m.sendNak (pktSlot k) k.hdr.src h.epoch h.openTs h.psn 4, false) := by
  simp only [Mach.takeIn, hs, Bool.not_false, if_true]

variable {u : Mach} (hs : m.slotPresent (pktSlot k) = true)
include hs

theorem Mach.takeIn_of_stopped (hi : (m.useCtx (m.rxeFor (pktCx k)) (pktCx k)).instanceCheck k h = (u, false)) :
    m.takeIn k h = (u, false) := by
  simp only [Mach.takeIn, hs, hi, Bool.not_true, Bool.false_eq_true, if_false]

/-- What its RX half drops is answered by an ACK at once for ACK_REQ (R221). -/
theorem Mach.takeIn_of_half {r : RxHalf} {v : Mach} {good : Bool}
    (hi : (m.useCtx (m.rxeFor (pktCx k)) (pktCx k)).instanceCheck k h = (u, true)) (hr : u.rxOf (pktCx k) = some r)
    (ht : u.takeRx k h r = (v, good)) : m.takeIn k h =
      if good = true then (v, true) else (if h.ackReq then v.sendAck (pktCx k) else v, false) := by
  simp only [Mach.takeIn, hs, hi, hr, ht, Bool.not_true, Bool.false_eq_true, if_false]
  cases good <;> rfl

end TakeIn

end Packet

/-! ### The statement -/

/-- Settles O22: each clause is the law of one of the checks, or of what a packet's command makes of their answer. -/
theorem packetsAreCheckedAgainstTheirInstance : Obligations.PacketsAreCheckedAgainstTheirInstance := by
  refine ⟨fun m k h => ⟨Mach.instanceCheck_of_closed, fun u => Mach.instanceCheck_of_opening, fun u => Mach.instanceCheck_of_opening,
      fun r hl => ⟨Mach.instanceCheck_of_same hl, ?stale, ?ahead⟩⟩, ?bitmap,
    fun m k h => ⟨Mach.targetCheck_of_none, ?barred, ?awake⟩,
    fun m k h win off => Mach.windowGood_iff,
    fun m k h win off ho => ⟨Mach.validate_of_refused ho, fun w u => Mach.validate_of_admitted ho⟩,
    fun m k h => ⟨Mach.takeIn_of_absent, fun u => Mach.takeIn_of_stopped, fun u r v hs hi hr =>
      ⟨Mach.takeIn_of_half hs hi hr, Mach.takeIn_of_half hs hi hr⟩⟩,
    fun m k h r u v => ⟨Mach.takeRx_of_bitmap, Mach.takeRx_of_target, Mach.takeRx_of_target⟩,
    fun m k h r s q hs hq => ⟨Mach.slotCheck_of_known, fun hy => Mach.slotCheck_of_full hy hs hq, ?flag, ?twoSided,
      Mach.slotCheck_of_plain⟩,
    fun s k h u w hb hd hw => sequenced_of_arrives fun _ _ _ hi hk => hi.completes_of_dropped hb hk hd hw,
    ?admitted, ?held, fun s k foreign => keptBack_of_undelivered (Mach.delivered_of_foreign foreign) (Mach.keepBack_of_foreign foreign)⟩
  case stale => exact fun hn stale => (Mach.instanceCheck_of_other hl hn).trans (if_pos stale)
  case ahead =>
    intro hn ahead
    have other := (Mach.instanceCheck_of_other hl hn).trans (if_neg (by simp [ahead]))
    exact ⟨fun ho => other.trans (if_pos ho), fun ho => other.trans (if_neg (by simp [ho]))⟩
  case bitmap =>
    rintro m k h r _ rfl
    refine ⟨Mach.bitmapCheck_of_duplicate, fun hb hn => ?_⟩
    rw [Mach.bitmapCheck_of_new hb hn]
    exact ⟨fun far => congrArg _ (decide_eq_false (Nat.not_lt_of_le far)), fun near => congrArg _ (decide_eq_true near)⟩
  case barred => exact fun t f ht hb => (Mach.targetCheck_of_target ht).trans (if_pos hb)
  case awake =>
    intro t f ht hb
    have runs := (Mach.targetCheck_of_target ht).trans (if_neg (Bool.eq_false_iff.1 hb))
    exact ⟨fun ha => runs.trans (if_pos ha), fun ha => runs.trans (if_neg (Bool.eq_false_iff.1 ha))⟩
  case flag =>
    intro hy hr hk
    have checked := Mach.slotCheck_of_flag (m := m) hy hr hs hq hk
    exact ⟨fun hn hf => checked.trans (if_pos ⟨hn, hf⟩), fun h => checked.trans (if_neg (by omega))⟩
  case twoSided =>
    intro u hy hr hk hu
    have checked := Mach.slotCheck_of_match hy hr hk hu
    refine ⟨fun bad => checked.trans (if_neg (Bool.eq_false_iff.1 bad)), fun good hx => ?_, fun x good hx => ?_⟩
    · rw [checked, if_pos good, hx]; rfl
    · rw [checked, if_pos good, hx]; rfl
  case admitted =>
    rintro s k h v x first _ _ hb ha rfl rfl
    refine ⟨?_, fun good agrees faulted plain =>
      sequenced_of_arrives fun _ _ _ hi hk => hi.completes_of_faulted hb ha hk good agrees faulted plain⟩
    intro bad u hu
    have broken {i kind act m} (hi : Arrives i k kind act)
        (hk : k.hdr.kind = kind ∨ (kind = 1 ∧ 0x0D ≤ k.hdr.kind ∧ k.hdr.kind ≤ 0x0F)) (hm : x.mat.elim u (u.breakMat · 0x0B 3) = m) :=
      hi.completes_of_unsound hb ha hk bad hu hm
    exact ⟨fun mid hm => ⟨sequenced_of_arrives fun _ _ _ hi hk => broken hi (.inl hk) (by rw [hm]; rfl),
        fun lo hi => broken (fun _ => rfl) (.inr ⟨rfl, lo, hi⟩) (by rw [hm]; rfl)⟩,
      fun hm => ⟨sequenced_of_arrives fun _ _ _ hi hk => broken hi (.inl hk) (by rw [hm]; rfl),
        fun lo hi => broken (fun _ => rfl) (.inr ⟨rfl, lo, hi⟩) (by rw [hm]; rfl)⟩⟩
  case held =>
    intro s k h _ hn hd hh
    have kept := Mach.keepBack_of_held hn hd hh
    have undelivered := Mach.delivered_of_held hh
    exact ⟨fun absent u hu => keptBack_of_undelivered undelivered (hu ▸ kept.trans (if_neg absent)),
      fun present => keptBack_of_undelivered undelivered (kept.trans (if_pos present))⟩

end Sys2Proof.Machine
end

section
/-! One-sided packets that are accepted (file 08): requests on a window (R214, R216, R217), reads and their answers (R218), RESULTs (R222),
and the placement of what they bring (R216, R220). -/

namespace Sys2Proof.Machine

/-! ### Requests on a window (R214, R216) -/

/-- Command `i` brings a request of kind `kind` on a window, and does `act` on RX half `inst` with one that its window `w` allows and
that carries no POISON. -/
def Requests (i : Instr) (k : Packet) (kind : Nat) (act : Mach → RsxHdr → (inst : Nat) → (w : Window) → (off : Nat) → Mach) : Prop :=
  Arrives i k kind (fun m h _ first =>
    match m.validate k h first with
    | (u, none) => u.finPsn (pktCx k) (m.rxInst (pktCx k)) h.psn
    | (u, some (w, off)) =>
      if h.poison then u.poisonRx (pktCx k) (m.rxInst (pktCx k)) h.msn h.psn kind else act u h (m.rxInst (pktCx k)) w off)

section Requests
variable {i : Instr} {s : State} {k : Packet} {kind : Nat} {act : Mach → RsxHdr → Nat → Window → Nat → Mach} {h : RsxHdr} {u v : Mach}
  {x : RxMsg} {first : Bool} (hi : Requests i k kind act) (hb : k.body = .rsx h) (hk : k.hdr.kind = kind)
  (ha : s.m.accepted k h = some (v, x, first))
include hi hb hk ha

/-- A message that its window refuses places nothing. -/
theorem Requests.completes_of_refused (hv : v.validate k h first = (u, none)) :
    Completes i s ((u.finPsn (pktCx k) (v.rxInst (pktCx k)) h.psn).settled k h) :=
  Arrives.completes_of_accepted hi hb hk ha (by simp only [hv])

variable {w : Window} {off : Nat} (hv : v.validate k h first = (u, some (w, off)))
include hv

/-- POISON faults the message and places nothing (R467). -/
theorem Requests.completes_of_poison (hp : h.poison = true) :
    Completes i s ((u.poisonRx (pktCx k) (v.rxInst (pktCx k)) h.msn h.psn kind).settled k h) :=
  Arrives.completes_of_accepted hi hb hk ha (by simp only [hv, hp, if_true])

theorem Requests.completes_of_admitted {m : Mach} (hp : h.poison = false) (hm : act u h (v.rxInst (pktCx k)) w off = m) :
    Completes i s (m.settled k h) :=
  Arrives.completes_of_accepted hi hb hk ha (by simp only [hv, hp, hm, Bool.false_eq_true, if_false])

end Requests

section Arms
variable (k : Packet)

theorem requests_writePacket : Requests (.writePacket k) k 1 (fun u h inst w off => u.place (pktCx k) inst h.psn
    { slot := pktSlot k, func := w.func, pd := w.pd, va := w.base + off + h.offset, len := k.payload.length, kind := 5,
      data := some k.payload, purpose := .place (pktCx k) inst h.psn }) :=
  fun _ => rfl

/-- A flag is written where every lower MSN has finished, and else held (R217). -/
theorem requests_writeFlagPacket : Requests (.writeFlagPacket k) k 2 (fun u h _ _ _ =>
    match u.rxOf (pktCx k) with
    | none => u
    | some r =>
      if r.finMsn = h.msn then
        match r.msgs.find? (fun (y : RxMsg) => y.msn == h.msn) with
        | some y => u.writeFlag (pktCx k) r y k.payload
        | none => u
      else u.updRxMsg (pktCx k) h.msn (fun x => { x with flag := some k.payload })) := by
  intro s
  refine congrArg (fun act => ok s (s.m.arrive k 2 act)) (funext fun m => funext fun h => funext fun _ => funext fun first => ?_)
  dsimp only
  rcases m.validate k h first with ⟨u, _ | ⟨w, off⟩⟩ <;> rfl

/-- A read is answered by one READ_RSP message from its window, where a TX half can be had for it (R218). -/
theorem requests_readReqPacket : Requests (.readReqPacket k) k 3 (fun u h inst w off =>
    match u.needTx (pktSlot k) k.hdr.src with
    | (z, false) => z.finPsn (pktCx k) inst h.psn
    | (z, true) => (z.newId.2.addMsg (pktCx k)
        { uid := z.newId.1, kind := 4, total := h.totalLen, count := pktCount 4 h.totalLen, tc := 1,
          flow := z.newId.2.respFlow (pktSlot k) k.hdr.src, minOnly := false, op := .readRsp h.msn, queue := none,
          owner := .none, src := .host w.pd w.func (w.base + off) 6 false }).finPsn (pktCx k) inst h.psn) :=
  fun _ => rfl

end Arms

/-! ### Answers to this end's own messages (R218, R222) -/

/-- What a RESULT ends at once with its owner: a GET, or a receive that pulls (R222). -/
def Mach.endWith (m : Mach) (o : Owner) (status detail : Nat) : Mach :=
  match o with
  | .get uid => m.endGet uid status detail
  | .recv mid => (m.closeRecv mid status detail 0).dropMat mid
  | _ => m

section Answered
variable {s : State} {k : Packet} {h : RsxHdr} {u v m : Mach} {x : RxMsg} {first : Bool} (hb : k.body = .rsx h)
  (ha : s.m.accepted k h = some (v, x, first))
include hb ha

/-- A READ_RSP is placed where the GET that awaits it says, or discarded (R218). -/
theorem completes_readRspPacket {req : Nat} (hk : k.hdr.kind = 4) (ho : h.op = .readRsp req)
    (hm : (if h.poison = true then v.poisonRx (pktCx k) (v.rxInst (pktCx k)) h.msn h.psn 4
      else (v.getOf (pktCx k) req).elim (v.finPsn (pktCx k) (v.rxInst (pktCx k)) h.psn) (fun g =>
        v.place (pktCx k) (v.rxInst (pktCx k)) h.psn
          { slot := pktSlot k, func := g.func, pd := g.pd, va := g.addr + h.offset, len := k.payload.length, kind := 3,
            data := some k.payload, purpose := .place (pktCx k) (v.rxInst (pktCx k)) h.psn })) = m) :
    Completes (.readRspPacket k) s (m.settled k h) := by
  subst hm
  refine Arrives.completes_of_accepted (fun _ => rfl) hb hk ha ?_
  simp only [ho]
  cases v.getOf (pktCx k) req <;> rfl

/-- A RESULT is counted, and kept for the message that it answers (R222). -/
theorem completes_resultPacket {n st dt c : Nat} (hk : k.hdr.kind = 8) (ho : h.op = .result n st dt c)
    (hu : u = v.updTx (pktCx k) (fun t => { t with faults := (t.faults + 1) % 65536 }))
    (hm : ((v.txOf (pktCx k)).bind (fun t => t.byMsn n)).elim u (fun y =>
      (u.updMsg (pktCx k) y.uid (fun x => { x with result := some (st, dt) })).endWith y.owner st dt) = m) :
    Completes (.resultPacket k) s (((m.settleAcks (pktCx k)).finPsn (pktCx k) (v.rxInst (pktCx k)) h.psn).settled k h) := by
  subst hm hu
  refine Arrives.completes_of_accepted (fun _ => rfl) hb hk ha ?_
  simp only [ho]
  cases (v.txOf (pktCx k)).bind (fun t => t.byMsn n) <;> rfl

end Answered

/-! ### Placement (R216, R218, R220, R222) -/

section Place
variable {m u : Mach} {cx i psn : Nat} {op : HostOp}

theorem Mach.place_of_empty (hl : op.len = 0) : m.place cx i psn op = m.finPsn cx i psn :=
  if_pos hl

section NotEmpty
variable (hl : op.len ≠ 0)
include hl

theorem Mach.place_of_issued (ha : m.hostAccess op = (u, .issued)) : m.place cx i psn op = u.finPsn cx i psn := by
  simp only [Mach.place, hl, ha, if_false]

theorem Mach.place_of_waiting (ha : m.hostAccess op = (u, .waiting)) : m.place cx i psn op = u := by
  simp only [Mach.place, hl, ha, if_false]

theorem Mach.place_of_fault {f : XFault} (ha : m.hostAccess op = (u, .fault f)) :
    m.place cx i psn op = u.placeFault cx i psn f := by
  simp only [Mach.place, hl, ha, if_false]

end NotEmpty

variable {f : XFault}

theorem Mach.placeFault_of_absent (hr : m.rxOf cx = none) : m.placeFault cx i psn f = m := by
  simp only [Mach.placeFault, hr]

variable {r : RxHalf} (hr : m.rxOf cx = some r)
include hr

theorem Mach.placeFault_of_replaced (hi : r.inst ≠ i) : m.placeFault cx i psn f = m := by
  simp only [Mach.placeFault, hr, bne_iff_ne, ne_eq, hi, not_false_eq_true, if_true]

variable (hi : r.inst = i)
include hi

theorem Mach.placeFault_of_gone (hx : r.byPsn psn = none) : m.placeFault cx i psn f = m.finPsn cx i psn := by
  simp only [Mach.placeFault, hr, hi, hx, bne_self_eq_false, Bool.false_eq_true, if_false]

variable {x : RxMsg} (hx : r.byPsn psn = some x)
include hx

/-- A READ_RSP's fault ends the GET that awaits it with LOCAL_XLT_FAULT (R218). -/
theorem Mach.placeFault_of_readRsp {req : Nat} (ho : x.op = .readRsp req) : m.placeFault cx i psn f =
    ((m.getOf cx req).elim m (fun g => m.endGet g.uid 0x02 f.detail)).finPsn cx i psn := by
  simp only [Mach.placeFault, hr, hi, hx, ho, bne_self_eq_false, Bool.false_eq_true, if_false]
  cases m.getOf cx req <;> rfl

/-- A window's ends the message with REMOTE_ACCESS_FAULT (R222). -/
theorem Mach.placeFault_of_window {win off : Nat} (ho : x.op = .window win off) :
    m.placeFault cx i psn f = (m.faultRx cx x.msn 0x01 f.detail true).finPsn cx i psn := by
  simp only [Mach.placeFault, hr, hi, hx, ho, bne_self_eq_false, Bool.false_eq_true, if_false]

end Place

/-! ### Held flags (R217) -/

section FlagRelease
variable {s : State} {cx msn : Nat}

theorem completes_flagRelease_of_absent (hr : s.m.rxOf cx = none) : Completes (.flagRelease cx msn) s s.m := by
  change execFlagRelease cx msn s = _
  simp only [execFlagRelease, hr, ok]

/-- A held flag is written once every lower MSN has finished. -/
theorem completes_flagRelease {r : RxHalf} {m : Mach} (hr : s.m.rxOf cx = some r)
    (hm : (r.msgs.find? (fun (y : RxMsg) => y.msn == msn)).elim s.m (fun x => x.flag.elim s.m (fun b =>
      if r.finMsn = msn then (s.m.writeFlag cx r x b).retryHeld else s.m)) = m) : Completes (.flagRelease cx msn) s m := by
  subst hm
  change execFlagRelease cx msn s = _
  simp only [execFlagRelease, hr, ok]
  cases r.msgs.find? (fun (y : RxMsg) => y.msn == msn) with
  | none => rfl
  | some x => simp only [Option.elim_some]; cases x.flag <;> rfl

end FlagRelease

section WriteFlag
variable {m u : Mach} {cx : Nat} {r : RxHalf} {x : RxMsg} {data : List Byte}
  (hu : u = m.updRxMsg cx x.msn (fun x => { x with flag := none }))
include hu

/-- A flag whose data faulted ends with the same status. -/
theorem Mach.writeFlag_of_faulted {st dt : Nat} (hf : Tbl.find r.faulted (sub32 x.msn 1) = some (st, dt)) :
    m.writeFlag cx r x data = (u.faultRx cx x.msn st dt true).finPsn cx r.inst x.psn0 := by
  simp only [Mach.writeFlag, hf, hu]

theorem Mach.writeFlag_of_window {win off : Nat} {w : Window} (hf : Tbl.find r.faulted (sub32 x.msn 1) = none)
    (ho : x.op = .window win off) (hw : x.win.bind (Tbl.find u.cxn.windows) = some w) : m.writeFlag cx r x data =
      u.place cx r.inst x.psn0
        { slot := cxSlot cx, func := w.func, pd := w.pd, va := w.base + off, len := data.length, kind := 5,
          data := some data, purpose := .flagWrite cx r.inst x.psn0 } := by
  subst hu
  simp only [Mach.writeFlag, hf, ho, hw]

end WriteFlag

/-! ### The statement -/

/-- Settles O23: each clause is the law of its packet's command, of placement, or of a held flag. -/
theorem oneSidedPacketsArePlacedOnAcceptance : Obligations.OneSidedPacketsArePlacedOnAcceptance := by
  refine ⟨?accepted, fun m cx i psn op => ?place, fun s cx msn => ⟨completes_flagRelease_of_absent, ?release⟩,
    fun m u cx r x data hu => ⟨fun st dt => Mach.writeFlag_of_faulted hu, fun win off w => Mach.writeFlag_of_window hu⟩⟩
  case accepted =>
    rintro s k h v x first _ _ hb ha rfl rfl
    have write := requests_writePacket k
    have flag := requests_writeFlagPacket k
    have read := requests_readReqPacket k
    refine ⟨fun u hv => ⟨fun hk => write.completes_of_refused hb hk ha hv, fun hk => flag.completes_of_refused hb hk ha hv,
        fun hk => read.completes_of_refused hb hk ha hv⟩,
      fun u w off hv => ⟨fun hk => ⟨write.completes_of_poison hb hk ha hv, fun hp => write.completes_of_admitted hb hk ha hv hp rfl⟩,
        fun hk => ⟨flag.completes_of_poison hb hk ha hv, fun r y hp hr hf hy => flag.completes_of_admitted hb hk ha hv hp ?_,
          fun r hp hr hf => flag.completes_of_admitted hb hk ha hv hp ?_⟩,
        fun hk => ⟨read.completes_of_poison hb hk ha hv, fun z hp hz => read.completes_of_admitted hb hk ha hv hp ?_⟩⟩,
      fun req hk ho => ?readRsp, fun n st dt c u hk ho hu => ?result⟩
    · simp only [hr, hf, hy, if_true]
    · simp only [hr, hf, if_false]
    · have found := Mach.needTx_ctx (Mach.validate_ctx (Mach.accepted_ctx ha) hv)
      rw [found, ← hz]
    case readRsp =>
      have answers {m : Mach} := completes_readRspPacket (m := m) hb ha hk ho
      refine ⟨fun hp => answers (if_pos hp), fun hp hg => answers ?_, fun g hp hg => answers ?_⟩
      · rw [if_neg (Bool.eq_false_iff.1 hp), hg]; rfl
      · rw [if_neg (Bool.eq_false_iff.1 hp), hg]; rfl
    case result =>
      have counts {m : Mach} := completes_resultPacket (m := m) hb ha hk ho hu
      refine ⟨fun hy => counts (by rw [hy]; rfl), fun y w hy hw => ?_⟩
      have kept : ((v.txOf (pktCx k)).bind (fun t => t.byMsn n)).elim u (fun y =>
          (u.updMsg (pktCx k) y.uid (fun x => { x with result := some (st, dt) })).endWith y.owner st dt) =
          w.endWith y.owner st dt := by
        rw [hy, hw]; rfl
      exact ⟨fun g hg => counts (by rw [kept, hg]; rfl), fun mid hg => counts (by rw [kept, hg]; rfl),
        fun ring seq hg => counts (by rw [kept, hg]; rfl), fun hg => counts (by rw [kept, hg]; rfl)⟩
  case place =>
    refine ⟨Mach.place_of_empty, fun u => Mach.place_of_issued, fun u => Mach.place_of_waiting,
      fun u f hl ha hr => (Mach.place_of_fault hl ha).trans (Mach.placeFault_of_absent hr),
      fun u f r hl ha hr => ⟨fun hi => (Mach.place_of_fault hl ha).trans (Mach.placeFault_of_replaced hr hi),
        fun hi hx => (Mach.place_of_fault hl ha).trans (Mach.placeFault_of_gone hr hi hx)⟩,
      fun u f r x hl ha hr hi hx => ⟨fun req ho hg => ?_, fun req g ho hg => ?_, fun win off ho =>
        (Mach.place_of_fault hl ha).trans (Mach.placeFault_of_window hr hi hx ho)⟩⟩
    · rw [Mach.place_of_fault hl ha, Mach.placeFault_of_readRsp hr hi hx ho, hg]; rfl
    · rw [Mach.place_of_fault hl ha, Mach.placeFault_of_readRsp hr hi hx ho, hg]; rfl
  case release =>
    intro r hr
    have releases {m : Mach} := completes_flagRelease (msn := msn) (m := m) hr
    refine ⟨fun hx => releases (by rw [hx]; rfl), fun x hx => ⟨fun stays => releases ?_, fun b hf hn => releases ?_⟩⟩
    · rw [hx, Option.elim_some]
      rcases stays with hf | hn
      · rw [hf]; rfl
      · cases x.flag with
        | none => rfl
        | some b => exact if_neg hn
    · rw [hx, Option.elim_some, hf]; exact if_pos hn

end Sys2Proof.Machine
end

section
/-! The sender of file 08: acknowledgement and refusal (R209, R222, R224 to R226), rounds (R224, R225), its timers (R224, R225), and the
receiver's acknowledgement and loss timers (R221, R223). -/

namespace Sys2Proof.Machine

/-! ### Packets that answer the current TX half (R209, R222, R224) -/

section Answered
variable {s : State} {k : Packet} {h : RsxHdr} {t : TxHalf} {v : Mach}

section Ack
variable {a d c : Nat} {u : Mach} (ha : s.m.answered k 5 h t v) (ho : h.op = .ack a d c)
  (hu : u = v.updTx (pktCx k) (fun t => { t with opening := false }))
include ha ho hu

/-- An ACK of no outstanding PSN brings CC_EN and CWND_MAX as they act, and a later FAULT_CNT of the same PSNs (R222, log entry 40). -/
theorem completes_ackPacket_of_other (hn : behind32 a t.una = true ∨ behind32 a t.nextPsn = false) : Completes (.ackPacket k) s
    (((u.updTx (pktCx k) (fun t' => { u.reclamp t' with
      lastCnt := if sub32 ((a + 1) % 4294967296) t.una = 0 && later16 c t'.lastCnt then c else t'.lastCnt })).settleAcks
      (pktCx k)).pumpSend (pktCx k)).retryHeld := by
  subst hu
  refine Answers.completes_of_answered (fun _ => rfl) ha ?_
  simp only [ho]
  exact if_pos (by simpa using hn)

/-- One of an outstanding PSN moves UNA and the window, and ends the round (R224, R226). -/
theorem completes_ackPacket_of_outstanding (hl : behind32 a t.una = false) (hr : behind32 a t.nextPsn = true) : Completes (.ackPacket k) s
    (((u.updTx (pktCx k) (fun t' => u.window
      { t' with una := (a + 1) % 4294967296, rounds := 0, met := false, downOnly := true, lastCnt := c,
                timer := if (a + 1) % 4294967296 = t'.nextPsn then none else some (u.clk + u.rto),
                rnrHeld := t'.rnrHeld.filter (fun c => !behind32 c.1 ((a + 1) % 4294967296)) }
      (t.costSum t.una (sub32 ((a + 1) % 4294967296) t.una)) d)).settleAcks (pktCx k)).pumpSend (pktCx k)).retryHeld := by
  subst hu
  refine Answers.completes_of_answered (fun _ => rfl) ha ?_
  simp only [ho]
  exact if_neg (by simp [hl, hr])

end Ack

section Nak
variable {p : Nat} (ha : s.m.answered k 6 h t v)
include ha

/-- Reason 4 ends the half's work with BAD_ROUTE and closes it (R224). -/
theorem completes_nakPacket_of_unreachable (ho : h.op = .nak p 4) :
    Completes (.nakPacket k) s ((v.endAll (pktCx k) 0x03).closeTx (pktCx k)).retryHeld :=
  Answers.completes_of_answered (fun _ => rfl) ha (by simp only [ho])

/-- Reason 1 halves CWND and starts a counted round at an outstanding PSN (R224, R226). -/
theorem completes_nakPacket_of_loss {m : Mach} (ho : h.op = .nak p 1) (hm : (if t.outstanding p = false then v
    else (v.updTx (pktCx k) (fun t => if v.isSet Reg.CXN.CC_EN then { t with cwnd := max (t.cwnd / 2) 4160 } else t)).goBack
      (pktCx k) p true) = m) : Completes (.nakPacket k) s m.retryHeld := by
  subst hm
  refine Answers.completes_of_answered (fun _ => rfl) ha ?_
  simp only [ho, Bool.not_eq_true', cwndMin]

/-- Reasons 2 and 3 hold sending back for an outstanding PSN (R224, R225). -/
theorem completes_nakPacket_of_notReady {m : Mach} {reason : Nat} (ho : h.op = .nak p reason) (hr : reason = 2 ∨ reason = 3)
    (hm : (if t.outstanding p = false then v
      else v.updTx (pktCx k) (fun t => t.heldBy p v.clk (v.clk + v.rnrDelay))) = m) : Completes (.nakPacket k) s m.retryHeld := by
  subst hm
  refine Answers.completes_of_answered (fun _ => rfl) ha ?_
  rcases hr with rfl | rfl <;> simp [ho]

end Nak

/-- Past RETRY_MAX an EPOCH_NAK ends the half's work; before it, all that has not outlived LIFETIME starts again on a new one (R209,
R225). -/
theorem completes_epochNakPacket {m : Mach} (ha : s.m.answered k 7 h t v) (hm : (if v.retryMax < t.rounds + 1 then
      ((v.failTx (pktCx k) 0x09).raise 80 .none (cxPeer (pktCx k)) (cxQuad (pktCx k))).record 0x7020 (cxQuad (pktCx k))
        [cxSlot (pktCx k), cxPeer (pktCx k)]
    else (if v.outlived t = [] then v else v.endOutlived (pktCx k) (v.outlived t)).reopen (pktCx k) (t.rounds + 1)) = m) :
    Completes (.epochNakPacket k) s m.retryHeld := by
  subst hm
  refine Answers.completes_of_answered (fun _ => rfl) ha ?_
  cases v.outlived t <;> rfl

end Answered

/-! ### Rounds (R224, R225) -/

/-- A round past RETRY_MAX ends the half's work; one that finds messages past LIFETIME ends those and starts the rest again on a new
half; any other goes back. -/
theorem Mach.goBack_of_half {m : Mach} {cx p n : Nat} {counted down : Bool} {t : TxHalf} (ht : m.txOf cx = some t)
    (hn : n = if counted then t.rounds + 1 else t.rounds) (hd : down = if t.rounds = 0 then t.downOnly else t.downOnly && t.met) :
    m.goBack cx p counted = if m.retryMax < n then
        ((m.failTx cx (if down && t.met then 0x03 else 0x09)).raise 80 .none (cxPeer cx) (cxQuad cx)).record 0x7020 (cxQuad cx)
          [cxSlot cx, cxPeer cx]
      else if m.outlived t = [] then (m.updTx cx (fun t => { t with
        rounds := n, downOnly := down, met := false, rp := some (t.roundFrom p), timer := some (m.clk + m.rto) })).pumpSend cx
      else (m.endOutlived cx (m.outlived t)).reopen cx 0 := by
  subst hn hd
  simp only [Mach.goBack, ht]
  cases m.outlived t <;> rfl

/-! ### A sender's timers (R224, R225) -/

section TxTimers
variable {s : State} {cx : Nat}

/-- The timers of a connection without a TX half do not run. -/
theorem completes_txTimers_of_absent (h : s.m.txOf cx = none) :
    Completes (.rtoExpiry cx) s s.m ∧ Completes (.rnrDelayExpiry cx) s s.m ∧ Completes (.rnrTimeout cx) s s.m := by
  change execRtoExpiry cx s = _ ∧ execRnrDelayExpiry cx s = _ ∧ execRnrTimeout cx s = _
  simp only [execRtoExpiry, execRnrDelayExpiry, execRnrTimeout, h, ok, and_self]

variable {t : TxHalf} (ht : s.m.txOf cx = some t)
include ht

theorem completes_rtoExpiry_of_none (hd : t.timer = none) : Completes (.rtoExpiry cx) s s.m := by
  change execRtoExpiry cx s = _
  simp only [execRtoExpiry, ht, hd, ok]

/-- RTO_EXPIRY counts a timer round and goes back to UNA at its due time. -/
theorem completes_rtoExpiry {due : Nat} {u : Mach} (hd : t.timer = some due)
    (hu : u = ((s.m.elapseTo due).bump Reg.CXN.TIMER_ROUNDS 1 (cxSlot cx)).record 0x7011 (cxQuad cx) [cxSlot cx, cxPeer cx, t.una]) :
    Completes (.rtoExpiry cx) s
      ((u.updTx cx (fun t => if u.isSet Reg.CXN.CC_EN then { t with cwnd := 4160 } else t)).goBack cx t.una true).retryHeld := by
  subst hu
  change execRtoExpiry cx s = _
  simp only [execRtoExpiry, ht, hd, ok, cwndMin]

theorem completes_rnrDelayExpiry_of_none (hr : t.rnrUntil = []) : Completes (.rnrDelayExpiry cx) s s.m := by
  change execRnrDelayExpiry cx s = _
  simp only [execRnrDelayExpiry, ht, hr, ok]

/-- An RNR delay that ends goes back, uncounted, to the PSN that it held. -/
theorem completes_rnrDelayExpiry {due p : Nat} {rest : List (Nat × Nat)} {u m : Mach} (hr : t.rnrUntil = (due, p) :: rest)
    (hu : u = (s.m.elapseTo due).updTx cx (fun t => { t with rnrUntil := rest }))
    (hm : (if t.una = t.nextPsn then u.pumpSend cx else (u.goBack cx p false).retryHeld) = m) :
    Completes (.rnrDelayExpiry cx) s m := by
  subst hm hu
  change execRnrDelayExpiry cx s = _
  simp only [execRnrDelayExpiry, ht, hr, ok]

theorem completes_rnrTimeout_of_none (hh : t.heldLongest = none) : Completes (.rnrTimeout cx) s s.m := by
  change execRnrTimeout cx s = _
  simp only [execRnrTimeout, ht, hh, ok]

/-- RNR_TIMEOUT ends the work once a PSN has been held for that long. -/
theorem completes_rnrTimeout {since : Nat} (hh : t.heldLongest = some since) : Completes (.rnrTimeout cx) s
    (((s.m.elapseTo (since + clamp 1 60000 (s.m.get Reg.CXN.RNR_TIMEOUT) * 2000000)).failTx cx 0x07).record 0x7022 (cxQuad cx)
      [cxSlot cx, cxPeer cx]).retryHeld := by
  change execRnrTimeout cx s = _
  simp only [execRnrTimeout, ht, hh, ok, Mach.rnrTimeout, Config.msCycles]

end TxTimers

/-! ### A receiver's timers (R221, R223) -/

/-- When the first of an RX half's ACK timers is due. -/
def RxHalf.ackDue (r : RxHalf) : Option Nat :=
  match r.ackOld, r.ackDone with
  | some a, some b => some (min a b)
  | a, none => a
  | none, b => b

section RxTimers
variable {s : State} {cx : Nat}

/-- The timers of a connection without an RX half do not run. -/
theorem completes_rxTimers_of_absent (h : s.m.rxOf cx = none) :
    Completes (.rsxAckTimer cx) s s.m ∧ Completes (.lossCheck cx) s s.m := by
  change execRsxAckTimer cx s = _ ∧ execLossCheck cx s = _
  simp only [execRsxAckTimer, execLossCheck, h, ok, and_self]

variable {r : RxHalf} (hr : s.m.rxOf cx = some r)
include hr

/-- RSX_ACK_TIMER sends the ACK that is due first. -/
theorem completes_rsxAckTimer {m : Mach} (hm : r.ackDue.elim s.m (fun due => (s.m.elapseTo due).sendAck cx) = m) :
    Completes (.rsxAckTimer cx) s m := by
  subst hm
  change execRsxAckTimer cx s = _
  simp only [execRsxAckTimer, RxHalf.ackDue, hr, ok]
  cases r.ackOld <;> cases r.ackDone <;> rfl

theorem completes_lossCheck_of_none (ha : r.aboveHole = none) : Completes (.lossCheck cx) s s.m := by
  change execLossCheck cx s = _
  simp only [execLossCheck, hr, ha, ok]

/-- LOSS_CHECK checks once the packet above the hole has aged past LAT_MAX, and a NAK for EPSN too. -/
theorem completes_lossCheck {ts : Nat} {u m : Mach} (ha : r.aboveHole = some ts)
    (hu : u = s.m.elapseNs (s.m.latMax + 1 - sub32 (s.m.stamp (cxQuad cx)) ts))
    (hm : (if r.nakFor = some r.epsn then u.elapseTo (r.nakAt + 2 * u.latMax) else u).lossCheck cx = m) :
    Completes (.lossCheck cx) s m := by
  subst hm hu
  change execLossCheck cx s = _
  simp only [execLossCheck, hr, ha, ok, Config.nsCycles]

end RxTimers

/-- A hole is lost where the packet above it is older than LAT_MAX, and NAKed where no NAK for EPSN is that young (R223). -/
theorem Mach.lossCheck_of_hole {m : Mach} {cx ts : Nat} {r : RxHalf} (hr : m.rxOf cx = some r) (ha : r.aboveHole = some ts) :
    m.lossCheck cx = if m.latMax < sub32 (m.stamp (cxQuad cx)) ts ∧ (r.nakFor ≠ some r.epsn ∨ r.nakAt + 2 * m.latMax ≤ m.clk) then
      (m.updRx cx (fun r => { r with nakFor := some r.epsn, nakAt := m.clk })).sendNak (cxSlot cx) (cxPeer cx) r.epoch r.openTs
        r.epsn 1
    else m := by
  simp only [Mach.lossCheck, hr, ha, Bool.and_eq_true, Bool.or_eq_true, decide_eq_true_eq, bne_iff_ne]

/-! ### The statement -/

/-- Settles O24: each clause is the law of its packet's or its timer's command, or of a round or the loss check. -/
theorem acknowledgementsRefusalsAndTimersGovernASender : Obligations.AcknowledgementsRefusalsAndTimersGovernASender := by
  refine ⟨?ack, ?nak, ?epochNak, fun s k h u hb hd => ⟨fun ht => unsequenced_of_answers fun _ _ _ hi hk =>
      hi.completes_of_closed hk hb hd ht, ?stranger⟩,
    fun s cx => completes_txTimers_of_absent, fun s cx t ht => ?txTimers, fun s cx => completes_rxTimers_of_absent,
    fun s cx r hr => ?rxTimers, fun m cx r ts => Mach.lossCheck_of_hole, ?goBack⟩
  case ack =>
    rintro s k h t v _ a d c u ha rfl ho hu
    exact ⟨completes_ackPacket_of_other ha ho hu, completes_ackPacket_of_outstanding ha ho hu⟩
  case nak =>
    rintro s k h t v _ p reason ha rfl ho
    refine ⟨?_, fun hr hp => ?_, ?_, fun hr hp => completes_nakPacket_of_notReady ha ho hr (if_neg (by simp [hp]))⟩
    · rintro rfl
      exact completes_nakPacket_of_unreachable ha ho
    · rcases hr with rfl | hr
      · exact completes_nakPacket_of_loss ha ho (if_pos hp)
      · exact completes_nakPacket_of_notReady ha ho hr (if_pos hp)
    · rintro rfl hp
      exact completes_nakPacket_of_loss ha ho (if_neg (by simp [hp]))
  case epochNak =>
    rintro s k h t v _ ha rfl
    refine ⟨fun past => completes_epochNakPacket ha (if_pos past), fun within fresh => completes_epochNakPacket ha ?_,
      fun within old => completes_epochNakPacket ha ?_⟩
    · rw [if_neg (Nat.not_lt_of_le within), if_pos fresh]
    · rw [if_neg (Nat.not_lt_of_le within), if_neg old]
  case stranger =>
    intro t v ht hv other
    refine unsequenced_of_answers fun _ _ _ hi hk => hi.completes_of_stranger hk hb hd ht hv ?_
    rintro ⟨epoch, opened, live⟩
    exact other.elim (· epoch) (·.elim (· opened) (Bool.eq_false_iff.1 live))
  case txTimers =>
    refine ⟨completes_rtoExpiry_of_none ht, completes_rnrDelayExpiry_of_none ht,
      completes_rnrTimeout_of_none ht, fun due u => completes_rtoExpiry ht,
      fun due p rest u h hu => ⟨fun he => completes_rnrDelayExpiry ht h hu (if_pos he),
        fun hn => completes_rnrDelayExpiry ht h hu (if_neg hn)⟩, fun since => completes_rnrTimeout ht⟩
  case rxTimers =>
    have acks {m : Mach} := completes_rsxAckTimer (m := m) hr
    refine ⟨fun ho hd => acks (by rw [RxHalf.ackDue, ho, hd]; rfl), completes_lossCheck_of_none hr,
      fun a ho hd => acks (by rw [RxHalf.ackDue, ho, hd]; rfl), fun b ho hd => acks (by rw [RxHalf.ackDue, ho, hd]; rfl),
      fun a b ho hd => acks (by rw [RxHalf.ackDue, ho, hd]; rfl), fun ts u ha hu =>
        ⟨fun hn => completes_lossCheck hr ha hu (by rw [if_neg hn]), fun he => completes_lossCheck hr ha hu (by rw [if_pos he])⟩⟩
  case goBack =>
    intro m cx p counted t n down ht hn hd
    have goes := Mach.goBack_of_half (p := p) ht hn hd
    refine ⟨fun past => goes.trans (if_pos past), fun within fresh => ?_, fun within old => ?_⟩
    · rw [goes, if_neg (Nat.not_lt_of_le within), if_pos fresh]
    · rw [goes, if_neg (Nat.not_lt_of_le within), if_neg old]

end Sys2Proof.Machine
end

section
/-! Windows (R213, R215), and the context registers and counters (R204, R229, Table 8-8) of file 08. -/

namespace Sys2Proof.Machine

/-! ### What stops WIN_CREATE (R213) -/

section WinErr
variable {m : Mach} {slot n : Nat}

/-- A window that is not FREE is another slot's, or in use. -/
theorem Mach.winErr_of_window {w : Window} (h : Tbl.find m.cxn.windows n = some w) :
    m.winErr slot n = if w.slot = slot then 3 else 4 := by
  simp only [Mach.winErr, h, bne_iff_ne, ne_eq, ite_not]

/-- A FREE window needs a length within 2^48, and then a PD of the slot. -/
theorem Mach.winErr_of_free {len : Nat} (h : Tbl.find m.cxn.windows n = none)
    (hl : len = m.get64 Reg.CXN.WIN_LEN_LO Reg.CXN.WIN_LEN_HI n) :
    m.winErr slot n = if len = 0 ∨ 2 ^ 48 < len then 1
      else (Tbl.find m.xlt.pds (m.get Reg.CXN.WIN_PD n)).elim 2 (fun p => if p.slot = slot then 0 else 2) := by
  subst hl
  simp only [Mach.winErr, h, Bool.or_eq_true, decide_eq_true_eq]
  cases Tbl.find m.xlt.pds (m.get Reg.CXN.WIN_PD n) <;> rfl

end WinErr

/-! ### WIN_CMD (R213, R215) -/

/-- The window that the staging fields describe, under a PD of function `fn` (R213). -/
def Mach.stagedWindow (m : Mach) (slot fn n : Nat) : Window :=
  { slot := slot, pd := m.get Reg.CXN.WIN_PD n, func := fn, base := m.get64 Reg.CXN.WIN_BASE_LO Reg.CXN.WIN_BASE_HI n,
    len := m.get64 Reg.CXN.WIN_LEN_LO Reg.CXN.WIN_LEN_HI n, rd := m.isSet Reg.CXN.RD n, wr := m.isSet Reg.CXN.WR n,
    atm := m.isSet Reg.CXN.AT n, valid := true,
    peer := if m.isSet Reg.CXN.PEER_ANY n then none else some (m.get Reg.CXN.WIN_PEER n) }

section WinCmd
variable {s : State} {r : Requester} {n : Nat} {u : Mach}

section Create
variable (hp : s.m.passes r Reg.CXN.WIN_CMD n = true) (hu : u = s.m.acted r Reg.CXN.WIN_CMD 1)
include hp hu

theorem completes_winCreate_of_err (h : u.winErr r.slotOf n ≠ 0) :
    Completes (.winCreate r) s (u.put Reg.CXN.WIN_ERR (u.winErr r.slotOf n) n) := by
  subst hu
  exact (congrArg (ok s) (Mach.action_passes hp 1 _)).trans (congrArg (ok s) (if_pos (bne_iff_ne.2 h)))

/-- Nothing stops it: the window becomes VALID as the staging fields say, with its PD's function. -/
theorem completes_winCreate_of_good {v : Mach} {p : Pd} (h : u.winErr r.slotOf n = 0) (hv : v = u.put Reg.CXN.WIN_ERR 0 n)
    (hf : Tbl.find v.xlt.pds (v.get Reg.CXN.WIN_PD n) = some p) : Completes (.winCreate r) s
      { v with cxn := { v.cxn with windows := Tbl.set v.cxn.windows n (v.stagedWindow r.slotOf p.func n) } } := by
  subst hv hu
  refine (congrArg (ok s) (Mach.action_passes hp 1 _)).trans ?_
  simp only [h, hf, bne_self_eq_false, Bool.false_eq_true, if_false, ok, Mach.stagedWindow]

end Create

section Disable
variable (hp : s.m.passes r Reg.CXN.WIN_CMD n = true) (hu : u = s.m.acted r Reg.CXN.WIN_CMD 2)
include hp hu

theorem completes_winDisable_of_free (h : Tbl.find u.cxn.windows n = none) :
    Completes (.winDisable r) s (u.put Reg.CXN.WIN_ERR 5 n) := by
  subst hu
  refine (congrArg (ok s) (Mach.action_passes hp 2 _)).trans ?_
  simp only [h, ok]

/-- A VALID window of the slot is closed: it admits no further message (R215). -/
theorem completes_winDisable {w : Window} {m : Mach} (h : Tbl.find u.cxn.windows n = some w)
    (hm : (if w.slot ≠ r.slotOf then u.put Reg.CXN.WIN_ERR 4 n
      else if w.valid = false then u.put Reg.CXN.WIN_ERR 5 n
      else { u.put Reg.CXN.WIN_ERR 0 n with
        cxn := { u.cxn with windows := Tbl.set u.cxn.windows n { w with valid := false } } }.settleWindow n) = m) :
    Completes (.winDisable r) s m := by
  subst hu hm
  refine (congrArg (ok s) (Mach.action_passes hp 2 _)).trans ?_
  simp only [h, ok, bne_iff_ne, Bool.not_eq_true', Mach.closeWindow, Mach.put_cxn]

end Disable

end WinCmd

/-! ### CTX_LOOKUP (R204, R229) -/

/-- The registers show a TX half. -/
def Mach.showTx (m : Mach) (i : Nat) (t : TxHalf) : Mach :=
  ((((m.put Reg.CXN.OPENING (b2n t.opening) i).put Reg.CXN.ROUNDS t.rounds i).put Reg.CXN.CTX_UNA t.una i).put Reg.CXN.CTX_NEXT
    t.nextPsn i).put Reg.CXN.CTX_CWND t.cwnd i

/-- The registers show an RX half. -/
def Mach.showRx (m : Mach) (i : Nat) (x : RxHalf) : Mach := (m.put Reg.CXN.RX_EP x.epoch i).put Reg.CXN.CTX_EPSN x.epsn i

section CtxLookup
variable {s : State} {r : Requester} {i cx : Nat} {m u : Mach} (hp : s.m.passes r Reg.CXN.CTX_LOOKUP i = true)
  (hm : m = s.m.acted r Reg.CXN.CTX_LOOKUP 1) (hcx : cx = cxKey r.slotOf (m.get Reg.CXN.CTX_PEER i))
  (hu : u = m.clear [Reg.CXN.FOUND, Reg.CXN.OPENING, Reg.CXN.QUIESCENT, Reg.CXN.ROUNDS, Reg.CXN.TX_EP, Reg.CXN.RX_EP,
    Reg.CXN.CTX_UNA, Reg.CXN.CTX_NEXT, Reg.CXN.CTX_EPSN, Reg.CXN.CTX_CWND] i)
include hp hm hcx hu

theorem completes_ctxLookup_of_absent (h : m.ctx cx = none) : Completes (.ctxLookup r) s u := by
  subst hu hcx hm
  refine (congrArg (ok s) (Mach.action_passes hp 1 _)).trans ?_
  simp only [h, ok]

theorem completes_ctxLookup_of_expired {c : Ctx} (h : m.ctx cx = some c) (hx : m.ctxExpired cx c = true) :
    Completes (.ctxLookup r) s u := by
  subst hu hcx hm
  refine (congrArg (ok s) (Mach.action_passes hp 1 _)).trans ?_
  simp only [h, hx, if_true, ok]

/-- A live context is shown with the halves it has. -/
theorem completes_ctxLookup_of_live {c : Ctx} {v x : Mach} (h : m.ctx cx = some c) (hx : m.ctxExpired cx c = false)
    (hv : v = ((u.put Reg.CXN.FOUND 1 i).put Reg.CXN.QUIESCENT (b2n (m.quiescent cx c)) i).put Reg.CXN.TX_EP (c.txEp.getD 0) i)
    (hs : c.rx.elim (c.tx.elim v (v.showTx i)) ((c.tx.elim v (v.showTx i)).showRx i) = x) : Completes (.ctxLookup r) s x := by
  subst hs hv hu hcx hm
  refine (congrArg (ok s) (Mach.action_passes hp 1 _)).trans ?_
  simp only [h, hx, Bool.false_eq_true, if_false, ok]
  cases c.tx <;> cases c.rx <;> rfl

end CtxLookup

/-! ### The counters of a slot (Table 8-8) -/

theorem completes_cxnCntClr {s : State} {r : Requester} {i : Nat} (h : s.m.passes r Reg.CXN.CNT_CLR i = true) :
    Completes (.cxnCntClr r) s ((s.m.reach r Reg.CXN.CNT_CLR).clear [Reg.CXN.OPENS, Reg.CXN.RX_CREATES, Reg.CXN.REPLACES,
      Reg.CXN.DELETIONS, Reg.CXN.EPOCH_NAKS, Reg.CXN.LOSS_NAKS, Reg.CXN.TIMER_ROUNDS, Reg.CXN.RETX_PKTS, Reg.CXN.DUP_DROP,
      Reg.CXN.STALE_DROP, Reg.CXN.RNR_NAKS, Reg.CXN.RESULTS, Reg.CXN.FAILED] r.slotOf) := by
  rw [← Mach.acted_plain rfl rfl 1]
  exact congrArg (ok s) (Mach.action_passes h 1 _)

/-! ### The statement -/

/-- Settles O25: each clause is a case of what stops WIN_CREATE, or its command's law. -/
theorem windowsContextsAndTheirRegistersDoAsFileEightSays : Obligations.WindowsContextsAndTheirRegistersDoAsFileEightSays := by
  refine ⟨fun m slot n => ⟨fun w => Mach.winErr_of_window, fun free => ?err⟩,
    fun s r n u hp hu => ⟨completes_winCreate_of_err hp hu, fun v h hv p => completes_winCreate_of_good hp hu h hv⟩,
    fun s r n u hp hu => ⟨completes_winDisable_of_free hp hu, fun w hw => ?disable⟩,
    fun s r i cx m u hp hm hcx hu => ⟨completes_ctxLookup_of_absent hp hm hcx hu,
      fun c => completes_ctxLookup_of_expired hp hm hcx hu, fun c v hc hx hv => ?live⟩,
    fun s r i => completes_cxnCntClr⟩
  case err =>
    have checked := Mach.winErr_of_free (slot := slot) free rfl
    refine ⟨fun bad => checked.trans (if_pos bad), fun h0 hmax => ?_⟩
    rw [checked, if_neg (by omega)]
    exact ⟨fun missing => by rw [missing]; rfl, fun p found => by rw [found]; rfl⟩
  case disable =>
    have disables {m : Mach} := completes_winDisable (m := m) hp hu hw
    refine ⟨fun hs => disables (if_pos hs), fun hs hv => disables ?_, fun v hs hv hput => disables ?_⟩
    · rw [if_neg (· hs), if_pos hv]
    · rw [if_neg (· hs), if_neg (by simp [hv]), hput]; rfl
  case live =>
    have shows {x : Mach} := completes_ctxLookup_of_live (x := x) hp hm hcx hu hc hx hv
    refine ⟨fun ht hr => shows ?_, fun x ht hr => shows ?_, fun t w ht hw => ⟨fun hr => shows ?_, fun x hr => shows ?_⟩⟩
    · rw [ht, hr]; rfl
    · rw [ht, hr]; rfl
    · rw [ht, hr, hw]; rfl
    · rw [ht, hr, hw]; rfl

end Sys2Proof.Machine
end

section
/-! Matching (file 09): the match rule (R231, R232), the posted receive that a message takes (R235, R237), and the unexpected message
that a receive takes (R236, R248). -/

namespace Sys2Proof.Machine

/-! ### The match rule (R231, R232) -/

/-- What is left of a difference under a mask of 64 bits is its bits at which the mask is 0. -/
theorem masked_xor_eq_zero_iff {a b mask : Nat} (hm : mask < 2 ^ 64) :
    (a ^^^ b) &&& (2 ^ 64 - 1 - mask) = 0 ↔ ∀ i, i < 64 → mask.testBit i = false → a.testBit i = b.testBit i := by
  have kept (i : Nat) : ((a ^^^ b) &&& (2 ^ 64 - 1 - mask)).testBit i =
      (bne (a.testBit i) (b.testBit i) && (decide (i < 64) && !mask.testBit i)) := by
    rw [Nat.sub_sub, Nat.add_comm 1, Nat.testBit_and, Nat.testBit_xor, Nat.testBit_two_pow_sub_succ hm]
  constructor
  · intro h i hi hb
    have gone := kept i
    rw [h, Nat.zero_testBit, decide_eq_true hi, hb] at gone
    simpa using gone.symm
  · intro h
    refine Nat.eq_of_testBit_eq fun i => (kept i).trans ?_
    rw [Nat.zero_testBit]
    by_cases hi : i < 64
    · cases hb : mask.testBit i with
      | true => simp
      | false => simp [h i hi hb]
    · simp [hi]

section Matches
variable {r : Recv} {x : MatMsg}

theorem Recv.matches_iff : r.matches x = true ↔ r.domain = x.domain ∧ (r.src = none ∨ r.src = some x.src) ∧
    (r.bits ^^^ x.bits) &&& (2 ^ 64 - 1 - r.ignore) = 0 := by
  cases hs : r.src <;> simp [Recv.matches, hs, and_assoc]

theorem Recv.exact_iff : r.exact = true ↔ r.src ≠ none ∧ r.ignore = 0 := by
  simp [Recv.exact, Option.isSome_iff_ne_none]

/-- An exact receive of 64 bits matches on its whole key, so that the message lies in its bucket (R237). -/
theorem Recv.bucket_eq_of_matches (he : r.exact = true) (hr : r.bits < 2 ^ 64) (hx : x.bits < 2 ^ 64) (h : r.matches x = true) :
    r.bucket = x.bucket := by
  obtain ⟨named, whole⟩ := Recv.exact_iff.1 he
  obtain ⟨domain, src, bits⟩ := Recv.matches_iff.1 h
  have same : r.bits = x.bits := Nat.eq_of_testBit_eq fun i => by
    by_cases hi : i < 64
    · exact (masked_xor_eq_zero_iff (by simp [whole])).1 bits i hi (by simp [whole])
    · have high : 2 ^ 64 ≤ 2 ^ i := Nat.pow_le_pow_right (by decide) (Nat.le_of_not_lt hi)
      rw [Nat.testBit_lt_two_pow (Nat.lt_of_lt_of_le hr high), Nat.testBit_lt_two_pow (Nat.lt_of_lt_of_le hx high)]
  rw [Recv.bucket, MatMsg.bucket, domain, src.resolve_left named, same, Option.getD_some]

end Matches

/-- The mask without communicator bits (R231). -/
theorem testBit_ignoreMask {c : Nat} (hc : c ≤ 32) (mask i : Nat) :
    (ignoreMask c mask).testBit i = (decide (i < 64 - c) && mask.testBit i) := by
  rw [ignoreMask, Nat.testBit_mod_two_pow, Nat.min_eq_right hc]

/-! ### The posted receive that a message takes (R235) -/

section Posted
variable {m : Mach} {x : MatMsg}

/-- The chain of a message's bucket misses no exact receive that matches it. -/
theorem Mach.postedMatches_eq (hp : ∀ r ∈ m.mat.posted, r.bits < 2 ^ 64) (hx : x.bits < 2 ^ 64) :
    m.postedMatches x = (m.mat.posted.find? (fun r => r.exact && r.matches x), m.mat.posted.find? (fun r => !r.exact && r.matches x)) := by
  refine congrArg (·, _) ?_
  rw [← List.head?_filter, ← List.head?_filter]
  refine congrArg List.head? (List.filter_congr fun r hr => Bool.eq_iff_iff.2 ?_)
  simp only [Bool.and_eq_true, beq_iff_eq]
  exact ⟨fun ⟨⟨⟨he, _⟩, _⟩, h⟩ => ⟨he, h⟩,
    fun ⟨he, h⟩ => ⟨⟨⟨he, (Recv.matches_iff.1 h).1⟩, Recv.bucket_eq_of_matches he (hp r hr) hx h⟩, h⟩⟩

/-- In posting order, the first of a domain's receives of some kind is that of the lowest POST_SEQ. -/
theorem order_le_of_find? {l : List Recv} {p : Recv → Bool} {r r' : Recv}
    (ordered : l.Pairwise (fun a b => a.domain = b.domain → a.order < b.order)) (hf : l.find? p = some r) (hm : r' ∈ l)
    (hp : p r' = true) (hd : r.domain = r'.domain) : r.order ≤ r'.order := by
  obtain ⟨-, before, after, rfl, miss⟩ := List.find?_eq_some_iff_append.1 hf
  rcases List.mem_append.1 hm with hm | hm
  · exact absurd (miss r' hm) (by simp [hp])
  · rcases List.mem_cons.1 hm with rfl | hm
    · exact Nat.le_refl _
    · exact Nat.le_of_lt ((List.pairwise_cons.1 (List.pairwise_append.1 ordered).2.1).1 r' hm hd)

/-- The first of one of the two lists is posted, matches, and is the first posted of those there that match. -/
theorem first_match_least {l : List Recv} {p : Recv → Bool} {r : Recv}
    (ordered : l.Pairwise (fun a b => a.domain = b.domain → a.order < b.order))
    (hf : l.find? (fun r => p r && r.matches x) = some r) :
    r ∈ l ∧ r.matches x = true ∧ ∀ r' ∈ l, p r' = true → r'.matches x = true → r.order ≤ r'.order := by
  have hit : r.matches x = true := (Bool.and_eq_true_iff.1 (List.find?_eq_some_iff_append.1 hf).1).2
  exact ⟨List.mem_of_find?_eq_some hf, hit, fun r' hr' hp hm => order_le_of_find? ordered hf hr' (by simp [hp, hm])
    ((Recv.matches_iff.1 hit).1.trans (Recv.matches_iff.1 hm).1.symm)⟩

/-- The receive taken is posted and matches, and none that matches was posted before it. -/
theorem Mach.findPosted_least {r : Recv} (hp : ∀ r ∈ m.mat.posted, r.bits < 2 ^ 64) (hx : x.bits < 2 ^ 64)
    (ordered : m.mat.posted.Pairwise (fun a b => a.domain = b.domain → a.order < b.order)) (hf : m.findPosted x = some r) :
    r ∈ m.mat.posted ∧ r.matches x = true ∧ ∀ r' ∈ m.mat.posted, r'.matches x = true → r.order ≤ r'.order := by
  rw [Mach.findPosted, Mach.postedMatches_eq hp hx] at hf
  cases hc : m.mat.posted.find? (fun r => r.exact && r.matches x) with
  | none =>
    have noExact : ∀ r' ∈ m.mat.posted, r'.matches x = true → (!r'.exact) = true := fun r' hr' hm => by
      simpa [hm] using List.find?_eq_none.1 hc r' hr'
    rw [hc] at hf
    obtain ⟨posted, hit, least⟩ := first_match_least ordered hf
    exact ⟨posted, hit, fun r' hr' hm => least r' hr' (noExact r' hr' hm) hm⟩
  | some a =>
    obtain ⟨aPosted, aHit, aLeast⟩ := first_match_least ordered hc
    cases hw : m.mat.posted.find? (fun r => !r.exact && r.matches x) with
    | none =>
      have noWild : ∀ r' ∈ m.mat.posted, r'.matches x = true → r'.exact = true := fun r' hr' hm => by
        simpa [hm] using List.find?_eq_none.1 hw r' hr'
      rw [hc, hw] at hf
      cases hf
      exact ⟨aPosted, aHit, fun r' hr' hm => aLeast r' hr' (noWild r' hr' hm) hm⟩
    | some b =>
      obtain ⟨bPosted, bHit, bLeast⟩ := first_match_least ordered hw
      have least : ∀ r' ∈ m.mat.posted, r'.matches x = true → a.order ≤ r'.order ∨ b.order ≤ r'.order := fun r' hr' hm => by
        cases he : r'.exact with
        | true => exact .inl (aLeast r' hr' he hm)
        | false => exact .inr (bLeast r' hr' (by simp [he]) hm)
      rw [hc, hw] at hf
      obtain rfl := Option.some.inj hf
      split
      · exact ⟨aPosted, aHit, fun r' hr' hm => by have := least r' hr' hm; omega⟩
      · exact ⟨bPosted, bHit, fun r' hr' hm => by have := least r' hr' hm; omega⟩

end Posted

/-! ### The unexpected message that a receive takes (R236, R248) -/

/-- A receive looks among the unexpected messages that match it. -/
theorem Mach.of_mem_unexpectedFor {m : Mach} {r : Recv} {x : MatMsg} (h : x ∈ m.unexpectedFor r) :
    x ∈ m.mat.msgs ∧ x.st = .unexpected ∧ r.matches x = true := by
  simp only [Mach.unexpectedFor, List.mem_filter, Bool.and_eq_true] at h
  obtain ⟨mem, ⟨⟨st, -⟩, -⟩, hit⟩ := h
  refine ⟨mem, ?_, hit⟩
  cases hs : x.st with
  | unexpected => rfl
  | held => simp [hs] at st
  | bound r => simp [hs] at st

/-- Among several sources' (R248), message `x` has its turn no later than `y`: by ORDER_TS, then by SRC_EID. -/
def MatMsg.Leads (x y : MatMsg) : Prop := x.orderTs < y.orderTs ∨ (x.orderTs = y.orderTs ∧ x.src ≤ y.src)

theorem MatMsg.Leads.refl (x : MatMsg) : x.Leads x := .inr ⟨rfl, Nat.le_refl _⟩

theorem MatMsg.Leads.trans {x y z : MatMsg} (hxy : x.Leads y) (hyz : y.Leads z) : x.Leads z := by
  unfold MatMsg.Leads at *
  omega

/-- The messages of a list that are the earliest of their source (R248). -/
def earliest (l : List MatMsg) : List MatMsg := l.filter (fun x => !l.any (fun y => y.src == x.src && earlier y x))

theorem mem_earliest {l : List MatMsg} {x : MatMsg} :
    x ∈ earliest l ↔ x ∈ l ∧ ∀ y ∈ l, y.src = x.src → earlier y x = false := by
  simp [earliest]

/-- The choice between the message that leads so far and the next. -/
def leader (a x : MatMsg) : MatMsg :=
  if x.orderTs < a.orderTs || (x.orderTs == a.orderTs && x.src < a.src) then x else a

theorem leader_eq_or (a x : MatMsg) : leader a x = a ∨ leader a x = x := by
  unfold leader
  split
  · exact .inr rfl
  · exact .inl rfl

theorem leader_leads (a x : MatMsg) : (leader a x).Leads a ∧ (leader a x).Leads x := by
  unfold leader MatMsg.Leads
  split
  next h => simp only [Bool.or_eq_true, Bool.and_eq_true, decide_eq_true_eq, beq_iff_eq] at h; omega
  next h => simp only [Bool.or_eq_true, Bool.and_eq_true, decide_eq_true_eq, beq_iff_eq] at h; omega

/-- The leader of a list is of the list, and leads all of it. -/
theorem foldl_leader_spec (l : List MatMsg) (a : MatMsg) : l.foldl leader a ∈ a :: l ∧ ∀ y ∈ a :: l, (l.foldl leader a).Leads y := by
  induction l generalizing a with
  | nil => exact ⟨List.mem_cons_self, fun y hy => List.mem_singleton.1 hy ▸ MatMsg.Leads.refl a⟩
  | cons x l ih =>
    obtain ⟨mem, leads⟩ := ih (leader a x)
    obtain ⟨overA, overX⟩ := leader_leads a x
    have overLeader := leads _ List.mem_cons_self
    simp only [List.foldl_cons, List.mem_cons, forall_eq_or_imp] at mem ⊢
    refine ⟨?_, overLeader.trans overA, overLeader.trans overX, fun y hy => leads y (List.mem_cons_of_mem _ hy)⟩
    rcases mem with mem | mem
    · exact (leader_eq_or a x).imp mem.trans (.inl <| mem.trans ·)
    · exact .inr (.inr mem)

/-- A receive takes the leader of what is earliest of each source. -/
theorem chooseUnexpected_of_cons {l rest : List MatMsg} {a : MatMsg} (h : earliest l = a :: rest) :
    chooseUnexpected l = some (rest.foldl leader a) := by
  unfold earliest at h
  rw [chooseUnexpected, h]
  exact List.foldl_hom some fun a x => (apply_ite some _ _ _).symm

/-- The message chosen is the earliest of its source, and leads all that are. -/
theorem chooseUnexpected_spec {l : List MatMsg} {x : MatMsg} (h : chooseUnexpected l = some x) :
    x ∈ earliest l ∧ ∀ y ∈ earliest l, x.Leads y := by
  cases he : earliest l with
  | nil =>
    unfold earliest at he
    rw [chooseUnexpected, he] at h
    cases h
  | cons a rest =>
    rw [chooseUnexpected_of_cons he] at h
    obtain rfl := Option.some.inj h
    exact foldl_leader_spec rest a

/-! ### The statement -/

/-- Settles O26: each clause is a law of the match rule, of the posted lists or of the choice among sources. -/
theorem matchingComparesBitsSourcesAndOrder : Obligations.MatchingComparesBitsSourcesAndOrder := by
  refine ⟨fun r x hm => ?_, fun r => Recv.exact_iff, fun c mask i hc _ => testBit_ignoreMask hc mask i, fun m r x h => ?_,
    fun r x => Recv.bucket_eq_of_matches, fun m x r => Mach.findPosted_least⟩
  · rw [Recv.matches_iff, masked_xor_eq_zero_iff hm]
  · obtain ⟨first, leads⟩ := chooseUnexpected_spec h
    obtain ⟨mem, firstOfSource⟩ := mem_earliest.1 first
    obtain ⟨held, st, hit⟩ := Mach.of_mem_unexpectedFor mem
    exact ⟨held, st, hit, firstOfSource, fun y hy hf => leads y (mem_earliest.2 ⟨hy, hf⟩)⟩

end Sys2Proof.Machine
end

section
/-! Two-sided packets (file 09): EAGER (R245), RTS, PULL_REQ and PULL_RSP (R246, R247), how a message enters matching, and how the
order of its connection makes it ready (R235, R236, R241, R242). -/

namespace Sys2Proof.Machine

/-- The receive that a message is bound to (R233). -/
def MatMsg.receiver (x : MatMsg) : Option Recv :=
  match x.st with
  | .bound r => some r
  | _ => none

theorem MatMsg.receiver_of_bound {x : MatMsg} {r : Recv} (h : x.st = .bound r) : x.receiver = some r := by
  rw [MatMsg.receiver, h]

theorem MatMsg.receiver_of_stored {x : MatMsg} (h : x.st = .held ∨ x.st = .unexpected) : x.receiver = none := by
  rcases h with h | h <;> rw [MatMsg.receiver, h]

/-! ### Packets -/

section Packets
variable {s : State} {k : Packet} {h : RsxHdr} {v m : Mach} {x : RxMsg} {first : Bool} (hb : k.body = .rsx h)
  (ha : s.m.accepted k h = some (v, x, first))
include hb ha

/-- An EAGER goes to its message's receive, is stored while there is none, or is discarded (R245, R467). -/
theorem completes_eagerPacket {w : Mach} (hk : k.hdr.kind = 9) (hw : w = if first then v.enterMat k h else v)
    (hm : (w.matOf (pktCx k) h.msn).elim (w.finPsn (pktCx k) (v.rxInst (pktCx k)) h.psn) (fun y =>
      if h.poison = true then ((w.updMat y.id (fun y => { y with poison := true })).matTook y.id k.payload.length 0 false (pktCx k)
        (v.rxInst (pktCx k)) h.psn).poisonRx (pktCx k) (v.rxInst (pktCx k)) h.msn h.psn 9
      else if x.fault.isSome then w.matTook y.id k.payload.length 0 true (pktCx k) (v.rxInst (pktCx k)) h.psn
      else y.receiver.elim
        ((w.updMat y.id (fun y => { y with store := Tbl.set y.store h.offset k.payload })).finPsn (pktCx k) (v.rxInst (pktCx k)) h.psn)
        (fun r => w.matPlace y.id r h.offset k.payload true (pktCx k) (v.rxInst (pktCx k)) h.psn)) = m) :
    Completes (.eagerPacket k) s (m.settled k h) := by
  subst hm hw
  refine Arrives.completes_of_accepted (fun _ => rfl) hb hk ha ?_
  dsimp only
  cases (if first then v.enterMat k h else v).matOf (pktCx k) h.msn with
  | none => rfl
  | some y =>
    simp only [Option.elim_some, MatMsg.receiver]
    cases y.st <;> rfl

/-- An RTS enters matching where it carries no POISON (R246, R467). -/
theorem completes_rtsPacket (hk : k.hdr.kind = 10)
    (hm : (if h.poison = true then v.poisonRx (pktCx k) (v.rxInst (pktCx k)) h.msn h.psn 0x0A
      else (if first then v.enterMat k h else v).finPsn (pktCx k) (v.rxInst (pktCx k)) h.psn) = m) :
    Completes (.rtsPacket k) s (m.settled k h) :=
  Arrives.completes_of_accepted (fun _ => rfl) hb hk ha hm

theorem completes_pullReqPacket_of_poison (hk : k.hdr.kind = 11) (hp : h.poison = true) :
    Completes (.pullReqPacket k) s ((v.poisonRx (pktCx k) (v.rxInst (pktCx k)) h.msn h.psn 0x0B).settled k h) :=
  Arrives.completes_of_accepted (fun _ => rfl) hb hk ha (if_pos hp)

/-- A PULL_REQ pulls or cancels the SEND that it names, or is answered with CANCELLED where none is pending (R246, R247). The
connection's context is there, so that a TX half can always be had for the answer. -/
theorem completes_pullReqPacket {n len : Nat} {abort : Bool} (hk : k.hdr.kind = 11) (ho : h.op = .pullReq n len abort)
    (hp : h.poison = false)
    (hm : (v.mat.sends.find? (fun (p : PendSend) => p.cx == pktCx k && p.msn == some n)).elim
      (if abort = true then v else ((v.bump Reg.MAT.PULL_ABORTS 1 (pktSlot k)).record 0x7044 (quadOfSlot (pktSlot k))
        [pktSlot k, k.hdr.src, n]).faultRx (pktCx k) h.msn 0x08 0 true)
      (fun p => if abort = true then (v.dropSend p.uid).finishWork p.ring p.seq 0x08 0
        else (v.needTx (pktSlot k) k.hdr.src).1.pullSend p h.msn len) = m) :
    Completes (.pullReqPacket k) s ((m.finPsn (pktCx k) (v.rxInst (pktCx k)) h.psn).settled k h) := by
  subst hm
  have found : v.needTx (pktSlot k) k.hdr.src = ((v.needTx (pktSlot k) k.hdr.src).1, true) := Mach.needTx_ctx (Mach.accepted_ctx ha)
  refine Arrives.completes_of_accepted (fun _ => rfl) hb hk ha ?_
  simp only [ho, hp, Bool.false_eq_true, if_false]
  cases v.mat.sends.find? (fun (p : PendSend) => p.cx == pktCx k && p.msn == some n) with
  | none => cases abort <;> rfl
  | some p =>
    cases abort with
    | true => rfl
    | false => rw [found]; rfl

/-- A PULL_RSP is placed in the receive that pulled, or discarded (R246, R467). -/
theorem completes_pullRspPacket {req : Nat} (hk : k.hdr.kind = 12) (ho : h.op = .pullRsp req)
    (hm : (if h.poison = true then v.poisonRx (pktCx k) (v.rxInst (pktCx k)) h.msn h.psn 0x0C
      else ((v.pullOf (pktCx k) req).bind fun y => y.receiver.map fun r =>
          v.matPlace y.id r h.offset k.payload true (pktCx k) (v.rxInst (pktCx k)) h.psn).getD
        (v.finPsn (pktCx k) (v.rxInst (pktCx k)) h.psn)) = m) :
    Completes (.pullRspPacket k) s (m.settled k h) := by
  subst hm
  refine Arrives.completes_of_accepted (fun _ => rfl) hb hk ha ?_
  simp only [ho]
  cases v.pullOf (pktCx k) req with
  | none => rfl
  | some y =>
    simp only [Option.bind_some, MatMsg.receiver]
    cases y.st <;> rfl

end Packets

/-! ### A message enters matching, and becomes ready (R235, R236, R241, R242) -/

section Ready
variable {m u : Mach}

/-- A message enters with the count of its kind, ready where every lower MSN has been passed. -/
theorem Mach.enterMat_of_match {v : Mach} {k : Packet} {h : RsxHdr} {r : RxHalf} {d bits e mant len : Nat} {x : MatMsg}
    (hr : m.rxOf (pktCx k) = some r) (ho : h.op = .match_ d bits e mant len) (hu : u = m.newId.2)
    (hx : x = { u.newMat k h d bits e mant len r with id := m.newId.1 })
    (hv : v = ({ u with mat := { u.mat with msgs := u.mat.msgs ++ [x] } }.updRxMsg (pktCx k) h.msn (fun y =>
      { y with mat := some m.newId.1 })).bump (if x.rts then Reg.MAT.RTS_MSGS else Reg.MAT.EAGER_MSGS) 1 (pktSlot k)) :
    m.enterMat k h = if h.msn = r.passMsn then v.matReady m.newId.1 else v.bump Reg.MAT.ORDER_HELD 1 (pktSlot k) := by
  subst hu hx hv
  simp only [Mach.enterMat, hr, ho]
  cases (m.newId.2.newMat k h d bits e mant len r).rts <;> rfl

/-- A ready message takes the posted receive that its search finds, or becomes unexpected. -/
theorem Mach.matReady_of_msg {mid : Nat} {x : MatMsg} {hit : Bool} (hx : m.matMsg mid = some x) (hh : hit = (m.findPosted x).isSome)
    (hu : u = (m.bump Reg.MAT.WILD_SCAN (wildExamined x (m.mat.posted.filter (fun r => r.domain == x.domain && !r.exact)))
      (cxSlot x.cx)).matchFlag (cxSlot x.cx) x.domain hit) :
    m.matReady mid = (u.findPosted x).elim (u.updMat mid (fun x => { x with st := .unexpected })) (fun r =>
      (((u.unpost r).bump Reg.MAT.MATCH_ARRIVAL 1 (cxSlot x.cx)).pmcEngine (quadOfSlot (cxSlot x.cx)) .mte 0x0B 1).bind mid r) := by
  subst hh
  simp only [Mach.matReady, hx, MatMsg.slot, ← hu]
  cases u.findPosted x <;> rfl

section MessageReady
variable {s : State} {cx msn : Nat} (hu : u = s.m.passOrder cx)
include hu

theorem completes_messageReady_of_absent (hr : u.rxOf cx = none) : Completes (.messageReady cx msn) s u := by
  subst hu
  change execMessageReady cx msn s = _
  simp only [execMessageReady, hr, ok]

/-- MESSAGE_READY makes the held message ready that the order has reached. -/
theorem completes_messageReady {r : RxHalf} (hr : u.rxOf cx = some r)
    (hm : (u.heldAt cx r.inst msn).elim u (fun x => if r.passMsn = msn then (u.matReady x.id).passOrder cx else u) = m) :
    Completes (.messageReady cx msn) s m := by
  subst hm hu
  change execMessageReady cx msn s = _
  simp only [execMessageReady, hr, ok]
  cases (s.m.passOrder cx).heldAt cx r.inst msn <;> rfl

end MessageReady

end Ready

/-! ### The statement -/

/-- Settles O27: each clause is a case of its packet's law, or of the law of entering matching or becoming ready. -/
theorem twoSidedPacketsEnterMatchingAndArePlaced : Obligations.TwoSidedPacketsEnterMatchingAndArePlaced := by
  refine ⟨?packets, fun m u v k h r d bits e mant len x => Mach.enterMat_of_match, ?ready,
    fun s cx msn u => completes_messageReady_of_absent, ?messageReady⟩
  case packets =>
    rintro s k h v w x first _ _ hb ha rfl rfl hw
    refine ⟨fun hk => ?eager, fun hk => ?rts, completes_pullReqPacket_of_poison hb ha, fun hk n len abort ho hp => ?pullReq,
      fun hk req ho => ?pullRsp⟩
    case eager =>
      have takes {m : Mach} := completes_eagerPacket (m := m) hb ha hk hw
      refine ⟨fun hy => takes (by rw [hy]; rfl), fun y hy => ⟨fun hp => takes ?_, fun hp hf => takes ?_, fun r hp hf hs => takes ?_,
        fun hp hf hs => takes ?_⟩⟩
      · rw [hy, Option.elim_some, if_pos hp]
      · rw [hy, Option.elim_some, if_neg (by simp [hp]), if_pos hf]
      · rw [hy, Option.elim_some, if_neg (by simp [hp]), if_neg (by simp [hf]), MatMsg.receiver_of_bound hs]; rfl
      · rw [hy, Option.elim_some, if_neg (by simp [hp]), if_neg (by simp [hf]), MatMsg.receiver_of_stored hs]; rfl
    case rts =>
      subst hw
      exact ⟨fun hp => completes_rtsPacket hb ha hk (if_pos hp), fun hp => completes_rtsPacket hb ha hk (if_neg (by simp [hp]))⟩
    case pullReq =>
      have pulls {m : Mach} := completes_pullReqPacket (m := m) hb ha hk ho hp
      refine ⟨fun p hf => ⟨fun aborts => pulls ?_, fun u goes hu => pulls ?_⟩, fun hf => ⟨fun aborts => pulls ?_, fun goes => pulls ?_⟩⟩
      · rw [hf, Option.elim_some, if_pos aborts]
      · rw [hf, Option.elim_some, if_neg (by simp [goes]), hu]
      · rw [hf, Option.elim_none, if_pos aborts]
      · rw [hf, Option.elim_none, if_neg (by simp [goes])]
    case pullRsp =>
      have brings {m : Mach} := completes_pullRspPacket (m := m) hb ha hk ho
      refine ⟨fun hp => brings (if_pos hp), fun hp hy => brings ?_, fun y r hp hy hs => brings ?_, fun y hp hy hs => brings ?_⟩
      · rw [if_neg (by simp [hp]), hy]; rfl
      · rw [if_neg (by simp [hp]), hy, Option.bind_some, MatMsg.receiver_of_bound hs]; rfl
      · rw [if_neg (by simp [hp]), hy, Option.bind_some, MatMsg.receiver_of_stored hs]; rfl
  case ready =>
    intro m u mid x hit hx hh hu
    have readies := Mach.matReady_of_msg hx hh hu
    exact ⟨fun hn => by rw [readies, hn]; rfl, fun r hr => by rw [readies, hr]; rfl⟩
  case messageReady =>
    intro s cx msn u r hu hr
    have readies {m : Mach} := completes_messageReady (msn := msn) (m := m) hu hr
    refine ⟨fun waits => readies ?_, fun x hx reached => readies (by rw [hx]; exact if_pos reached)⟩
    rcases waits with hx | hn
    · rw [hx]; rfl
    · cases u.heldAt cx r.inst msn with
      | none => rfl
      | some x => exact if_neg hn

end Sys2Proof.Machine
end

section
/-! Match domains and receives (file 09): DOM_CMD (R230, R252), RECVs at their MTE (R234, R236, R250), and the counters of Table 9-6. -/

namespace Sys2Proof.Machine

/-! ### DOM_CMD (R230, R252, Table 9-6) -/

section DomErr
variable {m : Mach} {slot n : Nat}

/-- A domain that is not FREE is another slot's, or in use. -/
theorem Mach.domErr_of_domain {d : Domain} (h : m.domain n = some d) : m.domErr slot n = if d.slot = slot then 2 else 4 := by
  simp only [Mach.domErr, h, bne_iff_ne, ne_eq, ite_not]

/-- A FREE domain needs a function that is present. -/
theorem Mach.domErr_of_free (h : m.domain n = none) :
    m.domErr slot n = if m.fnPresent slot (m.get Reg.MAT.DOM_FUNC n) then 0 else 1 := by
  simp only [Mach.domErr, h]

end DomErr

/-- The domain that the staging fields describe (R230, R231). -/
def Mach.stagedDomain (m : Mach) (slot n : Nat) : Domain :=
  { slot := slot, func := m.get Reg.MAT.DOM_FUNC n, commBits := min 32 (m.get Reg.MAT.COMM_BITS n), active := true, nextPost := 0 }

section DomCmd
variable {s : State} {r : Requester} {n : Nat} {u : Mach} (hp : s.m.passes r Reg.MAT.DOM_CMD n = true)
  (hu : u = s.m.reach r Reg.MAT.DOM_CMD)
include hp hu

/-- A DOM_CREATE that something stops stores why. -/
theorem completes_domCreate_of_err {err : Nat} (he : u.domErr r.slotOf n = err) (h0 : err ≠ 0) :
    Completes (.domCreate r) s (u.put Reg.MAT.DOM_ERR err n) := by
  rw [← Mach.acted_plain rfl rfl 1] at hu
  subst he hu
  exact (congrArg (ok s) (Mach.action_passes hp 1 _)).trans (congrArg (ok s) (if_pos (bne_iff_ne.2 h0)))

/-- Nothing stops it: the domain becomes ACTIVE as the staging fields say. -/
theorem completes_domCreate_of_good {v : Mach} (he : u.domErr r.slotOf n = 0) (hv : v = u.put Reg.MAT.DOM_ERR 0 n) :
    Completes (.domCreate r) s
      { v with mat := { v.mat with domains := Tbl.set v.mat.domains n (v.stagedDomain r.slotOf n) } } := by
  rw [← Mach.acted_plain rfl rfl 1] at hu
  subst hv hu
  refine (congrArg (ok s) (Mach.action_passes hp 1 _)).trans ?_
  simp only [he, bne_self_eq_false, Bool.false_eq_true, if_false, ok, Mach.stagedDomain]

/-- DOM_DISABLE disables an ACTIVE domain of the slot. -/
theorem completes_domDisable {m : Mach} (hm : (u.domain n).elim u (fun d => if d.slot ≠ r.slotOf then u.put Reg.MAT.DOM_ERR 4 n
      else if d.active then (u.put Reg.MAT.DOM_ERR 0 n).disableDomain n 0x08 else u) = m) : Completes (.domDisable r) s m := by
  rw [← Mach.acted_plain rfl rfl 2] at hu
  subst hm hu
  refine (congrArg (ok s) (Mach.action_passes hp 2 _)).trans (congrArg (ok s) ?_)
  simp only [bne_iff_ne]
  cases (s.m.acted r Reg.MAT.DOM_CMD 2).domain n <;> rfl

end DomCmd

/-- Disabling a domain cancels its posted receives, drops its unbound messages with an ABORT for each RTS, and is recorded (R252). -/
theorem Mach.disableDomain_of_domain {m u v w : Mach} {d : Nat} {x : Domain} (h : m.domain d = some x)
    (hu : u = { m with mat := { m.mat with posted := m.mat.posted.filter (fun r => r.domain != d) } })
    (hv : v = (m.mat.posted.filter (fun r => r.domain == d)).foldl
      (fun a r => (a.bump Reg.MAT.CANCELS 1 x.slot).finishWork r.ring r.seq 8 0) u)
    (hw : w = (v.mat.msgs.filter (fun y => y.domain == d && y.stored)).foldl
      (fun a y => if y.rts then a.sendPull y.id y 0 true else a) v) :
    m.disableDomain d 8 = ({ w with mat := { w.mat with
      msgs := w.mat.msgs.filter (fun y => !(y.domain == d && y.stored)),
      domains := (Tbl.set w.mat.domains d { x with active := false }) } }.settleDomain d).record 0x7042 (quadOfSlot x.slot) [d] := by
  subst hw hv hu
  simp only [Mach.disableDomain, h, if_true]

/-! ### A RECV at its MTE (R230, R234, R236, R250) -/

section TakeRecv
variable {m : Mach} {r : Recv} {w : WorkRing}

/-- A RECV needs an ACTIVE domain of its ring's function. -/
theorem Mach.takeRecv_of_barred (h : ∀ d, m.domain r.domain = some d → d.active = false ∨ d.slot ≠ w.slot ∨ d.func ≠ w.func) :
    m.takeRecv r w = m.finishWork r.ring r.seq 0x0B 3 := by
  cases hd : m.domain r.domain with
  | none => simp only [Mach.takeRecv, hd]
  | some d =>
    have barred : (!d.active || d.slot != w.slot || d.func != w.func) = true := by simpa [or_assoc] using h d hd
    simp only [Mach.takeRecv, hd, barred, if_true]

section Admitted
variable {d : Domain} (hd : m.domain r.domain = some d) (ha : d.active = true) (hs : d.slot = w.slot) (hf : d.func = w.func)
include hd ha hs hf

/-- At the limit of posted receives one that finds no message is held, and its ring's scan stops. -/
theorem Mach.takeRecv_of_full {u v : Mach} {q : Nat} (hq : q = quadOfSlot w.slot) (full : 4194304 ≤ m.postedIn q)
    (misses : (m.unexpectedFor { r with ignore := ignoreMask d.commBits r.ignore }).isEmpty = true)
    (hu : u = (m.updWr r.ring (fun w => { w with recvHold := true })).stopScan r.ring w)
    (hv : v = { u with mat := { u.mat with heldRecv := u.mat.heldRecv ++ [r] } }) :
    m.takeRecv r w = ((v.raise 84 .none r.domain q).record 0x7041 q [w.slot, r.domain]).pumpTxe w.slot w.txe := by
  subst hv hu hq
  simp [Mach.takeRecv, hd, ha, hs, hf, full, misses]

theorem Mach.takeRecv_of_room (room : m.postedIn (quadOfSlot w.slot) < 4194304 ∨
      (m.unexpectedFor { r with ignore := ignoreMask d.commBits r.ignore }).isEmpty = false) : m.takeRecv r w = m.post r := by
  have goesOn : ¬ (4194304 ≤ m.postedIn (quadOfSlot w.slot) ∧
      (m.unexpectedFor { r with ignore := ignoreMask d.commBits r.ignore }).isEmpty = true) := by
    rintro ⟨full, misses⟩
    exact room.elim (Nat.not_lt_of_le full) (by simp [misses])
  simp only [Mach.takeRecv, hd, ha, hs, hf, bne_self_eq_false, Bool.not_true, Bool.or_self, Bool.false_eq_true, if_false,
    Bool.and_eq_true, decide_eq_true_eq, goesOn]

end Admitted

end TakeRecv

/-- A receive takes an unexpected message, or joins the posted ones, with the domain's next POST_SEQ (R234, R236). -/
theorem Mach.post_of_domain {m u : Mach} {r r' : Recv} {d : Domain} (hd : m.domain r.domain = some d)
    (hr : r' = { r with order := d.nextPost, ignore := ignoreMask d.commBits r.ignore })
    (hu : u = (fun (m : Mach) => m.matchFlag d.slot r.domain !(m.unexpectedFor r').isEmpty)
      { m with mat := { m.mat with domains := Tbl.set m.mat.domains r.domain { d with nextPost := d.nextPost + 1 } } }) :
    m.post r = (chooseUnexpected (u.unexpectedFor r')).elim { u with mat := { u.mat with posted := u.mat.posted ++ [r'] } }
      (fun x => ((u.bump Reg.MAT.MATCH_POST 1 d.slot).pmcEngine (quadOfSlot d.slot) .mte 0x0B 1).bind x.id r') := by
  subst hr
  simp only [Mach.post, hd, ← hu]
  cases chooseUnexpected (u.unexpectedFor { r with order := d.nextPost, ignore := ignoreMask d.commBits r.ignore }) <;> rfl

/-! ### RECV_RESUME (R250) -/

/-- The oldest RECV that a quadrant holds. -/
def Mach.oldestHeld (m : Mach) (q : Nat) : Option Recv :=
  m.mat.heldRecv.find? (fun r => match m.wr r.ring with | some w => quadOfSlot w.slot == q | none => false)

section RecvResume
variable {s : State} {q : Quad}

theorem completes_recvResume_of_none (h : s.m.oldestHeld q = none) : Completes (.recvResume q) s s.m := by
  change execRecvResume q s = _
  simp only [execRecvResume]
  split
  case h_1 => rfl
  case h_2 r e => exact absurd (e.symm.trans h) (by simp)

/-- Once an entry is free, the oldest RECV held goes to its MTE, and its ring scans on where nothing else of it waits. -/
theorem completes_recvResume {r : Recv} {w : WorkRing} {u m : Mach} (h : s.m.oldestHeld q = some r) (hw : s.m.wr r.ring = some w)
    (hu : u = { s.m with mat := { s.m.mat with heldRecv := s.m.mat.heldRecv.erase r } })
    (hm : (if 4194304 ≤ s.m.postedIn q then s.m
      else if (s.m.mat.heldRecv.erase r).any (fun x => x.ring == r.ring) = true ∨
          (u.takeRecv r w).lka.waiting.any (fun x => x.1 == r.ring) = true then u.takeRecv r w
      else ((u.takeRecv r w).updWr r.ring (fun w => { w with recvHold := false })).readyScan r.ring) = m) :
    Completes (.recvResume q) s m := by
  subst hm hu
  change execRecvResume q s = _
  simp only [execRecvResume]
  split
  case h_1 e => exact absurd (e.symm.trans h) (by simp)
  case h_2 r' e =>
    obtain rfl : r' = r := Option.some.inj (e.symm.trans h)
    simp only [hw, Bool.or_eq_true, ok]

end RecvResume

/-! ### The counters of a slot (Table 9-6) -/

theorem completes_matCntClr {s : State} {r : Requester} {i : Nat} (h : s.m.passes r Reg.MAT.CNT_CLR i = true) :
    Completes (.matCntClr r) s ((s.m.reach r Reg.MAT.CNT_CLR).clear [Reg.MAT.EAGER_MSGS, Reg.MAT.RTS_MSGS, Reg.MAT.MATCH_ARRIVAL,
      Reg.MAT.MATCH_POST, Reg.MAT.ORDER_HELD, Reg.MAT.WILD_SCAN, Reg.MAT.TRUNCATIONS, Reg.MAT.CANCELS, Reg.MAT.UNX_NAKS,
      Reg.MAT.PULLS, Reg.MAT.PULL_ABORTS, Reg.MAT.ABANDONED] r.slotOf) := by
  rw [← Mach.acted_plain rfl rfl 1]
  exact congrArg (ok s) (Mach.action_passes h 1 _)

/-! ### The statement -/

/-- Settles O28: each clause is a case of what stops DOM_CREATE, its command's law, or the law of a RECV at its MTE. -/
theorem domainsAndHeldReceivesDoAsFileNineSays : Obligations.DomainsAndHeldReceivesDoAsFileNineSays := by
  refine ⟨?domCmd, fun m d x u v w => Mach.disableDomain_of_domain, ?takeRecv, ?post, fun s q => completes_recvResume_of_none,
    ?resume, fun s r i => completes_matCntClr⟩
  case domCmd =>
    intro s r n m0 hp hm
    have disables {m : Mach} := completes_domDisable (m := m) hp hm
    refine ⟨fun d hd hs => ⟨completes_domCreate_of_err hp hm ?_ (by decide), disables ?_⟩,
      fun d hd hs => completes_domCreate_of_err hp hm ?_ (by decide), fun hd absent => completes_domCreate_of_err hp hm ?_ (by decide),
      fun u hd present => completes_domCreate_of_good hp hm ?_, fun d hd hs ha => disables ?_, fun d hd hs ha => disables ?_,
      fun hd => disables (by rw [hd]; rfl)⟩
    · rw [Mach.domErr_of_domain hd, if_neg hs]
    · rw [hd, Option.elim_some, if_pos hs]
    · rw [Mach.domErr_of_domain hd, if_pos hs]
    · rw [Mach.domErr_of_free hd, if_neg (by simp [absent])]
    · rw [Mach.domErr_of_free hd, if_pos present]
    · rw [hd, Option.elim_some, if_neg (· hs), if_pos ha]
    · rw [hd, Option.elim_some, if_neg (· hs), if_neg (by simp [ha])]
  case takeRecv =>
    intro m r w q hq
    refine ⟨fun hn => Mach.takeRecv_of_barred (by simp [hn]), fun d hd => ⟨fun barred => Mach.takeRecv_of_barred ?_,
      fun u v ha hs hf full misses => Mach.takeRecv_of_full hd ha hs hf hq full misses, fun ha hs hf room => ?_⟩⟩
    · rintro _ hd'
      exact Option.some.inj (hd.symm.trans hd') ▸ barred
    · exact Mach.takeRecv_of_room hd ha hs hf (hq ▸ room)
  case post =>
    intro m u r r' d hd hr hu
    have posts := Mach.post_of_domain hd hr hu
    exact ⟨fun x hx => by rw [posts, hx]; rfl, fun hn => by rw [posts, hn]; rfl⟩
  case resume =>
    intro s q r w u hh hw hu
    have resumes {m : Mach} := completes_recvResume (m := m) hh hw hu
    refine ⟨fun full => resumes (if_pos full), fun room others => resumes ?_, fun room alone free => resumes ?_⟩
    · rw [if_neg (Nat.not_le_of_lt room), if_pos others]
    · rw [if_neg (Nat.not_le_of_lt room), if_neg (by simp [alone, free])]

end Sys2Proof.Machine
end

section
/-! Integer folds (R267): a sum wraps, and a minimum or a maximum is one of its operands, by the order of the DTYPE. -/

namespace Sys2Proof.Machine

/-! ### The fold of two integers (R267) -/

section CombineInt
variable (n x y : Nat)

theorem combineInt_sum (signed : Bool) : combineInt n signed 0 x y = (x + y) % 2 ^ n := rfl

theorem combineInt_min_of_unsigned : combineInt n false 1 x y = min x y := by
  simp only [combineInt, Bool.false_eq_true, if_false, decide_eq_true_eq]
  split <;> omega

theorem combineInt_max_of_unsigned : combineInt n false 2 x y = max x y := by
  simp only [combineInt, Bool.false_eq_true, if_false, decide_eq_true_eq]
  split <;> omega

/-- A signed minimum is an operand whose value is the minimum of the operands' values. -/
theorem combineInt_min_of_signed :
    toSigned n (combineInt n true 1 x y) = min (toSigned n x) (toSigned n y) ∧
      (combineInt n true 1 x y = x ∨ combineInt n true 1 x y = y) := by
  simp only [combineInt, if_true, decide_eq_true_eq]
  split
  case isTrue below => exact ⟨(Int.min_eq_right (Int.le_of_lt below)).symm, Or.inr rfl⟩
  case isFalse above => exact ⟨(Int.min_eq_left (Int.not_lt.1 above)).symm, Or.inl rfl⟩

/-- So is a signed maximum. -/
theorem combineInt_max_of_signed :
    toSigned n (combineInt n true 2 x y) = max (toSigned n x) (toSigned n y) ∧
      (combineInt n true 2 x y = x ∨ combineInt n true 2 x y = y) := by
  simp only [combineInt, if_true, decide_eq_true_eq]
  split
  case isTrue below => exact ⟨(Int.max_eq_right (Int.le_of_lt below)).symm, Or.inr rfl⟩
  case isFalse above => exact ⟨(Int.max_eq_left (Int.not_lt.1 above)).symm, Or.inl rfl⟩

end CombineInt

/-- The integer DTYPEs are 32 and then 64 bits wide, the even ones signed (Table 10-3). -/
theorem combine_of_integer {d : Nat} (hd : d < 4) (redop x y : Nat) (p : Bool) :
    combine d redop p x y = (combineInt (if d < 2 then 32 else 64) (d % 2 = 0) redop x y, 0) := by
  have width : 8 * elemSize d = if d < 2 then 32 else 64 := by
    match d, hd with
    | 0, _ | 1, _ | 2, _ | 3, _ => rfl
  rw [combine, if_pos hd, width]

/-! ### The statement -/

/-- Settles O29: on an integer DTYPE a fold is `combineInt` of its width and sign, without flags. -/
theorem integerFoldsWrapAndCompareAsTheirTypeSays : Obligations.IntegerFoldsWrapAndCompareAsTheirTypeSays := by
  rintro d redop x y n p hd rfl - -
  simp only [combine_of_integer hd]
  refine ⟨trivial, combineInt_sum _ x y _, fun unsigned => ?unsigned, fun signed => ?signed⟩
  case unsigned =>
    have odd : decide (d % 2 = 0) = false := by rcases unsigned with rfl | rfl <;> rfl
    rw [odd]
    exact ⟨combineInt_min_of_unsigned _ x y, combineInt_max_of_unsigned _ x y⟩
  case signed =>
    have even : decide (d % 2 = 0) = true := by rcases signed with rfl | rfl <;> rfl
    rw [even]
    obtain ⟨least, leastIs⟩ := combineInt_min_of_signed (if d < 2 then 32 else 64) x y
    obtain ⟨most, mostIs⟩ := combineInt_max_of_signed (if d < 2 then 32 else 64) x y
    exact ⟨least, most, leastIs, mostIs⟩

end Sys2Proof.Machine
end

section
/-! COLL entries at their CLE (file 10): which are valid (R265), how one joins its group (R261, R262), the comparison of parameters
(R263), and the completion of a rank's first operation (R264). -/

namespace Sys2Proof.Machine

/-! ### Valid parameters (R261, R262, R265) -/

theorem redopAllowed_iff {d redop : Nat} : redopAllowed d redop = true ↔ redop ≤ 2 ∨ (redop ≤ 5 ∧ d < 4) := by
  simp only [redopAllowed, Bool.or_eq_true, Bool.and_eq_true, decide_eq_true_eq]

/-- Each parameter is looked at only where the operation uses it. -/
theorem collValid_iff {op d redop root size : Nat} {promote : Bool} : collValid op d redop promote root size = true ↔
    op ≤ 3 ∧ (op ≠ 0 → d ≤ 7) ∧ (op = 1 ∨ op = 2 → root < size) ∧
    (2 ≤ op → (redop ≤ 2 ∨ (redop ≤ 5 ∧ d < 4)) ∧ (promote = true → d = 4 ∨ d = 5)) := by
  simp only [collValid, Bool.and_eq_true, Bool.or_eq_true, Bool.not_eq_true', ← Bool.not_eq_true, decide_eq_true_eq,
    redopAllowed_iff, and_assoc]
  refine and_congr_right fun _ => and_congr ?dtype (and_congr ?root ?reduces)
  case dtype => omega
  case root => omega
  case reduces => cases promote <;> simp <;> omega

/-! ### A COLL joins its group (R261, R262) -/

section StartColl
variable {m : Mach} {ring seq n : Nat} {w : WorkRing} {e : Entry} {op d redop root src dst count : Nat} {promote : Bool}
  (hb : e.body = .coll op d redop promote root src dst count) (hn : n = e.arg % 4096)
include hb hn

theorem Mach.startColl_of_absent (hg : m.grp n = none) : m.startColl ring seq w e = m.finishWork ring seq 0x0B 3 := by
  subst hn
  simp only [Mach.startColl, hb, hg]

theorem Mach.startColl_of_stranger {g : CollGroup} (hg : m.grp n = some g) (hk : g.ranks.find? (fun k => k.slot == w.slot) = none) :
    m.startColl ring seq w e = m.finishWork ring seq 0x0B 3 := by
  subst hn
  simp only [Mach.startColl, hb, hg, hk]

/-- An entry of a local rank joins unless the group's table is being read, the group is aborted, or the entry is not valid. -/
theorem Mach.startColl_of_rank {g : CollGroup} {k : CollRank} {o : CollOp} (hg : m.grp n = some g)
    (hk : g.ranks.find? (fun k => k.slot == w.slot) = some k)
    (ho : o = { seq := k.nextSeq, ring := ring, work := seq, op := op, dtype := d, redop := redop, promote := promote && decide (2 ≤ op),
                root := root, count := if op = 0 then 0 else count, src := src, dst := dst, pd := w.pd, func := w.func, post := m.clk }) :
    m.startColl ring seq w e =
      if g.reading = true then m.finishWork ring seq 0x0B 3
      else if g.aborted.isSome = true then m.finishWork ring seq 0x05 0
      else if collValid op d redop promote root g.size = false then m.finishWork ring seq 0x0B 3
      else ((m.updRank n k.rank (fun k => { k with
        ops := k.ops ++ [o], nextSeq := (k.nextSeq + 1) % 65536 })).collCompare n k.rank).collRun n := by
  subst ho hn
  simp only [Mach.startColl, hb, hg, hk, Bool.not_eq_true']

end StartColl

/-! ### The comparison at a rank (R263) -/

/-- A mismatch at a local rank is recorded and aborts its group with reason 3. -/
theorem Mach.collCompare_of_rank {m : Mach} {n r : Nat} {g : CollGroup} {k : CollRank} (hg : m.grp n = some g) (hk : g.rank r = some k) :
    m.collCompare n r = (g.mismatch k).elim m (fun peer => (m.record 0x7053 g.homeQ [n, r, peer]).collAbort n 3) := by
  simp only [Mach.collCompare, hg, hk, Option.bind_some]
  cases g.mismatch k <;> rfl

/-! ### The completion of a rank's first operation (R264) -/

/-- LENGTH and DATA are those of a result that the rank received. -/
theorem Mach.moveEnd_of_first {m : Mach} {n : Nat} {g : CollGroup} {k : CollRank} {o : CollOp} {l : List CollOp} (hk : k.ops = o :: l) :
    m.moveEnd n g k =
      if g.finished k.rank o = false then none
      else if o.op = 0 ∨ o.receives k.rank = false then some (m.endColl n k.rank o 0 0 0 0)
      else some (m.endColl n k.rank o 0 0 o.flags (o.count * elemSize o.dtype)) := by
  simp only [Mach.moveEnd, hk, Bool.not_eq_true', Bool.or_eq_true, decide_eq_true_eq]

/-! ### The statement -/

/-- Settles O32: each clause is a case of which entries are valid, or of the law of joining, of comparing, or of completing. -/
theorem collEntriesJoinTheirGroup : Obligations.CollEntriesJoinTheirGroup := by
  refine ⟨fun op d redop root size promote => collValid_iff, ?joins, fun m n g r k hg hk => ?compares, fun m n g k o l hk => ?ends⟩
  case joins =>
    intro m ring seq w e op d redop root src dst count n promote hb hn
    refine ⟨Mach.startColl_of_absent hb hn, fun g hg => ⟨Mach.startColl_of_stranger hb hn hg, fun k hk => ?_⟩⟩
    have joins {o : CollOp} := Mach.startColl_of_rank (ring := ring) (seq := seq) (o := o) hb hn hg hk
    refine ⟨fun reading => ?_, fun reason ready aborted => ?_, fun ready live bad => ?_, fun o ready live valid ho => ?_⟩
    · rw [joins rfl, if_pos reading]
    · rw [joins rfl, if_neg (by simp [ready]), if_pos (by simp [aborted])]
    · rw [joins rfl, if_neg (by simp [ready]), if_neg (by simp [live]), if_pos bad]
    · rw [joins ho, if_neg (by simp [ready]), if_neg (by simp [live]), if_neg (by simp [valid])]
  case compares =>
    have compares := Mach.collCompare_of_rank hg hk
    exact ⟨fun agree => by rw [compares, agree]; rfl, fun peer differ => by rw [compares, differ]; rfl⟩
  case ends =>
    have ends := Mach.moveEnd_of_first (m := m) (n := n) (g := g) hk
    refine ⟨fun unfinished => ends.trans (if_pos unfinished), fun finished empty => ?_, fun finished op receives => ?_⟩
    · rw [ends, if_neg (by simp [finished]), if_pos empty]
    · rw [ends, if_neg (by simp [finished]), if_neg (by simp [op, receives])]

end Sys2Proof.Machine
end

section
/-! Groups of file 10: GRP_CMD (R258, R278, Table 10-9), the rank table's read and check (R258, R259), a group's abort (R277), and the
counters of Table 10-9. -/

namespace Sys2Proof.Machine

/-! ### GRP_CREATE (R258) -/

/-- GRP_CREATE stores what bars a group that is not FREE, and creates any other. -/
theorem completes_grpCreate {s : State} {r : Requester} {n : Nat} {u m : Mach} (hp : s.m.passes r Reg.COL.GRP_CMD n = true)
    (hu : u = s.m.reach r Reg.COL.GRP_CMD)
    (hm : (Tbl.find u.groups n).elim (u.createGroup n r.slotOf) (fun g =>
      if u.grpFree n = true then u.createGroup n r.slotOf
      else u.put Reg.COL.GRP_ERR (if g.slot = r.slotOf then 2 else 4) n) = m) : Completes (.grpCreate r) s m := by
  subst hm
  have acts : s.m.acted r Reg.COL.GRP_CMD 1 = u := (Mach.acted_plain rfl rfl 1).trans hu.symm
  refine (congrArg (ok s) (Mach.action_passes hp 1 _)).trans (congrArg (ok s) ?_)
  rw [acts]
  cases Tbl.find u.groups n with
  | none => rfl
  | some g =>
    cases u.grpFree n with
    | true => simp
    | false => by_cases own : g.slot = r.slotOf <;> simp [own]

/-- The group that the staging fields describe, while its rank table is read (R258). -/
def Mach.stagedGroup (m : Mach) (slot fn n : Nat) : CollGroup :=
  { slot := slot, pd := m.get Reg.COL.GRP_PD n, func := fn, homeQ := m.get Reg.COL.HOME_Q n, gen := m.get Reg.COL.GEN n,
    window := clamp 1 64 (m.get Reg.COL.WINDOW n), size := m.get Reg.COL.GRP_SIZE n, reading := true }

/-- The read of a group's rank table (R258). -/
def Mach.tableAccess (m : Mach) (n : Nat) (g : CollGroup) : HostOp :=
  { slot := g.slot, func := g.func, pd := g.pd, va := m.get64 Reg.COL.RANKTAB_LO Reg.COL.RANKTAB_HI n, len := 8 * g.size, kind := 2,
    data := none, purpose := .rankTable n }

/-- A creation goes on as its table's read does: a translation fault fails it. -/
def Mach.afterSent (n : Nat) : Mach × HostResult → Mach
  | (v, .fault _) => v.tableFailed n
  | (v, _) => v

section CreateGroup
variable {m : Mach} {n slot : Nat}

theorem Mach.createGroup_of_badSize (h : m.get Reg.COL.GRP_SIZE n = 0 ∨ 1048576 < m.get Reg.COL.GRP_SIZE n) :
    m.createGroup n slot = m.put Reg.COL.GRP_ERR 1 n :=
  if_pos (by simpa using h)

variable (hmin : 1 ≤ m.get Reg.COL.GRP_SIZE n) (hmax : m.get Reg.COL.GRP_SIZE n ≤ 1048576)
include hmin hmax

/-- A group of a good size needs a PD of the requester's slot. -/
theorem Mach.createGroup_of_badPd (h : ∀ p, Tbl.find m.xlt.pds (m.get Reg.COL.GRP_PD n) = some p → p.slot ≠ slot) :
    m.createGroup n slot = m.put Reg.COL.GRP_ERR 3 n := by
  refine (if_neg (by simp; omega)).trans ?_
  cases hpd : Tbl.find m.xlt.pds (m.get Reg.COL.GRP_PD n) with
  | none => rfl
  | some p => exact if_pos (bne_iff_ne.2 (h p hpd))

/-- With both, the group's table is read, unless that read ends at once in a translation fault. -/
theorem Mach.createGroup_of_pd {p : Pd} {u : Mach} (hpd : Tbl.find m.xlt.pds (m.get Reg.COL.GRP_PD n) = some p) (hs : p.slot = slot)
    (hu : u = { m with groups := Tbl.set m.groups n (m.stagedGroup slot p.func n) }.put Reg.COL.GRP_ERR 0 n) :
    m.createGroup n slot = Mach.afterSent n (u.hostAccess (u.tableAccess n (m.stagedGroup slot p.func n))) := by
  subst hu
  refine (if_neg (by simp; omega)).trans ?_
  simp only [hpd, hs, bne_self_eq_false, Bool.false_eq_true, if_false]
  rfl

end CreateGroup

/-! ### GRP_DESTROY and GRP_ABORT (R277, R278) -/

/-- What a command does to group `n`: `act` where it is the requester's, and its table has been read (R258, R259). -/
def Mach.onGrp (m : Mach) (r : Requester) (n : Nat) (act : CollGroup → Mach) : Mach :=
  match m.grp n with
  | none => m
  | some g =>
    if g.slot != r.slotOf then m.put Reg.COL.GRP_ERR 4 n
    else if g.reading then m.put Reg.COL.GRP_ERR 2 n
    else act g

/-- Command `i` is the value `v` of GRP_CMD, and does `act` on a group of the requester's slot whose table has been read. -/
def ActsOnGrp (i : Instr) (r : Requester) (v : Nat) (act : Mach → Nat → CollGroup → Mach) : Prop :=
  ∀ s : State, exec i s = ok s (s.m.action r Reg.COL.GRP_CMD v (fun m n => m.onGrp r n (act m n)))

section ActsOnGrp
variable {i : Instr} {s : State} {r : Requester} {v n : Nat} {act : Mach → Nat → CollGroup → Mach} {u : Mach}
  (hi : ActsOnGrp i r v act) (hp : s.m.passes r Reg.COL.GRP_CMD n = true) (hu : u = s.m.reach r Reg.COL.GRP_CMD)
include hi hp hu

theorem ActsOnGrp.completes {m : Mach} (hm : u.onGrp r n (act u n) = m) : Completes i s m := by
  rw [← Mach.acted_plain rfl rfl v] at hu
  subst hu hm
  exact (hi s).trans (congrArg (ok s) (Mach.action_passes hp v _))

theorem ActsOnGrp.completes_of_free (hg : u.grp n = none) : Completes i s u :=
  hi.completes hp hu (by simp only [Mach.onGrp, hg])

variable {g : CollGroup} (hg : u.grp n = some g)
include hg

theorem ActsOnGrp.completes_of_foreign (hs : g.slot ≠ r.slotOf) : Completes i s (u.put Reg.COL.GRP_ERR 4 n) :=
  hi.completes hp hu (by simp only [Mach.onGrp, hg, bne_iff_ne.2 hs, if_true])

theorem ActsOnGrp.completes_of_reading (hs : g.slot = r.slotOf) (hr : g.reading = true) :
    Completes i s (u.put Reg.COL.GRP_ERR 2 n) :=
  hi.completes hp hu (by simp only [Mach.onGrp, hg, hs, hr, bne_self_eq_false, Bool.false_eq_true, if_false, if_true])

theorem ActsOnGrp.completes_of_ready (hs : g.slot = r.slotOf) (hr : g.reading = false) : Completes i s (act u n g) :=
  hi.completes hp hu (by simp only [Mach.onGrp, hg, hs, hr, bne_self_eq_false, Bool.false_eq_true, if_false])

end ActsOnGrp

section GrpCmd
variable (r : Requester)

/-- The completions that a group's outstanding operations still owe, as ring and WORK_ID (R278). -/
def Mach.owed (m : Mach) (g : CollGroup) : List (Nat × Nat) :=
  g.ranks.flatMap (fun k => k.ops.filterMap (fun o => (m.workAt o.ring o.work).map (fun w => (o.ring, w.entry.workId))))

theorem actsOnGrp_grpDestroy : ActsOnGrp (.grpDestroy r) r 2 (fun m n g =>
    (((if (m.owed g).isEmpty then m else m.collAbort n 5).put Reg.COL.GRP_ERR 0 n).updGrp n
      (fun x => { x with ranks := [], edges := [], dying := some (m.owed g) })).record 0x7052 g.homeQ [n]) :=
  fun _ => rfl

theorem actsOnGrp_grpAbort : ActsOnGrp (.grpAbort r) r 3 (fun m n _ => (m.put Reg.COL.GRP_ERR 0 n).collAbort n 5) :=
  fun _ => rfl

end GrpCmd

/-! ### The rank table comes (R259) -/

section TableRead
variable {m : Mach} {n : Nat} {g : CollGroup} {data : List Byte} (hg : m.grp n = some g) (hr : g.reading = true)
include hg hr

theorem Mach.tableRead_of_bad (h : m.tableErr n g (rankEntries g.size data) ≠ 0) :
    m.tableRead n data = m.grpFail n (m.tableErr n g (rankEntries g.size data)) := by
  simp only [Mach.tableRead, hg, hr, Bool.not_true, Bool.false_eq_true, if_false]
  exact if_pos (bne_iff_ne.2 h)

/-- The edges of local ranks, one to each tree neighbour, with the neighbour's EID of the table (R259). -/
def tableEdges (t : List (Nat × Nat)) (ranks : List CollRank) : Tbl CollEdge :=
  (ranks.flatMap (fun k => k.neighbours.map (fun p =>
    (edgeKey k.rank p false, ({ eid := (t.getD p (0, 0)).1 } : CollEdge))))).foldl (fun a e => Tbl.set a e.1 e.2) []

/-- A group whose table `t` has been read, in module `da`. -/
def CollGroup.tabled (g : CollGroup) (da : Nat) (t : List (Nat × Nat)) : CollGroup :=
  { g with reading := false, eids := t.map (·.1), ranks := localRanks da t, edges := tableEdges t (localRanks da t) }

/-- A good table makes its group ACTIVE. -/
theorem Mach.tableRead_of_good (h : m.tableErr n g (rankEntries g.size data) = 0) :
    m.tableRead n data = { m with groups := Tbl.set m.groups n (g.tabled m.ownDa (rankEntries g.size data)) }.record 0x7051 g.homeQ
      [n, (localRanks m.ownDa (rankEntries g.size data)).length] := by
  simp only [Mach.tableRead, hg, hr, h, Bool.not_true, bne_self_eq_false, Bool.false_eq_true, if_false]
  rfl

end TableRead

/-! ### A group aborts (R277) -/

section CollAbort
variable {m : Mach} {n reason : Nat} {g : CollGroup} (hg : m.grp n = some g)
include hg

theorem Mach.collAbort_of_aborted (ha : g.aborted.isSome = true) : m.collAbort n reason = m := by
  simp only [Mach.collAbort, hg, ha, if_true]

/-- The first abort of a group stops it, spreads, ends its operations with ABORTED, and is reported. -/
theorem Mach.collAbort_of_live {u : Mach} (ha : g.aborted = none)
    (hu : u = g.ranks.foldl (fun a k => k.ops.foldl (fun a o => a.endColl n k.rank o 5 0 0 0) a)
      ((m.updGrp n (fun g => g.stop reason)).spreadAbort n reason none)) :
    m.collAbort n reason =
      ((u.bump Reg.COL.ABORTS 1 g.homeQ).raise 85 .none (65536 * reason + n) g.homeQ).record 0x7050 g.homeQ [n, reason] := by
  subst hu
  simp only [Mach.collAbort, hg, ha, Option.isSome_none, Bool.false_eq_true, if_false]

end CollAbort

/-! ### The counters of a quadrant (Table 10-9) -/

theorem completes_colCntClr {s : State} {r : Requester} {q : Nat} (h : s.m.passes r Reg.COL.CNT_CLR q = true) :
    Completes (.colCntClr r) s ((s.m.reach r Reg.COL.CNT_CLR).clear [Reg.COL.OPS_DONE, Reg.COL.CHUNKS_UP, Reg.COL.CHUNKS_DOWN,
      Reg.COL.FOLDS, Reg.COL.NAKS_SENT, Reg.COL.RESENDS, Reg.COL.DUP_DROP, Reg.COL.PROTO_DROP, Reg.COL.STALE, Reg.COL.ABORTS,
      Reg.COL.FP_EXC_FOLDS] q) := by
  rw [← Mach.acted_plain rfl rfl 1]
  exact congrArg (ok s) (Mach.action_passes h 1 _)

/-! ### The statement -/

/-- Settles O31: each clause is a case of a command's law, of the creation of a group, of its table's reading, or of its abort. -/
theorem groupsAreCreatedAbortedAndDestroyed : Obligations.GroupsAreCreatedAbortedAndDestroyed := by
  refine ⟨fun s r n m0 hp hm => ?commands, fun m n slot => ⟨Mach.createGroup_of_badSize, fun hmin hmax => ?creates⟩,
    fun m n g data hg hr => ⟨Mach.tableRead_of_bad hg hr, fun good => ⟨_, Mach.tableRead_of_good hg hr good, rfl, rfl, rfl, rfl⟩⟩,
    fun m u n reason g hg => ⟨Mach.collAbort_of_aborted hg, Mach.collAbort_of_live hg⟩, fun s r q => completes_colCntClr⟩
  case commands =>
    have creates {m : Mach} := completes_grpCreate (m := m) hp hm
    have destroy := actsOnGrp_grpDestroy r
    have abort := actsOnGrp_grpAbort r
    refine ⟨fun g hg busy => ⟨fun foreign => creates ?_, fun own => creates ?_⟩, fun free => creates ?_,
      fun hg => ⟨destroy.completes_of_free hp hm hg, abort.completes_of_free hp hm hg⟩,
      fun g hg => ⟨fun foreign => ⟨destroy.completes_of_foreign hp hm hg foreign, abort.completes_of_foreign hp hm hg foreign⟩,
        fun own reading => ⟨destroy.completes_of_reading hp hm hg own reading, abort.completes_of_reading hp hm hg own reading⟩,
        fun own ready => ⟨abort.completes_of_ready hp hm hg own ready, ?_⟩⟩⟩
    · rw [hg, Option.elim_some, if_neg (by simp [busy]), if_neg foreign]
    · rw [hg, Option.elim_some, if_neg (by simp [busy]), if_pos own]
    · rcases free with absent | free
      · rw [absent]; rfl
      · cases Tbl.find m0.groups n with
        | none => rfl
        | some g => exact if_pos free
    · rintro works rfl
      exact destroy.completes_of_ready hp hm hg own ready
  case creates =>
    refine ⟨fun missing => Mach.createGroup_of_badPd hmin hmax (by simp [missing]),
      fun p hpd => ⟨fun foreign => Mach.createGroup_of_badPd hmin hmax (by simpa [hpd] using foreign), ?_⟩⟩
    intro u v f own hu hf
    have sends := (Mach.createGroup_of_pd hmin hmax hpd own hu).trans (congrArg (Mach.afterSent n) hf)
    refine ⟨fun going => ?_, fun x hx => ?_⟩
    · rcases going with rfl | rfl <;> exact sends
    · subst hx
      exact sends

end Sys2Proof.Machine
end

section
/-! Collective packets and the timers of their edges (file 10): which packets reach their group (R260, R273), chunks, credits, NAKs and
ABORTs (R274, R275, R277), and the timers of R274, R275 and R277. -/

namespace Sys2Proof.Machine

/-! ### A command that brings a collective packet -/

/-- Command `i` brings packet `k` as one of `kinds`, and does `act` with one that reaches its group. -/
def BringsColl (i : Instr) (k : Packet) (kinds : List Nat) (act : Mach → Nat → CollGroup → Nat → CollHdr → Mach) : Prop :=
  ∀ s : State, exec i s = ok s (s.m.collPkt k kinds act)

/-- Five commands bring collective packets (Table 10-6). -/
theorem collective_of_brings {k : Packet} {s : State} {m : Mach}
    (h : ∀ i kinds act, BringsColl i k kinds act → kinds.contains k.hdr.kind = true → Completes i s m) : Collective k s m := by
  refine ⟨fun hk => h _ _ _ (fun _ => rfl) ?_, fun hk => h _ _ _ (fun _ => rfl) ?_, fun hk => h _ _ _ (fun _ => rfl) ?_,
    fun hk => h _ _ _ (fun _ => rfl) ?_, fun hk => h _ _ _ (fun _ => rfl) ?_⟩
  · rcases hk with hk | ⟨lo, hi⟩
    · simp [hk]
    · exact List.contains_iff_mem.2 (List.mem_cons_of_mem _ (List.mem_map.2 ⟨k.hdr.kind - 0x15, by simp; omega, by omega⟩))
  all_goals simp [hk]

section Delivered
variable {m : Mach} {k : Packet} {kinds : List Nat} {act : Mach → Nat → CollGroup → Nat → CollHdr → Mach}
  (hk : kinds.contains k.hdr.kind = true)
include hk

/-- A packet that is not delivered is at most kept back. -/
theorem Mach.collPkt_of_undelivered (hd : m.delivered k = none) : m.collPkt k kinds act = m.keepBack k := by
  simp only [Mach.collPkt, hk, hd, Bool.not_true, Bool.false_eq_true, if_false]
  cases k.body <;> rfl

variable {h : CollHdr} {u : Mach} (hb : k.body = .coll h) (hd : m.delivered k = some u)
include hb hd

theorem Mach.collPkt_of_noGroup (hg : u.grp (h.group % 4096) = none) : m.collPkt k kinds act = u := by
  simp only [Mach.collPkt, hk, hb, hd, hg, Bool.not_true, Bool.false_eq_true, if_false]

/-- A packet for a group acts where its fields are sound, its GEN is the group's, and it comes by an edge of the local rank it is for
(R260, R262, R273). -/
theorem Mach.collPkt_of_group {g : CollGroup} (hg : u.grp (h.group % 4096) = some g) : m.collPkt k kinds act =
    if g.reading = true then u
    else if 0x14 < k.hdr.kind ∨ h.zero k.hdr.kind = false ∨ k.hdr.zero = false then u.bump Reg.COL.PROTO_DROP 1 g.homeQ
    else if h.gen ≠ g.gen then u.bump Reg.COL.STALE 1 g.homeQ
    else (g.ranks.find? (fun r => g.eids.getD r.rank 0 == k.hdr.dst)).elim (u.bump Reg.COL.PROTO_DROP 1 g.homeQ) (fun r =>
      if g.hasEdge r k.hdr.kind h = true ∧ g.eids.getD h.srcRank 0 = k.hdr.src then
        act u (h.group % 4096) g (edgeKey r.rank h.srcRank h.x) h
      else u.bump Reg.COL.PROTO_DROP 1 g.homeQ) := by
  simp only [Mach.collPkt, hk, hb, hd, hg, Bool.not_true, Bool.false_eq_true, if_false, Bool.or_eq_true, decide_eq_true_eq,
    Bool.not_eq_true', bne_iff_ne, or_assoc, Bool.and_eq_true, beq_iff_eq]
  cases g.ranks.find? (fun r => g.eids.getD r.rank 0 == k.hdr.dst) <;> rfl

end Delivered

section NoEngine
variable {s : State} {k : Packet}

theorem collective_of_undelivered {m : Mach} (hd : s.m.delivered k = none) (hm : s.m.keepBack k = m) : Collective k s m := by
  subst hm
  exact collective_of_brings fun _ _ _ hi hk => (hi s).trans (congrArg (ok s) (Mach.collPkt_of_undelivered hk hd))

/-- What a delivered packet does without regard to its kind's effect. -/
theorem collective_of_drop {m : Mach} (h : ∀ kinds act, kinds.contains k.hdr.kind = true → s.m.collPkt k kinds act = m) :
    Collective k s m :=
  collective_of_brings fun _ kinds act hi hk => (hi s).trans (congrArg (ok s) (h kinds act hk))

end NoEngine

/-! ### Packets that reach their group (R274, R275, R277) -/

theorem BringsColl.completes_of_reaches {i : Instr} {s : State} {k : Packet} {kinds : List Nat} {h : CollHdr} {u m : Mach} {n ek : Nat}
    {g : CollGroup} {act : Mach → Nat → CollGroup → Nat → CollHdr → Mach} (hi : BringsColl i k kinds act)
    (hk : kinds.contains k.hdr.kind = true) (hb : k.body = .coll h) (hr : s.m.reaches k h = some (u, n, g, ek))
    (hm : act u n g ek h = m) : Completes i s m := by
  subst hm
  exact (hi s).trans (congrArg (ok s) (Mach.collPkt_reaches hk hb hr act))

/-- A chunk changes nothing in an aborted group (R277). -/
theorem Mach.collChunk_of_aborted {u : Mach} {k : Packet} {h : CollHdr} {n ek reason : Nat} {g : CollGroup}
    (ha : g.aborted = some reason) : u.collChunk k n g ek h = u :=
  if_pos (by simp [ha])

theorem Mach.collChunk_of_live {u : Mach} {k : Packet} {h : CollHdr} {n ek : Nat} {g : CollGroup} (ha : g.aborted = none) :
    u.collChunk k n g ek h = ((u.edgeRecv n ek (pktChunk k h)).collRun n).edgeCheck n ek :=
  if_neg (by simp [ha])

section Reached
variable {s : State} {k : Packet} {h : CollHdr} {u m : Mach} {n ek : Nat} {g : CollGroup} (hb : k.body = .coll h)
  (hr : s.m.reaches k h = some (u, n, g, ek))
include hb hr

theorem completes_collUp (hk : k.hdr.kind = 0x10) (hm : u.collChunk k n g ek h = m) : Completes (.collUp k) s m :=
  BringsColl.completes_of_reaches (fun _ => rfl) (by simp [hk]) hb hr hm

theorem completes_collDown (hk : k.hdr.kind = 0x11) (hm : u.collChunk k n g ek h = m) : Completes (.collDown k) s m :=
  BringsColl.completes_of_reaches (fun _ => rfl) (by simp [hk]) hb hr hm

theorem completes_collCredit (hk : k.hdr.kind = 0x12)
    (hm : (if g.aborted.isSome = true then u else (u.applyCredit n ek h.esn).collRun n) = m) : Completes (.collCredit k) s m :=
  BringsColl.completes_of_reaches (fun _ => rfl) (by simp [hk]) hb hr hm

/-- A NAK resends from a chunk that is still kept (R275). -/
theorem completes_collNak (hk : k.hdr.kind = 0x13)
    (hm : (if g.aborted = none ∧ (g.edge ek).kept.any (fun c => c.esn == h.esn) = true then u.edgeResend n ek h.esn else u) = m) :
    Completes (.collNak k) s m := by
  subst hm
  refine BringsColl.completes_of_reaches (fun _ => rfl) (by simp [hk]) hb hr ?_
  simp only [Bool.and_eq_true, Option.isNone_iff_eq_none]

section Abort
variable {first : Nat} (hk : k.hdr.kind = 0x14)
  (hf : first = ((g.rank (edgeRank ek)).map (fun (r : CollRank) => r.firstSeq)).getD 0)
include hk hf

/-- An ABORT is echoed to its sender, and aborts the group with its reason (R277). -/
theorem completes_collAbort_of_live (ha : g.aborted = none) : Completes (.collAbort k) s
    (((u.updEdge n ek (fun e => { e with answered := true })).sendAbort n ek h.reason first true).collAbort n h.reason none (some ek)) := by
  subst hf
  refine BringsColl.completes_of_reaches (fun _ => rfl) (by simp [hk]) hb hr ?_
  simp only [ha]

/-- In an aborted group it is its sender's answer, itself answered where the sender asks again (R277). -/
theorem completes_collAbort_of_aborted {reason : Nat} {v : Mach} (ha : g.aborted = some reason)
    (hv : v = u.updEdge n ek (fun e => { e with answered := true, abortAt := none }))
    (hm : (if (g.edge ek).answered = true ∧ h.echo = false then v.sendAbort n ek reason first true else v) = m) :
    Completes (.collAbort k) s m := by
  subst hf hv hm
  refine BringsColl.completes_of_reaches (fun _ => rfl) (by simp [hk]) hb hr ?_
  simp only [ha, Bool.and_eq_true, Bool.not_eq_true']

end Abort

end Reached

/-! ### Chunks and credits on an edge (R263, R274) -/

section Edge
variable {m : Mach} {n ek : Nat} {g : CollGroup} (hg : m.grp n = some g)
include hg

/-- A chunk is stored in its slot of the window and compared; one that was handled or is held already is credited again. -/
theorem Mach.edgeRecv_of_group {c : CollChunk} : m.edgeRecv n ek c =
    if behind32 c.esn (g.edge ek).rCum = true ∨ (g.edge ek).slots.any (fun x => x.esn == c.esn) = true then
      (m.bump Reg.COL.DUP_DROP 1 g.homeQ).sendCredit n ek
    else if g.window ≤ sub32 c.esn (g.edge ek).rCum then m.bump Reg.COL.PROTO_DROP 1 g.homeQ
    else (m.updEdge n ek (fun e => { e with slots := e.slots ++ [c] })).collCompare n (edgeRank ek) := by
  simp only [Mach.edgeRecv, hg, Bool.or_eq_true]

/-- A change of an edge is what it makes of the edge as it stands. -/
theorem Mach.updEdge_congr {f f' : CollEdge → CollEdge} (h : f (g.edge ek) = f' (g.edge ek)) :
    m.updEdge n ek f = m.updEdge n ek f' := by
  simp only [Mach.updEdge, Mach.updGrp, hg, h]

theorem Mach.applyCredit_of_stale {cum : Nat} (h : sub32 cum (g.edge ek).sCum = 0 ∨
    sub32 (g.edge ek).sNext (g.edge ek).sCum < sub32 cum (g.edge ek).sCum) : m.applyCredit n ek cum = m := by
  simp only [Mach.applyCredit, hg]
  exact if_pos (by simpa using h)

/-- A credit of chunks that were sent frees them, and ends the rounds. -/
theorem Mach.applyCredit_of_sent {cum : Nat} {kept : List CollChunk} {e : CollEdge} (h0 : 0 < sub32 cum (g.edge ek).sCum)
    (h1 : sub32 cum (g.edge ek).sCum ≤ sub32 (g.edge ek).sNext (g.edge ek).sCum)
    (hk : kept = (g.edge ek).kept.filter (fun c => sub32 cum (g.edge ek).sCum ≤ sub32 c.esn (g.edge ek).sCum)) (he : e = g.edge ek) :
    m.applyCredit n ek cum = m.updEdge n ek (fun _ =>
      { e with
        kept := kept, sCum := cum, rounds := 0
        timer := if kept.isEmpty || g.isLocal (edgePeer ek) then none else some (m.clk + m.rto) }) := by
  subst he hk
  simp only [Mach.applyCredit, hg]
  refine (if_neg (by simp; omega)).trans (Mach.updEdge_congr hg rfl)

end Edge

/-! ### The timers (R274, R275, R277) -/

/-- Command `i` is a timer of group `n`: without the group it does nothing, and with it what `act` says. -/
def TimesGrp (i : Instr) (n : Nat) (act : Mach → CollGroup → Mach) : Prop :=
  ∀ s : State, exec i s = ok s ((s.m.grp n).elim s.m (act s.m))

section TimesGrp
variable {i : Instr} {s : State} {n : Nat} {act : Mach → CollGroup → Mach} (hi : TimesGrp i n act)
include hi

theorem TimesGrp.completes_of_absent (hg : s.m.grp n = none) : Completes i s s.m := by
  refine (hi s).trans ?_
  rw [hg]; rfl

theorem TimesGrp.completes {g : CollGroup} {m : Mach} (hg : s.m.grp n = some g) (hm : act s.m g = m) : Completes i s m := by
  subst hm
  refine (hi s).trans ?_
  rw [hg]; rfl

end TimesGrp

section Timers
variable (grp rank edge : Nat)

/-- COLL_CREDIT_SEND reports the frees that are due (R274). -/
theorem timesGrp_collCreditSend : TimesGrp (.collCreditSend grp rank edge) grp (fun m g =>
    (g.edge (timerEdge rank edge)).credit.elim m (fun due =>
      ((m.elapseTo due).sendCredit grp (timerEdge rank edge)).collRun grp)) := by
  intro s
  change execCollCreditSend grp rank edge s = _
  simp only [execCollCreditSend]
  cases s.m.grp grp with
  | none => rfl
  | some g => dsimp only [Option.elim_some]; cases (g.edge (timerEdge rank edge)).credit <;> rfl

/-- The loss check of an ESN that was NAKed waits for twice LAT_MAX after that (R275). -/
def Mach.nakWait (m : Mach) (e : CollEdge) (esn : Nat) : Mach :=
  if e.nakFor = some esn then m.elapseTo (e.nakAt + 2 * m.edgeLat) else m

/-- COLL_NAK_TIMER checks for loss once the chunk above the hole is old enough (R275). -/
theorem timesGrp_collNakTimer : TimesGrp (.collNakTimer grp rank edge) grp (fun m g =>
    ((g.edge (timerEdge rank edge)).hole g.window).elim m (fun c =>
      ((m.elapseNs (m.edgeLat + 1 - sub32 (m.stamp g.homeQ) c.2)).nakWait (g.edge (timerEdge rank edge)) c.1).edgeCheck grp
        (timerEdge rank edge))) := by
  intro s
  change execCollNakTimer grp rank edge s = _
  simp only [execCollNakTimer]
  cases s.m.grp grp with
  | none => rfl
  | some g => dsimp only [Option.elim_some]; cases (g.edge (timerEdge rank edge)).hole g.window <;> rfl

/-- COLL_RTO goes back to the credited count (R275). -/
theorem timesGrp_collRto : TimesGrp (.collRto grp rank edge) grp (fun m g =>
    (g.edge (timerEdge rank edge)).timer.elim m (fun due =>
      (m.elapseTo due).edgeResend grp (timerEdge rank edge) (g.edge (timerEdge rank edge)).sCum)) := by
  intro s
  change execCollRto grp rank edge s = _
  simp only [execCollRto]
  cases s.m.grp grp with
  | none => rfl
  | some g => dsimp only [Option.elim_some]; cases (g.edge (timerEdge rank edge)).timer <;> rfl

/-- When the operations outstanding were posted. -/
def CollGroup.posts (g : CollGroup) : List Nat := g.ranks.flatMap (fun k => k.ops.map (fun o => o.post))

/-- OP_TIMEOUT aborts with reason 4 once the oldest operation has waited so long (R277). -/
theorem timesGrp_opTimeout : TimesGrp (.opTimeout grp) grp (fun m g =>
    g.posts.min?.elim m (fun p => if m.get Reg.COL.OP_TIMEOUT grp = 0 then m
      else (m.elapseTo (p + m.get Reg.COL.OP_TIMEOUT grp * Config.msCycles)).collAbort grp 4)) := by
  intro s
  change execOpTimeout grp s = _
  simp only [execOpTimeout, CollGroup.posts]
  cases s.m.grp grp with
  | none => rfl
  | some g => dsimp only [Option.elim_some]; cases g.ranks.flatMap (fun k => k.ops.map (fun o => o.post)) <;> rfl

/-- An ABORT goes out once more, and is due again while fewer than RETRY_MAX were sent (R277). -/
def Mach.resendAbort (m : Mach) (n rank ek reason : Nat) (g : CollGroup) : Mach :=
  (m.updEdge n ek (fun e => { e with
    aborts := (g.edge ek).aborts + 1
    abortAt := if (g.edge ek).aborts + 1 < m.retryMax then some (m.clk + m.rto) else none })).sendAbort n ek reason
      (((g.rank rank).map (fun (r : CollRank) => r.firstSeq)).getD 0) false

/-- ABORT_RESEND is for an edge whose neighbour has sent no ABORT (R277). -/
theorem timesGrp_abortResend : TimesGrp (.abortResend grp rank edge) grp (fun m g =>
    g.aborted.elim m (fun reason => (g.edge (timerEdge rank edge)).abortAt.elim m (fun due =>
      if (g.edge (timerEdge rank edge)).answered = true then m
      else (m.elapseTo due).resendAbort grp rank (timerEdge rank edge) reason g))) := by
  intro s
  change execAbortResend grp rank edge s = _
  simp only [execAbortResend]
  cases s.m.grp grp with
  | none => rfl
  | some g =>
    dsimp only [Option.elim_some]
    cases g.aborted with
    | none => rfl
    | some reason => cases (g.edge (timerEdge rank edge)).abortAt <;> rfl

end Timers

/-! ### The statement -/

/-- Settles O30: each clause is a case of delivery, of the law of what a delivered packet meets, of its command's law, of an edge's, or
of a timer's. -/
theorem collectivePacketsAndTimersMoveTheirGroup : Obligations.CollectivePacketsAndTimersMoveTheirGroup := by
  refine ⟨fun s k h => collective_of_undelivered (Mach.delivered_of_foreign h) (Mach.keepBack_of_foreign h), fun s k hn hd hh => ?held,
    fun s k h u hb hd => ?drops, fun s k h u n ek g hb hr => ?reached, fun m n ek g c hg => ?chunk, fun m n ek cum g hg => ?credit,
    fun s grp rank edge hg => ?absent, ?timers⟩
  case held =>
    have kept := Mach.keepBack_of_held hn hd hh
    have keeps {m : Mach} := collective_of_undelivered (m := m) (Mach.delivered_of_held hh)
    exact ⟨fun new => keeps (kept.trans (if_neg new)), fun old => keeps (kept.trans (if_pos old))⟩
  case drops =>
    refine ⟨fun hg => collective_of_drop fun _ _ hk => Mach.collPkt_of_noGroup hk hb hd hg, fun g hg => ?_⟩
    refine ⟨fun reading => collective_of_drop fun _ _ hk => ?_, fun ready bad => collective_of_drop fun _ _ hk => ?_,
      fun ready known zero hdrZero => ⟨fun other => collective_of_drop fun _ _ hk => ?_, fun same =>
        ⟨fun noRank => collective_of_drop fun _ _ hk => ?_, fun r hr stray => collective_of_drop fun _ _ hk => ?_⟩⟩⟩ <;>
      rw [Mach.collPkt_of_group hk hb hd hg]
    · rw [if_pos reading]
    · rw [if_neg (by simp [ready]), if_pos bad]
    · rw [if_neg (by simp [ready]), if_neg (by simp [known, zero, hdrZero]), if_pos other]
    · rw [if_neg (by simp [ready]), if_neg (by simp [known, zero, hdrZero]), if_neg (· same), noRank, Option.elim_none]
    · rw [if_neg (by simp [ready]), if_neg (by simp [known, zero, hdrZero]), if_neg (· same), hr, Option.elim_some, if_neg]
      rintro ⟨edge, src⟩
      exact stray.elim (fun noEdge => by simp [edge] at noEdge) (· src)
  case reached =>
    have up {m : Mach} := completes_collUp (m := m) hb hr
    have down {m : Mach} := completes_collDown (m := m) hb hr
    have credit {m : Mach} := completes_collCredit (m := m) hb hr
    have nak {m : Mach} := completes_collNak (m := m) hb hr
    refine ⟨fun live => ⟨fun hk => up hk (Mach.collChunk_of_live live), fun hk => down hk (Mach.collChunk_of_live live),
        fun hk => credit hk (if_neg (by simp [live])), fun hk => ⟨fun kept => nak hk (if_pos ⟨live, kept⟩),
          fun gone => nak hk (if_neg (by simp [gone]))⟩, fun hk first hf => completes_collAbort_of_live hb hr hk hf live⟩,
      fun reason aborted => ⟨fun hk => up hk (Mach.collChunk_of_aborted aborted), fun hk => down hk (Mach.collChunk_of_aborted aborted),
        fun hk => credit hk (if_pos (by simp [aborted])), fun hk => nak hk (if_neg (by simp [aborted])), fun hk v first hv hf => ?_⟩⟩
    have answers {m : Mach} := completes_collAbort_of_aborted (m := m) hb hr hk hf aborted hv
    refine ⟨fun quiet => answers (if_neg ?_), fun asked anew => answers (if_pos ⟨asked, anew⟩)⟩
    rintro ⟨asked, anew⟩
    simp [asked, anew] at quiet
  case chunk =>
    have receives := Mach.edgeRecv_of_group (ek := ek) (c := c) hg
    refine ⟨fun old => receives.trans (if_pos old), fun new free => ⟨fun beyond => ?_, fun within => ?_⟩⟩
    · rw [receives, if_neg (by simp [new, free]), if_pos beyond]
    · rw [receives, if_neg (by simp [new, free]), if_neg (Nat.not_le_of_lt within)]
  case credit =>
    exact ⟨Mach.applyCredit_of_stale hg, fun kept h0 h1 hk e he => by rw [Mach.applyCredit_of_sent hg h0 h1 hk he]⟩
  case absent =>
    exact ⟨(timesGrp_collCreditSend grp rank edge).completes_of_absent hg, (timesGrp_collNakTimer grp rank edge).completes_of_absent hg,
      (timesGrp_collRto grp rank edge).completes_of_absent hg, (timesGrp_opTimeout grp).completes_of_absent hg,
      (timesGrp_abortResend grp rank edge).completes_of_absent hg⟩
  case timers =>
    rintro s grp rank edge _ g hg rfl
    have credit {m : Mach} := (timesGrp_collCreditSend grp rank edge).completes (m := m) hg
    have nak {m : Mach} := (timesGrp_collNakTimer grp rank edge).completes (m := m) hg
    have rto {m : Mach} := (timesGrp_collRto grp rank edge).completes (m := m) hg
    have timeout {m : Mach} := (timesGrp_opTimeout grp).completes (m := m) hg
    have resend {m : Mach} := (timesGrp_abortResend grp rank edge).completes (m := m) hg
    refine ⟨fun off => credit (by rw [off]; rfl), fun whole => nak (by rw [whole]; rfl), fun off => rto (by rw [off]; rfl),
      fun idle => timeout ?_, fun idle => resend ?_, fun due on => credit (by rw [on]; rfl), fun esn ts u hole hu => ?_,
      fun due on => rto (by rw [on]; rfl), fun p r on posted => timeout ?_, fun reason due first u aborted on unanswered hf hu => ?_⟩
    · rcases idle with off | none
      · cases g.posts.min? with
        | none => rfl
        | some p => exact if_pos off
      · rw [CollGroup.posts, none]; rfl
    · cases aborted : g.aborted with
      | none => rfl
      | some reason =>
        cases pending : (g.edge (timerEdge rank edge)).abortAt with
        | none => rfl
        | some due => exact if_pos (by simpa [aborted, pending] using idle)
    · subst hu
      refine ⟨fun anew => nak ?_, fun again => nak ?_⟩
      · rw [hole, Option.elim_some, Mach.nakWait, if_neg anew]
      · rw [hole, Option.elim_some, Mach.nakWait, if_pos again]
    · rw [CollGroup.posts, posted, List.min?_cons', Option.elim_some, if_neg on]
    · subst hf hu
      refine resend ?_
      rw [aborted, Option.elim_some, on, Option.elim_some, if_neg (by simp [unanswered]), Mach.resendAbort]

end Sys2Proof.Machine
end

section
/-! Locks at their home (file 11): packets of the lock and atomic kinds as their commands bring them (R287, R321), acquires, releases,
forces, withdrawals and renewals (R284 to R286, R290, R291), grants and their handing on (R282, R289), and the timers of the home. -/

namespace Sys2Proof.Machine

/-! ### A command that brings a lock or atomic packet -/

/-- Command `i` brings packet `k` as one of `kinds`, and does `act` with one whose fields are as Table 11-1 says. -/
def BringsLku (i : Instr) (k : Packet) (kinds : List Nat) (act : Mach → LkuHdr → Mach) : Prop :=
  ∀ s : State, exec i s = ok s (s.m.lkuPkt k kinds act)

/-- Ten commands bring lock and atomic packets (Table 11-1). -/
theorem lockKind_of_brings {k : Packet} {s : State} {m : Mach}
    (h : ∀ i kinds act, BringsLku i k kinds act → kinds.contains k.hdr.kind = true → Completes i s m) : LockKind k s m := by
  refine ⟨fun hk => h _ _ _ (fun _ => rfl) ?_, fun hk => h _ _ _ (fun _ => rfl) ?_, fun hk => h _ _ _ (fun _ => rfl) ?_,
    fun hk => h _ _ _ (fun _ => rfl) ?_, fun hk => h _ _ _ (fun _ => rfl) ?_, fun hk => h _ _ _ (fun _ => rfl) ?_,
    fun hk => h _ _ _ (fun _ => rfl) ?_, fun hk => h _ _ _ (fun _ => rfl) ?_, fun hk => h _ _ _ (fun _ => rfl) ?_,
    fun hk => h _ _ _ (fun _ => rfl) ?_⟩
  · refine List.contains_iff_mem.2 ?_
    simp only [List.mem_cons, List.not_mem_nil]
    omega
  all_goals simp [hk]

section Delivered
variable {m : Mach} {k : Packet} {kinds : List Nat} {act : Mach → LkuHdr → Mach} (hk : kinds.contains k.hdr.kind = true)
include hk

/-- A packet that is not delivered is at most kept back. -/
theorem Mach.lkuPkt_of_undelivered (hd : m.delivered k = none) : m.lkuPkt k kinds act = m.keepBack k := by
  simp only [Mach.lkuPkt, hk, hd, Bool.not_true, Bool.false_eq_true, if_false]
  cases k.body <;> rfl

/-- A packet of an unnamed kind or with a non-zero zero field is counted in the quadrant of its lock or slot (R287). -/
theorem Mach.lkuPkt_of_unsound {h : LkuHdr} {u : Mach} (hb : k.body = .lku h) (hd : m.delivered k = some u)
    (hz : k.hdr.kind = 0x27 ∨ 0x2B ≤ k.hdr.kind ∨ h.zero k.hdr.kind = false ∨ k.hdr.zero = false) :
    m.lkuPkt k kinds act = u.bump Reg.LKA.PROTO_DROP 1
      (if k.hdr.kind < 0x27 ∧ k.hdr.kind ≠ 0x25 then lockQuad h.lockId else quadOfSlot (k.hdr.dst % 16)) := by
  simp only [Mach.lkuPkt, hk, hb, hd, Bool.not_true, Bool.false_eq_true, if_false]
  rw [if_pos (by simpa [or_assoc] using hz)]
  simp only [Bool.and_eq_true, decide_eq_true_eq, bne_iff_ne]

end Delivered

section NoEffect
variable {s : State} {k : Packet}

theorem lockKind_of_undelivered {m : Mach} (hd : s.m.delivered k = none) (hm : s.m.keepBack k = m) : LockKind k s m := by
  subst hm
  exact lockKind_of_brings fun _ _ _ hi hk => (hi s).trans (congrArg (ok s) (Mach.lkuPkt_of_undelivered hk hd))

theorem lockKind_of_unsound {h : LkuHdr} {u : Mach} {q : Nat} (hb : k.body = .lku h) (hd : s.m.delivered k = some u)
    (hz : k.hdr.kind = 0x27 ∨ 0x2B ≤ k.hdr.kind ∨ h.zero k.hdr.kind = false ∨ k.hdr.zero = false)
    (hq : (if k.hdr.kind < 0x27 ∧ k.hdr.kind ≠ 0x25 then lockQuad h.lockId else quadOfSlot (k.hdr.dst % 16)) = q) :
    LockKind k s (u.bump Reg.LKA.PROTO_DROP 1 q) := by
  subst hq
  exact lockKind_of_brings fun _ _ _ hi hk => (hi s).trans (congrArg (ok s) (Mach.lkuPkt_of_unsound hk hb hd hz))

end NoEffect

/-- A sound packet has its kind's effect, and then acquires that wait for the held list may go on (R283). -/
theorem BringsLku.completes {i : Instr} {s : State} {k : Packet} {kinds : List Nat} {act : Mach → LkuHdr → Mach} {kind : Nat}
    {h : LkuHdr} {u m : Mach} (hi : BringsLku i k kinds act) (hc : s.m.lkuComes k kind h u)
    (hk : kinds.contains kind = true ∧ kind ≠ 0x27 ∧ kind < 0x2B) (hm : act u h = m) : Completes i s m.resumeAcquires := by
  subst hm
  obtain ⟨brought, named, inTable⟩ := hk
  exact (hi s).trans (congrArg (ok s) (Mach.lkuPkt_comes hc brought named inTable act))

/-! ### The holder and its GEN (R282, R285, R290) -/

/-- The REQ_TAG under which `eid` holds a lock with GEN `gen`. -/
def Lock.tagUnder (x : Lock) (eid gen : Nat) : Option Nat :=
  match x.held with
  | some (e, t) => if e = eid ∧ x.gen = gen then some t else none
  | none => none

theorem Lock.tagUnder_of_holder {x : Lock} {eid gen t : Nat} (hh : x.held = some (eid, t)) (hg : x.gen = gen) :
    x.tagUnder eid gen = some t := by
  simp only [Lock.tagUnder, hh, hg, and_self, if_true]

theorem Lock.tagUnder_of_other {x : Lock} {eid gen : Nat} (h : ∀ t, x.held = some (eid, t) → x.gen ≠ gen) :
    x.tagUnder eid gen = none := by
  unfold Lock.tagUnder
  split
  next e t held =>
    refine if_neg ?_
    rintro ⟨rfl, same⟩
    exact h t held same
  next => rfl

section Holder
variable {m : Mach} {l eid tag gen : Nat}

/-- A release of its holder's frees the lock; a grant that is returned keeps its marking (R285, Table 11-4). -/
theorem Mach.homeRelease_eq : m.homeRelease l eid tag gen =
    ((m.lock l).tagUnder eid gen).elim (m.homeAnswer l eid tag 6) (fun t =>
      (m.homeAnswer l eid tag 3).handOn l (t == tag && (m.lock l).carried)) := by
  simp only [Mach.homeRelease, Lock.tagUnder, Bool.and_eq_true, decide_eq_true_eq]
  cases (m.lock l).held with
  | none => rfl
  | some o => dsimp only; split <;> rfl

/-- A renewal of its holder's renews the lease (R290). -/
theorem Mach.homeRenew_eq : m.homeRenew l eid tag gen =
    ((m.lock l).tagUnder eid gen).elim (m.homeAnswer l eid tag 8) (fun _ =>
      m.updLock l (fun x => { x with lease := some (m.leaseDue l) })) := by
  simp only [Mach.homeRenew, Lock.tagUnder, Bool.and_eq_true, decide_eq_true_eq]
  cases (m.lock l).held with
  | none => rfl
  | some o => dsimp only; split <;> rfl

end Holder

/-- LK_GRANT_ACK of the holder's ends the resends of its grant, and renews the lease (R288, R290). -/
theorem completes_lkGrantAck {s : State} {k : Packet} {h : LkuHdr} {u m : Mach} (hc : s.m.lkuComes k 0x26 h u)
    (hm : ((u.lock h.lockId).tagUnder k.hdr.src h.gen).elim u (fun _ =>
      u.updLock h.lockId (fun x => { x with resend := none, lease := some (u.leaseDue h.lockId) })) = m) :
    Completes (.lkGrantAck k) s m.resumeAcquires := by
  subst hm
  refine BringsLku.completes (fun _ => rfl) hc (by decide) ?_
  simp only [Lock.tagUnder, Bool.and_eq_true, decide_eq_true_eq]
  cases (u.lock h.lockId).held with
  | none => rfl
  | some o => dsimp only; split <;> rfl

/-! ### Acquires (R284, R288) -/

section Acquire
variable {m : Mach} {l eid tag : Nat}

/-- A copy from the holder is answered GRANTED again. -/
theorem Mach.homeAcquire_of_holder (hh : (m.lock l).held = some (eid, tag)) :
    m.homeAcquire l eid tag = m.homeAnswer l eid tag 2 (m.lock l).carried :=
  if_pos (beq_iff_eq.2 hh)

section NotHolder
variable (hh : (m.lock l).held ≠ some (eid, tag))
include hh

/-- A copy from a waiter is answered QUEUED with its place. -/
theorem Mach.homeAcquire_of_waiter {i : Nat} (hw : (m.lock l).waiters.findIdx? (fun w => w == (eid, tag)) = some i) :
    m.homeAcquire l eid tag = m.homeAnswer l eid tag 1 false i := by
  simp only [Mach.homeAcquire, beq_eq_false_iff_ne.2 hh, hw, Bool.false_eq_true, if_false]

/-- An acquire that the home does not know is granted where the lock is FREE, and joins its queue where the pool has room (R282). -/
theorem Mach.homeAcquire_of_new (hw : (m.lock l).waiters.findIdx? (fun w => w == (eid, tag)) = none) : m.homeAcquire l eid tag =
    if (m.lock l).held = none then ((m.bump Reg.LKA.ACQUIRES 1 (lockQuad l)).grantTo l eid tag false).lockChanged l
    else if 262144 ≤ m.waitersIn (lockQuad l) then
      ((m.raise 86 .none 1 (lockQuad l)).record 0x7063 (lockQuad l) [l, eid]).homeAnswer l eid tag 7
    else ((m.updLock l (fun x => { x with waiters := x.waiters ++ [(eid, tag)] })).bump Reg.LKA.ACQUIRES 1 (lockQuad l)).homeAnswer
      l eid tag 1 false (m.lock l).waiters.length := by
  simp only [Mach.homeAcquire, beq_eq_false_iff_ne.2 hh, hw, Bool.false_eq_true, if_false, Option.isNone_iff_eq_none]

end NotHolder

end Acquire

/-! ### Withdrawals, forces and the handing on (R282, R286, R289, R291) -/

section Withdraw
variable {m : Mach} {l eid tag : Nat}

theorem Mach.homeWithdraw_of_holder (hh : (m.lock l).held = some (eid, tag)) : m.homeWithdraw l eid tag = m :=
  if_pos (beq_iff_eq.2 hh)

/-- A withdrawal that is not its holder's removes the waiter, if there is one, and is answered. -/
theorem Mach.homeWithdraw_of_other (hh : (m.lock l).held ≠ some (eid, tag)) : m.homeWithdraw l eid tag =
    (if (m.lock l).waiters.contains (eid, tag) = true then
      (m.updLock l (fun x => { x with waiters := x.waiters.filter (· != (eid, tag)) })).bump Reg.LKA.WITHDRAWS 1 (lockQuad l)
    else m).homeAnswer l eid tag 5 :=
  if_neg (by simpa using hh)

end Withdraw

section Force
variable {m u : Mach} {l : Nat} (hu : u = m.bump Reg.LKA.FORCES 1 (lockQuad l))
include hu

theorem Mach.homeForce_of_free (hh : (u.lock l).held = none) : m.homeForce l = u := by
  subst hu
  simp only [Mach.homeForce, hh]

theorem Mach.homeForce_of_held {e t : Nat} (hh : (u.lock l).held = some (e, t)) :
    m.homeForce l = ((u.record 0x7062 (lockQuad l) [l, e]).homeAnswer l e t 8).handOn l true := by
  subst hu
  simp only [Mach.homeForce, hh]

end Force

section HandOn
variable {m u : Mach} {l : Nat} {orphaned : Bool}
  (hu : u = m.updLock l (fun x => { x with held := none, carried := false, lease := none, resend := none, orphan := orphaned }))
include hu

theorem Mach.handOn_of_nobody (hw : (u.lock l).waiters = []) : m.handOn l orphaned = u.lockChanged l := by
  subst hu
  simp only [Mach.handOn, hw]

theorem Mach.handOn_of_waiter {e t : Nat} {r : List (Nat × Nat)} (hw : (u.lock l).waiters = (e, t) :: r) : m.handOn l orphaned =
    ((u.updLock l (fun x => { x with waiters := r, orphan := false })).grantTo l e t orphaned).lockChanged l := by
  subst hu
  simp only [Mach.handOn, hw]

end HandOn

/-! ### The timers of the home (R288, R290) -/

/-- Command `i` is a timer of a lock's holder, set where `timer` says: where it is not running, it does nothing. -/
def TimesLock (i : Instr) (l : Nat) (timer : Lock → Option Nat) (act : Mach → Lock → Nat → Nat → Nat → Mach) : Prop :=
  ∀ s : State, exec i s = ok s ((s.m.lock l).held.elim s.m (fun o => (timer (s.m.lock l)).elim s.m (act s.m (s.m.lock l) o.1 o.2)))

section TimesLock
variable {i : Instr} {s : State} {l : Nat} {timer : Lock → Option Nat} {act : Mach → Lock → Nat → Nat → Nat → Mach}
  (hi : TimesLock i l timer act)
include hi

theorem TimesLock.completes_of_off (h : (s.m.lock l).held = none ∨ timer (s.m.lock l) = none) : Completes i s s.m := by
  refine (hi s).trans (congrArg (ok s) ?_)
  rcases h with free | off
  · rw [free]; rfl
  · rw [off]; cases (s.m.lock l).held <;> rfl

theorem TimesLock.completes {e t due : Nat} (hh : (s.m.lock l).held = some (e, t)) (hd : timer (s.m.lock l) = some due) :
    Completes i s (act s.m (s.m.lock l) e t due) := by
  refine (hi s).trans (congrArg (ok s) ?_)
  rw [hh, Option.elim_some, hd, Option.elim_some]

end TimesLock

section Timers
variable (lock : Nat)

/-- GRANT_RESEND answers GRANTED again after RTO (R288). -/
theorem timesLock_grantResend : TimesLock (.grantResend lock) lock (·.resend) (fun m x e t due =>
    ((m.elapseTo due).updLock lock (fun x => { x with resend := some ((m.elapseTo due).clk + (m.elapseTo due).rto) })).homeAnswer lock
      e t 2 x.carried) := by
  intro s
  change execGrantResend lock s = _
  simp only [execGrantResend]
  cases (s.m.lock lock).held with
  | none => rfl
  | some o => dsimp only [Option.elim_some]; cases (s.m.lock lock).resend <;> rfl

/-- LEASE_EXPIRY takes the lock from its holder (R290). -/
theorem timesLock_leaseExpiry : TimesLock (.leaseExpiry lock) lock (·.lease) (fun m _ e _ due =>
    ((((((m.elapseHgt (lockQuad lock) (due - m.hgt (lockQuad lock))).bump Reg.LKA.LEASE_EXPIRIES 1 (lockQuad lock)).raise 87 .none lock
      (lockQuad lock)).record 0x7061 (lockQuad lock) [lock, e]).handOn lock true).resumeAcquires)) := by
  intro s
  change execLeaseExpiry lock s = _
  simp only [execLeaseExpiry]
  cases (s.m.lock lock).held with
  | none => rfl
  | some o => dsimp only [Option.elim_some]; cases (s.m.lock lock).lease <;> rfl

end Timers

/-- LOCK_CMD's FORCE forces the lock (R291). -/
theorem completes_lockCmdForce {s : State} {r : Requester} {l : Nat} (h : s.m.passes r Reg.LKA.FORCE l = true) :
    Completes (.lockCmdForce r) s ((s.m.reach r Reg.LKA.FORCE).homeForce l).resumeAcquires := by
  rw [← Mach.acted_plain rfl rfl 1]
  exact congrArg (ok s) (Mach.action_passes h 1 _)

/-! ### The statement -/

/-- Settles O33: each clause is a case of delivery, of its packet's command, of the law of what a packet does at the home, or of a
timer's. -/
theorem locksAreGrantedReleasedAndForcedAtTheirHome : Obligations.LocksAreGrantedReleasedAndForcedAtTheirHome := by
  refine ⟨fun s k h => lockKind_of_undelivered (Mach.delivered_of_foreign h) (Mach.keepBack_of_foreign h), fun s k hn hd hh => ?held,
    fun s k h u hb hd hz => ?drops, fun s k h u => ?packets, fun m l eid tag => ?acquire, ?grant, fun m l eid tag gen => ?holder,
    fun m u l hu => ⟨Mach.homeForce_of_free hu, fun e t => Mach.homeForce_of_held hu⟩,
    fun m u l orphaned hu => ⟨Mach.handOn_of_nobody hu, fun e t r => Mach.handOn_of_waiter hu⟩,
    fun s lock => ⟨(timesLock_grantResend lock).completes_of_off, (timesLock_leaseExpiry lock).completes_of_off⟩,
    fun s lock e t hh => ?timers, fun s r l => completes_lockCmdForce⟩
  case held =>
    have kept := Mach.keepBack_of_held hn hd hh
    have keeps {m : Mach} := lockKind_of_undelivered (m := m) (Mach.delivered_of_held hh)
    exact ⟨fun new => keeps (kept.trans (if_neg new)), fun old => keeps (kept.trans (if_pos old))⟩
  case drops =>
    exact ⟨fun home named => lockKind_of_unsound hb hd hz (if_pos ⟨home, named⟩),
      fun other => lockKind_of_unsound hb hd hz (if_neg (by omega))⟩
  case packets =>
    refine ⟨fun hc => BringsLku.completes (fun _ => rfl) hc (by decide) rfl,
      fun hc => BringsLku.completes (fun _ => rfl) hc (by decide) rfl, fun hc => BringsLku.completes (fun _ => rfl) hc (by decide) rfl,
      fun hc => BringsLku.completes (fun _ => rfl) hc (by decide) rfl, fun hc => BringsLku.completes (fun _ => rfl) hc (by decide) rfl,
      fun hc => ⟨fun t hh hg => completes_lkGrantAck hc ?_, fun other => completes_lkGrantAck hc ?_⟩⟩
    · rw [Lock.tagUnder_of_holder hh hg, Option.elim_some]
    · rw [Lock.tagUnder_of_other other, Option.elim_none]
  case acquire =>
    refine ⟨fun u hu free new => ?_, Mach.homeAcquire_of_holder, fun i hh => Mach.homeAcquire_of_waiter hh, fun o hh other new => ?_⟩
    · rw [Mach.homeAcquire_of_new (by simp [free]) new, if_pos free, hu]
    · have meets := Mach.homeAcquire_of_new (m := m) (by simpa [hh] using other) new
      rw [if_neg (by simp [hh])] at meets
      exact ⟨fun full => meets.trans (if_pos full), fun room => meets.trans (if_neg (Nat.not_le_of_lt room))⟩
  case grant =>
    rintro m v l eid tag orphaned mark lease resend rfl rfl rfl rfl
    simp only [Mach.grantTo]
    cases m.isLocalEid eid <;> rfl
  case holder =>
    refine ⟨fun t hh hg => ?_, fun other => ?_, Mach.homeWithdraw_of_holder, fun hh waits => ?_, fun hh absent => ?_⟩
    · rw [Mach.homeRelease_eq, Mach.homeRenew_eq, Lock.tagUnder_of_holder hh hg]; exact ⟨rfl, rfl⟩
    · rw [Mach.homeRelease_eq, Mach.homeRenew_eq, Lock.tagUnder_of_other other]; exact ⟨rfl, rfl⟩
    · rw [Mach.homeWithdraw_of_other hh, if_pos waits]
    · rw [Mach.homeWithdraw_of_other hh, if_neg (Bool.eq_false_iff.1 absent)]
  case timers =>
    refine ⟨fun due u hd hu => ?_, fun due u hd hu => ?_⟩
    · subst hu; exact (timesLock_grantResend lock).completes hh hd
    · subst hu; exact (timesLock_leaseExpiry lock).completes hh hd

end Sys2Proof.Machine
end

section
/-! Lock requests at their requester (file 11): what each answer does (R284 to R286, R288, R292), the timers of a request (R286, R288),
the renewal of leases (R290), and the counters of Table 11-8. -/

namespace Sys2Proof.Machine

/-! ### Answers (Table 11-4) -/

section Answer
variable {m : Mach} {q slot tag l gen : Nat} {o : Bool} {src : Option Nat}

/-- A grant that nothing here waits for goes back to a home of another module (R284). -/
theorem Mach.lkAnswered_granted_of_absent (hh : m.heldLock q tag = none) : m.lkAnswered q slot 2 tag l gen o src =
    src.elim m (fun home => (m.lkuSend q slot home 0x21 { lkuHdr l tag with gen := gen }).1) := by
  simp only [Mach.lkAnswered, Mach.lkGranted, hh]
  cases src <;> rfl

/-- A grant makes a waiting acquire hold its lock, and is acknowledged to another module (R284, R288). -/
theorem Mach.lkAnswered_granted_of_entry {x : HeldLock} {u : Mach} (hh : m.heldLock q tag = some x)
    (hu : (if x.st = .waiting then (m.updHeld q tag (fun h => { h with
        st := .held, gen := gen
        renew := if src.isSome then some (m.clk + m.leaseMs * Config.msCycles / 4) else none })).endReq q tag (if o then 6 else 0) 0
      else m) = u) :
    m.lkAnswered q slot 2 tag l gen o src =
      src.elim u (fun home => (u.lkuSend q slot home 0x26 { lkuHdr l tag with gen := gen }).1) := by
  subst hu
  simp only [Mach.lkAnswered, Mach.lkGranted, hh]
  cases src <;> rfl

/-- RELEASED ends a release (R285). -/
theorem Mach.lkAnswered_released : m.lkAnswered q slot 3 tag l gen o src =
    (m.lkReq q tag).elim m (fun x => if x.kind = 0x21 then m.endRelease x 0 0 else m) := by
  simp only [Mach.lkAnswered]
  cases m.lkReq q tag <;> rfl

/-- FORCED ends a force (R291). -/
theorem Mach.lkAnswered_forced : m.lkAnswered q slot 4 tag l gen o src =
    (m.lkReq q tag).elim m (fun x => if x.kind = 0x22 then m.endReq q tag 0 0 else m) := by
  simp only [Mach.lkAnswered]
  cases m.lkReq q tag <;> rfl

/-- WITHDRAWN ends a withdrawn request with the status it was withdrawn for (R286). -/
theorem Mach.lkAnswered_withdrawn : m.lkAnswered q slot 5 tag l gen o src =
    (m.lkReq q tag).elim m (fun x => x.withdraw.elim m (fun st => (m.dropHeld q tag).endReq q tag st 0)) := by
  simp only [Mach.lkAnswered]
  cases m.lkReq q tag with
  | none => rfl
  | some x => dsimp only [Option.elim_some]; cases x.withdraw <;> rfl

/-- NO_HOLD ends a release; only its first copy can have found that the lock was not held (R285). -/
theorem Mach.lkAnswered_noHold : m.lkAnswered q slot 6 tag l gen o src =
    (m.lkReq q tag).elim m (fun x =>
      if x.kind = 0x21 then (if x.resends = 0 then m.endRelease x 1 1 else m.endRelease x 0 0) else m) := by
  simp only [Mach.lkAnswered]
  cases m.lkReq q tag <;> rfl

/-- What none of the requests that wait here awaits does nothing. -/
theorem Mach.lkAnswered_of_noReq {code : Nat} (hr : m.lkReq q tag = none) (lo : 3 ≤ code) (hi : code ≤ 6) :
    m.lkAnswered q slot code tag l gen o src = m := by
  obtain rfl | rfl | rfl | rfl : code = 3 ∨ code = 4 ∨ code = 5 ∨ code = 6 := by omega
  · rw [Mach.lkAnswered_released, hr, Option.elim_none]
  · rw [Mach.lkAnswered_forced, hr, Option.elim_none]
  · rw [Mach.lkAnswered_withdrawn, hr, Option.elim_none]
  · rw [Mach.lkAnswered_noHold, hr, Option.elim_none]

/-- LOST marks a lock that is held or being released (R292). -/
theorem Mach.lkAnswered_lost : m.lkAnswered q slot 8 tag l gen o src = (m.heldLock q tag).elim m (fun x =>
    if x.st = .held ∨ x.st = .releasing then
      (m.updHeld q tag (fun h => { h with st := .lost, renew := none })).record 0x7065 q [x.slot, x.fn, x.da, x.lock]
    else m) := by
  simp only [Mach.lkAnswered, Mach.lkLost, Bool.or_eq_true, decide_eq_true_eq]
  cases m.heldLock q tag <;> rfl

/-- Table 11-4 names the codes 1 to 8. -/
theorem Mach.lkAnswered_of_unnamed {code : Nat} (h : code = 0 ∨ 8 < code) : m.lkAnswered q slot code tag l gen o src = m := by
  rcases h with rfl | h
  · rfl
  · obtain ⟨n, rfl⟩ := Nat.exists_eq_add_of_le' h
    rfl

end Answer

/-! ### The timers of a request (R286, R288) -/

/-- Command `i` is a timer of a request, set where `timer` says: where it is not running, it does nothing, and where it is, what `act`
says once it is due. -/
def TimesReq (i : Instr) (q tag : Nat) (timer : LkReq → Option Nat) (act : Mach → LkReq → Mach) : Prop :=
  ∀ s : State, exec i s = ok s ((s.m.lkReq q tag).elim s.m (fun x => (timer x).elim s.m (fun due => act (s.m.elapseTo due) x)))

section TimesReq
variable {i : Instr} {s : State} {q tag : Nat} {timer : LkReq → Option Nat} {act : Mach → LkReq → Mach}
  (hi : TimesReq i q tag timer act)
include hi

theorem TimesReq.completes_of_absent (hx : s.m.lkReq q tag = none) : Completes i s s.m := by
  refine (hi s).trans ?_
  rw [hx]; rfl

variable {x : LkReq} (hx : s.m.lkReq q tag = some x)
include hx

theorem TimesReq.completes_of_off (hd : timer x = none) : Completes i s s.m := by
  refine (hi s).trans ?_
  rw [hx, Option.elim_some, hd]; rfl

theorem TimesReq.completes {due : Nat} {u m : Mach} (hd : timer x = some due) (hu : u = s.m.elapseTo due) (hm : act u x = m) :
    Completes i s m := by
  subst hu hm
  refine (hi s).trans ?_
  rw [hx, Option.elim_some, hd]; rfl

end TimesReq

section Timers
variable (q : Quad) (tag : Nat)

/-- LOCK_TIMEOUT withdraws an acquire (R286). -/
theorem timesReq_lockTimeout : TimesReq (.lockTimeout q tag) q tag (·.timeout) (fun m _ =>
    (m.withdrawReq q tag 7).resumeAcquires) := by
  intro s
  change execLockTimeout q tag s = _
  simp only [execLockTimeout]
  cases s.m.lkReq q tag with
  | none => rfl
  | some x => dsimp only [Option.elim_some, Option.bind_some]; cases x.timeout <;> rfl

/-- LKU_REQUEST_RESEND sends a copy again, at most RETRY_MAX times (R288). -/
theorem timesReq_lkuRequestResend : TimesReq (.lkuRequestResend q tag) q tag (·.due) (fun m x =>
    if m.retryMax ≤ x.resends then (m.failReq x (if x.allDown then 0x03 else 0x09)).resumeAcquires
    else (m.updReq q tag (fun x => { x with resends := x.resends + 1 })).sendReq q tag) := by
  intro s
  change execLkuRequestResend q tag s = _
  simp only [execLkuRequestResend]
  cases s.m.lkReq q tag with
  | none => rfl
  | some x => dsimp only [Option.elim_some]; cases x.due <;> rfl

/-- LOCK_PROBE asks the home of an acquire that is queued there (R288). -/
theorem timesReq_lockProbe : TimesReq (.lockProbe q tag) q tag (·.probe) (fun m x =>
    ((m.updReq q tag (fun x => { x with probe := some (m.clk + m.leaseMs * Config.msCycles) })).lkuSend q x.slot x.dst 0x20 x.hdr
      (some x.queue) (some x.flow) x.minOnly).1) := by
  intro s
  change execLockProbe q tag s = _
  simp only [execLockProbe]
  cases s.m.lkReq q tag with
  | none => rfl
  | some x => dsimp only [Option.elim_some]; cases x.probe <;> rfl

/-- LOCK_BUSY_RETRY sends again until RNR_TIMEOUT has passed since the request was first refused (R288, R297). -/
theorem timesReq_lockBusyRetry : TimesReq (.lockBusyRetry q tag) q tag (·.busy) (fun m x =>
    if x.busySince.getD m.clk + m.rnrTimeout' ≤ m.clk then
      ((m.raise 86 .none (if x.kind = 0x28 then 2 else 1) q).failReq x 0x07).resumeAcquires
    else ((m.updReq q tag (fun x => { x with busy := none })).sendReq q tag).resumeAcquires) := by
  intro s
  change execLockBusyRetry q tag s = _
  simp only [execLockBusyRetry]
  split
  next absent => rw [absent, Option.elim_none]
  next x hx =>
    rw [hx, Option.elim_some]
    split
    next off => rw [off, Option.elim_none]
    next due on => rw [on, Option.elim_some]

end Timers

/-! ### Leases (R290) -/

section LeaseRenewal
variable {s : State}

theorem completes_leaseRenewal_of_none (h : s.m.lka.held.filterMap (fun h => h.renew) = []) : Completes .leaseRenewal s s.m := by
  change execLeaseRenewal s = _
  simp only [execLeaseRenewal, h, ok]

/-- LEASE_RENEWAL renews, one after another, the locks that are due at the earliest renewal. -/
theorem completes_leaseRenewal {d : Nat} {r : List Nat} {u : Mach} (h : s.m.lka.held.filterMap (fun h => h.renew) = d :: r)
    (hu : u = s.m.elapseTo (r.foldl min d)) : Completes .leaseRenewal s
      ((u.lka.held.filter (fun h => h.renew.any (fun t => decide (t ≤ u.clk)))).foldl (fun a h =>
        ((a.updHeld h.q h.tag (fun h => { h with renew := some (a.clk + a.leaseMs * Config.msCycles / 4) })).lkuSend h.q h.slot
          (16 * h.da) 0x23 { lkuHdr h.lock h.tag with gen := h.gen }).1) u) := by
  subst hu
  change execLeaseRenewal s = _
  simp only [execLeaseRenewal, h, ok]
  congr 4
  funext x
  cases x.renew <;> rfl

end LeaseRenewal

/-! ### The counters of a quadrant (Table 11-8) -/

theorem completes_lkaCntClr {s : State} {r : Requester} {q : Nat} (h : s.m.passes r Reg.LKA.CNT_CLR q = true) :
    Completes (.lkaCntClr r) s ((s.m.reach r Reg.LKA.CNT_CLR).clear [Reg.LKA.ACQUIRES, Reg.LKA.GRANTS, Reg.LKA.ORPHAN_GRANTS,
      Reg.LKA.LEASE_EXPIRIES, Reg.LKA.FORCES, Reg.LKA.WITHDRAWS, Reg.LKA.ATOMICS, Reg.LKA.AT_DUP, Reg.LKA.EVT_SKIPPED,
      Reg.LKA.PROTO_DROP] q) := by
  rw [← Mach.acted_plain rfl rfl 1]
  exact congrArg (ok s) (Mach.action_passes h 1 _)

/-! ### The statement -/

/-- Settles O34: each clause is a case of the law of an answer's code, of a request's timer, or of the renewals. -/
theorem lockRequestsAreAnsweredResentAndGivenUp : Obligations.LockRequestsAreAnsweredResentAndGivenUp := by
  refine ⟨fun s k h u hc => BringsLku.completes (fun _ => rfl) hc (by decide) rfl, fun m q slot tag l gen o src => ?answers,
    fun s q tag hx => ⟨(timesReq_lockTimeout q tag).completes_of_absent hx, (timesReq_lkuRequestResend q tag).completes_of_absent hx,
      (timesReq_lockProbe q tag).completes_of_absent hx, (timesReq_lockBusyRetry q tag).completes_of_absent hx⟩,
    fun s q tag x hx => ⟨(timesReq_lockTimeout q tag).completes_of_off hx, (timesReq_lkuRequestResend q tag).completes_of_off hx,
      (timesReq_lockProbe q tag).completes_of_off hx, (timesReq_lockBusyRetry q tag).completes_of_off hx⟩,
    fun s => completes_leaseRenewal_of_none, fun s q tag x hx => ?timers, fun s d r u => completes_leaseRenewal,
    fun s r q => completes_lkaCntClr⟩
  case answers =>
    refine ⟨rfl, fun h u hh waits hu => ?_, fun h hh waits => ?_, Mach.lkAnswered_granted_of_absent,
      fun hr code => Mach.lkAnswered_of_noReq hr, fun x hr => ?_, rfl, fun h hh owned => ?_, fun h hh rest => ?_, fun hh => ?_,
      fun code => Mach.lkAnswered_of_unnamed⟩
    · exact Mach.lkAnswered_granted_of_entry hh ((if_pos waits).trans hu.symm)
    · exact Mach.lkAnswered_granted_of_entry hh (if_neg waits)
    · rw [Mach.lkAnswered_released, Mach.lkAnswered_forced, Mach.lkAnswered_withdrawn, Mach.lkAnswered_noHold, hr]
      simp only [Option.elim_some]
      refine ⟨fun release => if_pos release, fun other => ⟨if_neg other, if_neg other⟩, fun force => if_pos force,
        fun other => if_neg other, fun st withdrawn => ?_, fun kept => ?_, fun release => if_pos release⟩
      · rw [withdrawn, Option.elim_some]
      · rw [kept, Option.elim_none]
    · rw [Mach.lkAnswered_lost, hh, Option.elim_some, if_pos owned]
    · rw [Mach.lkAnswered_lost, hh, Option.elim_some, if_neg (by rcases rest with st | st <;> simp [st])]
    · rw [Mach.lkAnswered_lost, hh, Option.elim_none]
  case timers =>
    have resend {due : Nat} {u m : Mach} := (timesReq_lkuRequestResend q tag).completes (due := due) (u := u) (m := m) hx
    have retry {due : Nat} {u m : Mach} := (timesReq_lockBusyRetry q tag).completes (due := due) (u := u) (m := m) hx
    refine ⟨fun due on => (timesReq_lockTimeout q tag).completes hx on rfl rfl,
      fun due u on hu => ⟨fun spent => resend on hu (if_pos spent), fun more => resend on hu (if_neg (Nat.not_le_of_lt more))⟩,
      fun due u v on hu hv => ?_,
      fun due u on hu => ⟨fun spent => retry on hu (if_pos spent), fun more => retry on hu (if_neg (Nat.not_le_of_lt more))⟩⟩
    subst hv
    exact (timesReq_lockProbe q tag).completes hx on hu rfl

end Sys2Proof.Machine
end

section
/-! Atomics at their target and their answers (R295 to R297): which requests start, what the operand's read and its failure do, how
AT_RSP ends the work, and the values of Table 11-6. -/

namespace Sys2Proof.Machine

/-! ### AT_REQ (R296, R297) -/

/-- An AT_REQ is answered from the result table, starts an atomic, or is refused (R297). -/
theorem completes_atReq {s : State} {k : Packet} {h : LkuHdr} {u m : Mach} {slot : Nat} (hc : s.m.lkuComes k 0x28 h u)
    (hs : slot = k.hdr.dst % 16)
    (hm : (if u.slotPresent slot = false then u.atRsp slot k.hdr.src h.tag 3 0 0
      else (u.atom slot k.hdr.src h.tag).elim
        (if 65536 ≤ (u.lka.atoms.filter (fun x => quadOfSlot x.slot == quadOfSlot slot)).length then
          (u.tableFull (quadOfSlot slot)).atRsp slot k.hdr.src h.tag 7 0 0
        else u.startAtom k h)
        (fun x => if x.st = .done then
            (u.bump Reg.LKA.AT_DUP 1 (quadOfSlot slot)).atRsp slot x.src x.tag x.status x.detail x.value
          else u)) = m) :
    Completes (.atReq k) s m.resumeAcquires := by
  subst hs hm
  refine BringsLku.completes (fun _ => rfl) hc (by decide) ?_
  simp only [Bool.not_eq_true']
  cases u.atom (k.hdr.dst % 16) k.hdr.src h.tag <;> rfl

section Start
variable {m u : Mach} {k : Packet} {h : LkuHdr} {size : Nat}

/-- The window that an AT_REQ names admits it (R214, R296). -/
theorem Mach.atomWindow_eq_some {w : Window} : m.atomWindow k h size = some w ↔
    Tbl.find m.cxn.windows (h.queued % 1048576) = some w ∧ w.valid = true ∧ w.slot = k.hdr.dst % 16 ∧
      (w.peer = none ∨ w.peer = some k.hdr.src) ∧ w.atm = true ∧ h.offset + size ≤ w.len ∧ h.offset % size = 0 := by
  have peerAllowed (w : Window) : (match w.peer with | some p => p == k.hdr.src | none => true) = true ↔
      w.peer = none ∨ w.peer = some k.hdr.src := by
    cases w.peer <;> simp
  simp only [Mach.atomWindow, Option.bind_eq_some_iff, Option.ite_none_right_eq_some, Option.some.injEq, Bool.and_eq_true, beq_iff_eq,
    decide_eq_true_eq]
  constructor
  · rintro ⟨w, found, ⟨⟨⟨⟨⟨valid, own⟩, peer⟩, atm⟩, inside⟩, aligned⟩, rfl⟩
    exact ⟨found, valid, own, (peerAllowed w).1 peer, atm, inside, aligned⟩
  · rintro ⟨found, valid, own, peer, atm, inside, aligned⟩
    exact ⟨w, found, ⟨⟨⟨⟨⟨valid, own⟩, (peerAllowed w).2 peer⟩, atm⟩, inside⟩, aligned⟩, rfl⟩

/-- An atomic as an AT_REQ brings it, before its window is known. -/
def newAtom (k : Packet) (h : LkuHdr) (size : Nat) : AtEntry :=
  { src := k.hdr.src, tag := h.tag, slot := k.hdr.dst % 16, aop := h.code, size := size, pd := 0, func := 0, va := 0
    op1 := h.op1, op2 := h.op2, st := .translating }

/-- What follows an atomic's asking for its address: its turn, its walk, or its fault (R296). -/
def Mach.afterAddress (slot src tag : Nat) : Mach × HostResult → Mach
  | (m, .issued) => m.pumpAtoms (quadOfSlot slot)
  | (m, .waiting) => m
  | (m, .fault f) => m.atomFault slot src tag f

variable (hsize : size = 2 ^ (h.b25 % 16))
include hsize

/-- A request that its window does not allow is answered WINDOW_INVALID, and that is kept (R296, R297). -/
theorem Mach.startAtom_of_unallowed (hw : m.atomWindow k h size = none) :
    m.startAtom k h = { m with lka := { m.lka with atoms := m.lka.atoms ++ [newAtom k h size] } }.atomDone (newAtom k h size) 0x0D 0 0 := by
  subst hsize
  simp only [Mach.startAtom, hw]
  rfl

section Allowed
variable {w : Window} (hw : m.atomWindow k h size = some w)
include hw

theorem Mach.startAtom_of_barred (hf : (m.func w.slot w.func).barred = true) : m.startAtom k h = m := by
  subst hsize
  simp only [Mach.startAtom, hw, hf, if_true]

variable (hf : (m.func w.slot w.func).barred = false)
include hf

theorem Mach.startAtom_of_asleep (ha : m.awake w.slot w.func = false) :
    m.startAtom k h = if (m.func w.slot w.func).d3 then m.pme w.slot w.func else m := by
  subst hsize
  simp only [Mach.startAtom, hw, hf, ha, Bool.not_false, Bool.false_eq_true, if_false, if_true]

/-- A request that is admitted asks for its address, with access kind 7 (R296). -/
theorem Mach.startAtom_of_awake (ha : m.awake w.slot w.func = true)
    (hu : u = { m with lka := { m.lka with atoms := m.lka.atoms ++
      [{ newAtom k h size with pd := w.pd, func := w.func, va := w.base + h.offset }] } }) :
    m.startAtom k h = Mach.afterAddress (k.hdr.dst % 16) k.hdr.src h.tag (u.hostAccess
      { slot := k.hdr.dst % 16, func := w.func, pd := w.pd, va := w.base + h.offset, len := size, kind := 7, data := none
        purpose := .atomicAddr (k.hdr.dst % 16) k.hdr.src h.tag }) := by
  subst hsize hu
  simp only [Mach.startAtom, hw, hf, ha, Bool.not_true, Bool.false_eq_true, if_false]
  rfl

end Allowed

end Start

/-! ### AT_RSP (R296, R297) -/

section AtRsp
variable {s : State} {k : Packet} {h : LkuHdr} {u v m : Mach} {slot q : Nat} (hc : s.m.lkuComes k 0x29 h u)
  (hs : slot = k.hdr.dst % 16) (hq : q = quadOfSlot slot)
include hc hs hq

/-- TIMEOUT is retried after RNR_DELAY, as BUSY is (R297). -/
theorem completes_atRsp_of_timeout (h7 : h.code = 7) : Completes (.atRsp k) s (u.updReq q h.tag (fun x => if x.kind = 0x28 then
    { x with due := none, busy := some (u.clk + u.rnrDelay'), busySince := x.busySince.or (some u.clk) } else x)).resumeAcquires := by
  subst hs hq
  exact BringsLku.completes (fun _ => rfl) hc (by decide) (if_pos h7)

/-- The write of a fetched value to RESULT_ADDR (R296). -/
def LkReq.resultAccess (x : LkReq) (w : WorkRing) (value : Nat) : HostOp :=
  { slot := w.slot, func := w.func, pd := w.pd, va := x.resultAddr, len := 2 ^ (x.hdr.b25 % 16), kind := 4
    data := some (leBytes (2 ^ (x.hdr.b25 % 16)) value), purpose := .atomicResult x.ring x.seq value }

/-- What follows that write's being asked for: the end of the work, unless it waits for its walk. -/
def LkReq.afterResult (x : LkReq) (value : Nat) : Mach × HostResult → Mach
  | (m, .issued) => m.atomicEnd x.ring x.seq value none
  | (m, .waiting) => m
  | (m, .fault f) => m.atomicEnd x.ring x.seq value (some f)

/-- A fetched value reaches its work, by host memory where RESULT_ADDR names a place (R296). -/
def Mach.fetched (m : Mach) (x : LkReq) (value : Nat) : Mach :=
  (if x.resultAddr = 0 then none else m.wr x.ring).elim (m.atomicEnd x.ring x.seq value none) (fun w =>
    x.afterResult value (m.hostAccess (x.resultAccess w value)))

/-- Any other STATUS is acknowledged, and ends the atomic that waits for it. -/
theorem completes_atRsp_of_final (h7 : h.code ≠ 7) (hv : v = (u.lkuSend q slot k.hdr.src 0x2A (lkuHdr 0 h.tag)).1)
    (hm : (v.lkReq q h.tag).elim v (fun x => if x.kind ≠ 0x28 then v
      else if h.code ≠ 0 then v.endReq q h.tag h.code h.b25 else (v.dropReq q h.tag).fetched x h.op1) = m) :
    Completes (.atRsp k) s m.resumeAcquires := by
  subst hs hq hv hm
  refine BringsLku.completes (fun _ => rfl) hc (by decide) ((if_neg h7).trans ?_)
  dsimp only
  split
  next absent => rw [absent, Option.elim_none]
  next x hx =>
    rw [hx, Option.elim_some]
    simp only [bne_iff_ne, Mach.fetched]
    split
    · rfl
    · split
      · rfl
      · split
        next nowhere => rw [nowhere, Option.elim_none]
        next w hw => rw [hw, Option.elim_some]; rfl

end AtRsp

section Fetched
variable {m : Mach} {x : LkReq} {value : Nat}

theorem Mach.fetched_of_no_address (ha : x.resultAddr = 0) : m.fetched x value = m.atomicEnd x.ring x.seq value none := by
  rw [Mach.fetched, if_pos ha, Option.elim_none]

theorem Mach.fetched_of_address {w : WorkRing} (ha : x.resultAddr ≠ 0) (hw : m.wr x.ring = some w) :
    m.fetched x value = x.afterResult value (m.hostAccess (x.resultAccess w value)) := by
  rw [Mach.fetched, if_neg ha, hw, Option.elim_some]

end Fetched

/-- The work of an atomic ends with OK and the fetched value, of the size its entry names (R296, Table 6-12). -/
theorem Mach.atomicEnd_of_work {m : Mach} {ring seq value : Nat} {w : Work} (hw : m.workAt ring seq = some w) :
    m.atomicEnd ring seq value none = m.finishWork ring seq 0 0 value (2 ^ (w.entry.arg / 256 % 16)) := by
  simp only [Mach.atomicEnd, hw]

/-! ### The operand (R296, R467) -/

section Operand
variable {m : Mach} {slot src tag : Nat} {x : AtEntry} (hx : m.atom slot src tag = some x)
include hx

theorem Mach.operandRead_of_not_reading {data : List Byte} (hr : x.st ≠ .reading) : m.operandRead slot src tag data = m := by
  simp only [Mach.operandRead, hx]
  exact if_pos (bne_iff_ne.2 hr)

/-- The operand's value is replaced in memory by that of Table 11-6, and is the result (R296). -/
theorem Mach.operandRead_of_reading {data : List Byte} {mem : Nat} {u : Mach} (hr : x.st = .reading) (hm : mem = field data 0 x.size)
    (hu : u = (cutData x.segs (leBytes x.size (atomicValue x.aop x.size mem x.op1 x.op2))).foldl
      (fun a c => a.emit (.hostWrite slot x.func c.1 c.2)) m) :
    m.operandRead slot src tag data = (((u.bump Reg.LKA.ATOMICS 1 (quadOfSlot slot)).pmcEngine (quadOfSlot slot) .lku 0x0B 1).atomDone
      x 0 0 mem).pumpAtoms (quadOfSlot slot) := by
  subst hm hu
  simp only [Mach.operandRead, hx]
  exact if_neg (by simp [hr])

/-- An operand whose read fails leaves memory as it was (R467). -/
theorem Mach.operandFailed_of_atom : m.operandFailed slot src tag =
    if x.st = .reading then (m.atomDone x 0x0E 0 0).pumpAtoms (quadOfSlot slot) else m := by
  simp only [Mach.operandFailed, hx]

theorem Mach.atomFault_of_atom (f : XFault) : m.atomFault slot src tag f = m.atomDone x 0x01 f.detail 0 := by
  simp only [Mach.atomFault, hx]

end Operand

/-! ### Results are forgotten (R297) -/

section Expiry
variable {s : State} {slot : Slot} {src tag : Nat}

theorem completes_resultTableExpiry_of_none
    (h : s.m.atom slot src tag = none ∨ (s.m.atom slot src tag).any (fun x => x.st != .done) = true) :
    Completes (.resultTableExpiry slot src tag) s s.m := by
  change execResultTableExpiry slot src tag s = _
  simp only [execResultTableExpiry, ok]
  split
  next x hx => rw [if_neg (by simpa [hx] using h)]
  next => rfl

theorem completes_resultTableExpiry {x : AtEntry} {u : Mach} (hx : s.m.atom slot src tag = some x) (hd : x.st = .done)
    (hu : u = s.m.elapseTo (x.doneAt + 4 * s.m.lifetime)) : Completes (.resultTableExpiry slot src tag) s
      { u with lka := { u.lka with atoms := u.lka.atoms.filter (fun x => !(x.slot == slot.val && x.src == src && x.tag == tag)) } } := by
  subst hu
  change execResultTableExpiry slot src tag s = _
  simp only [execResultTableExpiry, hx, hd, if_true, ok]

end Expiry

/-! ### The statement -/

/-- Settles O35: each clause is a case of its packet's law, of the start of an atomic, of its operand, or of a result's expiry; on operands
within the width, Table 11-6 reads them as they are. -/
theorem atomicsActOnceAtTheirTarget : Obligations.AtomicsActOnceAtTheirTarget := by
  refine ⟨fun s k h u slot hc hs => ?request, fun m k h size w => Mach.atomWindow_eq_some, fun m k h w hw => ?held, ?start, ?answer,
    fun m ring seq value f => ⟨rfl, fun w => Mach.atomicEnd_of_work⟩, fun m slot src tag x data hx => ?operand,
    fun s k h u hc => BringsLku.completes (fun _ => rfl) hc (by decide) rfl, fun s slot src tag => completes_resultTableExpiry_of_none,
    fun s slot src tag x u => completes_resultTableExpiry, fun w mem a b _ ha hb => ?values⟩
  case request =>
    have asks {m : Mach} := completes_atReq (m := m) hc hs
    refine ⟨fun absent => asks (if_pos absent), fun x here hx => ?_, fun here new => ?_⟩
    · rw [here, hx, if_neg (by decide), Option.elim_some] at asks
      exact ⟨fun done => asks (if_pos done), fun going => asks (if_neg going)⟩
    · rw [here, new, if_neg (by decide), Option.elim_none] at asks
      exact ⟨fun full => asks (if_pos full), fun room => asks (if_neg (Nat.not_le_of_lt room))⟩
  case held =>
    exact ⟨Mach.startAtom_of_barred rfl hw, Mach.startAtom_of_asleep rfl hw⟩
  case start =>
    rintro m u k h slot size x rfl hsize rfl
    refine ⟨Mach.startAtom_of_unallowed hsize, fun w v f hw free awake hu access => ?_⟩
    have starts := (Mach.startAtom_of_awake hsize hw free awake hu).trans (congrArg (Mach.afterAddress _ _ _) access)
    refine ⟨?_, ?_, fun z => ?_⟩ <;> rintro rfl <;> exact starts
  case answer =>
    intro s k h u v slot q hc hs hq hv
    have ends {m : Mach} (h7) := completes_atRsp_of_final (m := m) hc hs hq h7 hv
    refine ⟨completes_atRsp_of_timeout hc hs hq, fun h7 hx => ends h7 (by rw [hx, Option.elim_none]), fun x h7 hx atomic => ?_,
      fun x h7 hx other => ends h7 (by rw [hx, Option.elim_some, if_pos other])⟩
    have finish {m : Mach} := ends (m := m) h7
    rw [hx, Option.elim_some, if_neg (not_not.2 atomic)] at finish
    refine ⟨fun failed => finish (if_pos failed), fun good nowhere => finish ?_, fun w z good place hw access => finish ?_,
      fun w z good place hw access => finish ?_, fun w z f good place hw access => finish ?_⟩ <;>
      rw [if_neg (not_not.2 good)]
    · exact Mach.fetched_of_no_address nowhere
    all_goals exact (Mach.fetched_of_address place hw).trans (congrArg (x.afterResult h.op1) access)
  case operand =>
    refine ⟨fun other => ⟨Mach.operandRead_of_not_reading hx other, (Mach.operandFailed_of_atom hx).trans (if_neg other)⟩,
      fun reading => ⟨(Mach.operandFailed_of_atom hx).trans (if_pos reading), fun mem u => Mach.operandRead_of_reading hx reading⟩,
      Mach.atomFault_of_atom hx⟩
  case values =>
    simp only [atomicValue, Nat.mod_eq_of_lt ha, Nat.mod_eq_of_lt hb, and_self]

end Sys2Proof.Machine
end

section
/-! The invariant of the MRAM array (R388): the recorder's writes, the boot, exports and the register actions keep its canonical
form, and with them every command. -/

namespace Sys2Proof.Machine

/-! ### What the invariant speaks of -/

theorem Memory.wf_foldl_writeRec (l : List Rec) {mem : Memory} (w : Memory.wf mem = true) :
    Memory.wf (l.foldl (fun a r => Memory.writeRec a r.place r.toBytes) mem) = true := by
  induction l generalizing mem with
  | nil => exact w
  | cons r l ih => exact ih (Memory.wf_writeRec r.place r.toBytes w)

/-- The invariant is about the array alone, whatever the block and the queue are. -/
theorem State.wf_mk {mem : Memory} (h : Memory.wf mem = true) (m : Mach) (p : List Instr) :
    State.wf { m := m, mram := mem, pending := p } := h

/-- The state that a command answers, if it answers one, has a canonical array. -/
def Result.wf : Result → Prop
  | .next t => t.wf
  | .fault _ => True
  | .refused _ => True

theorem Result.wf_ok {s : State} (h : s.wf) (m : Mach) : Result.wf (ok s m) := h

/-! ### The recorder, the boot and exports -/

section Recorder
variable {s : State} (h : s.wf)
include h

theorem State.wf_flush : s.flush.wf := State.wf_mk (Memory.wf_foldl_writeRec s.m.evr.amends h) _ _

theorem Result.wf_okFlt (m : Mach) : Result.wf (okFlt s m) := State.wf_flush (State.wf_mk h m s.pending)

theorem State.wf_flushFall : s.flushFall.wf := State.wf_mk (Memory.wf_foldl_writeRec _ h) _ _

theorem State.wf_writeHead : s.writeHead.wf := by
  unfold State.writeHead
  split
  · exact h
  · exact State.wf_mk (Memory.wf_writeRec _ _ h) _ _

theorem State.wf_eraseTorn : s.eraseTorn.wf := State.wf_mk (Memory.wf_writeAll _ _ h) _ _

theorem State.wf_ledgerWrite (kind flags tail4 : Nat) (mgc set : List Byte) : (s.ledgerWrite kind flags tail4 mgc set).wf := by
  unfold State.ledgerWrite
  split
  · exact State.wf_mk h _ _
  · exact State.wf_mk (Memory.wf_writeAll _ _ h) _ _

theorem State.wf_bootEntry (cause : Nat) (sub bad : Bool) : (s.bootEntry cause sub bad).wf :=
  State.wf_mk (State.wf_ledgerWrite h _ _ _ _ _) _ _

omit h in
theorem State.wf_drainQueue (n : Nat) {s : State} (h : s.wf) : (State.drainQueue n s).wf := by
  induction n generalizing s with
  | zero => exact h
  | succ n ih =>
    unfold State.drainQueue
    split
    · exact h
    · exact ih (State.wf_writeHead h)

theorem State.wf_checkMram (b : BootIn) (power : Bool) : (s.checkMram b power).wf := by
  have torn : (if power then (match b.tornRecord with | some a => { s with m := s.m.lostTorn a } | none => s) else s).wf := by
    split
    · split
      · exact State.wf_mk h _ _
      · exact h
    · exact h
  unfold State.checkMram
  extract_lets s1 s2
  have erased : s2.wf := by
    unfold s2
    split
    · exact State.wf_eraseTorn torn
    · exact torn
  split
  · exact erased
  · exact State.wf_mk erased _ _

theorem State.wf_boots (b : BootIn) (cause : Nat) : (s.boots b cause).wf := by
  unfold State.boots
  extract_lets power _ _ _ _ _ _ _ m s1 _ _ _ _ _ n s2
  have checked : s1.wf := State.wf_checkMram (State.wf_flush (State.wf_mk h m _)) b power
  have booted : s2.wf := by
    unfold s2
    split
    · exact State.wf_bootEntry (State.wf_mk checked n _) _ _ _
    · exact State.wf_bootEntry (State.wf_mk checked _ _) _ _ _
  exact State.wf_mk booted _ _

theorem State.wf_moduleResets (b : BootIn) (cause : Nat) : (s.moduleResets b cause).wf :=
  State.wf_boots (State.wf_drainQueue _ (State.wf_mk h _ _)) b cause

omit h in
theorem State.wf_pumpExport (i n : Nat) {s : State} (h : s.wf) : (State.pumpExport i n s).wf := by
  induction n generalizing s with
  | zero => exact h
  | succ n ih =>
    unfold State.pumpExport
    extract_lets e
    split
    · exact h
    split
    · exact State.wf_mk h _ _
    split
    · exact ih (State.wf_writeHead h)
    split
    · exact ih (State.wf_mk h _ _)
    split
    · exact State.wf_mk h _ _
    split
    · exact ih (State.wf_mk h _ _)
    · exact State.wf_mk h _ _
    · exact State.wf_mk h _ _

theorem State.wf_goExport (i : Nat) : (s.goExport i).wf := State.wf_pumpExport i _ h

theorem State.wf_goExports : s.goExports.wf := by
  have each (l : List (Nat × Export)) {s : State} (h : s.wf) : (l.foldl (fun (a : State) c => a.goExport c.1) s).wf := by
    induction l generalizing s with
    | nil => exact h
    | cons c l ih => exact ih (State.wf_goExport h c.1)
  exact each _ h

end Recorder

/-! ### Register actions -/

/-- A command keeps the invariant. -/
def Keeps (act : State → Result) : Prop := ∀ s : State, s.wf → Result.wf (act s)

theorem Keeps.ok (f : State → Mach) : Keeps (fun s => Machine.ok s (f s)) := fun _ h => Result.wf_ok h _

theorem Keeps.okFlt (f : State → Mach) : Keeps (fun s => Machine.okFlt s (f s)) := fun _ h => Result.wf_okFlt h _

theorem keeps_moduleReset (r : Requester) (b : BootIn) : Keeps (execModuleReset r b) := by
  intro s h
  unfold execModuleReset
  dsimp only
  split
  · exact State.wf_moduleResets (State.wf_mk h _ _) b 1
  · exact Result.wf_ok h _

theorem keeps_swap (r : Requester) : Keeps (execSwap r) := by
  intro s h
  unfold execSwap
  dsimp only
  split
  · exact Result.wf_ok h _
  · split <;> exact Result.wf_ok h _

section Actions
variable {s : State} (h : s.wf)
include h

theorem State.wf_also {act : State → Result} (c : Bool) (hact : Keeps act) : (s.also c act).wf := by
  have done := hact s h
  unfold State.also
  split
  · revert done
    cases act s <;> intro done
    · exact done
    · exact h
    · exact h
  · exact h

theorem State.wf_act (r : Requester) (d v : Nat) : (s.act r d v).wf := by
  unfold State.act
  dsimp only
  repeat' split
  all_goals apply_rules [State.wf_also, State.wf_mk, Keeps.ok, Keeps.okFlt, keeps_moduleReset, keeps_swap]

theorem State.wf_writeActions (r : Requester) (d v : Nat) (fs : List (Field × Nat)) (f : Field) : (s.writeActions r d v fs f).1.wf := by
  unfold State.writeActions
  dsimp only
  split
  · exact State.wf_mk h _ _
  split
  · exact State.wf_act h r d v
  · exact State.wf_act (State.wf_mk h _ _) r d _

theorem State.wf_regWrite (r : Requester) (off v : Nat) : (s.regWrite r off v).1.wf := by
  unfold State.regWrite
  dsimp only
  split
  · exact State.wf_mk h _ _
  split
  · exact State.wf_mk h _ _
  split
  · exact State.wf_mk h _ _
  split
  · exact State.wf_writeActions (State.wf_mk h _ _) r _ v _ _
  split
  · split <;> exact State.wf_mk h _ _
  · exact State.wf_mk h _ _

theorem State.wf_goOn (w : StalledWrite) : (s.goOn w).wf := by
  unfold State.goOn
  split
  · exact State.wf_mk h _ _
  · exact State.wf_regWrite h _ _ _

omit h in
theorem State.wf_foldl_goOn (ws : List StalledWrite) {s : State} (h : s.wf) : (ws.foldl State.goOn s).wf := by
  induction ws generalizing s with
  | nil => exact h
  | cons w ws ih => exact ih (State.wf_goOn h w)

end Actions

/-! ### The commands -/

theorem Result.wf_fault (f : Fault) : Result.wf (.fault f) := trivial

theorem keeps_tableSwitch (c : EngClass) : Keeps (execTableSwitch c) := by
  intro s h
  unfold execTableSwitch
  split
  · exact Result.wf_ok h _
  split
  · exact Result.wf_ok h _
  split
  · exact Result.wf_ok h _
  extract_lets _ _ _ _ _ m u v
  have written : u.wf := State.wf_ledgerWrite (State.wf_mk h m _) _ _ _ _ _
  have measured : v.wf := by
    unfold v
    split
    · exact written
    · exact State.wf_mk written _ _
  exact Result.wf_ok measured _

theorem keeps_pgoodRise (b : BootIn) : Keeps (execPgoodRise b) := by
  intro s h
  unfold execPgoodRise
  split
  · exact Result.wf_ok h _
  split
  · exact Result.wf_ok h _
  · exact State.wf_boots (State.wf_mk h _ _) b 0

theorem keeps_pgoodFall : Keeps execPgoodFall := by
  intro s h
  unfold execPgoodFall
  split
  · exact Result.wf_ok h _
  · exact Result.wf_ok (State.wf_flushFall (State.wf_mk h _ _)) _

theorem keeps_walkReadCompletion (id : Nat) (entry : BitVec 64) : Keeps (execWalkReadCompletion id entry) := by
  intro s h
  unfold execWalkReadCompletion
  split
  · exact Result.wf_ok h _
  split
  · exact Result.wf_ok h _
  · exact State.wf_goExports (State.wf_mk h _ _)

theorem keeps_hostReadFailure (id : Nat) (why : ReadFailure) : Keeps (execHostReadFailure id why) := by
  intro s h
  unfold execHostReadFailure
  dsimp only
  split
  · exact Result.wf_ok h _
  split
  · exact Result.wf_ok h _
  split
  · exact Result.wf_ok h _
  · exact State.wf_goExports (State.wf_mk h _ _)

theorem keeps_yarrowStep (e : Engine) (w : StepWord) : Keeps (execYarrowStep e w) := by
  intro s h
  unfold execYarrowStep
  split
  · exact Result.wf_fault _
  split
  · exact Result.wf_ok h _
  · extract_lets m
    split <;> exact Result.wf_ok h _

theorem keeps_swapLoaded (c : EngClass) (v : VariantIn) : Keeps (execSwapLoaded c v) := by
  intro s h
  unfold execSwapLoaded
  split
  · exact Result.wf_ok h _
  split
  · exact Result.wf_ok h _
  · split <;> exact Result.wf_ok h _

theorem keeps_conditionEnd (fs : Fin 128) (unit : FUnit) : Keeps (execConditionEnd fs unit) := by
  intro s h
  unfold execConditionEnd
  extract_lets was m
  split
  · exact Result.wf_ok h _
  split
  · exact Result.wf_ok h _
  · split <;> exact Result.wf_ok h _

theorem keeps_attestComplete : Keeps execAttestComplete := by
  intro s h
  unfold execAttestComplete
  split
  · exact Result.wf_ok h _
  split
  · exact Result.wf_okFlt h _
  · exact Result.wf_okFlt h _

theorem keeps_pldmFirmwareUpdate (p : Path) (u : PldmUpdate) (b : BootIn) : Keeps (execPldmFirmwareUpdate p u b) := by
  intro s h
  unfold execPldmFirmwareUpdate
  split
  · exact Result.wf_ok h _
  split
  · exact State.wf_moduleResets (State.wf_mk h _ _) b 2
  · exact Result.wf_ok h _

theorem keeps_mgcWatchdogExpiry (b : BootIn) : Keeps (execMgcWatchdogExpiry b) :=
  fun _ h => State.wf_mk (State.wf_moduleResets h b 3) _ _

theorem keeps_registerWrite (r : Requester) (off : Nat) (whole : Bool) (v : Word) : Keeps (execRegisterWrite r off whole v) := by
  intro s h
  unfold execRegisterWrite
  split
  · exact State.wf_regWrite h r off _
  · exact Result.wf_ok h _

theorem keeps_regWrite (p : Path) (view off : Nat) (v : Word) : Keeps (execRegWrite p view off v) := by
  intro s h
  unfold execRegWrite
  dsimp only
  split
  · exact Result.wf_ok h _
  split
  · exact Result.wf_ok h _
  split
  · exact Result.wf_ok h _
  split
  · exact Result.wf_ok h _
  · exact Result.wf_ok (State.wf_regWrite (State.wf_mk h _ _) _ _ _) _

theorem keeps_recordWriteComplete : Keeps execRecordWriteComplete :=
  fun _ h => State.wf_foldl_goOn _ (State.wf_mk (State.wf_writeHead h) _ _)

theorem keeps_vendorDefinedRequest (p : Path) (c : VendorCommand) : Keeps (execVendorDefinedRequest p c) := by
  intro s h
  cases c
  case regWrite view off v => exact keeps_regWrite p view off v s h
  case wake => exact Result.wf_okFlt h _
  all_goals exact Result.wf_ok h _

/-- Whatever the command, the state that it answers has a canonical array: most answer the block alone, and the others are the
operations above. -/
theorem exec_wf (c : Instr) {s : State} (h : s.wf) : Result.wf (exec c s) := by
  cases c
  case registerWrite r off whole v => exact keeps_registerWrite r off whole v s h
  case regWrite p view off v => exact keeps_regWrite p view off v s h
  case vendorDefinedRequest p c => exact keeps_vendorDefinedRequest p c s h
  case recordWriteComplete => exact keeps_recordWriteComplete s h
  case exportComplete r => exact State.wf_goExport h r.fnKey
  case walkReadCompletion id entry => exact keeps_walkReadCompletion id entry s h
  case hostReadFailure id why => exact keeps_hostReadFailure id why s h
  case tableSwitch c => exact keeps_tableSwitch c s h
  case pgoodRise b => exact keeps_pgoodRise b s h
  case pgoodFall => exact keeps_pgoodFall s h
  case moduleReset r b => exact keeps_moduleReset r b s h
  case mgcWatchdogExpiry b => exact keeps_mgcWatchdogExpiry b s h
  case pldmFirmwareUpdate p u b => exact keeps_pldmFirmwareUpdate p u b s h
  case swap r => exact keeps_swap r s h
  case attestComplete => exact keeps_attestComplete s h
  case modeReqConfig | modeReqSafe | modeReqLockout | warmReset | faultDetection | fltAck | faultForce | wake =>
    exact Result.wf_okFlt h _
  case yarrowStep e w => exact keeps_yarrowStep e w s h
  case swapLoaded c v => exact keeps_swapLoaded c v s h
  case conditionEnd fs unit => exact keeps_conditionEnd fs unit s h
  case dieLinkDown | dieLinkGate =>
    dsimp only [exec, execDieLinkDown, execDieLinkGate]
    split
    · exact Result.wf_fault _
    · exact Result.wf_ok h _
  case engineGateClose | engineWake =>
    dsimp only [exec, execEngineGateClose, execEngineWake]
    split
    · exact Result.wf_ok h _
    · exact Result.wf_fault _
  case hostPortLinkUp | rowRepairComplete | registerRead =>
    dsimp -zeta only [exec, execHostPortLinkUp, execRowRepairComplete, execRegisterRead]
    split <;> exact Result.wf_ok h _
  case railGroupDischarge | railFault | verifyComplete =>
    dsimp -zeta only [exec, execRailGroupDischarge, execRailFault, execVerifyComplete]
    extract_lets m
    split <;> exact Result.wf_ok h _
  case patrolOverrun =>
    dsimp -zeta only [exec, execPatrolOverrun]
    split
    · exact Result.wf_ok h _
    · split <;> exact Result.wf_ok h _
  case trainTimeout =>
    dsimp -zeta only [exec, execTrainTimeout]
    split
    · exact Result.wf_ok h _
    · extract_lets m
      split <;> exact Result.wf_ok h _
  case railGroupStart | sramPatrolRead | counterOverflow =>
    dsimp -zeta only [exec, execRailGroupStart, execSramPatrolRead, execCounterOverflow]
    extract_lets m
    split
    · exact Result.wf_ok h _
    · split <;> exact Result.wf_ok h _
  all_goals exact Result.wf_ok h _

/-! ### The statements -/

/-- Settles O1: it is the law of a step with a command at the front. -/
theorem stepRunsTheFrontCommand : Obligations.StepRunsTheFrontCommand := fun _ _ _ => step_front

/-- Settles O4: nothing is listed in the reset state, so each field reads as its table's reset value. -/
theorem resetStateIsAttestWithResetValues : Obligations.ResetStateIsAttestWithResetValues :=
  ⟨rfl, fun _ _ => rfl, rfl, rfl, rfl, rfl, rfl⟩

/-- Settles O3: whatever the front command is, what it answers has a canonical array (`exec_wf`), and a cycle without one leaves it. -/
theorem everyStepKeepsMramCanonical : Obligations.EveryStepKeepsMramCanonical := by
  intro s t h hs
  cases hp : s.pending with
  | nil =>
    rw [step_idle hp] at hs
    cases hs
    exact h
  | cons c rest =>
    have kept := exec_wf c (State.wf_mk h s.m rest)
    rw [step_front hp] at hs
    rwa [hs] at kept

end Sys2Proof.Machine
end

section
/-! The injection scheduler of file 12: grants (R306), the head packets that the gates hold (R311), the burst windows and the
calendar wheel (R308, R309), and the time gates (R310 to R314). -/

namespace Sys2Proof.Machine

/-! ### Grants -/

theorem completes_injectionGrant_of_linkless {s : State} {q : Quad} (h : s.m.netModes = false) : Completes (.injectionGrant q) s s.m :=
  congrArg (ok s) (if_pos (by simp [h]))

section Grant
variable {s : State} {q : Quad} {u v : Mach} (hn : s.m.netModes = true)
  (hu : u = (if Tbl.find s.m.sch.last q.val = some s.m.clk then s.m.elapse 1 else s.m).countWaits q)
include hn hu

theorem completes_injectionGrant_of_none (hp : u.pickGrant q = (v, none)) : Completes (.injectionGrant q) s v := by
  subst hu
  change execInjectionGrant q s = _
  simp only [execInjectionGrant, hn, hp, Bool.not_true, Bool.false_eq_true, if_false, ok]

theorem completes_injectionGrant_of_picked {o : Offer} {w x y : Mach} (hp : u.pickGrant q = (v, some o))
    (hw : w = ((if v.neverFits (o.pkt.hdr.tc % 4) (v.cost o.pkt) then (v.bump Reg.SCH.GATE_OVERRUNS 1 q).record 0x6041 q
      [o.pkt.hdr.tc % 4, v.cost o.pkt] else v).bump Reg.SCH.GRANTS 1 q).noteFirst o)
    (hx : x = { w with sch := { w.sch with last := Tbl.set w.sch.last q.val w.clk } })
    (hy : y = (if endsMessage o.pkt then x.pmcEngine q .txe 0x0B 1 else x)) : Completes (.injectionGrant q) s
      (o.tx.elim (y.inject q (y.withAge q o)) (fun c => ((y.inject q (y.withAge q o)).injected o).pumpSend c.1)) := by
  subst hu hw hx hy
  change execInjectionGrant q s = _
  cases htx : o.tx with
  | none => simp only [execInjectionGrant, hn, hp, htx, Option.elim_none, Bool.not_true, Bool.false_eq_true, if_false, ok]
  | some c => simp only [execInjectionGrant, hn, hp, htx, Option.elim_some, Bool.not_true, Bool.false_eq_true, if_false, ok]

end Grant

section Pick
variable {m : Mach} {q : Nat}

section OfThree
variable (ht : (m.pickGroup q 3).isSome = true) (hp : m.isParked q (tc3Id q) = false)
include ht hp

theorem Mach.pickGrant_of_three_none (hg : m.grantIn q 3 = none) : m.pickGrant q = (m, none) := by
  simp [Mach.pickGrant, ht, hp, hg]

theorem Mach.pickGrant_of_three {o : Offer} {u : Mach} (hg : m.grantIn q 3 = some (o, u)) : m.pickGrant q =
    (u.charge q (tc3Id q) (u.get Reg.SCH.TC3_RATE q) (u.get Reg.SCH.TC3_BURST q) (u.cost o.pkt), some o) := by
  simp [Mach.pickGrant, ht, hp, hg]

end OfThree

/-- Where no TC3 packet goes, because none could or because its limiter is parked, the pick is among the other TCs. -/
theorem Mach.pickGrant_of_others {u : Mach} (h : ((m.pickGroup q 3).isSome = true ∧ m.isParked q (tc3Id q) = true ∧
      u = m.bump Reg.SCH.TC3_HELD 1 q) ∨ ((m.pickGroup q 3).isSome = false ∧ u = m)) :
    m.pickGrant q = match u.pickTc q with
      | none => (u, none)
      | some c =>
        match (u.setDrr (tcList q) c.list).grantIn q c.m with
        | none => (u, none)
        | some (o, w) => (w.retire (tcList q) c.m (w.drr (groupList q c.m)).isEmpty, some o) := by
  rcases h with ⟨ht, hp, rfl⟩ | ⟨ht, rfl⟩
  · simp only [Mach.pickGrant, ht, hp, Bool.and_self, if_true, Bool.not_true, Bool.and_false, Bool.false_eq_true, if_false] <;> rfl
  · simp only [Mach.pickGrant, ht, Bool.false_and, Bool.false_eq_true, if_false] <;> rfl

end Pick

/-! ### Head packets that the gates hold -/

theorem Mach.countWaits_of_ungated {m : Mach} (h : m.gated = false) (q : Nat) : m.countWaits q = m := by
  simp [Mach.countWaits, h]

section OneFifo
variable {m : Mach} {q id tc : Nat} {o : Offer} {r : List Offer} (hg : m.gated = true) (ht : tc < 4)
  (hq : (id / 16384 = q ∧ id < 65536) ∨ id = 65536 + q) (hf : m.sch.fifo = [(fifoKey id tc, o :: r)])
include hg ht hq hf

/-- With one FIFO of the quadrant, its head is counted where it was not, its gate holds it, and it is on no wheel. -/
theorem Mach.countWaits_singleton : m.countWaits q =
    if o.waited = false ∧ m.fits q tc (m.cost o.pkt) = false ∧ m.isParked q id = false then
      (m.setFifo id tc ({ o with waited := true } :: r)).bump Reg.SCH.GATE_WAITS 1 q else m := by
  have keyId : fifoKey id tc / 4 = id := by unfold fifoKey; omega
  have keyTc : fifoKey id tc % 4 = tc := by unfold fifoKey; omega
  simp only [Mach.countWaits, hg, Bool.not_true, Bool.false_eq_true, if_false, hf, List.foldl_cons, List.foldl_nil, keyId, keyTc, hq,
    decide_true, Bool.and_eq_true, Bool.not_eq_true', and_assoc, true_and]

theorem Mach.countWaits_of_going (h : o.waited = true ∨ m.fits q tc (m.cost o.pkt) = true ∨ m.isParked q id = true) :
    m.countWaits q = m := by
  rw [Mach.countWaits_singleton hg ht hq hf, if_neg]
  rintro ⟨hw, hfit, hp⟩
  simp [hw, hfit, hp] at h

end OneFifo

/-! ### What the gates let through -/

section Fits
variable {m : Mach} {tc : Nat}

theorem Mach.fits_of_open (h : m.gated = false ∨ m.sch.gates.alwaysOpen tc = true) (q cost : Nat) : m.fits q tc cost = true := by
  unfold Mach.fits
  rw [if_pos]
  rcases h with h | h <;> simp [h]

variable {q cost : Nat} (hg : m.gated = true) (ha : m.sch.gates.alwaysOpen tc = false)
include hg ha

theorem Mach.fits_of_shut (hr : m.sch.gates.runAt tc (m.sch.gates.pos (m.hgt q)) = none) : m.fits q tc cost = false := by
  simp [Mach.fits, hg, ha, hr]

theorem Mach.fits_iff_of_run {since len : Nat} (hr : m.sch.gates.runAt tc (m.sch.gates.pos (m.hgt q)) = some (since, len))
    (hn : m.neverFits tc cost = false) :
    m.fits q tc cost = true ↔ 10 * (5 * cost + 1000 * m.get Reg.SCH.GATE_GUARD) ≤ 625 * (len - since) := by
  simp only [Mach.fits, hg, ha, hr, hn, Bool.not_true, Bool.or_self, Bool.false_eq_true, if_false]
  exact decide_eq_true_iff

end Fits

/-! ### The wheel -/

/-- The fine slot after an instant is the first boundary of the fine wheel behind it. -/
theorem fineSlot_after (t : Nat) : t < (t / fineSlot + 1) * fineSlot ∧ (t / fineSlot + 1) * fineSlot ≤ t + 20000000 ∧
    (t / fineSlot + 1) * fineSlot % 20000000 = 0 := by
  unfold fineSlot
  omega

section Charge
variable {m u : Mach} {q id rate burst cost t : Nat} (hr : rate ≠ 0)
  (ht : t = max (Tbl.get m.sch.elig id 0) (500000 * m.clk - (64 * burst * 8000000000 / min 1600000 rate + 20000000)) +
    cost * 8000000000 / min 1600000 rate)
  (hu : u = { m with sch := { m.sch with elig := Tbl.set m.sch.elig id t } })
include hr ht hu

/-- A charged member's eligible time moves on, and it is parked until then. -/
theorem Mach.charge_eq : m.charge q id rate burst cost = if t ≤ 500000 * m.clk then u else
    let coarse := decide (4096 * 20000000 ≤ t - 500000 * m.clk)
    let p : Parked := { key := id, coarse := coarse, due := if coarse then t / coarseSlot * coarseSlot else (t / fineSlot + 1) * fineSlot,
                        t := t }
    { u with sch := { u.sch with parked := Tbl.modify u.sch.parked q [] (· ++ [p]) } }.bump Reg.SCH.PARKS 1 q := by
  subst hu ht
  simp only [Mach.charge, hr, if_false]
  rfl

theorem Mach.charge_of_eligible (h : t ≤ 500000 * m.clk) : m.charge q id rate burst cost = u :=
  (Mach.charge_eq hr ht hu).trans (if_pos h)

theorem Mach.charge_of_early (h : 500000 * m.clk < t) : ∃ due coarse, m.charge q id rate burst cost =
    { u with sch := { u.sch with
      parked := Tbl.modify u.sch.parked q [] (fun l => l ++ [({ key := id, coarse := coarse, due := due, t := t } : Parked)]) } }.bump
      Reg.SCH.PARKS 1 q ∧
    (coarse = true ↔ 4096 * 20000000 ≤ t - 500000 * m.clk) ∧
    (coarse = false → t < due ∧ due ≤ t + 20000000 ∧ due % 20000000 = 0) := by
  refine ⟨_, _, (Mach.charge_eq hr ht hu).trans (if_neg (Nat.not_le_of_lt h)), decide_eq_true_iff, fun fine => ?_⟩
  rw [fine]
  exact fineSlot_after t

end Charge

theorem slotRound_of_ahead {fs : Nat} {p : Parked} (h : fs < p.due) : slotRound fs p = some p := if_pos h

theorem slotRound_of_fine {fs : Nat} {p : Parked} (h : p.due ≤ fs) (hc : p.coarse = false) : slotRound fs p = none := by
  simp [slotRound, Nat.not_lt_of_le h, hc]

theorem slotRound_of_coarse {fs : Nat} {p : Parked} (h : p.due ≤ fs) (hc : p.coarse = true) : slotRound fs p =
    if (p.t / fineSlot + 1) * fineSlot ≤ fs then none else some { p with coarse := false, due := (p.t / fineSlot + 1) * fineSlot } := by
  simp only [slotRound, Nat.not_lt_of_le h, hc, if_true, if_false]

theorem completes_wheelSlot_of_none {s : State} {q : Quad} (h : s.m.nextSlot q = none) : Completes (.wheelSlot q) s s.m := by
  change execWheelSlot q s = _
  simp only [execWheelSlot, h, ok]

theorem completes_wheelSlot {s : State} {q : Quad} {due : Nat} {u : Mach} (h : s.m.nextSlot q = some due)
    (hu : u = s.m.elapseTo ((due + 499999) / 500000)) : Completes (.wheelSlot q) s { u with sch := { u.sch with
      parked := Tbl.modify u.sch.parked q.val [] (fun l => l.filterMap (slotRound u.fs)) } } := by
  subst hu
  change execWheelSlot q s = _
  simp only [execWheelSlot, h, ok]

/-! ### The gates in force -/

theorem completes_gateChange_of_ungated {s : State} (h : s.m.gated = false) : Completes .gateChange s s.m :=
  congrArg (ok s) (if_pos (by simp [h]))

theorem completes_gateChange {s : State} {i stop mask : Nat} (h : s.m.gated = true)
    (hs : spanAt (s.m.sch.gates.pos (s.m.hgt s.m.refQuad)) 0 0 s.m.sch.gates.spans = (i, stop, mask)) :
    Completes .gateChange s (s.m.elapseHgt s.m.refQuad (stop - s.m.sch.gates.pos (s.m.hgt s.m.refQuad))) := by
  change execGateChange s = _
  simp only [execGateChange, h, hs, Bool.not_true, Bool.false_eq_true, if_false, ok]

theorem completes_gateSwap {s : State} {r : Requester} {i : Nat} {u : Mach} (h : s.m.passes r Reg.SCH.GATE_SWAP i = true)
    (hu : u = s.m.acted r Reg.SCH.GATE_SWAP 1) : Completes (.gateSwap r) s { u with sch := { u.sch with
      swapAt := some (u.get64 Reg.SCH.SWAP_TIME_LO Reg.SCH.SWAP_TIME_HI, u.hgtRef) } } := by
  subst hu
  exact congrArg (ok s) (Mach.action_passes h 1 _)

theorem completes_gateSwapInstant_of_none {s : State} (h : s.m.sch.swapAt = none) : Completes .gateSwapInstant s s.m := by
  change execGateSwapInstant s = _
  simp only [execGateSwapInstant, h, ok]

theorem completes_gateSwapInstant {s : State} {t armed start : Nat} {u : Mach} (h : s.m.sch.swapAt = some (t, armed))
    (hs : start = s.m.stagedGates.startFrom (max t armed))
    (hu : u = (if s.m.hgt s.m.refQuad < start then s.m.elapseHgt s.m.refQuad (start - s.m.hgt s.m.refQuad) else s.m)) :
    Completes .gateSwapInstant s
      ({ u with sch := { u.sch with gates := s.m.stagedGates, swapAt := none } }.record 0x6040 s.m.refQuad [start]) := by
  subst hu hs
  change execGateSwapInstant s = _
  simp only [execGateSwapInstant, h, ok]

theorem completes_gateEn {s : State} {r : Requester} {i : Nat} (h : s.m.passes r Reg.SCH.GATE_EN i = true) (on : Bool) :
    Completes (.gateEn r on) s (s.m.stored r Reg.SCH.GATE_EN (b2n on) i) :=
  congrArg (ok s) (Mach.setting_passes h (b2n on) _)

theorem completes_schCntClr {s : State} {r : Requester} {i : Nat} {u : Mach} (h : s.m.passes r Reg.SCH.CNT_CLR i = true)
    (hu : u = s.m.acted r Reg.SCH.CNT_CLR 1) : Completes (.schCntClr r) s (u.clear [Reg.SCH.GRANTS, Reg.SCH.SYS_GRANTS,
      Reg.SCH.PARKS, Reg.SCH.GATE_WAITS, Reg.SCH.TC3_HELD, Reg.SCH.GATE_OVERRUNS] i) := by
  subst hu
  exact congrArg (ok s) (Mach.action_passes h 1 _)

/-! ### The statement -/

/-- Settles O36: each clause is its command's law, or the law of the pick, of the gates or of the wheel. -/
theorem grantsTheWheelAndTheGatesDoAsFileTwelveSays : Obligations.GrantsTheWheelAndTheGatesDoAsFileTwelveSays := by
  refine ⟨fun s q h => completes_injectionGrant_of_linkless h,
    fun s q u v hn hu => ⟨completes_injectionGrant_of_none hn hu, fun o w x y => completes_injectionGrant_of_picked hn hu⟩,
    fun m q => ⟨fun ht hp => ⟨Mach.pickGrant_of_three_none ht hp, fun o u => Mach.pickGrant_of_three ht hp⟩, fun u h => ?others⟩,
    fun m q => ⟨fun h => Mach.countWaits_of_ungated h q, fun id tc o r hg ht hq hf => ⟨Mach.countWaits_of_going hg ht hq hf,
      fun hw hfit hp => (Mach.countWaits_singleton hg ht hq hf).trans (if_pos ⟨hw, hfit, hp⟩)⟩⟩,
    fun m q tc cost => ⟨fun h => Mach.fits_of_open h q cost, fun hg ha => ⟨Mach.fits_of_shut hg ha,
      fun since len => Mach.fits_iff_of_run hg ha⟩⟩,
    fun m u q id rate burst cost t => ⟨if_pos rfl, fun hr ht hu => ⟨Mach.charge_of_eligible hr ht hu, Mach.charge_of_early hr ht hu⟩⟩,
    fun s q => completes_wheelSlot_of_none, rfl, fun fs p => ⟨slotRound_of_ahead, slotRound_of_fine, fun h hc =>
      ⟨fun later => (slotRound_of_coarse h hc).trans (if_neg (Nat.not_le_of_lt later)),
        fun gone => (slotRound_of_coarse h hc).trans (if_pos gone)⟩⟩,
    fun s q due u => completes_wheelSlot, fun s => ⟨completes_gateChange_of_ungated, fun i stop mask => completes_gateChange⟩,
    fun s r i u => completes_gateSwap, fun s => ⟨completes_gateSwapInstant_of_none, fun t armed start u => completes_gateSwapInstant⟩,
    fun s r i on h => completes_gateEn h on, fun s r i u => completes_schCntClr⟩
  case others =>
    rw [Mach.pickGrant_of_others h]
    refine ⟨fun hc => ?_, fun c hc hg => ?_, fun c o w hc hg => ?_⟩
    · rw [hc]
    · simp only [hc, hg]
    · simp only [hc, hg]

end Sys2Proof.Machine
end

section
/-! The feeds of file 14: their states (R333 to R338), what trips and latches one (R336, R339 to R342), and what clears a latch
(R343). -/

namespace Sys2Proof.Machine

/-! ### Outcomes that depend on a condition -/

section Cases
variable {i : Instr} {s : State} {c : Prop} [Decidable c] {a b : Mach} (h : Completes i s (if c then a else b))
include h

theorem Completes.of_pos (hc : c) : Completes i s a := by rwa [if_pos hc] at h

theorem Completes.of_neg (hc : ¬ c) : Completes i s b := by rwa [if_neg hc] at h

end Cases

/-! ### What the operations on a feed do -/

theorem Mach.latchDue_eq (m : Mach) (f : Nat) : m.latchDue f = ((m.feed f).pinLow.elim (m.feed f).vinLow
    (fun a => some ((m.feed f).vinLow.elim a (min a)))).map (· + 10 * Config.msCycles) := by
  unfold Mach.latchDue
  cases (m.feed f).pinLow <;> cases (m.feed f).vinLow <;> rfl

section Trip
variable {m u v : Mach} {f cause : Nat} (ev : Nat) (hu : u = ((m.openGate f).bump Reg.PWR.TRIPS 1 f).put Reg.PWR.CAUSE cause f)
  (hv : v = (u.raise (1 + f) (.feed f) cause).record ev 4 [f, cause])
include hu hv

/-- A tripped feed goes to BACKOFF while retries are left, and else to LATCHED. -/
theorem Mach.tripFeed_eq : m.tripFeed f cause ev =
    if v.get Reg.PWR.RETRIES_USED f < v.get Reg.PWR.RETRY_MAX f then
      ((((v.put Reg.PWR.RETRIES_USED (v.get Reg.PWR.RETRIES_USED f + 1) f).bump Reg.PWR.RETRIES 1 f).setFeed f 5).record (0x1080 + f) 4
        [f, v.get Reg.PWR.RETRIES_USED f + 1])
    else v.setFeed f 6 := by
  subst hu hv
  rfl

end Trip

/-! ### The commands of a feed -/

section Feed
variable {s : State} {f : Feed} {i : Nat} (hi : i = Feed.idx f)
include hi

theorem completes_feedInRange {u : Mach} (hu : u = (((s.m.put Reg.PWR.IN_RANGE 1 i).put Reg.PWR.EN_PIN 1 i).updFeed i
      (fun x => { x with pinLow := none, vinLow := none })).reboth) :
    Completes (.feedInRange f) s (if u.feedState i = 0 ∧ u.isSet Reg.PWR.IN_RANGE i ∧ u.feedEnabled i then
      (u.setFeed i 1).record (0x1010 + i) 4 [i] else u) := by
  subst hi
  change ok s (Mach.tryFeed _ _) = _
  rw [← hu, Mach.tryFeed]
  simp only [Bool.and_eq_true, decide_eq_true_eq, and_assoc, ok]

theorem completes_debounceComplete : Completes (.debounceComplete f) s (if s.m.feedState i = 1 then
    ((s.m.elapseTo ((s.m.feed i).since + 20 * Config.msCycles)).setFeed i 2).record (0x1020 + i) 4 [i] else s.m) := by
  subst hi; rfl

theorem completes_prechargeComplete : Completes (.prechargeComplete f) s (if s.m.feedState i = 2 then s.m.setFeed i 3 else s.m) := by
  subst hi; rfl

theorem completes_prechargeTimeout : Completes (.prechargeTimeout f) s (if s.m.feedState i = 2 then
    (s.m.elapseTo ((s.m.feed i).since + 80 * Config.msCycles)).tripFeed i 1 (0x1030 + i) else s.m) := by
  subst hi; rfl

theorem completes_rampComplete : Completes (.rampComplete f) s (if s.m.feedState i = 3 then
    (((s.m.elapseTo ((s.m.feed i).since + Config.msCycles)).put Reg.PWR.ENHANCED 1 i).setFeed i 4).record (0x1040 + i) 4 [i]
      else s.m) := by
  subst hi; rfl

theorem completes_backoffExpiry {u : Mach} (hu : u = s.m.elapseTo ((s.m.feed i).since + Config.secCycles)) :
    Completes (.backoffExpiry f) s (if s.m.feedState i = 5 then
      if (u.isSet Reg.PWR.IN_RANGE i && u.feedEnabled i) = true then (u.setFeed i 2).record (0x1020 + i) 4 [i] else u.setFeed i 0
        else s.m) := by
  subst hi hu; rfl

theorem completes_retryCountReset : Completes (.retryCountReset f) s (if s.m.feedState i = 4 then
    (s.m.elapseTo ((s.m.feed i).since + 60 * Config.secCycles)).put Reg.PWR.RETRIES_USED 0 i else s.m) := by
  subst hi; rfl

theorem completes_feedOutOfRange {high : Bool} {u : Mach} (hu : u = ((((s.m.put Reg.PWR.IN_RANGE 0 i).updFeed i (fun x => { x with
      vinLow := if high then none else x.vinLow.or (some (s.m.put Reg.PWR.IN_RANGE 0 i).clk) })).reboth).feedOff i)) :
    Completes (.feedOutOfRange f high) s (if high = true ∨ s.m.feedState i = 3 ∨ s.m.feedState i = 4 then
      (u.raise (3 + i) (.feed i) (b2n high)).record (0x1090 + i) 4 [i, b2n high] else u) := by
  subst hi
  change ok s (if _ then (Mach.raise _ _ _ _ _).record _ _ _ _ else _) = _
  rw [← hu]
  simp only [Bool.or_eq_true, decide_eq_true_eq, or_assoc, ok]

theorem completes_feedDisable {u : Mach} (hu : u = ((s.m.put Reg.PWR.EN_PIN 0 i).updFeed i (fun x => { x with
      pinLow := x.pinLow.or (some (s.m.put Reg.PWR.EN_PIN 0 i).clk) })).reboth) :
    Completes (.feedDisable f) s (if s.m.feedEnabled i = true then (u.feedOff i).record (0x10B0 + i) 4 [i] else u) := by
  subst hi hu; rfl

theorem completes_reverseCurrent : Completes (.reverseCurrent f) s (if s.m.feedState i = 6 then s.m else
    ((s.m.latchFeed i 5).raise 6 (.feed i) i).record (0x10A0 + i) 4 [i]) := by
  subst hi; rfl

theorem completes_limitEntry : Completes (.limitEntry f) s
    (if (s.m.feedState i = 3 ∨ s.m.feedState i = 4) ∧ s.m.isSet Reg.PWR.TIMER_RUN i = false then
      ((((s.m.put Reg.PWR.LIMITING 1 i).put Reg.PWR.TIMER_RUN 1 i).updFeed i (fun x =>
        { x with timer := some (s.m.clk + s.m.faultTime i) })).regood).record (0x1050 + i) 4 [i] else s.m) := by
  subst hi
  change execLimitEntry f s = _
  simp only [execLimitEntry, Bool.and_eq_true, Bool.or_eq_true, decide_eq_true_eq, Bool.not_eq_true', ok]

theorem completes_limitClear : Completes (.limitClear f) s
    (if s.m.isSet Reg.PWR.TIMER_RUN i = true ∧ s.m.expiresWithin i (100 * Config.usCycles) = false then
      ((((s.m.elapse (100 * Config.usCycles)).put Reg.PWR.LIMITING 0 i).put Reg.PWR.TIMER_RUN 0 i).updFeed i (fun x =>
        { x with timer := none })).regood else s.m) := by
  subst hi
  change execLimitClear f s = _
  simp only [execLimitClear, Bool.and_eq_true, Bool.not_eq_true', ok]

theorem completes_faultTimerExpiry_of_none (h : (s.m.feed i).timer = none) : Completes (.faultTimerExpiry f) s s.m := by
  subst hi
  change execFaultTimerExpiry f s = _
  simp only [execFaultTimerExpiry, h, ok]

theorem completes_faultTimerExpiry {t : Nat} (h : (s.m.feed i).timer = some t) :
    Completes (.faultTimerExpiry f) s ((s.m.elapseTo t).tripFeed i 2 (0x1060 + i)) := by
  subst hi
  change execFaultTimerExpiry f s = _
  simp only [execFaultTimerExpiry, h, ok]

theorem completes_fastTrip : Completes (.fastTrip f) s
    (if s.m.feedState i = 3 ∨ s.m.feedState i = 4 then s.m.tripFeed i 3 (0x1070 + i)
      else if s.m.expiredNow i then (s.m.put Reg.PWR.CAUSE 3 i).record (0x1070 + i) 4 [i, 3] else s.m) := by
  subst hi
  change execFastTrip f s = _
  simp only [execFastTrip, Bool.or_eq_true, decide_eq_true_eq, ok]

theorem completes_latchClear : Completes (.latchClear f) s
    (if s.m.feedState i = 6 ∧ s.m.get Reg.PWR.CAUSE i ≠ 4 then (s.m.latchDue i).elim s.m (fun t => (s.m.elapseTo t).clearLatch i)
      else s.m) := by
  subst hi
  change execLatchClear f s = _
  simp only [execLatchClear, Bool.and_eq_true, decide_eq_true_eq, bne_iff_ne, ok]
  cases s.m.latchDue (Feed.idx f) <;> rfl

end Feed

/-! ### FEED_CLR and PWR_CNT_CLR -/

theorem completes_feedClr {s : State} {r : Requester} {f : Nat} {u v : Mach} (h : s.m.passes r Reg.PWR.FEED_CLR f = true)
    (hu : u = s.m.acted r Reg.PWR.FEED_CLR 1) (hv : v = u.put Reg.PWR.RETRIES_USED 0 f) : Completes (.feedClr r) s
      (if u.feedState f = 6 then if u.get Reg.PWR.CAUSE f = 4 then u else u.clearLatch f
        else if v.feedState f = 5 then (v.setFeed f 0).tryFeed f else v) := by
  subst hu hv
  exact congrArg (ok s) (Mach.action_passes h 1 _)

theorem completes_pwrCntClr {s : State} {r : Requester} {i : Nat} {u : Mach} (h : s.m.passes r Reg.PWR.CNT_CLR i = true)
    (hu : u = s.m.acted r Reg.PWR.CNT_CLR 1) : Completes (.pwrCntClr r) s
      (((u.clear [Reg.PWR.TRIPS, Reg.PWR.RETRIES] 0).clear [Reg.PWR.TRIPS, Reg.PWR.RETRIES] 1).clear [Reg.PWR.PGOOD_FALLS]) := by
  subst hu
  exact congrArg (ok s) (Mach.action_passes h 1 _)

/-! ### The statement -/

/-- Settles O39: each clause is a case of its command's law, or of the law of a trip or of a latch. -/
theorem feedsStartTripBackOffAndLatch : Obligations.FeedsStartTripBackOffAndLatch := by
  refine ⟨fun s f i hi => ?commands, Mach.latchDue_eq, fun m f => ⟨fun h => if_pos h, fun h => if_neg h, rfl, rfl⟩,
    fun m u v f cause ev hu hv => ⟨fun h => (Mach.tripFeed_eq ev hu hv).trans (if_pos h),
      fun h => (Mach.tripFeed_eq ev hu hv).trans (if_neg (Nat.not_lt_of_le h))⟩,
    fun s r f u h hu => ?clear, fun s r i u => completes_pwrCntClr⟩
  case clear =>
    have cleared := completes_feedClr h hu rfl
    exact ⟨fun latched gates => (cleared.of_pos latched).of_pos gates, fun latched other => (cleared.of_pos latched).of_neg other,
      fun free backoff => (cleared.of_neg free).of_pos backoff, fun free other => (cleared.of_neg free).of_neg other⟩
  case commands =>
    refine ⟨fun u => completes_feedInRange hi, (completes_debounceComplete hi).of_pos, (completes_debounceComplete hi).of_neg,
      fun h => ⟨(completes_prechargeComplete hi).of_neg h, (completes_prechargeTimeout hi).of_neg h⟩,
      (completes_rampComplete hi).of_neg, (completes_backoffExpiry hi rfl).of_neg, (completes_retryCountReset hi).of_neg,
      fun h => ⟨(completes_prechargeComplete hi).of_pos h, (completes_prechargeTimeout hi).of_pos h⟩,
      (completes_rampComplete hi).of_pos, fun high u hu => ⟨(completes_feedOutOfRange hi hu).of_pos, fun low h3 h4 =>
        (completes_feedOutOfRange hi hu).of_neg (by simp [low, h3, h4])⟩,
      fun u hu => ⟨(completes_feedDisable hi hu).of_pos, fun h => (completes_feedDisable hi hu).of_neg (Bool.eq_false_iff.1 h)⟩,
      (completes_reverseCurrent hi).of_pos, (completes_reverseCurrent hi).of_neg, fun h => ⟨(completes_fastTrip hi).of_pos h,
        fun stopped => (completes_limitEntry hi).of_pos ⟨h, stopped⟩, fun runs => (completes_limitEntry hi).of_neg (by simp [runs])⟩,
      fun h3 h4 => ⟨(completes_limitEntry hi).of_neg (by simp [h3, h4]), (completes_fastTrip hi).of_neg (by simp [h3, h4])⟩,
      fun runs later => (completes_limitClear hi).of_pos ⟨runs, later⟩, fun h => (completes_limitClear hi).of_neg ?kept,
      completes_faultTimerExpiry_of_none hi, fun t => completes_faultTimerExpiry hi, fun u h5 hu => ?backoff,
      (completes_retryCountReset hi).of_pos, fun t h6 h4 ht => ?latch, fun h => ?keeps⟩
    case kept =>
      rintro ⟨runs, later⟩
      simp [runs, later] at h
    case backoff =>
      have ends := (completes_backoffExpiry hi hu).of_pos h5
      exact ⟨fun hr he => ends.of_pos (by simp [hr, he]), fun h => ends.of_neg (by simpa [imp_iff_not_or] using h)⟩
    case latch =>
      simpa only [ht, Option.elim_some] using (completes_latchClear hi).of_pos ⟨h6, h4⟩
    case keeps =>
      by_cases hc : s.m.feedState i = 6 ∧ s.m.get Reg.PWR.CAUSE i ≠ 4
      · have none_due : s.m.latchDue i = none := (h.resolve_left (not_not.2 hc.1)).resolve_left hc.2
        simpa only [none_due, Option.elim_none] using (completes_latchClear hi).of_pos hc
      · exact (completes_latchClear hi).of_neg hc

end Sys2Proof.Machine
end

section
/-! PGOOD, the rails and the input power of file 14 (R344 to R351). -/

namespace Sys2Proof.Machine

/-! ### PGOOD -/

theorem pgoodRise_next {s : State} {b : BootIn} {t : Nat} {u v : Mach} (hg : s.m.pwr.goodAt = some t)
    (hp : s.m.isSet Reg.PWR.PGOOD = false) (h0 : s.m.pwr.groups = 0)
    (hu : u = (((s.m.elapseTo (t + 100 * Config.usCycles)).put Reg.PWR.PGOOD 1).put Reg.PWR.RAILS_UP 0).put Reg.PWR.RAIL_OK 0)
    (hv : v = { u with pwr := { u.pwr with groups := 1, groupAt := u.clk, falling := false, stuck := false } }) :
    exec (.pgoodRise b) s = .next ({ s with m := v }.boots b 0) := by
  have low : ¬ (s.m.isSet Reg.PWR.PGOOD || s.m.pwr.groups != 0) = true := by simp [hp, h0]
  subst hu hv
  change execPgoodRise b s = _
  simp only [execPgoodRise, hg, if_neg low]

theorem completes_pgoodRise_of_not_due {s : State} {b : BootIn}
    (h : s.m.pwr.goodAt = none ∨ s.m.isSet Reg.PWR.PGOOD = true ∨ s.m.pwr.groups ≠ 0) : Completes (.pgoodRise b) s s.m := by
  change execPgoodRise b s = _
  unfold execPgoodRise
  split
  · rfl
  next t ht =>
    refine if_pos ?_
    simpa [ht] using h

theorem pgoodFall_next {s s' : State} {u v : Mach} (hp : s.m.isSet Reg.PWR.PGOOD = true)
    (hu : u = ((s.m.put Reg.PWR.PGOOD 0).put Reg.PWR.RAILS_UP 0).bump Reg.PWR.PGOOD_FALLS)
    (hv : v = { u with pwr := { u.pwr with falling := u.pwr.groups != 0, goodAt := none } }.regood)
    (hs : s' = { s with m := v }.flushFall) : exec .pgoodFall s = .next { s' with m := s'.m.raise 8 .none 0 4 } := by
  subst hu hv hs
  exact if_neg (by simp [hp])

theorem completes_pgoodFall_of_low {s : State} (hp : s.m.isSet Reg.PWR.PGOOD = false) : Completes .pgoodFall s s.m :=
  if_pos (by simp [hp])

/-! ### The rail groups -/

section Start
variable {s : State} {g : Nat}

/-- A group that may start now: it is the next of a sequence that goes on, or the end of it. -/
def Mach.groupStarts (m : Mach) (g : Nat) : Prop :=
  m.isSet Reg.PWR.PGOOD = true ∧ m.isSet Reg.PWR.RAILS_UP = false ∧ m.pwr.falling = false ∧ m.pwr.stuck = false ∧
  g = m.pwr.groups + 1 ∧ g ≤ 9 ∧ 2 ≤ g

/-- The guard of RAIL_GROUP_START says that the group may not start. -/
theorem Mach.groupStarts_iff (m : Mach) (g : Nat) : m.groupStarts g ↔ ¬ (!m.isSet Reg.PWR.PGOOD || m.isSet Reg.PWR.RAILS_UP ||
    m.pwr.falling || m.pwr.stuck || g != m.pwr.groups + 1 || decide (9 < g) || decide (g < 2)) = true := by
  simp [Mach.groupStarts, and_assoc, Nat.succ_le_iff]

theorem completes_railGroupStart_of_unstarted (h : ¬ s.m.groupStarts g) : Completes (.railGroupStart g) s s.m :=
  if_pos (by simpa only [Mach.groupStarts_iff, not_not] using h)

variable (h : s.m.groupStarts g)
include h

theorem completes_railGroupStart_last (h9 : g = 9) : Completes (.railGroupStart g) s ((((s.m.elapseTo (s.m.pwr.groupAt +
    500 * Config.usCycles)).put Reg.PWR.RAIL_OK (2 ^ 26 - 1)).put Reg.PWR.RAILS_UP 1).record 0x1100 4 []) :=
  (if_neg ((Mach.groupStarts_iff _ _).1 h)).trans (if_pos h9)

theorem completes_railGroupStart {u v : Mach} (h9 : g ≠ 9) (hu : u = s.m.elapseTo (s.m.pwr.groupAt + 600 * Config.usCycles))
    (hv : v = u.put Reg.PWR.RAIL_OK (u.get Reg.PWR.RAIL_OK ||| groupRails (g - 1))) :
    Completes (.railGroupStart g) s { v with pwr := { v.pwr with groups := g, groupAt := v.clk } } := by
  subst hu hv
  exact (if_neg ((Mach.groupStarts_iff _ _).1 h)).trans (if_neg h9)

end Start

theorem completes_railGroupDischarge_of_other {s : State} {g : Nat}
    (h : g ≠ s.m.pwr.groups ∨ g = 0 ∨ s.m.pwr.falling = false) : Completes (.railGroupDischarge g) s s.m :=
  if_pos (by rcases h with h | h | h <;> simp [h])

theorem completes_railGroupDischarge {s : State} {g : Nat} {u v : Mach} (hf : s.m.pwr.falling = true) (h1 : 1 ≤ g)
    (hg : g = s.m.pwr.groups) (hu : u = s.m.elapse (200 * Config.usCycles))
    (hv : v = u.put Reg.PWR.RAIL_OK (u.get Reg.PWR.RAIL_OK &&& ((2 ^ 26 - 1) ^^^ groupRails g))) :
    Completes (.railGroupDischarge g) s { v with pwr := { v.pwr with groups := g - 1, falling := g != 1 } } := by
  subst hu hv
  exact if_neg (by simp [hf, Nat.ne_of_gt h1, ← hg])

/-! ### Rail faults -/

theorem completes_railFault {s : State} {rail : Nat} {m0 u v w : Mach} (hr : rail < 26)
    (hm : m0 = (if s.m.railStarting rail then s.m.elapseTo (s.m.pwr.groupAt + 2 * Config.msCycles) else s.m))
    (hu : u = (m0.put Reg.PWR.RAIL_FAULT (m0.get Reg.PWR.RAIL_FAULT ||| 2 ^ rail)).put Reg.PWR.RAIL_OK
      (m0.get Reg.PWR.RAIL_OK &&& ((2 ^ 26 - 1) ^^^ 2 ^ rail)))
    (hv : v = { u with flt := { u.flt with lastSet := Tbl.set u.flt.lastSet (2000 + rail) u.clk } })
    (hw : w = ((v.put Reg.PWR.RAILS_UP 0).raise 7 (.rail rail) rail).record 0x1110 4 [rail]) :
    Completes (.railFault rail) s
      (if s.m.railStarting rail = true then { w with pwr := { w.pwr with falling := true, stuck := true } } else w) := by
  subst hm hu hv hw
  change execRailFault rail s = _
  simp only [execRailFault, if_neg (Nat.not_le_of_lt hr), ok]

theorem Mach.railStarting_iff (m : Mach) (rail : Nat) : m.railStarting rail = true ↔
    m.isSet Reg.PWR.PGOOD = true ∧ m.pwr.falling = false ∧ m.isSet Reg.PWR.RAILS_UP = false ∧ railGroup rail = m.pwr.groups ∧
      bit (m.get Reg.PWR.RAIL_OK) rail = false := by
  simp [Mach.railStarting, and_assoc]

/-! ### Sharing and input power -/

theorem completes_sharingFault {s : State} : Completes .sharingFault s
    (if s.m.feedState 0 = 4 ∧ s.m.feedState 1 = 4 ∧ (5, FUnit.none) ∉ s.m.flt.active then
      (s.m.raise 5 .none).record 0x1120 4 [] else s.m) := by
  change execSharingFault s = _
  simp only [execSharingFault, Bool.and_eq_true, decide_eq_true_eq, Bool.not_eq_true', List.contains_eq_mem, decide_eq_false_iff_not,
    and_assoc, ok]

theorem completes_powerLimitExceeded {s : State} {avg : Nat} (h : avg = s.m.powerAvg) : Completes .powerLimitExceeded s
    (if (9, FUnit.none) ∈ s.m.flt.active ∨ avg ≤ s.m.powerLimit then s.m else (s.m.raise 9 .none avg).record 0x1130 4 [avg]) := by
  subst h
  change execPowerLimitExceeded s = _
  simp only [execPowerLimitExceeded, Bool.or_eq_true, decide_eq_true_eq, List.contains_eq_mem, ok]

theorem Mach.mem_recentPower {m : Mach} (x : Nat × Nat) : x ∈ m.recentPower ↔ x ∈ m.pwr.powers ∧ m.clk < x.1 + 2000000000 := by
  rw [Mach.recentPower, List.mem_filter, decide_eq_true_iff, Config.secCycles]

theorem Mach.powerAvg_of_unsampled {m : Mach} (h : m.recentPower = []) : m.powerAvg = m.get Reg.PWR.PIN := by
  simp only [Mach.powerAvg, h, List.isEmpty_nil, if_true]

theorem Mach.powerAvg_of_sampled {m : Mach} (h : m.recentPower ≠ []) :
    m.powerAvg = (m.recentPower.map (·.2)).sum / m.recentPower.length := by
  rw [Mach.powerAvg, if_neg (by simpa using h), List.sum_eq_foldl, List.foldl_map]

theorem Mach.samplePower_eq {m u : Mach} {pin : Nat}
    (hu : u = { m with pwr := { m.pwr with powers := m.recentPower ++ [(m.clk, pin)] } }) :
    m.samplePower pin = if u.powerAvg ≤ u.powerLimit then u.endCondition 9 .none else u := by
  subst hu
  rfl

theorem Mach.powerLimit_of_settled {m : Mach} (h : m.pwr.limits = []) :
    m.powerLimit = 10 * clamp 100 900 (m.get Reg.PWR.PWR_LIMIT) := by
  unfold Mach.powerLimit
  rw [h, List.find?_nil, Option.elim_none]

theorem Mach.powerLimit_of_rewritten {m : Mach} {t old : Nat} {rest : List (Nat × Nat)} (h : m.pwr.limits = (t, old) :: rest)
    (ht : m.clk < t + Config.secCycles) : m.powerLimit = 10 * clamp 100 900 old := by
  have newest : m.pwr.limits.find? (fun x => decide (m.clk < x.1 + Config.secCycles)) = some (t, old) := by
    rw [h]
    exact List.find?_cons_of_pos (decide_eq_true ht)
  unfold Mach.powerLimit
  rw [newest, Option.elim_some]

theorem completes_powerCycleBoth {s : State} {t : Nat} {u : Mach} (h : s.m.pwr.bothAt = some t)
    (hu : u = [0, 1].foldl (fun (a : Mach) f => if a.feedState f = 6 && a.get Reg.PWR.CAUSE f = 4 then a.clearLatch f else a)
      (s.m.elapseTo (t + 100 * Config.msCycles))) :
    Completes .powerCycleBoth s { u with boot := { u.boot with lockMarker := false } }.clearPower := by
  subst hu
  change execPowerCycleBoth s = _
  simp only [execPowerCycleBoth, h, ok]

theorem completes_powerCycleBoth_of_fed {s : State} (h : s.m.pwr.bothAt = none) : Completes .powerCycleBoth s s.m := by
  change execPowerCycleBoth s = _
  simp only [execPowerCycleBoth, h, ok]

/-! ### The statement -/

/-- Settles O40: each clause is a case of its command's law, or of the law of the average or of the limit. -/
theorem railsRiseAndFallWithPowerGood : Obligations.RailsRiseAndFallWithPowerGood := by
  refine ⟨fun s b t u v => pgoodRise_next, fun s u v s' => pgoodFall_next,
    fun s b => ⟨completes_pgoodRise_of_not_due, completes_pgoodFall_of_low⟩, fun s g u v hp hr hf hs hg => ⟨fun h2 h8 hu hv => ?next,
      fun h9 => ?last⟩,
    fun s g => ⟨fun h => completes_railGroupStart_of_unstarted ?unstarted, completes_railGroupDischarge_of_other⟩,
    fun s g u v => completes_railGroupDischarge, fun s rail m0 u v w hr hm hu hv hw => ⟨fun h => ?apart, fun h => ?starting⟩,
    fun s rail => ⟨fun h => if_pos h, s.m.railStarting_iff rail⟩,
    fun s => ⟨fun h0 h1 h => completes_sharingFault.of_pos ⟨h0, h1, h⟩, fun h => completes_sharingFault.of_neg ?shared⟩,
    fun s avg h => ⟨fun ha hl => (completes_powerLimitExceeded h).of_neg (not_or.2 ⟨ha, Nat.not_le_of_lt hl⟩),
      (completes_powerLimitExceeded h).of_pos, Mach.mem_recentPower, fun he => h.trans (Mach.powerAvg_of_unsampled he),
      fun he => h.trans (Mach.powerAvg_of_sampled he), fun pin u hu => ⟨fun low => (Mach.samplePower_eq hu).trans (if_pos low),
        fun high => (Mach.samplePower_eq hu).trans (if_neg (Nat.not_le_of_lt high))⟩, Mach.powerLimit_of_settled,
      fun t old rest => Mach.powerLimit_of_rewritten⟩,
    fun s t u => completes_powerCycleBoth, fun s => completes_powerCycleBoth_of_fed, ?groups⟩
  case next => exact completes_railGroupStart ⟨hp, hr, hf, hs, hg, by omega, h2⟩ (by omega) hu hv
  case last => exact completes_railGroupStart_last ⟨hp, hr, hf, hs, hg, by omega, by omega⟩ h9
  case unstarted =>
    rintro ⟨hp, hr, hf, hs, hg, h9, h2⟩
    simp only [hp, hr, hf, hs, Bool.true_eq_false, Bool.false_eq_true, or_false] at h
    omega
  case apart => exact (completes_railFault hr hm hu hv hw).of_neg (Bool.eq_false_iff.1 h)
  case starting => exact (completes_railFault hr hm hu hv hw).of_pos h
  case shared =>
    rintro ⟨h0, h1, absent⟩
    exact h.elim (· h0) (·.elim (· h1) absent)
  case groups =>
    intro rail hr
    unfold railGroup
    split_ifs <;> omega

end Sys2Proof.Machine
end

section
/-! The table swaps (R321, R322), the deferred activities (Table 13-4) and the maintenance counters (R332) of file 13. -/

namespace Sys2Proof.Machine

/-! ### SWAP -/

section Ask
variable {s : State} {r : Requester} {c : Nat} (h : s.m.passes r Reg.SEQ.SWAP c = true)
include h

theorem completes_swap_of_free {u : Mach} (hm : swapMode s.m.mode = true) (hc : c ∉ s.m.seqr.swaps.keys)
    (hu : u = s.m.acted r Reg.SEQ.SWAP 1) : Completes (.swap r) s (u.askSwap (u.roleOf r).code c) := by
  have may : s.m.maySwap c = true := by simp [Mach.maySwap, hm, hc]
  have acts := Mach.actionIf_passes h 1 may (fun m c => m.askSwap (m.roleOf r).code c)
  simp only [Mach.passes, Bool.and_eq_true, bne_iff_ne, beq_iff_eq, Bool.not_eq_true'] at h
  obtain ⟨⟨⟨⟨⟨awake, window⟩, unlocked⟩, reached⟩, role⟩, waits⟩ := h
  subst hu
  change execSwap r s = _
  simp only [execSwap, acts, reached, may, Bool.not_true, Bool.and_false, Bool.false_eq_true, if_false, ok]

/-- A SWAP that is ignored leaves the reason in SWAP_ERR. -/
theorem completes_swap_of_barred {u : Mach} (hm : s.m.maySwap c = false)
    (hu : u = (s.m.crossAon r Reg.SEQ.SWAP).ignoreWrite r Reg.SEQ.SWAP 1) :
    Completes (.swap r) s (u.put Reg.SEQ.SWAP_ERR (if swapMode s.m.mode then 4 else 1) c) := by
  have ignored := Mach.actionIf_ignored h 1 hm (fun m c => m.askSwap (m.roleOf r).code c)
  simp only [Mach.passes, Bool.and_eq_true, bne_iff_ne, beq_iff_eq, Bool.not_eq_true'] at h
  obtain ⟨⟨⟨⟨⟨awake, window⟩, unlocked⟩, reached⟩, role⟩, waits⟩ := h
  have notLocked : (s.m.mode != Mode.lockout) = true := bne_iff_ne.2 unlocked
  subst hu
  change execSwap r s = _
  simp only [execSwap, ignored, reached, window, role, hm, Mach.behindWrite_of_passes waits, notLocked,
    Bool.not_false, Bool.and_self, if_true, ok]

end Ask

section Accepted
variable {m : Mach} {c v : Nat} (hv : v = m.get Reg.SEQ.VAR_SEL c) (role : Nat)
include hv

theorem Mach.askSwap_of_unavailable (ha : bit (Tbl.get m.seqr.avail c 0) v = false) : m.askSwap role c =
    ({ m with seqr := { m.seqr with swaps := Tbl.del m.seqr.swaps c } }.put Reg.SEQ.SWAP_STATUS 4 c).put Reg.SEQ.SWAP_ERR 3 c := by
  subst hv
  simp only [Mach.askSwap, Mach.swapStart, ha, Bool.not_false, Bool.or_true, if_true, Mach.swapFail]

variable (ha : bit (Tbl.get m.seqr.avail c 0) v = true)
include ha

theorem Mach.askSwap_of_alone (hs : m.seqr.swaps = []) : m.askSwap role c =
    ({ m with seqr := { m.seqr with swaps := (Tbl.set [] c { variant := v, role := role }) } }.put Reg.SEQ.SWAP_STATUS 1 c).put
      Reg.SEQ.SWAP_ERR 0 c := by
  subst hv
  simp only [Mach.askSwap, Mach.swapStart, ha, hs, List.isEmpty_nil, Bool.true_or, Bool.not_true, if_true, Bool.false_eq_true,
    if_false]

theorem Mach.askSwap_of_deferred (hs : m.seqr.swaps ≠ []) : m.askSwap role c =
    (({ m with seqr := { m.seqr with swaps := (Tbl.set m.seqr.swaps c { variant := v, role := role, started := false }) } }.put
      Reg.SEQ.SWAP_STATUS 2 c).put Reg.SEQ.SWAP_ERR 0 c).defer 10 c 5 := by
  have busy : ¬ (m.seqr.swaps.isEmpty || !bit (Tbl.get m.seqr.avail c 0) v) = true := by simp [hs, ha]
  subst hv
  exact if_neg busy

end Accepted

/-! ### SWAP_LOADED -/

section Loaded
variable {s : State} {c : EngClass} {v : VariantIn}

theorem completes_swapLoaded_of_other
    (h : (Tbl.find s.m.seqr.swaps c.code).all (fun w => !w.started || w.loaded.isSome) = true) : Completes (.swapLoaded c v) s s.m := by
  change execSwapLoaded c v s = _
  unfold execSwapLoaded
  split
  · rfl
  next w hw =>
    rw [hw] at h
    exact if_pos h

variable {w : Swap} (hw : Tbl.find s.m.seqr.swaps c.code = some w) (hs : w.started = true) (hl : w.loaded = none)
include hw hs hl

/-- The verdict on a variant that LOADING waits for. -/
theorem completes_swapLoaded {u : Mach} (hu : u = ((s.m.raise 116 .none c.code).record 0x8005 5 [c.code, w.variant]).swapFail c.code 2) :
    Completes (.swapLoaded c v) s (if v.ok = true then { s.m with seqr := { s.m.seqr with swaps := (Tbl.set s.m.seqr.swaps c.code
      { w with loaded := some { variant := w.variant, version := v.version, steps := v.steps } }) } }.put Reg.SEQ.SWAP_STATUS 2 c.code
        else if c.code = 1 then u.rescanAll else u) := by
  subst hu
  change execSwapLoaded c v s = _
  simp only [execSwapLoaded, Mach.swapBad, Mach.swapEnd, hw, hs, hl, Option.elim_some, Bool.not_true, Option.isSome_none, Bool.or_self,
    Bool.false_eq_true, if_false]
  cases v.ok <;> simp only [Bool.not_true, Bool.not_false, Bool.false_eq_true, if_true, if_false, ok]

end Loaded

/-! ### TABLE_SWITCH -/

section Switch
variable {s : State} {c : EngClass}

theorem completes_tableSwitch_of_unready
    (h : (Tbl.find s.m.seqr.swaps c.code).all (fun w => w.loaded.isNone || !s.m.classQuiet c) = true) :
    Completes (.tableSwitch c) s s.m := by
  change execTableSwitch c s = _
  unfold execTableSwitch
  split
  · rfl
  next w hw =>
    rw [hw] at h
    split
    · rfl
    next t ht =>
      rw [Option.all_some, ht] at h
      exact if_pos h

theorem tableSwitch_next {w : Swap} {t : ClsTable} {u v : Mach} {s0 s' : State} (hw : Tbl.find s.m.seqr.swaps c.code = some w)
    (ht : w.loaded = some t) (hq : s.m.classQuiet c = true)
    (hu : u = { s.m with seqr := { s.m.seqr with tables := Tbl.set s.m.seqr.tables c.code t, swaps := Tbl.del s.m.seqr.swaps c.code } }.record
      0x8002 5 [c.code, (s.m.table c.code).variant, t.variant])
    (h0 : s0 = { s with m := u }.ledgerWrite 3 0 (c.code + 256 * (s.m.table c.code).variant + 65536 * t.variant + 16777216 * w.role)
      (component 2 u.boot.mgcVersion) u.digestSet)
    (hs : s' = (if 65536 ≤ u.evr.ledger then s0 else { s0 with m := s0.m.measured 10 s0.ledgerHead }))
    (hv : v = { s'.m with seqr := { s'.m.seqr with stored := Tbl.set s'.m.seqr.stored c.code t.variant } }.put Reg.SEQ.SWAP_STATUS 3
      c.code) : exec (.tableSwitch c) s = .next { s' with m := if c.code = 1 then v.rescanAll else v } := by
  subst hu h0 hs hv
  change execTableSwitch c s = _
  simp only [execTableSwitch, hw, ht, hq, Bool.not_true, Bool.false_eq_true, if_false, ok]

end Switch

/-! ### Deferred activities -/

theorem completes_deferredActivityStart_of_none {s : State} (h : s.m.hive.deferred.find? s.m.mayStart = none) :
    Completes .deferredActivityStart s s.m := by
  change execDeferredActivityStart s = _
  simp only [execDeferredActivityStart, h, ok]

theorem completes_deferredActivityStart {s : State} {d : Nat × Nat} (h : s.m.hive.deferred.find? s.m.mayStart = some d) :
    Completes .deferredActivityStart s (s.m.startDeferred d) := by
  change execDeferredActivityStart s = _
  simp only [execDeferredActivityStart, h, ok]

section Deferred
variable {m u : Mach} {k : Nat}

theorem Mach.startDeferred_repair {a : Nat} (hu : u = m.undefer 2 k (k / 65536))
    (ha : u.seqr.repairQ.find? (fun a => bankKey a == k) = some a) : m.startDeferred (2, k) =
      { u with seqr := { u.seqr with repairQ := u.seqr.repairQ.filter (fun b => bankKey b != k) } }.startRepair a := by
  subst hu
  simp only [Mach.startDeferred, ha]

theorem Mach.startDeferred_repair_of_none (hu : u = m.undefer 2 k (k / 65536))
    (ha : u.seqr.repairQ.find? (fun a => bankKey a == k) = none) : m.startDeferred (2, k) = u := by
  subst hu
  simp only [Mach.startDeferred, ha]

theorem Mach.startDeferred_scan (hu : u = m.undefer 4 k (quadOfLane k)) : m.startDeferred (4, k) =
    if u.isSet Reg.LAN.EI k then { u with scanWait := u.scanWait.filter (· != k) ++ [k] }.exitIdle (portOfLane k)
      else u.startScan k := by
  subst hu
  rfl

theorem Mach.startDeferred_swap {w : Swap} (hu : u = m.undefer 10 k 5) (hw : Tbl.find u.seqr.swaps k = some w) :
    m.startDeferred (10, k) = u.swapStart w.role k w.variant := by
  subst hu
  simp only [Mach.startDeferred, hw]

theorem Mach.startDeferred_swap_of_none (hu : u = m.undefer 10 k 5) (hw : Tbl.find u.seqr.swaps k = none) :
    m.startDeferred (10, k) = u := by
  subst hu
  simp only [Mach.startDeferred, hw]

end Deferred

theorem completes_seqCntClr {s : State} {r : Requester} {i : Nat} {u v : Mach} (h : s.m.passes r Reg.SEQ.CNT_CLR i = true)
    (hu : u = s.m.acted r Reg.SEQ.CNT_CLR 1) (hv : v = { u with hive := { u.hive with deferrals := [] } }.clear [Reg.SEQ.CORR_HBM,
      Reg.SEQ.UNCORR_HBM, Reg.SEQ.CORR_SRAM, Reg.SEQ.UNCORR_SRAM, Reg.SEQ.REPAIRS, Reg.SEQ.STEP_REWRITES]) :
    Completes (.seqCntClr r) s ((List.range 9).foldl (fun a i => a.put Reg.SEQ.TEMP_MAX 32768 i) v) := by
  subst hu hv
  exact congrArg (ok s) (Mach.action_passes h 1 _)

/-! ### The statement -/

/-- Settles O37: each clause is a case of its command's law, or of what asking for a swap or starting a deferred activity does. -/
theorem swapsAndDeferredWorkRunInTurn : Obligations.SwapsAndDeferredWorkRunInTurn := by
  refine ⟨fun s r c h => ⟨fun u hm hc hu => completes_swap_of_free h hm hc hu, fun u hu => ⟨fun hm => ?mode, fun hm hc => ?busy⟩⟩,
    fun m role c v hv => ⟨Mach.askSwap_of_unavailable hv role, Mach.askSwap_of_alone hv role, Mach.askSwap_of_deferred hv role⟩,
    fun s c v w hw hs hl => ⟨(completes_swapLoaded hw hs hl rfl).of_pos, fun u bad hu =>
      (completes_swapLoaded hw hs hl hu).of_neg (Bool.eq_false_iff.1 bad)⟩,
    fun s c v => completes_swapLoaded_of_other, fun s c => completes_tableSwitch_of_unready,
    fun s c w t u s0 s' v => tableSwitch_next,
    fun s => ⟨completes_deferredActivityStart_of_none, fun d => completes_deferredActivityStart⟩,
    fun m k => ⟨fun u a => Mach.startDeferred_repair, fun u => Mach.startDeferred_repair_of_none,
      fun u hu => ⟨fun awake => (Mach.startDeferred_scan hu).trans (if_neg (Bool.eq_false_iff.1 awake)),
        fun idle => (Mach.startDeferred_scan hu).trans (if_pos idle)⟩, rfl,
      fun u w => Mach.startDeferred_swap, fun u => Mach.startDeferred_swap_of_none⟩,
    fun s r i u v => completes_seqCntClr⟩
  case mode =>
    simpa only [hm, Bool.false_eq_true, if_false] using completes_swap_of_barred h (by simp [Mach.maySwap, hm]) hu
  case busy =>
    simpa only [hm, if_true] using completes_swap_of_barred h (by simp [Mach.maySwap, hc]) hu

end Sys2Proof.Machine
end

section
/-! The patrols, the row repairs and Cicada of file 13 (R323 to R327). -/

namespace Sys2Proof.Machine

/-! ### The patrol of the HBM -/

section Patrol
variable {m : Mach} {q a : Nat}

theorem Mach.patrolBack_iff : m.patrolBack q a = true ↔
    a % 2 ^ 35 < Tbl.get m.seqr.patrol q 0 ∧ (Tbl.get m.seqr.skipped q []).contains (bankKey a) = true := by
  simp only [Mach.patrolBack, Bool.and_eq_true, decide_eq_true_iff]

variable {u v : Mach} {pos here steps : Nat} (hp : pos = Tbl.get m.seqr.patrol q 0) (hh : here = a % 2 ^ 35)
  (hu : u = m.elapseTo (Tbl.get m.seqr.readAt q m.clk + steps * (m.scrubPeriod * Config.secCycles / 2 ^ 29)))
  (hv : v = { u with seqr := { u.seqr with readAt := Tbl.set u.seqr.readAt q u.clk } })
include hu hv

theorem Mach.patrolTo_of_back (hb : m.patrolBack q a = true) (hs : steps = 1) : m.patrolTo q a = v := by
  subst hu hv hs
  simp only [Mach.patrolTo, Mach.patrolPace, hb, Bool.true_or, if_true]

include hp hh

theorem Mach.patrolTo_of_ahead (hb : m.patrolBack q a = false) (hle : pos ≤ here) (hs : steps = (here - pos) / 64 + 1) :
    m.patrolTo q a = v := by
  subst hu hv hs hp hh
  simp only [Mach.patrolTo, Mach.patrolPace, hb, hle, Bool.false_eq_true, if_false, decide_true, Bool.or_true, if_true]

theorem Mach.patrolTo_of_behind (hb : m.patrolBack q a = false) (hlt : here < pos)
    (hs : steps = (2 ^ 35 - pos + here) / 64 + 1) : m.patrolTo q a = v.passBegin q := by
  subst hu hv hs hp hh
  simp only [Mach.patrolTo, Mach.patrolPace, hb, Nat.not_le.2 hlt, Bool.false_eq_true, if_false, decide_false, Bool.or_self]

end Patrol

section Next
variable {m u : Mach} {q a : Nat} (hb : m.patrolBack q a = false)
  (hu : u = { m with seqr := { m.seqr with
    skipped := Tbl.modify m.seqr.skipped q [] (fun l => l.filter (fun k => (Tbl.find m.seqr.repairs q).any (fun b => bankKey b == k))) } })
include hb hu

theorem Mach.patrolNext_of_further (h : a % 2 ^ 35 / 64 * 64 + 64 < 2 ^ 35) :
    m.patrolNext q a = { u with seqr := { u.seqr with patrol := Tbl.set u.seqr.patrol q (a % 2 ^ 35 / 64 * 64 + 64) } } := by
  subst hu
  simp only [Mach.patrolNext, hb, Bool.false_eq_true, if_false, if_pos h]

theorem Mach.patrolNext_of_last (h : 2 ^ 35 ≤ a % 2 ^ 35 / 64 * 64 + 64) : m.patrolNext q a = u.passBegin q := by
  subst hu
  simp only [Mach.patrolNext, hb, Bool.false_eq_true, if_false, if_neg (Nat.not_lt.2 h)]

end Next

section Read
variable {s : State} {q : Quad} {f : PatrolFound}

theorem completes_hbmPatrolRead_of_stopped (h : s.m.get Reg.SEQ.SCRUB_HBM_PERIOD = 0) : Completes (.hbmPatrolRead q f) s s.m :=
  congrArg (ok s) (if_pos h)

variable (h : s.m.get Reg.SEQ.SCRUB_HBM_PERIOD ≠ 0) {a : Nat} (ha : a = hbmAddr q f.addr)
include h ha

theorem completes_hbmPatrolRead_of_repair (hr : (Tbl.find s.m.seqr.repairs q.val).any (fun b => bankKey b == bankKey a) = true) :
    Completes (.hbmPatrolRead q f) s { s.m with seqr := { s.m.seqr with
      skipped := Tbl.modify s.m.seqr.skipped q.val [] (fun l => if l.contains (bankKey a) then l else bankKey a :: l) } } := by
  subst ha
  exact congrArg (ok s) ((if_neg h).trans (if_pos hr))

variable (hr : (Tbl.find s.m.seqr.repairs q.val).any (fun b => bankKey b == bankKey a) = false) {t0 : Nat × Nat} {u : Mach}
  (ht : t0 = Tbl.get s.m.seqr.passAt q.val (s.m.clk, s.m.get Reg.SEQ.REPAIR_THRESH))
  (hu : u = { s.m with seqr := { s.m.seqr with passAt := Tbl.set s.m.seqr.passAt q.val t0 } }.patrolTo q a)
include hr ht hu

theorem completes_hbmPatrolRead_of_nothing (hf : f.result = .clean ∨ ∃ c on, f.result = .step c on) :
    Completes (.hbmPatrolRead q f) s (u.patrolNext q a) := by
  subst ha ht hu
  refine congrArg (ok s) ?_
  obtain hf | ⟨c, on, hf⟩ := hf <;> simp only [Mach.patrolHbm, hf, h, hr, Bool.false_eq_true, if_false]

theorem completes_hbmPatrolRead_of_corrected (hf : f.result = .corrected) : Completes (.hbmPatrolRead q f) s
    (((u.corrWord q).rowWord q a (Tbl.get u.seqr.passAt q.val t0).2).patrolNext q a) := by
  subst ha ht hu
  refine congrArg (ok s) ?_
  simp only [Mach.patrolHbm, hf, h, hr, Bool.false_eq_true, if_false]

theorem completes_hbmPatrolRead_of_uncorrectable (hf : f.result = .uncorrectable) : Completes (.hbmPatrolRead q f) s
    (((((u.poisonHbm a).bump Reg.SEQ.UNCORR_HBM).raise 89 .none (a / 64) q).record 0x8021 q [a]).patrolNext q a) := by
  subst ha ht hu
  refine congrArg (ok s) ?_
  simp only [Mach.patrolHbm, hf, h, hr, Bool.false_eq_true, if_false]

end Read

/-! ### Corrected words -/

theorem Mach.corrWord_of_hour {m u : Mach} {q n l : Nat} (hc : Tbl.find m.seqr.corr q = some (n, m.hourNow, l))
    (hu : u = { m with seqr := { m.seqr with corr := Tbl.set m.seqr.corr q (n + 1, m.hourNow, l) } }.bump Reg.SEQ.CORR_HBM) :
    m.corrWord q = if l ≠ 0 ∧ n = l then (u.raise 88 .none q q).record 0x8020 q [q] else u := by
  subst hu
  simp only [Mach.corrWord, Tbl.get, hc, Option.getD_some, if_true, Bool.and_eq_true, bne_iff_ne, decide_eq_true_iff]

theorem Mach.corrWord_of_new_hour {m : Mach} {q : Nat} (hc : (Tbl.find m.seqr.corr q).all (fun x => x.2.1 != m.hourNow) = true) :
    m.corrWord q =
      { m with seqr := { m.seqr with corr := Tbl.set m.seqr.corr q (1, m.hourNow, m.get Reg.SEQ.CORR_LIMIT) } }.bump Reg.SEQ.CORR_HBM := by
  have fresh : (let old := Tbl.get m.seqr.corr q (0, m.hourNow, m.get Reg.SEQ.CORR_LIMIT)
      if old.2.1 = m.hourNow then old else (0, m.hourNow, m.get Reg.SEQ.CORR_LIMIT)) = (0, m.hourNow, m.get Reg.SEQ.CORR_LIMIT) := by
    cases hf : Tbl.find m.seqr.corr q with
    | none => simp [Tbl.get, hf]
    | some x =>
      have late : x.2.1 ≠ m.hourNow := by simpa [hf] using hc
      simp [Tbl.get, hf, late]
  have below : ¬ (m.get Reg.SEQ.CORR_LIMIT != 0 && decide (0 = m.get Reg.SEQ.CORR_LIMIT)) = true := by
    simp only [Bool.and_eq_true, bne_iff_ne, decide_eq_true_iff, not_and]
    exact fun hl he => hl he.symm
  simp only at fresh
  simp only [Mach.corrWord, fresh, if_neg below, Nat.zero_add]

section Row
variable {m u : Mach} {q a thresh n pass : Nat} {old : Nat × Nat} (ho : old = Tbl.get m.seqr.rows (hbmRow a) (0, 0))
  (hp : pass = Tbl.get m.seqr.pass q 0) (hn : n = rowPasses old pass)
  (hu : u = { m with seqr := { m.seqr with rows := Tbl.set m.seqr.rows (hbmRow a) (n, pass) } })
include ho hp hn hu

theorem Mach.rowWord_eq : m.rowWord q a thresh = if thresh ≠ 0 ∧ n = thresh ∧ old ≠ (n, pass) then u.askRepair a else u := by
  subst ho hp hn hu
  refine if_congr ?_ rfl rfl
  simp only [Bool.and_eq_true, Bool.or_eq_true, bne_iff_ne, decide_eq_true_iff, ne_eq, Prod.ext_iff, not_and_or, and_assoc,
    eq_comm (a := rowPasses _ _) (b := Prod.fst _)]

theorem Mach.rowWord_of_repair (h0 : thresh ≠ 0) (h : n = thresh) (hold : old ≠ (n, pass)) : m.rowWord q a thresh = u.askRepair a :=
  (Mach.rowWord_eq ho hp hn hu).trans (if_pos ⟨h0, h, hold⟩)

theorem Mach.rowWord_of_less (h : thresh = 0 ∨ n ≠ thresh ∨ old = (n, pass)) : m.rowWord q a thresh = u :=
  (Mach.rowWord_eq ho hp hn hu).trans (if_neg (by tauto))

end Row

/-! ### The patrol of the SRAM, and a late pass -/

section Sram
variable {s : State} {q : Quad} {f : PatrolFound}

theorem completes_sramPatrolRead_of_stopped (h : s.m.get Reg.SEQ.SCRUB_SRAM_PERIOD = 0) : Completes (.sramPatrolRead q f) s s.m :=
  if_pos h

variable (h : s.m.get Reg.SEQ.SCRUB_SRAM_PERIOD ≠ 0)
include h

theorem completes_sramPatrolRead_of_clean (hf : f.result = .clean) : Completes (.sramPatrolRead q f) s s.m := by
  change execSramPatrolRead q f s = _
  simp only [execSramPatrolRead, h, hf, if_false, ok]

theorem completes_sramPatrolRead_of_corrected (hf : f.result = .corrected) :
    Completes (.sramPatrolRead q f) s (s.m.bump Reg.SEQ.CORR_SRAM) := by
  change execSramPatrolRead q f s = _
  simp only [execSramPatrolRead, h, hf, if_false, ok]

/-- An uncorrectable word is marked the first time it is met. -/
theorem completes_sramPatrolRead_of_uncorrectable {u : Mach} (hf : f.result = .uncorrectable)
    (hu : u = if s.m.seqr.sramBad.contains (q.val, f.addr) then s.m
      else { s.m with seqr := { s.m.seqr with sramBad := (q.val, f.addr) :: s.m.seqr.sramBad } }) :
    Completes (.sramPatrolRead q f) s (((u.bump Reg.SEQ.UNCORR_SRAM).raise 90 .none f.addr q).record 0x8023 q [q, f.addr]) := by
  subst hu
  change execSramPatrolRead q f s = _
  simp only [execSramPatrolRead, h, hf, if_false, ok]

theorem completes_sramPatrolRead_of_step {c : EngClass} {active : Bool} (hf : f.result = .step c active) :
    Completes (.sramPatrolRead q f) s (if active then
      (((s.m.holdEngines q c).bump Reg.SEQ.STEP_REWRITES).raise 113 .none f.addr q).record 0x8003 q [q, c.code, f.addr] else s.m) := by
  change execSramPatrolRead q f s = _
  simp only [execSramPatrolRead, Mach.patrolStep, h, hf, if_false, ok]

end Sram

theorem completes_patrolOverrun_of_no_pass {s : State} {q : Quad} (h : Tbl.find s.m.seqr.passAt q.val = none) :
    Completes (.patrolOverrun q) s s.m := by
  change execPatrolOverrun q s = _
  simp only [execPatrolOverrun, h, ok]

theorem completes_patrolOverrun_of_pass {s : State} {q : Quad} {t x : Nat} (h : Tbl.find s.m.seqr.passAt q.val = some (t, x)) :
    Completes (.patrolOverrun q) s (if s.m.scrubPeriod = 0 ∨ q.val ∈ s.m.seqr.overran then s.m else
      let u := s.m.elapseTo (t + 2 * s.m.scrubPeriod * Config.secCycles)
      { u with seqr := { u.seqr with overran := q.val :: u.seqr.overran } }.record 0x8022 q [q]) := by
  change execPatrolOverrun q s = _
  simp only [execPatrolOverrun, h, ok, Bool.or_eq_true, decide_eq_true_iff, List.contains_iff_mem]
  split <;> rfl

/-! ### Row repairs -/

section Repair
variable {m : Mach} {a : Nat}

theorem Mach.askRepair_of_idle (h : Tbl.find m.seqr.repairs (hbmStack a) = none) : m.askRepair a = if m.sparesLeft a = 0 then
      (((m.raise 91 .none (hbmRow a % 2 ^ 32) (hbmStack a)).record 0x8025 (hbmStack a) [a]).put Reg.SEQ.REPAIR_STATUS 4).put
        Reg.SEQ.SPARES_LEFT 0
    else { m with seqr := { m.seqr with repairs := Tbl.set m.seqr.repairs (hbmStack a) a } }.put Reg.SEQ.REPAIR_STATUS 1 := by
  simp only [Mach.askRepair, Mach.startRepair, h, Option.isNone_none, if_true]

theorem Mach.askRepair_of_busy {b : Nat} (h : Tbl.find m.seqr.repairs (hbmStack a) = some b) : m.askRepair a =
    if m.seqr.repairQ.any (fun b => bankKey b == bankKey a) then m.put Reg.SEQ.REPAIR_STATUS 2 else
      ({ m with seqr := { m.seqr with repairQ := m.seqr.repairQ ++ [a] } }.put Reg.SEQ.REPAIR_STATUS 2).defer
        2 (bankKey a) (hbmStack a) := by
  simp only [Mach.askRepair, h, Option.isNone_some, Bool.false_eq_true, if_false]

end Repair

theorem completes_rowRepairComplete_of_none {s : State} {q : Quad} (h : Tbl.find s.m.seqr.repairs q.val = none) :
    Completes (.rowRepairComplete q) s s.m := by
  change execRowRepairComplete q s = _
  simp only [execRowRepairComplete, h, ok]

theorem completes_rowRepairComplete_of_running {s : State} {q : Quad} {a : Nat} {u : Mach}
    (h : Tbl.find s.m.seqr.repairs q.val = some a)
    (hu : u = { s.m with seqr := { s.m.seqr with
      repairs := Tbl.del s.m.seqr.repairs q.val
      repaired := s.m.seqr.repaired ++ [hbmRow a]
      rows := Tbl.del s.m.seqr.rows (hbmRow a)
      spares := Tbl.modify s.m.seqr.spares (bankKey a) 0 (· + 1) } }) :
    Completes (.rowRepairComplete q) s
      ((((u.bump Reg.SEQ.REPAIRS).put Reg.SEQ.REPAIR_STATUS 3).put Reg.SEQ.SPARES_LEFT (u.sparesLeft a)).record 0x8024 q [a]) := by
  subst hu
  change execRowRepairComplete q s = _
  simp only [execRowRepairComplete, h, ok]

/-! ### Cicada -/

theorem Mach.takeTemp_eq {m u : Mach} {i : Nat} {t : Int}
    (hu : u = (m.put Reg.SEQ.TEMP (signed16 t) i).put Reg.SEQ.TEMP_MAX (signed16 (max t (ofSigned16 (m.get Reg.SEQ.TEMP_MAX i)))) i) :
    m.takeTemp i t =
      let v := (u.tempCheck 0 94 0x8030 i t u.tempAlert (u.tempAlert - 40)).tempCheck 1 95 0x8031 i t u.tempCrit (u.tempAlert - 40)
      if 5 ≤ i then v.refreshCheck (i - 5) t else v := by
  subst hu
  rfl

section Refresh
variable {m : Mach} {q v : Nat} {t : Int} (hv : v = m.get Reg.SEQ.REFRESH_X4)
include hv

theorem Mach.refreshCheck_of_hot (ht : 760 < t) (hb : bit v q = false) :
    m.refreshCheck q t = (m.put Reg.SEQ.REFRESH_X4 (v + 2 ^ q)).record 0x8032 q [q] := by
  subst hv
  simp only [Mach.refreshCheck, ht, hb, decide_true, Bool.not_false, Bool.and_self, if_true]

theorem Mach.refreshCheck_of_cool (ht : t ≤ 736) (hb : bit v q = true) :
    m.refreshCheck q t = (m.put Reg.SEQ.REFRESH_X4 (v - 2 ^ q)).record 0x8033 q [q] := by
  subst hv
  simp only [Mach.refreshCheck, ht, hb, decide_true, Bool.not_true, Bool.and_false, Bool.false_eq_true, if_false, Bool.and_self, if_true]

theorem Mach.refreshCheck_of_kept (hc : 736 < t ∨ bit v q = false) (hh : t ≤ 760 ∨ bit v q = true) : m.refreshCheck q t = m := by
  subst hv
  unfold Mach.refreshCheck
  rw [if_neg, if_neg]
  · simpa [imp_iff_not_or] using hc
  · simpa [imp_iff_not_or] using hh

end Refresh

section Threshold
variable {m : Mach} {k fs ev i : Nat} {t limit clear : Int}

theorem Mach.tempCheck_of_crossing (ht : limit < t) (hot : (k, i) ∉ m.seqr.hot) : m.tempCheck k fs ev i t limit clear =
    (({ m with seqr := { m.seqr with hot := (k, i) :: m.seqr.hot } }.endCondition fs .none).raise fs .none i (sensorOrigin i)).record ev
      (sensorOrigin i) [i, signed16 t] := by
  simp only [Mach.tempCheck]
  exact if_pos (by simp [ht, hot])

theorem Mach.tempCheck_of_kept (h : (limit < t ∧ (k, i) ∈ m.seqr.hot ∧ clear < t) ∨ (t ≤ limit ∧ (k, i) ∉ m.seqr.hot)) :
    m.tempCheck k fs ev i t limit clear = m := by
  simp only [Mach.tempCheck]
  obtain ⟨ht, hot, hc⟩ | ⟨ht, hot⟩ := h
  · exact (if_neg (by simp [hot])).trans (if_neg (by simp [hc]))
  · exact (if_neg (by simp [ht])).trans (if_neg (by simp [hot]))

theorem Mach.tempCheck_of_over {u : Mach} (ht : t ≤ clear) (hot : (k, i) ∈ m.seqr.hot)
    (hu : u = { m with seqr := { m.seqr with hot := m.seqr.hot.filter (· != (k, i)) } }) :
    m.tempCheck k fs ev i t limit clear = if u.seqr.hot.any (fun h => h.1 == k) then u else u.endCondition fs .none := by
  subst hu
  simp only [Mach.tempCheck]
  exact (if_neg (by simp [hot])).trans (if_pos (by simp [ht, hot]))

end Threshold

/-- Settles O38: the patrols from the lemmas on the place of the patrol, the words it corrects from those on their hour and
row, the rest from one lemma for each outcome of a repair and of a temperature's check. -/
theorem patrolsRepairsAndCicadaDoAsFileThirteenSays : Obligations.PatrolsRepairsAndCicadaDoAsFileThirteenSays := by
  refine ⟨?read, ?place, ?next, fun m u q n l hc hu => Mach.corrWord_of_hour hc hu, fun m q hc => Mach.corrWord_of_new_hour hc, ?row,
    ?sram, fun s q h => completes_patrolOverrun_of_no_pass h, ?overrun,
    fun s r i u h hu => hu ▸ congrArg (ok s) (Mach.action_passes h 1 _), ?repair, fun s q h => completes_rowRepairComplete_of_none h,
    fun s q a u h hu => completes_rowRepairComplete_of_running h hu, fun s c u v hu hv => hv ▸ hu ▸ rfl, ?die, ?stack, ?refresh, ?check⟩
  case read =>
    intro s q f a t0 u ha ht hu
    exact ⟨completes_hbmPatrolRead_of_stopped, fun h hr => completes_hbmPatrolRead_of_repair h ha hr, fun h hr =>
      ⟨completes_hbmPatrolRead_of_nothing h ha hr ht hu, completes_hbmPatrolRead_of_corrected h ha hr ht hu,
        completes_hbmPatrolRead_of_uncorrectable h ha hr ht hu⟩⟩
  case place =>
    intro m u v q a pos here steps hp hh hu hv
    exact ⟨hp ▸ hh ▸ Mach.patrolBack_iff, fun hb hs => Mach.patrolTo_of_back hu hv hb hs, fun hb =>
      ⟨fun hle hs => Mach.patrolTo_of_ahead hp hh hu hv hb hle hs, fun hlt hs => Mach.patrolTo_of_behind hp hh hu hv hb hlt hs⟩⟩
  case next =>
    intro m u q a hu
    exact ⟨fun hb => if_pos hb, fun hb => ⟨Mach.patrolNext_of_further hb hu, Mach.patrolNext_of_last hb hu⟩⟩
  case row =>
    intro m u q a thresh n pass old ho hp hn hu
    exact ⟨Mach.rowWord_of_repair ho hp hn hu, Mach.rowWord_of_less ho hp hn hu⟩
  case sram =>
    intro s q f
    refine ⟨completes_sramPatrolRead_of_stopped, fun h => ⟨completes_sramPatrolRead_of_clean h,
      completes_sramPatrolRead_of_corrected h, fun hf hn u hu => ?_, fun hf hm => ?_,
      fun c hf => completes_sramPatrolRead_of_step h hf, fun c hf => completes_sramPatrolRead_of_step h hf⟩⟩
    · exact completes_sramPatrolRead_of_uncorrectable h hf (hu.trans (if_neg (by simpa using hn)).symm)
    · exact completes_sramPatrolRead_of_uncorrectable h hf (if_pos (by simpa using hm)).symm
  case overrun =>
    intro s q t x u h
    have pass := completes_patrolOverrun_of_pass h
    exact ⟨fun hc => pass.of_pos hc, fun hz hn hu => hu ▸ pass.of_neg (not_or.2 ⟨hz, hn⟩)⟩
  case repair =>
    intro m a
    refine ⟨fun h => ⟨fun h0 => ?_, fun h0 => ?_⟩, fun b h hq => ?_, fun b h hq => ?_⟩
    · exact (Mach.askRepair_of_idle h).trans (if_pos h0)
    · exact (Mach.askRepair_of_idle h).trans (if_neg h0)
    · simpa only [hq, Bool.false_eq_true, if_false] using Mach.askRepair_of_busy h
    · simpa only [hq, if_true] using Mach.askRepair_of_busy h
  case die =>
    intro m u i t hi hu
    exact (Mach.takeTemp_eq hu).trans (if_neg (Nat.not_le.2 hi))
  case stack =>
    intro m u i t hi hu
    exact (Mach.takeTemp_eq hu).trans (if_pos hi)
  case refresh =>
    intro m q v t hv
    exact ⟨Mach.refreshCheck_of_hot hv, Mach.refreshCheck_of_cool hv, Mach.refreshCheck_of_kept hv⟩
  case check =>
    intro m k fs ev i t limit clear
    refine ⟨Mach.tempCheck_of_crossing, fun ht hot hc => Mach.tempCheck_of_kept (.inl ⟨ht, hot, hc⟩),
      fun ht hot => Mach.tempCheck_of_kept (.inr ⟨ht, hot⟩), fun u ht hot hu => ⟨fun ha => ?_, fun ha => ?_⟩⟩
    · exact (Mach.tempCheck_of_over ht hot hu).trans (if_pos ha)
    · exact (Mach.tempCheck_of_over ht hot hu).trans (if_neg (by simp [ha]))

end Sys2Proof.Machine
end

section
/-! The mode requests of Table 15-2 (R355, R359, R371, R372). -/

namespace Sys2Proof.Machine

/-! ### A request that is refused for being busy, and the check before leaving CONFIG -/

section Request
variable {m : Mach} {role : Role} {req : Nat} {meet : ModeMeet}

theorem Mach.modeRequest_of_busy (hb : m.modeBusy req meet = true) : m.modeRequest role req meet = m.refuseMode role req 2 := if_pos hb

theorem Mach.modeRequest_of_free (hb : m.modeBusy req meet = false) : m.modeRequest role req meet = m.changeMode role req :=
  if_neg (by simp [hb])

theorem Mach.modeBusy_iff : m.modeBusy req meet = true ↔ 4 ≤ m.evr.held.length ∨ meet = .reaction ∨ meet = .inTransition ∨
    (meet = .inDormantEntry ∧ (req ≠ 2 ∨ m.mode ≠ .dormant)) := by
  cases meet <;> simp [Mach.modeBusy]

theorem Mode.ofCode_eq_config_iff {n : Nat} : Mode.ofCode n = .config ↔ n = 2 := by
  constructor
  · intro h
    unfold Mode.ofCode at h
    split at h
    case h_3 => rfl
    all_goals exact absurd h (by decide)
  · rintro rfl
    rfl

theorem Mach.leaveCheck_of_config (hm : m.mode = .config) (hr : req ≠ 2) : m.leaveCheck req = m.runCfgCheck :=
  if_pos (by simp [hm, Mode.ofCode_eq_config_iff, hr])

theorem Mach.leaveCheck_of_other (h : m.mode ≠ .config ∨ req = 2) : m.leaveCheck req = m :=
  if_neg (by simpa [Mode.ofCode_eq_config_iff, imp_iff_not_or] using h)

/-! ### The transitions of Table 15-2 -/

theorem Mach.changeMode_dormant (hm : m.mode = .config) : m.changeMode role 0 = m.runCfgCheck.enterMode .dormant 0 := by
  simp only [Mach.changeMode, Mach.runCfgCheck_mode, hm, Mode.ofCode, Mach.leaveCheck_of_config hm (by decide : 0 ≠ 2)]

theorem Mach.changeMode_config_of_dormant (hm : m.mode = .dormant) : m.changeMode role 2 = m.wakeAll.measureSettings.enterConfig 0 := by
  simp only [Mach.changeMode, Mach.leaveCheck_of_other (.inr rfl), hm, Mode.ofCode]

theorem Mach.changeMode_config_of_drain (hm : m.mode = .drain) : m.changeMode role 2 =
    if m.isDrained then m.measureSettings.enterConfig 0 else m.refuseMode role 2 4 := by
  simp only [Mach.changeMode, Mach.leaveCheck_of_other (.inr rfl), hm, Mode.ofCode]

theorem Mach.changeMode_config_of_safe (hm : m.mode = .safe) : m.changeMode role 2 =
    if m.mayLeaveSafe then m.warmReset 0 else m.refuseMode role 2 5 := by
  simp only [Mach.changeMode, Mach.leaveCheck_of_other (.inr rfl), hm, Mode.ofCode]

theorem Mach.changeMode_train (hm : m.mode = .config) : m.changeMode role 3 =
    if m.runCfgCheck.isSet Reg.RTE.CFG_OK then m.runCfgCheck.enterMode .train 0 else m.runCfgCheck.refuseMode role 3 3 := by
  simp only [Mach.changeMode, Mach.runCfgCheck_mode, hm, Mode.ofCode, Mach.leaveCheck_of_config hm (by decide : 3 ≠ 2)]

theorem Mach.changeMode_run (hm : m.mode = .train ∨ m.mode = .drain) : m.changeMode role 4 = m.enterMode .run 0 := by
  have here : m.leaveCheck 4 = m := Mach.leaveCheck_of_other (.inl (by obtain hm | hm := hm <;> simp [hm]))
  obtain hm | hm := hm <;> simp only [Mach.changeMode, here, hm, Mode.ofCode]

theorem Mach.changeMode_drain (hm : m.mode = .run) : m.changeMode role 5 = m.enterMode .drain 0 := by
  have here : m.leaveCheck 5 = m := Mach.leaveCheck_of_other (.inl (by simp [hm]))
  simp only [Mach.changeMode, here, hm, Mode.ofCode]

theorem Mach.changeMode_safe (hm : m.mode ∈ [Mode.dormant, .config, .train, .run, .drain]) :
    m.changeMode role 6 = (m.leaveCheck 6).reactSafe 0 0 := by
  simp only [List.mem_cons, List.not_mem_nil, or_false] at hm
  obtain hm | hm | hm | hm | hm := hm <;> simp only [Mach.changeMode, Mach.leaveCheck_mode, hm, Mode.ofCode]

theorem Mach.changeMode_lockout (hm : m.mode ≠ .lockout) : m.changeMode role 7 = (m.leaveCheck 7).reactLockout 0 0 false := by
  cases h : m.mode <;> simp only [Mach.changeMode, Mach.leaveCheck_mode, h, Mode.ofCode]
  exact absurd h hm

/-- The pairs (request, mode) of Table 15-2, by their codes. -/
def tablePairs : List (Nat × Nat) := [(0, 2), (2, 0), (2, 5), (2, 6), (3, 2), (4, 3), (4, 5), (5, 4), (6, 0), (6, 2), (6, 3), (6, 4), (6, 5),
  (7, 0), (7, 1), (7, 2), (7, 3), (7, 4), (7, 5), (7, 6)]

/-- Each branch of changeMode but the refusals is at a pair of the table. -/
theorem Mach.changeMode_of_other (hr : req < 8) (hp : (req, m.mode.code) ∉ tablePairs) :
    m.changeMode role req = (m.leaveCheck req).refuseMode role req 1 := by
  have code : (Mode.ofCode req).code = req := by interval_cases req <;> rfl
  rw [← congrArg (·, m.mode.code) code] at hp
  simp only [Mach.changeMode, Mach.leaveCheck_mode]
  split
  case h_14 => rfl
  case h_15 hto unlocked =>
    rw [hto] at hp
    cases hm : m.mode with
    | lockout => exact absurd hm unlocked
    | _ => exact absurd (hm ▸ hp) (by decide)
  case h_16 => rfl
  all_goals
    next hto hfrom =>
    rw [hto, hfrom] at hp
    exact absurd hp (by decide)

end Request

/-! ### A request that is carried out -/

section Passes
variable {s : State} {r : Requester} {meet : ModeMeet} {i : Nat} (h : s.m.passes r Reg.GLB.MODE_REQ i = true)
include h

theorem Mach.modeReq_passes {n : Nat} (hn : n ≠ 7) :
    s.m.modeReq r n meet = (s.m.acted r Reg.GLB.MODE_REQ n).modeRequest ((s.m.acted r Reg.GLB.MODE_REQ n).roleOf r) n meet := by
  simp only [Mach.modeReq, hn, if_false]
  exact Mach.action_passes h n _

theorem Mach.modeReq_of_free {n : Nat} (hn : n ≠ 7) {u : Mach} (hu : u = s.m.acted r Reg.GLB.MODE_REQ n)
    (hb : u.modeBusy n meet = false) : s.m.modeReq r n meet = u.changeMode (u.roleOf r) n := by
  subst hu
  exact (Mach.modeReq_passes h hn).trans (Mach.modeRequest_of_free hb)

end Passes

theorem Mach.modeReq_lockout {s : State} {r : Requester} {meet : ModeMeet} {i : Nat} {f : Field}
    (hf : f = { Reg.GLB.MODE_REQ with rights := Role.installer }) (h : s.m.passes r f i = true) {v : Mach} (hv : v = s.m.acted r f 7) :
    s.m.modeReq r 7 meet = v.modeRequest (v.roleOf r) 7 meet := by
  subst hf hv
  simp only [Mach.modeReq, if_true]
  exact Mach.action_passes h 7 _

/-- Settles O41: a request that passes asks modeRequest, which is refused when busy and else makes changeMode's transition. -/
theorem modeRequestsFollowTable15Two : Obligations.ModeRequestsFollowTable15Two := by
  refine ⟨?carried, ?lockout, ?each, ?pairs, fun _ _ _ _ => rfl⟩
  case carried =>
    intro s r meet i v u h
    refine ⟨fun hv hb hm hu => ?_, fun hu hb => ?_, fun hv hb hm hu => ?_, fun hu hb hm => ?_, fun hu hb hm => ?_, fun hv hb hm hu => ?_⟩
    · exact congrArg (ok s) (hu ▸ (Mach.modeReq_of_free h (by decide) hv hb).trans (Mach.changeMode_dormant hm))
    · have asks := Mach.modeReq_of_free h (by decide) hu hb
      refine ⟨fun hm => ?_, fun hm hd => ?_, fun hm hd => ?_, fun hm hl => ?_, fun hm hl => ?_⟩
      · exact congrArg (okFlt s) (asks.trans (Mach.changeMode_config_of_dormant hm))
      · exact congrArg (okFlt s) ((asks.trans (Mach.changeMode_config_of_drain hm)).trans (if_pos hd))
      · exact congrArg (okFlt s) ((asks.trans (Mach.changeMode_config_of_drain hm)).trans (if_neg (by simp [hd])))
      · exact congrArg (okFlt s) ((asks.trans (Mach.changeMode_config_of_safe hm)).trans (if_pos hl))
      · exact congrArg (okFlt s) ((asks.trans (Mach.changeMode_config_of_safe hm)).trans (if_neg (by simp [hl])))
    · have asks := (Mach.modeReq_of_free h (by decide) hv hb).trans (Mach.changeMode_train hm)
      subst hu
      exact ⟨fun hc => congrArg (ok s) (asks.trans (if_pos hc)), fun hc => congrArg (ok s) (asks.trans (if_neg (by simp [hc])))⟩
    · exact congrArg (ok s) ((Mach.modeReq_of_free h (by decide) hu hb).trans (Mach.changeMode_run hm))
    · exact congrArg (ok s) ((Mach.modeReq_of_free h (by decide) hu hb).trans (Mach.changeMode_drain hm))
    · exact congrArg (okFlt s) (hu ▸ (Mach.modeReq_of_free h (by decide) hv hb).trans (Mach.changeMode_safe hm))
  case lockout =>
    intro s r meet i v f hf h hv
    have asks := Mach.modeReq_lockout (meet := meet) hf h hv
    refine ⟨fun hb hm => congrArg (okFlt s) ?_, fun hb => congrArg (okFlt s) (asks.trans (Mach.modeRequest_of_busy hb))⟩
    exact (asks.trans (Mach.modeRequest_of_free hb)).trans (Mach.changeMode_lockout hm)
  case each =>
    intro s r meet i n c h hc u hu
    subst hu
    simp only [List.mem_cons, Prod.mk.injEq, List.not_mem_nil, or_false] at hc
    obtain ⟨rfl, rfl⟩ | ⟨rfl, rfl⟩ | ⟨rfl, rfl⟩ | ⟨rfl, rfl⟩ | ⟨rfl, rfl⟩ | ⟨rfl, rfl⟩ := hc
    · exact congrArg (ok s) (Mach.modeReq_passes h (by decide))
    · exact congrArg (okFlt s) (Mach.modeReq_passes h (by decide))
    · exact congrArg (ok s) (Mach.modeReq_passes h (by decide))
    · exact congrArg (ok s) (Mach.modeReq_passes h (by decide))
    · exact congrArg (ok s) (Mach.modeReq_passes h (by decide))
    · exact congrArg (okFlt s) (Mach.modeReq_passes h (by decide))
  case pairs =>
    intro m role req meet
    exact ⟨Mach.modeRequest_of_busy, fun hb hr hp => (Mach.modeRequest_of_free hb).trans (Mach.changeMode_of_other hr hp),
      Mach.modeBusy_iff, Mach.leaveCheck_mode m req, fun hm _ hr => Mach.leaveCheck_of_config hm hr, Mach.leaveCheck_of_other⟩

end Sys2Proof.Machine
end

section
/-! The end of ATTEST, readiness, draining and the changes of mode (R360, R361, R363, R370, R371). -/

namespace Sys2Proof.Machine

/-! ### The end of ATTEST, readiness and draining -/

section Ends
variable {s : State}

theorem attestComplete_of_attest (hm : s.m.mode = .attest) (ha : s.m.boot.attestOk = true) : exec .attestComplete s =
    if s.m.boot.lockMarker then okFlt s (s.m.reactLockout 3 0 false) else okFlt s (s.m.measureSettings.enterConfig 1) :=
  if_neg (by simp [hm, ha])

theorem completes_attestComplete_of_other (h : s.m.mode ≠ .attest ∨ s.m.boot.attestOk = false) : Completes .attestComplete s s.m :=
  if_pos (by simpa using h)

theorem completes_runReadiness : Completes .runReadiness s (if s.m.mode = .train ∧ s.m.ready = true then s.m.enterMode .run 1 else s.m) :=
  congrArg (ok s) (if_congr (by simp) rfl rfl)

theorem completes_trainTimeout {ready : Bool} {u : Mach} (hm : s.m.mode = .train)
    (hu : u = s.m.elapseTo (s.m.boot.trainAt + clamp 10 60000 (s.m.get Reg.GLB.TRAIN_TIMEOUT) * Config.msCycles)) :
    Completes (.trainTimeout ready) s (if ready = true ∨ u.ready = true then u.enterMode .run 1 else
      ((u.enterMode .run 1).raise 10 .none u.notReady.length 5).record 0x0010 5
        [u.notReady.length, (u.enterMode .run 1).get Reg.TIM.STATE]) := by
  subst hu
  have inTrain : (s.m.mode != .train) = false := by simp [hm]
  change execTrainTimeout ready s = _
  simp only [execTrainTimeout, inTrain, Bool.false_eq_true, if_false, Bool.or_eq_true, ok]
  split <;> rfl

theorem completes_drained : Completes .drained s (if s.m.mode = .drain ∧ s.m.isDrained = true ∧ s.m.boot.drainSeen = false then
      { s.m with boot := { s.m.boot with drainSeen := true } }.record 0x0003 5 [] else s.m) :=
  congrArg (ok s) (if_congr (by simp [and_assoc]) rfl rfl)

end Ends

theorem Mach.ready_iff {m : Mach} : m.ready = true ↔ (∀ p, p < 128 → m.isSet Reg.LNK.PORT_EN p = true → m.mapped p = true →
      m.linkState p = 2 ∨ m.linkState p = 5 ∨ (m.link p).trainFailed = true) ∧
    (m.isSet Reg.GLB.REQ_TIME_LOCK = true → m.get Reg.TIM.STATE = 1 ∨ m.get Reg.TIM.STATE = 3 ∨ m.get Reg.TIM.STATE = 4) := by
  have ports : m.notReady.isEmpty = true ↔ ∀ p, p < 128 → m.isSet Reg.LNK.PORT_EN p = true → m.mapped p = true →
      m.linkState p = 2 ∨ m.linkState p = 5 ∨ (m.link p).trainFailed = true := by
    simp only [Mach.notReady, List.isEmpty_iff, List.filter_eq_nil_iff, List.mem_range, Bool.and_eq_true, bne_iff_ne,
      Bool.not_eq_true']
    refine forall₂_congr fun p _ => ?_
    cases (m.link p).trainFailed <;> tauto
  simp only [Mach.ready, Bool.and_eq_true, ports, Bool.or_eq_true, Bool.not_eq_true', decide_eq_true_iff, or_assoc, imp_iff_not_or,
    Bool.not_eq_true]

/-! ### A change of mode -/

section Change
variable {m a b c d w : Mach} {new : Mode} {cause fs : Nat}
  (ha : a = (if swapMode m.mode && !swapMode new then m.failSwaps else m))
  (hb : b = (if netMode m.mode && !netMode new then a.allPortsOff else a))
  (hc : c = (if m.mode = .config then { b with mat := { b.mat with unxMax := some (b.get Reg.MAT.UNX_QUAD_MAX) } } else b))
  (hd : d = ((c.put Reg.GLB.GLB_MODE new.code).put Reg.GLB.LAST_CAUSE cause).put Reg.GLB.CAUSE_FS fs)
  (hw : w = (d.put64 Reg.GLB.MODE_TS_LO Reg.GLB.MODE_TS_HI d.aonHgt).record 0x0001 5 [m.mode.code, new.code, cause])
include ha hb hc hd hw

theorem Mach.enterMode_of_plain (hn : new ∈ [Mode.attest, .config, .safe, .lockout]) : m.enterMode new cause fs = w := by
  subst ha hb hc hd hw
  simp only [List.mem_cons, List.not_mem_nil, or_false] at hn
  obtain rfl | rfl | rfl | rfl := hn <;> rfl

theorem Mach.enterMode_train (hn : new = .train) : m.enterMode new cause fs = { w with boot := { w.boot with trainAt := w.clk } } := by
  subst ha hb hc hd hw hn
  rfl

theorem Mach.enterMode_drain (hn : new = .drain) : m.enterMode new cause fs = { w with boot := { w.boot with drainSeen := false } } := by
  subst ha hb hc hd hw hn
  rfl

theorem Mach.enterMode_dormant (hn : new = .dormant) :
    m.enterMode new cause fs = (List.range 4).foldl (fun x q => x.park q true) w.gateAll := by
  subst ha hb hc hd hw hn
  rfl

theorem Mach.enterMode_run {e : Mach} (hn : new = .run)
    (he : e = { w with hif := { w.hif with wrs := w.hif.wrs.map (fun (k : Nat × WorkRing) => (k.1, { k.2 with drainStop := false })) } }) :
    m.enterMode new cause fs = (if e.boot.started then e else { e with boot := { e.boot with started := true } }.put Reg.GLB.START_TIME
      ((e.clk - e.boot.pgoodAt) / 20000)).rescanAll := by
  subst ha hb hc hd hw hn he
  rfl

end Change

theorem Mach.enterConfig_eq {m u : Mach} {cause : Nat}
    (hu : u = (((m.enterMode .config cause).put Reg.FLT.LANES_IDLE 0).put Reg.FLT.PPS_FORCED 0).put Reg.FLT.BM_STOPPED 0) :
    m.enterConfig cause = if !u.isSet Reg.GLB.AUTO_START then u else
      if u.runCfgCheck.isSet Reg.RTE.CFG_OK then u.runCfgCheck.enterMode .train 1 else u.runCfgCheck.put Reg.GLB.MODE_ERR 3 := by
  subst hu
  rfl

/-- Settles O42: each command's lemma names the branch it takes, and enterMode's the work that its new mode asks. -/
theorem startUpReadinessAndDrainingEnd : Obligations.StartUpReadinessAndDrainingEnd := by
  refine ⟨fun s => ⟨fun hm ha => ?attest, completes_attestComplete_of_other, rfl⟩, fun s => ⟨fun hm hr => ?ready, fun h => ?unready⟩,
    fun s ready u hm hu => ?timeout, fun s ready hm => if_pos (by simpa using hm), fun s => ⟨fun hm hd hs => ?drained, fun h => ?kept⟩,
    fun m => Mach.ready_iff, ?change, ?enter⟩
  case attest =>
    exact ⟨fun hl => (attestComplete_of_attest hm ha).trans (if_neg (by simp [hl])),
      fun hl => (attestComplete_of_attest hm ha).trans (if_pos hl)⟩
  case ready => exact completes_runReadiness.of_pos ⟨hm, hr⟩
  case unready => exact completes_runReadiness.of_neg (by rw [not_and_or]; simpa using h)
  case timeout =>
    have ends := completes_trainTimeout (ready := ready) hm hu
    exact ⟨fun h => ends.of_pos h, fun h h' => ends.of_neg (by simp [h, h'])⟩
  case drained => exact completes_drained.of_pos ⟨hm, hd, hs⟩
  case kept => exact completes_drained.of_neg (by rw [not_and_or, not_and_or]; simpa using h)
  case change =>
    intro m a b c d w new cause fs ha hb hc hd hw
    refine ⟨Mach.enterMode_of_plain ha hb hc hd hw, Mach.enterMode_train ha hb hc hd hw, Mach.enterMode_drain ha hb hc hd hw,
      Mach.enterMode_dormant ha hb hc hd hw, fun e hn he => ?_⟩
    have runs := Mach.enterMode_run ha hb hc hd hw hn he
    exact ⟨fun hs => by rw [runs, if_pos hs], fun hs => by rw [runs, if_neg (by simp [hs])]⟩
  case enter =>
    intro m u cause hu
    have enters := Mach.enterConfig_eq hu
    exact ⟨fun h => enters.trans (if_pos (by simp [h])),
      fun h hc => (enters.trans (if_neg (by simp [h]))).trans (if_pos hc),
      fun h hc => (enters.trans (if_neg (by simp [h]))).trans (if_neg (by simp [hc]))⟩

end Sys2Proof.Machine
end

section
/-! The warm reset, the module reset and the watchdog's (R366, R367, Table 15-3). -/

namespace Sys2Proof.Machine

/-! ### WARM_RESET -/

section Request
variable {s : State} {r : Requester} {meet : ModeMeet} {i : Nat} (h : s.m.passes r Reg.GLB.WARM_RESET i = true) {u : Mach}
  (hu : u = s.m.acted r Reg.GLB.WARM_RESET 1)
include h hu

theorem warmReset_passes : exec (.warmReset r meet) s = okFlt s (u.warmRequest (u.roleOf r) meet) := by
  subst hu
  exact congrArg (okFlt s) (Mach.action_passes h 1 _)

theorem warmReset_of_configured (hm : u.mode = .config ∨ u.mode = .drain) : exec (.warmReset r meet) s = okFlt s (u.warmReset 3) := by
  rw [warmReset_passes h hu]
  obtain hm | hm := hm <;> simp only [Mach.warmRequest, hm]

theorem warmReset_of_safe (hm : u.mode = .safe) : exec (.warmReset r meet) s =
    okFlt s (if u.mayLeaveSafe then u.warmReset 0 (decide (meet = .reaction)) else u.refuseMode (u.roleOf r) 2 5) := by
  rw [warmReset_passes h hu]
  simp only [Mach.warmRequest, hm]

theorem warmReset_of_other (hm : u.mode ∉ [Mode.config, .drain, .safe]) :
    exec (.warmReset r meet) s = okFlt s (u.refuseMode (u.roleOf r) 2 1) := by
  rw [warmReset_passes h hu, Mach.warmRequest]
  split
  next hs => exact absurd hm (by simp [hs])
  next hs => exact absurd hm (by simp [hs])
  next hs => exact absurd hm (by simp [hs])
  next => rfl

end Request

theorem Mach.mayLeaveSafe_iff {m : Mach} : m.mayLeaveSafe = true ↔
    m.flt.acked = true ∧ ∀ fs u, (fs, u) ∈ m.flt.active → min 4 (m.get Reg.FLT.SEV fs) < 3 := by
  simp only [Mach.mayLeaveSafe, Bool.and_eq_true, List.all_eq_true, decide_eq_true_iff, Prod.forall]
  rfl

section Reset
variable {m v w u : Mach} {cause : Nat} (hv : v = if netMode m.mode then m.allPortsOff else m)
  (hw : w = (v.record 0x0020 5 [v.mode.code]).warmed) (hu : u = { w with shadow := w.aonNow })
include hv hw hu

theorem Mach.warmReset_back : m.warmReset cause true = u := by
  subst hv hw hu
  simp only [Mach.warmReset, if_true]

theorem Mach.warmReset_eq : m.warmReset cause = if u.mode = .config then u else (u.enterConfig cause).releaseHeld := by
  subst hv hw hu
  simp only [Mach.warmReset, Bool.false_eq_true, if_false]

end Reset

/-! ### What a warm reset clears and keeps -/

theorem Tbl.find_filter_of_neg {p : Nat → Bool} {k : Nat} (hk : p k = false) (t : Tbl Nat) :
    Tbl.find (t.filter (fun c => p c.1)) k = none := by
  induction t with
  | nil => rfl
  | cons c t ih =>
    rw [List.filter_cons]
    split
    next hc =>
      have other : c.1 ≠ k := fun he => by simp [← he, hc] at hk
      simpa only [Tbl.find, other, if_false] using ih
    next => exact ih

/-- The registers that a warm reset leaves: those it keeps, and VAR_SEL of the five classes as MRAM stores it. -/
theorem Mach.find_warmed_regs {m : Mach} {k : Nat} (hk : warmKeeps k = false) (hv : ∀ c, 1 ≤ c → c ≤ 5 → k ≠ Reg.SEQ.VAR_SEL.key c) :
    Tbl.find m.warmed.regs k = none := by
  simp only [Mach.warmed, Mach.drawSeeds, Mach.fresh_regs, List.range, List.range.loop, List.foldl_cons, List.foldl_nil, Mach.put]
  rw [Tbl.find_set_ne _ _ (hv 5 (by decide) (by decide)), Tbl.find_set_ne _ _ (hv 4 (by decide) (by decide)),
    Tbl.find_set_ne _ _ (hv 3 (by decide) (by decide)), Tbl.find_set_ne _ _ (hv 2 (by decide) (by decide)),
    Tbl.find_set_ne _ _ (hv 1 (by decide) (by decide))]
  exact Tbl.find_filter_of_neg hk _

section Keeps
variable {k : Nat}

theorem warmKeeps_of_persistent (h : persistentKey k = true) : warmKeeps k = true := by
  simp [warmKeeps, h]

theorem warmKeeps_of_glb (h : keyOff k < 0x10000) (h' : keyOff k < 0x18 ∨ 0x30 ≤ keyOff k) : warmKeeps k = true := by
  simp [warmKeeps, h, h']

theorem warmKeeps_of_aon (ha : aonBlock (keyOff k / 65536) = true) (hi : indexKey k = false)
    (hc : ¬(0xE0070 ≤ keyOff k ∧ keyOff k ≤ 0xE0080)) : warmKeeps k = true := by
  simp only [not_and, Nat.not_le] at hc
  simp only [warmKeeps, ha, hi, Bool.or_eq_true, Bool.and_eq_true, Bool.not_false, Bool.not_eq_true', Bool.and_eq_false_imp,
    decide_eq_true_iff, decide_eq_false_iff_not, Nat.not_le]
  tauto

end Keeps

/-- One HGT in all four quadrants. -/
theorem Hgt.acc_of_one (h : Nat) {p q : Nat} : ({ q0 := h, q1 := h, q2 := h, q3 := h } : Hgt).acc p =
    ({ q0 := h, q1 := h, q2 := h, q3 := h } : Hgt).acc q := by
  have one : ∀ n, ({ q0 := h, q1 := h, q2 := h, q3 := h } : Hgt).acc n = h := by
    intro n
    unfold Hgt.acc
    split <;> rfl
  rw [one, one]

/-! ### The module reset -/

theorem Mach.mayAct_of_passes {m : Mach} {r : Requester} {f : Field} {i : Nat} (h : m.passes r f i = true) : m.mayAct r f = true := by
  simp only [Mach.passes, Bool.and_eq_true, bne_iff_ne, beq_iff_eq, Bool.not_eq_true'] at h
  obtain ⟨⟨⟨⟨⟨-, window⟩, unlocked⟩, reached⟩, role⟩, waits⟩ := h
  rw [Field.priv] at waits
  simp [Mach.mayAct, window, unlocked, reached, role, waits]

theorem moduleReset_passes {s : State} {r : Requester} {b : BootIn} {i : Nat} (h : s.m.passes r Reg.GLB.MODULE_RESET i = true) :
    exec (.moduleReset r b) s = .next ({ s with m := s.m.acted r Reg.GLB.MODULE_RESET 1 }.moduleResets b 1) := by
  have acts := Mach.action_passes h 1 (fun m _ => m)
  change execModuleReset r b s = _
  simp only [execModuleReset, acts, Mach.mayAct_of_passes h, if_true]

/-- Settles O43: the resets by their request's branches, what is left by reading `warmed` field by field. -/
theorem resetsClearWhatTable15ThreeSays : Obligations.ResetsClearWhatTable15ThreeSays := by
  refine ⟨fun s r meet i u h hu => ?request, fun m => Mach.mayLeaveSafe_iff, fun m v w u cause hv hw hu => ?reset, fun m => ?cleared,
    fun m k => ⟨warmKeeps_of_persistent, fun h h' => warmKeeps_of_glb h (.inr h'), warmKeeps_of_aon,
      fun h => warmKeeps_of_glb (by omega) (.inl h), Mach.find_warmed_regs⟩,
    fun s r b i h => moduleReset_passes h, fun s b => rfl, fun s b cause u hu => hu ▸ rfl⟩
  case request =>
    exact ⟨warmReset_of_configured h hu, fun hm hl => (warmReset_of_safe h hu hm).trans (by rw [if_pos hl]),
      fun hm hl => (warmReset_of_safe h hu hm).trans (by rw [if_neg (by simp [hl])]), warmReset_of_other h hu⟩
  case reset =>
    have resets := Mach.warmReset_eq (cause := cause) hv hw hu
    exact ⟨Mach.warmReset_back hv hw hu, fun hm => resets.trans (if_pos hm), fun hm => resets.trans (if_neg hm)⟩
  case cleared =>
    exact ⟨rfl, rfl, rfl, rfl, rfl, rfl, rfl, rfl, rfl, rfl, rfl, rfl, rfl, rfl, rfl, rfl, fun p q _ _ => Hgt.acc_of_one _⟩

end Sys2Proof.Machine
end

section
/-! The fault collector: detections, handlings, reactions and injection (R379 to R384). -/

namespace Sys2Proof.Machine

/-! ### A detection from outside -/

section Outside
variable {s : State} {d : Detection}

theorem faultDetection_of_reserved (hr : fsReserved d.fs = true) : exec (.faultDetection (some d)) s = okFlt s s.m :=
  congrArg (okFlt s) (if_pos hr)

theorem faultDetection_of_first (hw : firstWire s.m.flt.wires = some d) :
    exec (.faultDetection none) s = okFlt s ((s.m.takeWire d).collect d) := by
  change execFaultDetection none s = _
  simp only [execFaultDetection, hw]

theorem faultDetection_of_no_wire (hw : s.m.flt.wires = []) : exec (.faultDetection none) s = okFlt s s.m := by
  change execFaultDetection none s = _
  simp only [execFaultDetection, hw, firstWire]

variable (hr : fsReserved d.fs = false)
include hr

theorem faultDetection_of_wire (hw : d ∈ s.m.flt.wires) :
    exec (.faultDetection (some d)) s = okFlt s ((s.m.takeWire d).collect d) := by
  have onWire : s.m.flt.wires.contains d = true := by simpa using hw
  change execFaultDetection (some d) s = _
  simp only [execFaultDetection, Mach.fromOutside, hr, onWire, Bool.false_eq_true, if_false, if_true]

variable (hw : d ∉ s.m.flt.wires)
include hw

theorem faultDetection_of_edge (hl : fsLevel d.fs = false) : exec (.faultDetection (some d)) s = okFlt s (s.m.collect d) := by
  have offWire : s.m.flt.wires.contains d = false := by simpa using hw
  change execFaultDetection (some d) s = _
  simp only [execFaultDetection, Mach.fromOutside, hr, offWire, hl, Bool.false_eq_true, if_false]

theorem faultDetection_of_level (hl : fsLevel d.fs = true) : exec (.faultDetection (some d)) s =
    okFlt s (if (d.fs, d.unit) ∈ s.m.flt.active then s.m
      else { s.m with flt := { s.m.flt with active := (d.fs, d.unit) :: s.m.flt.active } }.collect d) := by
  have offWire : s.m.flt.wires.contains d = false := by simpa using hw
  change execFaultDetection (some d) s = _
  simp only [execFaultDetection, Mach.fromOutside, hr, offWire, hl, Bool.false_eq_true, if_false, if_true, List.contains_iff_mem]

end Outside

/-! ### The reaction of a severity -/

section React
variable {m : Mach} {fs sev : Nat}

theorem Mach.react_of_low (h : sev < 3) : m.react sev fs = m :=
  (if_neg (by omega)).trans (if_neg (by omega))

end React

/-! ### The collector -/

section Collect
variable {m u v : Mach} {d : Detection} {sev : Nat}
  (hu : u = ((m.put Reg.FLT.STICKY 1 d.fs).bump Reg.FLT.COUNT 1 d.fs).put Reg.FLT.FORCED (b2n d.forced) d.fs)
  (hv : v = { u with flt := { u.flt with lastSet := Tbl.set u.flt.lastSet d.fs m.clk } }) (hs : m.sevOf d.fs = sev)
include hu hv hs

theorem Mach.collect_of_sev0 (h0 : sev = 0) : m.collect d = v := by
  subst hu hv
  exact if_pos (hs.trans h0)

theorem Mach.collect_of_idle (h1 : 1 ≤ sev) (hh : v.flt.handling = none) :
    m.collect d = (if 2 ≤ sev then (v.openHandling d sev).contain d.unit else v.openHandling d sev).react sev d.fs := by
  have unignored : sev ≠ 0 := by omega
  subst hu hv
  simp only [Mach.collect, hs, unignored, if_false]
  rw [hh]
  rfl

theorem Mach.collect_of_open {h : Handling} (h1 : 1 ≤ sev) (hh : v.flt.handling = some h) : m.collect d =
    if h.sev < sev then (if 2 ≤ sev then (v.mergeHandling h d.fs sev).contain d.unit else v.mergeHandling h d.fs sev).react sev d.fs
    else if 2 ≤ sev then (v.mergeHandling h d.fs sev).contain d.unit else v.mergeHandling h d.fs sev := by
  have unignored : sev ≠ 0 := by omega
  subst hu hv
  simp only [Mach.collect, hs, unignored, if_false]
  rw [hh]
  rfl

end Collect

section Merge
variable {h : Handling} {fs sev : Nat}

theorem Handling.merge_escalated : (h.merge fs sev).escalated = true ↔ h.escalated = true ∨ h.sev < sev := by
  simp only [Handling.merge, Bool.or_eq_true, decide_eq_true_iff]

theorem Handling.merge_list_of_new (hn : fs ∉ h.list) (hl : h.list.length < 16) : (h.merge fs sev).list = h.list ++ [fs] :=
  if_neg (by simp [hn, hl])

theorem Handling.merge_list_of_known (hk : fs ∈ h.list ∨ 16 ≤ h.list.length) : (h.merge fs sev).list = h.list :=
  if_pos (by simpa using hk)

end Merge

section Opening
variable {m u v w : Mach} {d : Detection} {sev : Nat} {h : Handling}
  (hh : h = { first := d.fs, sev := sev, list := [d.fs], merged := 0, escalated := false, listFull := false, forced := d.forced, unit := d.unit, detail := d.detail, mode := m.mode.code, hgt := d.hgt })
  (hu : u = ({ m with flt := { m.flt with handling := some h } }.bump Reg.FLT.HANDLINGS).put64 Reg.FLT.CAP_SEQ_LO Reg.FLT.CAP_SEQ_HI 0)
  (hv : v = u.accept { code := 0x2000 + d.fs, sev := sev, role := 0, origin := d.origin, aonStamp := decide (4 ≤ d.origin), hgt := d.hgt, body := .fault h true 0 0 0 })
  (hw : w = v.evr.openRec.elim v (fun o => if v.isSet Reg.FLT.MCTP_EN then v.emit (.faultEvent o.seq) else v))
include hh hu hv hw

theorem Mach.openHandling_eq : m.openHandling d sev =
    if w.isSet Reg.FLT.IRQ_EN = true ∧ w.get Reg.FLT.IRQ_VEC < vectorsOf 0 ∧ w.slotPresent (w.get Reg.FLT.IRQ_SLOT) = true then
      w.interrupt (w.get Reg.FLT.IRQ_SLOT) 0 (w.get Reg.FLT.IRQ_VEC) else w := by
  have message : w = match v.evr.openRec with | some o => v.faultMessage o.seq | none => v := by
    rw [hw]
    cases v.evr.openRec <;> rfl
  subst hh hu hv message
  exact if_congr (by simp only [Bool.and_eq_true, decide_eq_true_iff, and_assoc] <;> rfl) rfl rfl

end Opening

/-! ### The reactions -/

section Reaction
variable {m u : Mach} {cause fs : Nat} {gates : Bool}

theorem Mach.reactSafe_of_running (h : m.mode ∈ [Mode.dormant, .config, .train, .run, .drain]) :
    m.reactSafe cause fs = (((m.forceOutputs false).stopBus).enterMode .safe cause fs).reacted := by
  simp only [List.mem_cons, List.not_mem_nil, or_false] at h
  obtain h | h | h | h | h := h <;> simp only [Mach.reactSafe, h]

theorem Mach.reactSafe_of_attest (h : m.mode = .attest) : m.reactSafe cause fs = (m.forceOutputs false).reacted := by
  simp only [Mach.reactSafe, h]

theorem Mach.reactSafe_of_made (h : m.mode = .safe ∨ m.mode = .lockout) : m.reactSafe cause fs = m := by
  obtain h | h := h <;> simp only [Mach.reactSafe, h]

theorem Mach.reactLockout_of_other (h : m.mode ≠ .lockout) (hu : u = ((m.forceOutputs gates).stopBus).enterMode .lockout cause fs) :
    m.reactLockout cause fs gates = { u with boot := { u.boot with lockMarker := true } }.reacted := by
  subst hu
  exact if_neg h

end Reaction

section Outputs
variable {m u v : Mach} {gates : Bool} (hu : u = (m.put Reg.FLT.LANES_IDLE 1).put Reg.FLT.PPS_FORCED 1)
  (hv : v = { u with tim := { u.tim with ppsHigh := false, clkHz := 0 } })
include hu hv

theorem Mach.forceOutputs_eq : m.forceOutputs gates = if gates = true ∧ v.isSet Reg.FLT.GATES_OFF = false then v.gatesOff else v := by
  subst hu hv
  exact if_congr (by simp only [Bool.and_eq_true, Bool.not_eq_true']) rfl rfl

end Outputs

/-! ### Injection and FAULT_N -/

theorem Mach.faultN_iff {m : Mach} : m.faultN = true ↔ m.mode = .safe ∨ m.mode = .lockout ∨
    (∃ h, m.flt.handling = some h ∧ (3 ≤ h.sev ∨ ∃ f ∈ h.list, m.isSet Reg.FLT.FAULTN f = true)) ∨
    (∃ a ∈ m.flt.active, m.isSet Reg.FLT.FAULTN a.1 = true) ∨
    (∃ f, f < 128 ∧ m.isSet Reg.FLT.FAULTN f = true ∧ m.sevOf f = 0 ∧ m.isSet Reg.FLT.STICKY f = true) := by
  simp only [Mach.faultN, Bool.or_eq_true, or_assoc, decide_eq_true_iff, List.any_eq_true, Bool.and_eq_true, List.mem_range, and_assoc]
  refine or_congr_right (or_congr_right (or_congr_left ?_))
  cases m.flt.handling with
  | none => simp
  | some h => simp

/-- Settles O44: a detection is collected as its source's severity and the open handling say, and each reaction as its mode. -/
theorem detectionsOpenMergeAndReact : Obligations.DetectionsOpenMergeAndReact := by
  refine ⟨fun s d => ?outside, fun m u v d hu hv => ?collect, fun m h fs sev => ?merge,
    fun m fs sev => ⟨Mach.react_of_low, rfl, rfl, rfl, fun _ => rfl, fun _ => rfl, fun _ => rfl, fun _ => rfl, fun _ _ => rfl, fun _ => rfl⟩,
    fun m u v w d sev h hh hu hv hw => ?opening, fun m u cause fs gates => ⟨Mach.reactSafe_of_running, Mach.reactSafe_of_attest,
      Mach.reactSafe_of_made, Mach.reactLockout_of_other, fun h => if_pos h⟩, fun m u gates hu => ?outputs,
    fun s bad u v hu hv => hv ▸ hu ▸ rfl, fun s r bank bits i h => congrArg (okFlt s) (Mach.action_passes h _ _),
    fun m fs => ⟨fun h => if_pos h, fun h => if_neg (by simp [h])⟩, fun m => Mach.faultN_iff⟩
  case outside =>
    refine ⟨faultDetection_of_reserved, faultDetection_of_wire, faultDetection_of_edge, fun hr hw hl ha => ?_, fun hr hw hl ha => ?_,
      faultDetection_of_first, faultDetection_of_no_wire⟩
    · rw [faultDetection_of_level hr hw hl, if_pos ha]
    · rw [faultDetection_of_level hr hw hl, if_neg ha]
  case collect =>
    refine ⟨fun hs => Mach.collect_of_sev0 hu hv hs rfl, fun hs hh => ?_, fun sev hs h2 hh => ?_, fun sev h hs h1 hh => ?_⟩
    · rw [Mach.collect_of_idle hu hv hs le_rfl hh, if_neg (by decide), Mach.react_of_low (by decide)]
    · rw [Mach.collect_of_idle hu hv hs (by omega) hh, if_pos h2]
    · exact Mach.collect_of_open hu hv hs h1 hh
  case merge =>
    exact ⟨rfl, rfl, Handling.merge_escalated, Handling.merge_list_of_new, Handling.merge_list_of_known, fun u hu => hu ▸ rfl⟩
  case opening =>
    have opens := Mach.openHandling_eq hh hu hv hw
    refine ⟨fun he hn hp => opens.trans (if_pos ⟨he, hn, hp⟩), fun h => opens.trans (if_neg ?_)⟩
    rintro ⟨he, hn, hp⟩
    obtain h | h | h := h
    · simp [he] at h
    · omega
    · simp [hp] at h
  case outputs =>
    have forces := Mach.forceOutputs_eq (gates := gates) hu rfl
    refine ⟨fun hg ho => forces.trans (if_pos ⟨hg, ho⟩), fun h => forces.trans (if_neg ?_), rfl⟩
    rintro ⟨hg, ho⟩
    obtain h | h := h
    · simp [hg] at h
    · simp [ho] at h

end Sys2Proof.Machine
end

section
/-! The ends of handlings, sticky bits, containments and conditions (R375, R380, R383, R385, R430). -/

namespace Sys2Proof.Machine

/-! ### FLT_ACK and the close of a handling -/

section Ack
variable {s : State} {r : Requester} {i : Nat} (h : s.m.passes r Reg.FLT.FLT_ACK i = true)
include h

theorem fltAck_of_room {u v : Mach} (hr : s.m.evr.held.length < 4) (hu : u = s.m.acted r Reg.FLT.FLT_ACK 1)
    (hv : v = u.closeHandling u.mode.code 0) : exec (.fltAck r) s = okFlt s { v with flt := { v.flt with acked := true } } := by
  subst hu hv
  exact congrArg (okFlt s) (Mach.actionIf_passes h 1 (may := fun m _ => m.evr.held.length < 4) (decide_eq_true hr) _)

theorem fltAck_of_full (hr : 4 ≤ s.m.evr.held.length) :
    exec (.fltAck r) s = okFlt s ((s.m.crossAon r Reg.FLT.FLT_ACK).ignoreWrite r Reg.FLT.FLT_ACK 1) :=
  congrArg (okFlt s) (Mach.actionIf_ignored h 1 (may := fun m _ => m.evr.held.length < 4) (decide_eq_false (Nat.not_lt.2 hr)) _)

end Ack

section Close
variable {m : Mach} {h : Handling} {modeClose closeTs reactTs : Nat}

theorem Mach.closeHandling_of_none (hn : m.flt.handling = none) : m.closeHandling modeClose reactTs = m := by
  simp only [Mach.closeHandling, hn]

theorem Mach.closeHandling_of_open {u : Mach} (hh : m.flt.handling = some h)
    (hu : u = m.amendOpen h false modeClose m.aonHgt reactTs) :
    m.closeHandling modeClose reactTs = { u with flt := { u.flt with handling := none, last := some h } } := by
  subst hu
  simp only [Mach.closeHandling, hh]

/-- The close of a record that stands in MRAM is an amendment to be flushed. -/
theorem Mach.amendOpen_of_written {o : Rec} (ho : m.evr.openRec = some o) (hq : ∀ r ∈ m.evr.queue, r.seq ≠ o.seq) :
    (m.amendOpen h false modeClose closeTs reactTs).evr.openRec = none ∧
    (m.amendOpen h false modeClose closeTs reactTs).evr.amends =
      m.evr.amends ++ [{ o.withHandling h false modeClose closeTs reactTs with amended := true }] := by
  have written : m.evr.queue.any (fun r => r.seq == o.seq) = false := by simpa using hq
  constructor
  · simp only [Mach.amendOpen, ho, Bool.false_eq_true, if_false]
  · simp only [Mach.amendOpen, ho, written, Bool.false_eq_true, if_false, Mach.put64_evr]

end Close

/-! ### Sticky bits and slots -/

section Sticky
variable {m : Mach} {fs t : Nat}

theorem Mach.clearSticky_of_set (h : Tbl.find m.flt.lastSet fs = some t) :
    m.clearSticky fs = if m.clk < t + 2 * Config.aonCycles then m else m.put Reg.FLT.STICKY 0 fs := by
  simp only [Mach.clearSticky, Mach.setAnew, h, decide_eq_true_iff]

theorem Mach.clearSticky_of_never_set (h : Tbl.find m.flt.lastSet fs = none) : m.clearSticky fs = m.put Reg.FLT.STICKY 0 fs := by
  simp only [Mach.clearSticky, Mach.setAnew, h, Bool.false_eq_true, if_false]

end Sticky

theorem Mach.releaseSlot_of_contained {m u : Mach} {k : Nat} (hb : bit (m.get Reg.FLT.SLOT_CONT) k = true)
    (hu : u = m.put Reg.FLT.SLOT_CONT (m.get Reg.FLT.SLOT_CONT - 2 ^ k)) :
    m.releaseSlot k = (u.hif.funcs.keys.filter (fun x => x / 256 == k)).foldl (fun a x => a.releaseFn k (x % 256)) u := by
  subst hu
  exact if_neg (by simp [hb])

/-! ### The end of a condition -/

section Ends
variable {s : State} {fs : Fin 128} {unit : FUnit}

theorem completes_conditionEnd_of_inactive (h : (fs.val, unit) ∉ s.m.flt.active) : Completes (.conditionEnd fs unit) s s.m := by
  exact if_pos (by simp [h])

variable (h : (fs.val, unit) ∈ s.m.flt.active) {u : Mach} (hu : u = s.m.endCondition fs unit)
include h hu

theorem completes_conditionEnd_of_temperature (ht : fs.val = 94 ∨ fs.val = 95) : Completes (.conditionEnd fs unit) s
    { u with seqr := { u.seqr with hot := u.seqr.hot.filter (fun h => h.1 + 94 != fs.val) } } := by
  subst hu
  exact (if_neg (by simp [h])).trans (if_pos (by simpa using ht))

theorem completes_conditionEnd_of_rail {n : Nat} (h94 : fs.val ≠ 94) (h95 : fs.val ≠ 95) (hn : unit = .rail n) :
    Completes (.conditionEnd fs unit) s (u.railBack n) := by
  subst hu hn
  exact (if_neg (by simp [h])).trans (if_neg (by simp [h94, h95]))

theorem completes_conditionEnd_of_other (h94 : fs.val ≠ 94) (h95 : fs.val ≠ 95) (hn : ∀ n, unit ≠ .rail n) :
    Completes (.conditionEnd fs unit) s u := by
  subst hu
  refine ((if_neg (by simp [h])).trans (if_neg (by simp [h94, h95]))).trans ?_
  cases unit with
  | rail n => exact absurd rfl (hn n)
  | _ => rfl

end Ends

section Rail
variable {m u : Mach} {rail : Nat}

theorem Mach.railBack_of_started (hg : railGroup rail ≤ m.pwr.groups) (hr : rail < 26) (hp : m.isSet Reg.PWR.PGOOD = true)
    (hu : u = m.put Reg.PWR.RAIL_OK (m.get Reg.PWR.RAIL_OK ||| 2 ^ rail)) :
    m.railBack rail = if m.get Reg.PWR.RAIL_OK ||| 2 ^ rail = 2 ^ 26 - 1 then u.put Reg.PWR.RAILS_UP 1 else u := by
  subst hu
  exact if_pos (by simp [hg, hr, hp])

theorem Mach.railBack_of_down (h : m.pwr.groups < railGroup rail ∨ 26 ≤ rail ∨ m.isSet Reg.PWR.PGOOD = false) : m.railBack rail = m := by
  refine if_neg ?_
  simp only [Bool.and_eq_true, decide_eq_true_iff]
  rintro ⟨⟨hg, hr⟩, hp⟩
  obtain h | h | h := h
  · omega
  · omega
  · simp [hp] at h

end Rail

/-- Settles O45: each command by the lemma on the operation it makes, carried out where its write passes. -/
theorem handlingsEndAndStickyBitsClear : Obligations.HandlingsEndAndStickyBitsClear := by
  refine ⟨fun s r i u v h => ⟨fltAck_of_room h, fltAck_of_full h⟩, fun m u modeClose reactTs h => ⟨Mach.closeHandling_of_none,
    Mach.closeHandling_of_open⟩, fun m h o modeClose closeTs reactTs => Mach.amendOpen_of_written,
    fun s r i h => congrArg (ok s) (Mach.action_passes h 1 _), fun s r k bits i h => congrArg (ok s) (Mach.action_passes h _ _),
    fun m fs t => ⟨fun h hc => (Mach.clearSticky_of_set h).trans (if_pos hc),
      fun h hc => (Mach.clearSticky_of_set h).trans (if_neg (Nat.not_lt.2 hc)), Mach.clearSticky_of_never_set⟩,
    fun s r bits i h => congrArg (ok s) (Mach.action_passes h _ _),
    fun m u k => ⟨fun h => if_pos (by simp [h]), Mach.releaseSlot_of_contained⟩,
    fun s fs unit u hu => ⟨completes_conditionEnd_of_inactive, fun h h94 h95 =>
      ⟨fun n hn => completes_conditionEnd_of_rail h hu h94 h95 hn, fun hn => completes_conditionEnd_of_other h hu h94 h95 hn⟩,
      fun h ht => completes_conditionEnd_of_temperature h hu ht⟩,
    fun m u rail hg hr hp hu => ⟨fun h => (Mach.railBack_of_started hg hr hp hu).trans (if_pos h),
      fun h => (Mach.railBack_of_started hg hr hp hu).trans (if_neg h)⟩,
    fun m rail => Mach.railBack_of_down, fun s r i h => congrArg (ok s) (Mach.action_passes h 1 _)⟩

end Sys2Proof.Machine
end

section
/-! The recorder: acceptance, numbering, placing and writing out of records (R390 to R398). -/

namespace Sys2Proof.Machine

/-! ### Acceptance -/

section Exempt
variable {m : Mach} {r : Rec}

theorem Mach.acceptExempt_of_room (hr : m.evr.roomExempt = true) (hw : m.evr.waiting = []) (hh : m.evr.held = [] ∨ neverWaits r.code = false) :
    m.acceptExempt r = { m with evr := m.evr.enqueue (m.evr.reserve r) } := by
  refine if_pos ?_
  obtain hh | hh := hh <;> simp [hr, hw, hh]

variable (h : m.evr.roomExempt = false ∨ m.evr.waiting ≠ [] ∨ (m.evr.held ≠ [] ∧ neverWaits r.code = true))
include h

theorem Mach.acceptExempt_of_full : m.acceptExempt r = if neverWaits r.code then { m with evr := { m.evr with held := m.evr.held ++ [r] } }
    else { m with evr := { m.evr with waiting := m.evr.waiting ++ [r] } } := by
  refine if_neg ?_
  simp only [Bool.and_eq_true, List.isEmpty_iff, Bool.or_eq_true, Bool.not_eq_true']
  rintro ⟨⟨hr, hw⟩, hh⟩
  obtain h | h | ⟨h, hn⟩ := h
  · simp [hr] at h
  · exact h hw
  · obtain hh | hh := hh
    · exact h hh
    · simp [hn] at hh

end Exempt

section Limited
variable {m u v : Mach} {r : Rec}

theorem Mach.acceptLimited_of_no_token (hu : u = m.bump Reg.EVR.SUPPRESSED)
    (hc : (m.bucket r.code).credit < Config.hgtSec ∨ (m.burstRate r.code).2 = 0) :
    m.acceptLimited r = { u with evr := { u.evr with
      buckets := Tbl.set u.evr.buckets r.code (m.bucket r.code)
      supp := Tbl.modify u.evr.supp r.code (0, r.hgt / 16 % 2 ^ 32) (fun x => (x.1 + 1, x.2)) } } := by
  subst hu
  exact if_pos (by simpa using hc)

variable (hc : Config.hgtSec ≤ (m.bucket r.code).credit) (hr : (m.burstRate r.code).2 ≠ 0)
  (hu : u = { m with evr := { m.evr with
    buckets := Tbl.set m.evr.buckets r.code { m.bucket r.code with credit := (m.bucket r.code).credit - Config.hgtSec } } })
include hc hr hu

theorem Mach.acceptLimited_of_token (hv : v = u.bump Reg.EVR.LOST) : m.acceptLimited r =
    if m.evr.plainUsed < 224 then { u with evr := u.evr.enqueue r }
    else { v with evr := { v.evr with
      lostNow := v.evr.lostNow + 1
      lostAt := if v.evr.lostNow = 0 then r.hgt / 16 % 2 ^ 32 else v.evr.lostAt } } := by
  subst hv hu
  exact if_neg (by simp only [Bool.or_eq_true, decide_eq_true_iff, not_or]; exact ⟨Nat.not_lt.2 hc, hr⟩)

end Limited

/-! ### Numbering and placing -/

section Place
variable {e : Evr} {len : Nat}

theorem Evr.placeFor_of_keep (hk : e.keepFull = false) (hl : e.keepNext + len ≤ 16777216) : e.placeFor len = (e.keepNext, true) :=
  if_pos (by simp [hk, hl])

theorem Evr.placeFor_of_ring (h : e.keepFull = true ∨ 16777216 < e.keepNext + len) :
    e.placeFor len = (16777216 + e.ringNext % 33554432, false) := by
  refine if_neg ?_
  simp only [Bool.and_eq_true, Bool.not_eq_true', decide_eq_true_iff]
  rintro ⟨hk, hl⟩
  obtain h | h := h
  · simp [hk] at h
  · omega

end Place

theorem Evr.put_queue (e : Evr) (r : Rec) : (e.put r).queue = e.queue ++ [{ r with
    seq := e.nextSeq, place := (e.placeFor (16 * r.len16)).1, keep := (e.placeFor (16 * r.len16)).2 }] := rfl

theorem Evr.put_of_keep {e : Evr} {r : Rec} (hk : e.keepFull = false) (hl : e.keepNext + 16 * r.len16 ≤ 16777216) :
    (e.put r).keepNext = e.keepNext + 16 * r.len16 ∧ (e.put r).keepFull = false := by
  simp only [Evr.put, Evr.placeFor_of_keep hk hl, hk, if_true, Bool.not_true, Bool.or_self, and_self]

theorem Evr.put_of_ring {e : Evr} {r : Rec} (h : e.keepFull = true ∨ 16777216 < e.keepNext + 16 * r.len16) :
    (e.put r).keepFull = true ∧ (e.put r).ringNext = e.ringNext + 16 * r.len16 := by
  simp only [Evr.put, Evr.placeFor_of_ring h, Bool.false_eq_true, if_false, Bool.not_false, Bool.or_true, and_self]

theorem Evr.enqueue_of_clear {e : Evr} {r : Rec} (h : e.coversOpen (16 * r.len16) = false ∨ e.openRec = none) : e.enqueue r = e.put r := by
  obtain h | h := h
  · exact if_neg (by simp [h])
  · simp only [Evr.enqueue, h, ite_self]

theorem Evr.enqueue_of_covered {e : Evr} {r o : Rec} (h : e.coversOpen (16 * r.len16) = true) (ho : e.openRec = some o) :
    e.enqueue r = (e.put { o with reloc := true, reserved := false }).put r := by
  simp only [Evr.enqueue, h, ho, if_true]

/-! ### Writing out -/

section Write
variable {s : State}

theorem State.writeHead_of_empty (h : s.m.evr.queue = []) : s.writeHead = s := by
  simp only [State.writeHead, h]

theorem State.writeHead_of_cons {r : Rec} {rest : List Rec} (h : s.m.evr.queue = r :: rest) {u : Mach}
    (hu : u = { s.m with evr := { s.m.evr with queue := rest } }) :
    s.writeHead = { s with mram := Memory.writeRec s.mram r.place r.toBytes
                           m := Mach.resume (u.evr.held.length + u.evr.waiting.length + 1) u } := by
  subst hu
  simp only [State.writeHead, h]

end Write

section Resume
variable {m u : Mach} {n : Nat} {r : Rec} {rest : List Rec} (hu : u = m.lostFirst)
include hu

theorem Mach.resume_of_end (h : u.evr.roomExempt = false ∨ (u.evr.held = [] ∧ u.evr.waiting = [])) : Mach.resume (n + 1) m = u := by
  subst hu
  obtain h | ⟨hh, hw⟩ := h
  · simp only [Mach.resume, h, Bool.not_false, if_true]
  · simp only [Mach.resume, hh, hw, ite_self]

variable (hr : u.evr.roomExempt = true)
include hr

theorem Mach.resume_of_held (hh : u.evr.held = r :: rest) :
    Mach.resume (n + 1) m = Mach.resume n ({ u with evr := { u.evr with held := rest } }.acceptHeld r) := by
  subst hu
  simp only [Mach.resume, hr, hh, Bool.not_true, Bool.false_eq_true, if_false]

theorem Mach.resume_of_waiting {v : Mach} (hh : u.evr.held = []) (hw : u.evr.waiting = r :: rest)
    (hv : v = { u with evr := { u.evr with waiting := rest } }) :
    Mach.resume (n + 1) m = Mach.resume n { v with evr := v.evr.enqueue (v.evr.reserve r) } := by
  subst hu hv
  simp only [Mach.resume, hr, hh, hw, Bool.not_true, Bool.false_eq_true, if_false]

end Resume

theorem Mach.lostFirst_of_lost {m : Mach} (hn : m.evr.lostNow ≠ 0) (hp : m.evr.plainUsed < 224) : m.lostFirst =
    { m with evr := { m.evr.enqueue { code := 0x0FF1, sev := 0, role := 0, origin := 4, aonStamp := true, hgt := m.aonHgt
                                      body := .bytes (zeros 4 ++ leBytes 4 m.evr.lostNow ++ leBytes 4 m.evr.lostAt)
                                      boot := m.get Reg.GLB.BOOT_COUNT } with lostNow := 0, lostAt := 0 } } :=
  if_neg (by simp [hn, hp])

section Suppressed
variable {s : State}

theorem completes_suppressedRecord_of_none (h : s.m.evr.supp = []) : Completes .suppressedRecord s s.m := by
  change execSuppressedRecord s = _
  simp only [execSuppressedRecord, h, ok]

theorem completes_suppressedRecord_of_cons {u : Mach} {code n t : Nat} {rest : Tbl (Nat × Nat)} (h : s.m.evr.supp = (code, n, t) :: rest)
    (hu : u = s.m.elapseAon (s.m.secondAfter t)) : Completes .suppressedRecord s
      (u.evr.supp.foldl (fun (a : Mach) (c : Nat × Nat × Nat) => a.accept
        { code := 0x0FF0, sev := 0, role := 0, origin := 4, aonStamp := true, hgt := s.m.secondAfter t
          body := .bytes (leBytes 2 c.1 ++ zeros 2 ++ leBytes 4 c.2.1 ++ leBytes 4 c.2.2) })
        { u with evr := { u.evr with supp := [] } }) := by
  subst hu
  change execSuppressedRecord s = _
  simp only [execSuppressedRecord, h, ok]

end Suppressed

/-- Settles O46: each clause is the lemma on the recorder's operation at the branch that its hypotheses choose. -/
theorem recordsAreAcceptedAndWrittenInOrder : Obligations.RecordsAreAcceptedAndWrittenInOrder := by
  refine ⟨fun m r => ⟨Mach.acceptExempt_of_room, fun h => ?exempt⟩, fun m u v r => ⟨Mach.acceptLimited_of_no_token, fun hc hr hu => ?limited⟩,
    fun e r => ⟨rfl, _, Evr.put_queue e r, rfl, rfl, rfl, rfl, fun hk hl => ?keep, fun h => ?ring⟩,
    fun e r => ⟨Evr.enqueue_of_clear, fun o => Evr.enqueue_of_covered⟩, fun s u hu => hu ▸ rfl,
    fun s r rest => ⟨State.writeHead_of_empty, fun h u hu => State.writeHead_of_cons h hu⟩,
    fun m u n r rest => ⟨rfl, fun hu => ⟨Mach.resume_of_end hu, Mach.resume_of_held hu, fun v hr => Mach.resume_of_waiting hu hr⟩⟩,
    fun s => rfl, fun m => ⟨fun h => if_pos (by simpa using h), fun hn hp => ?lost⟩,
    fun s u code n t rest => ⟨completes_suppressedRecord_of_none, completes_suppressedRecord_of_cons⟩,
    fun s r i h => congrArg (ok s) (Mach.action_passes h 1 _)⟩
  case exempt =>
    exact ⟨fun hn => (Mach.acceptExempt_of_full h).trans (if_pos hn), fun hn => (Mach.acceptExempt_of_full h).trans (if_neg (by simp [hn]))⟩
  case limited =>
    exact ⟨fun hp => (Mach.acceptLimited_of_token hc hr hu rfl).trans (if_pos hp),
      fun hp hv => (Mach.acceptLimited_of_token hc hr hu hv).trans (if_neg (Nat.not_lt.2 hp))⟩
  case keep =>
    obtain ⟨next, full⟩ := Evr.put_of_keep hk hl
    have place := Evr.placeFor_of_keep hk hl
    exact ⟨congrArg Prod.fst place, congrArg Prod.snd place, next, full⟩
  case ring =>
    obtain ⟨full, next⟩ := Evr.put_of_ring h
    have place := Evr.placeFor_of_ring h
    exact ⟨congrArg Prod.fst place, congrArg Prod.snd place, full, next⟩
  case lost =>
    have first := Mach.lostFirst_of_lost hn hp
    exact ⟨congrArg (·.evr.lostNow) first, congrArg Mach.evr first⟩

end Sys2Proof.Machine
end

section
/-! Reading records and the ledger, and the check of the ledger (R399, R400, R409). -/

namespace Sys2Proof.Machine

/-! ### RD_GO and LEDGER_GO -/

section Read
variable {m : Mach} {mram : Memory} {bad : Bool} {i seq : Nat} (hs : seq = m.get64 Reg.EVR.RD_SEQ_LO Reg.EVR.RD_SEQ_HI i)
include hs

theorem Mach.rdGo_of_unwritten (hw : m.evr.written seq = false) : Mach.rdGo mram bad m i = m.rdDone i 1 [] false 0 := by
  subst hs
  exact if_pos (by simp [hw])

variable (hw : m.evr.written seq = true)
include hw

theorem Mach.rdGo_of_gone (hf : m.evr.find seq = none) : Mach.rdGo mram bad m i = m.rdDone i 2 [] false 0 := by
  subst hs
  simp only [Mach.rdGo, hw, hf, Bool.not_true, Bool.false_eq_true, if_false]

theorem Mach.rdGo_of_found {a : RecAt} {b : List Byte} (hf : m.evr.find seq = some a) (hb : b = Memory.readRec mram a.place a.len) :
    Mach.rdGo mram bad m i = if bad then ((m.raise 12 .none a.place).record 0xA033 4 [a.place]).rdDone i 4 [] false 0
      else if !recordGood seq b then ((m.raise 123 .none a.place).record 0xA030 4 [seq]).rdDone i 3 [] false 0
      else m.rdDone i 0 b (recordOpen b) (a.len / 16) := by
  subst hs hb
  simp only [Mach.rdGo, Mach.mramBad, hw, hf, Bool.not_true, Bool.false_eq_true, if_false]

end Read

theorem Mach.ledgerGo_of_entry {s : State} {bad : Bool} {m : Mach} {i n : Nat} (hn : n = m.get Reg.EVR.LEDGER_IDX i)
    (hl : n < m.evr.ledger) : Mach.ledgerGo s bad m i =
      if bad then (m.mramBad (ledgerAddr n)).rdDone i 4 [] false 0
      else m.rdDone i 0 (Memory.readAll s.mram (ledgerAddr n) 256 ++ (m.rdBuf i).bytes.drop 256) false 16 := by
  subst hn
  exact if_neg (Nat.not_le.2 hl)

section Done
variable (m : Mach) (k res : Nat) (b : List Byte) (o : Bool) (len : Nat)

theorem Mach.rdDone_rdBuf_same : (m.rdDone k res b o len).rdBuf k =
    { bytes := if res = 0 then b else (m.rdBuf k).bytes, done := decide (res = 0), open_ := o, len := len, result := res } :=
  Tbl.get_set_same _ _ _ _

theorem Mach.rdDone_rdBuf_ne {j : Nat} (h : j ≠ k) : (m.rdDone k res b o len).rdBuf j = m.rdBuf j :=
  Tbl.get_set_ne _ _ _ h

end Done

/-! ### The check of the ledger -/

section Verify
variable {s : State}

theorem completes_verifyGo_of_idle {r : Requester} {i : Nat} {u : Mach} (h : s.m.passes r Reg.EVR.VERIFY_GO i = true)
    (hb : s.m.evr.verBusy = false) (hu : u = s.m.acted r Reg.EVR.VERIFY_GO 1) : Completes (.verifyGo r) s
      { u with evr := { u.evr with verBusy := true, verBad := false, verFrom := u.get Reg.EVR.VERIFY_FROM
                                   verPos := u.get Reg.EVR.VERIFY_FROM, verAt := u.clk } } := by
  subst hu
  exact congrArg (ok s) (Mach.actionIf_passes h 1 (may := fun m _ => !m.evr.verBusy) (by simp [hb]) _)

theorem completes_verifyGo_of_busy {r : Requester} {i : Nat} (h : s.m.passes r Reg.EVR.VERIFY_GO i = true)
    (hb : s.m.evr.verBusy = true) : Completes (.verifyGo r) s ((s.m.crossAon r Reg.EVR.VERIFY_GO).ignoreWrite r Reg.EVR.VERIFY_GO 1) :=
  congrArg (ok s) (Mach.actionIf_ignored h 1 (may := fun m _ => !m.evr.verBusy) (by simp [hb]) _)

variable {u : Mach} (hb : s.m.evr.verBusy = true)
include hb

theorem completes_verifyComplete_of_failing {n : Nat} (hf : s.m.evr.verFrom ≤ n) (hl : n < s.m.evr.ledger)
    (hu : u = s.m.elapseTo (s.m.evr.verAt + (n + 1 - s.m.evr.verFrom) * verifyCycles)) : Completes (.verifyComplete (some n)) s
      (({ u with evr := { u.evr with verBusy := false, verBad := true, verPos := n } }.raise 123 .none n 5).record 0xA030 5 [n]) := by
  subst hu
  change execVerifyComplete (some n) s = _
  simp only [execVerifyComplete, hb, hf, hl, decide_true, Bool.and_self, Bool.not_true, Bool.false_eq_true, if_false, if_true,
    Option.getD_some, ok]

theorem completes_verifyComplete_of_good {bad : Option Nat}
    (hn : bad = none ∨ bad.any (fun k => decide (k < s.m.evr.verFrom ∨ s.m.evr.ledger ≤ k)) = true)
    (hu : u = s.m.elapseTo (s.m.evr.verAt + (max s.m.evr.verFrom s.m.evr.ledger - s.m.evr.verFrom) * verifyCycles)) :
    Completes (.verifyComplete bad) s ({ u with evr := { u.evr with verBusy := false, verPos := max u.evr.verFrom u.evr.ledger } }.record
      0xA032 5 [u.evr.verFrom, u.evr.ledger]) := by
  subst hu
  change execVerifyComplete bad s = _
  cases bad with
  | none => simp only [execVerifyComplete, hb, Bool.not_true, Bool.false_eq_true, if_false, ok]
  | some k =>
    have outside : (decide (s.m.evr.verFrom ≤ k) && decide (k < s.m.evr.ledger)) = false := by
      simp only [reduceCtorEq, Option.any_some, decide_eq_true_iff, false_or] at hn
      simp only [Bool.and_eq_false_imp, decide_eq_true_iff, decide_eq_false_iff_not]
      omega
    simp only [execVerifyComplete, hb, outside, Bool.not_true, Bool.false_eq_true, if_false, ok]

end Verify

/-- Settles O47: a read ends as its lemma on rdGo or ledgerGo says, and the check at its failing entry or its end. -/
theorem recordsAndLedgerAreReadAndChecked : Obligations.RecordsAndLedgerAreReadAndChecked := by
  refine ⟨fun s r i bad u seq h hu hs => ?record, fun s r i bad u n h hu hn => ?entry, fun m k res b o len => ?buffer,
    fun s r i u h => ⟨completes_verifyGo_of_idle h, completes_verifyGo_of_busy h⟩,
    fun s n bad u hb => ⟨completes_verifyComplete_of_failing hb, completes_verifyComplete_of_good hb⟩,
    fun s bad hb => if_pos (by simp [hb])⟩
  case record =>
    have acts : Completes (.rdGo r bad) s (Mach.rdGo s.mram bad u i) := hu ▸ congrArg (ok s) (Mach.action_passes h 1 _)
    refine ⟨fun hw => ?_, fun hw hf => ?_, fun a b hw hf hb => ?_⟩
    · rwa [Mach.rdGo_of_unwritten hs hw] at acts
    · rwa [Mach.rdGo_of_gone hs hw hf] at acts
    · rw [Mach.rdGo_of_found hs hw hf hb] at acts
      exact ⟨fun hx => acts.of_pos hx, fun hx hg => (acts.of_neg (by simp [hx])).of_pos (by simp [hg]),
        fun hx hg => (acts.of_neg (by simp [hx])).of_neg (by simp [hg])⟩
  case entry =>
    have acts : Completes (.ledgerGo r bad) s (Mach.ledgerGo s bad u i) := hu ▸ congrArg (ok s) (Mach.action_passes h 1 _)
    refine ⟨fun hl => ?_, fun hl hx => ?_, fun hl hx => ?_⟩
    · subst hn
      exact acts.of_pos hl
    · rw [Mach.ledgerGo_of_entry hn hl] at acts
      exact acts.of_pos hx
    · rw [Mach.ledgerGo_of_entry hn hl] at acts
      exact acts.of_neg (by simp [hx])
  case buffer =>
    have same := m.rdDone_rdBuf_same k res b o len
    exact ⟨congrArg RdBuf.result same, congrArg RdBuf.done same, congrArg RdBuf.bytes same, fun j => m.rdDone_rdBuf_ne k res b o len⟩

end Sys2Proof.Machine
end

section
/-! Records copied to the host (R401). -/

namespace Sys2Proof.Machine

theorem Mach.export_updExport (m : Mach) (i : Nat) (f : Export → Export) : (m.updExport i f).export_ i = f (m.export_ i) :=
  Tbl.get_modify_same _ _ _ _ _

/-! ### EXP_GO -/

section Start
variable {m : Mach} {r : Requester} {i : Nat}

theorem Mach.startExport_of_busy (hb : (m.export_ i).busy = true) :
    m.startExport r i = (m.ignoreWrite r Reg.EVR.EXP_GO 1).updExport i (fun e => { e with err := 2 }) := if_pos hb

variable (hb : (m.export_ i).busy = false)
include hb

theorem Mach.startExport_of_no_pd (hp : Tbl.find m.xlt.pds (m.get Reg.EVR.EXP_PD i) = none) :
    m.startExport r i = m.updExport i (fun e => { e with err := 3 }) := by
  simp only [Mach.startExport, hb, hp, Bool.false_eq_true, if_false]

theorem Mach.startExport_of_pd {p : Pd} (hp : Tbl.find m.xlt.pds (m.get Reg.EVR.EXP_PD i) = some p) : m.startExport r i =
    if p.slot != r.slotOf then m.updExport i (fun e => { e with err := 3 })
    else m.updExport i (fun _ =>
      { busy := true, next := m.get64 Reg.EVR.EXP_FROM_SEQ_LO Reg.EVR.EXP_FROM_SEQ_HI i, upTo := m.evr.nextSeq
        atc := m.get64 Reg.EVR.EXP_VA_LO Reg.EVR.EXP_VA_HI i / 16 * 16
        limit := m.get64 Reg.EVR.EXP_VA_LO Reg.EVR.EXP_VA_HI i / 16 * 16 + max 1024 (m.get Reg.EVR.EXP_LEN i)
        pd := m.get Reg.EVR.EXP_PD i }) := by
  simp only [Mach.startExport, hb, hp, Bool.false_eq_true, if_false]

end Start

/-! ### Record by record -/

section Pump
variable {s : State} {i fuel : Nat} {e : Export} (he : e = s.m.export_ i)
include he

theorem State.pumpExport_of_idle (h : e.busy = false ∨ e.wait = true) : s.pumpExport i (fuel + 1) = s := by
  subst he
  exact if_pos (by simpa using h)

variable (hb : e.busy = true) (hw : e.wait = false)
include hb hw

theorem State.pumpExport_of_done (hn : e.upTo ≤ e.next) : s.pumpExport i (fuel + 1) = { s with m := s.m.exportEnd i 0 } := by
  subst he
  exact (if_neg (by simp [hb, hw])).trans (if_pos hn)

variable (hn : e.next < e.upTo)
include hn

theorem State.pumpExport_of_queued (hq : s.m.evr.written e.next = false) : s.pumpExport i (fuel + 1) = s.writeHead.pumpExport i fuel := by
  subst he
  exact (if_neg (by simp [hb, hw])).trans ((if_neg (Nat.not_le.2 hn)).trans (if_pos (by simp [hq])))

variable (hq : s.m.evr.written e.next = true)
include hq

theorem State.pumpExport_of_gone {nx : Nat} (hf : s.m.evr.find e.next = none)
    (hx : nx = ((s.m.evr.where_.find? (fun a => decide (e.next < a.seq))).map (·.seq)).getD e.upTo) : s.pumpExport i (fuel + 1) =
      ({ s with m := s.m.updExport i (fun e' => { e' with gap := true, next := min nx e'.upTo }) } : State).pumpExport i fuel := by
  subst he hx
  simp only [State.pumpExport, hb, hw, Nat.not_le.2 hn, hq, hf, Bool.not_true, Bool.or_self, Bool.false_eq_true, if_false]

variable {a : RecAt} (hf : s.m.evr.find e.next = some a)
include hf

theorem State.pumpExport_of_full (hl : e.limit < e.atc + a.len) : s.pumpExport i (fuel + 1) = { s with m := s.m.exportEnd i 0 } := by
  subst he
  simp only [State.pumpExport, hb, hw, Nat.not_le.2 hn, hq, hf, hl, Bool.not_true, Bool.or_self, Bool.false_eq_true, if_false, if_true]

variable (hl : e.atc + a.len ≤ e.limit) {u : Mach}
include hl

theorem State.pumpExport_of_issued (hx : s.m.hostAccess (s.m.exportOp i e (Memory.readRec s.mram a.place a.len)) = (u, .issued)) :
    s.pumpExport i (fuel + 1) = ({ s with m := u.exportIssued i a.len } : State).pumpExport i fuel := by
  subst he
  simp only [State.pumpExport, hb, hw, Nat.not_le.2 hn, hq, hf, Nat.not_lt.2 hl, hx, Bool.not_true, Bool.or_self, Bool.false_eq_true,
    if_false]

theorem State.pumpExport_of_waiting (hx : s.m.hostAccess (s.m.exportOp i e (Memory.readRec s.mram a.place a.len)) = (u, .waiting)) :
    s.pumpExport i (fuel + 1) = { s with m := u.updExport i (fun e => { e with wait := true }) } := by
  subst he
  simp only [State.pumpExport, hb, hw, Nat.not_le.2 hn, hq, hf, Nat.not_lt.2 hl, hx, Bool.not_true, Bool.or_self, Bool.false_eq_true,
    if_false]

theorem State.pumpExport_of_fault {c : XFault} (hx : s.m.hostAccess (s.m.exportOp i e (Memory.readRec s.mram a.place a.len)) = (u, .fault c)) :
    s.pumpExport i (fuel + 1) = { s with m := u.exportEnd i 1 } := by
  subst he
  simp only [State.pumpExport, hb, hw, Nat.not_le.2 hn, hq, hf, Nat.not_lt.2 hl, hx, Bool.not_true, Bool.or_self, Bool.false_eq_true,
    if_false]

end Pump

/-- Settles O48: EXP_GO by the lemmas on startExport, the copying by the one step of pumpExport that its next record takes. -/
theorem exportsCopyRecordsToTheHost : Obligations.ExportsCopyRecordsToTheHost := by
  refine ⟨fun s r i u h hu => ?start, fun s r => rfl, fun s i fuel e he => ⟨fun h => State.pumpExport_of_idle he h,
    fun hb hw hn => State.pumpExport_of_done he hb hw hn, fun hb hw hn => ?step⟩, fun m i e b => ⟨rfl, rfl, rfl, rfl, rfl⟩,
    fun m i len e he => he ▸ m.export_updExport i _⟩
  case start =>
    have acts : Completes (.expGo r) s (u.startExport r i) := hu ▸ congrArg (ok s) (Mach.action_passes h 1 _)
    refine ⟨fun hb => ?_, fun hb hp => ?_, fun p hb hp => ?_⟩
    · rwa [Mach.startExport_of_busy hb] at acts
    · rwa [Mach.startExport_of_no_pd hb hp] at acts
    · rw [Mach.startExport_of_pd hb hp] at acts
      exact ⟨fun hs => acts.of_pos (by simp [hs]), fun hs => acts.of_neg (by simp [hs])⟩
  case step =>
    refine ⟨State.pumpExport_of_queued he hb hw hn, fun nx hq => State.pumpExport_of_gone he hb hw hn hq, fun a hq hf =>
      ⟨State.pumpExport_of_full he hb hw hn hq hf, fun hl u d hx => ⟨?_, ?_, ?_⟩⟩⟩
    · rintro rfl
      exact State.pumpExport_of_issued he hb hw hn hq hf hl hx
    · rintro rfl
      exact State.pumpExport_of_waiting he hb hw hn hq hf hl hx
    · rintro c rfl
      exact State.pumpExport_of_fault he hb hw hn hq hf hl hx

end Sys2Proof.Machine
end

section
/-! The SPDM responder (R410, R411) and TIME_QUERY (R47). -/

namespace Sys2Proof.Machine

/-! ### What is taken up -/

section Taken
variable {m : Mach} {p : Path}

theorem Mach.unheard_of_silent (h : m.boot.recovery = true ∨ (p.via = .smbus ∧ m.rol.i3cAddr ≠ none)) : m.unheard p = m :=
  if_pos (by simpa [Option.isSome_iff_ne_none] using h)

variable (hr : m.boot.recovery = false) (hv : p.via ≠ .smbus ∨ m.rol.i3cAddr = none)
include hr hv

theorem Path.answered : (m.boot.recovery || (decide (p.via = .smbus) && m.rol.i3cAddr.isSome)) = false := by
  obtain hv | hv := hv <;> simp [hr, hv]

theorem Mach.unheard_of_answered : m.unheard p = m.say p .spdmError := by
  simp only [Mach.unheard, Path.answered hr hv, Bool.false_eq_true, if_false]

theorem Mach.mgmtHeard_of_no_session (hs : p.sess = none) : m.mgmtHeard p = true := by
  simp only [Mach.mgmtHeard, Path.answered hr hv, hs, Bool.not_false, Bool.and_self]

theorem Mach.mgmtHeard_iff {k : Fin 16} (hs : p.sess = some k) :
    m.mgmtHeard p = true ↔ ∃ x : Session, Tbl.find m.rol.sessions k = some x ∧ x.via = p.via := by
  simp only [Mach.mgmtHeard, Path.answered hr hv, hs, Bool.not_false, Bool.true_and, Option.any_eq_true, beq_iff_eq]

end Taken

/-- A message that is taken up does what its action does on the machine that has heard it; one that is not, what `unheard` says. -/
theorem ok_mgmt_heard {s : State} {p : Path} (h : s.m.mgmtHeard p = true) (act : Mach → Mach) :
    ok s (s.m.mgmt p act) = .next { s with m := act (s.m.heard p) } := congrArg (ok s) (Mach.mgmt_heard h act)

theorem ok_mgmt_unheard {s : State} {p : Path} (h : s.m.mgmtHeard p = false) (act : Mach → Mach) :
    ok s (s.m.mgmt p act) = .next { s with m := s.m.unheard p } := congrArg (ok s) (Mach.mgmt_unheard h act)

/-! ### The answers -/

section Answers
variable {s : State} {p : Path} (h : s.m.mgmtHeard p = true)
include h

theorem completes_heartbeat_of_session (hs : p.sess ≠ none) : Completes (.heartbeat p) s ((s.m.heard p).say p .heartbeatAck) ∧
    Completes (.keyUpdate p) s ((s.m.heard p).say p .keyUpdated) := by
  obtain ⟨k, hk⟩ := Option.ne_none_iff_exists'.1 hs
  constructor
  · refine (ok_mgmt_heard h _).trans ?_
    simp only [hk]
  · refine (ok_mgmt_heard h _).trans ?_
    simp only [hk]

theorem completes_heartbeat_of_no_session (hs : p.sess = none) : Completes (.heartbeat p) s ((s.m.heard p).say p .spdmError) ∧
    Completes (.keyUpdate p) s ((s.m.heard p).say p .spdmError) := by
  constructor
  · refine (ok_mgmt_heard h _).trans ?_
    simp only [hs]
  · refine (ok_mgmt_heard h _).trans ?_
    simp only [hs]

theorem completes_getCertificate {slot off len : Nat} : Completes (.getCertificate p slot off len) s ((s.m.heard p).say p
    (if slot = 0 ∧ off < Config.certificateLen then .certificate off ((certificateChain.drop off).take len) else .spdmError)) := by
  refine (ok_mgmt_heard h _).trans ?_
  simp only [Bool.and_eq_true, decide_eq_true_iff, apply_ite ((s.m.heard p).say p)]

theorem completes_getMeasurements_of_none {index nonce : Nat} {signed : Bool} (hb : s.measurementBlocks index = none) :
    Completes (.getMeasurements p index signed nonce) s ((s.m.heard p).say p .spdmError) := by
  refine (ok_mgmt_heard h _).trans ?_
  simp only [hb]

theorem completes_getMeasurements_unsigned {index nonce : Nat} {bs : List MeasBlock} (hb : s.measurementBlocks index = some bs) :
    Completes (.getMeasurements p index false nonce) s ((s.m.heard p).say p (.measurements bs none)) := by
  refine (ok_mgmt_heard h _).trans ?_
  simp only [hb, Bool.false_eq_true, if_false]

theorem completes_getMeasurements_signed {index nonce : Nat} {bs : List MeasBlock} (hb : s.measurementBlocks index = some bs) :
    Completes (.getMeasurements p index true nonce) s
      ({ (s.m.heard p) with free := (s.m.heard p).free + 1 }.say p (.measurements bs (some (leNat ((List.range 96).map
        (Config.sign (leBytes 32 nonce ++ bs.flatMap (fun (b : MeasBlock) => leBytes 1 b.index ++ leBytes 48 b.value)) (s.m.heard p).free)))))) := by
  refine (ok_mgmt_heard h _).trans ?_
  simp only [hb, if_true, Mach.signed, Mach.fresh]

/-- The blocks that an unsigned GET_MEASUREMENTS returns, by its index. -/
theorem completes_getMeasurements_by_index {index nonce : Nat} : Completes (.getMeasurements p index false nonce) s ((s.m.heard p).say p
    (if index = 0 then .measurements [{ index := 0, kind := none, value := 11 }] none
     else if index = 255 then .measurements ((List.range 11).map (fun k =>
       { index := k + 1, kind := some (measKind (k + 1)), value := leNat (s.measurement (k + 1)) })) none
     else if index ≤ 11 then .measurements [{ index := index, kind := some (measKind index), value := leNat (s.measurement index) }] none
     else .spdmError)) := by
  split_ifs with h0 h255 h11
  · exact completes_getMeasurements_unsigned h (if_pos h0)
  · exact completes_getMeasurements_unsigned h ((if_neg h0).trans (if_pos h255))
  · exact completes_getMeasurements_unsigned h ((if_neg h0).trans ((if_neg h255).trans (if_pos h11)))
  · exact completes_getMeasurements_of_none h ((if_neg h0).trans ((if_neg h255).trans (if_neg h11)))

theorem completes_challenge_of_chain {nonce : Nat} : Completes (.challenge p 0 nonce) s
    ({ (s.m.heard p) with free := (s.m.heard p).free + 2 }.say p (.challenge (Config.random (s.m.heard p).free)
      (leNat ((List.range 96).map (Config.sign (leBytes 32 nonce ++ leBytes 32 (Config.random (s.m.heard p).free))
        ((s.m.heard p).free + 1)))))) :=
  ok_mgmt_heard h _

theorem completes_challenge_of_other {slot nonce : Nat} (hs : slot ≠ 0) :
    Completes (.challenge p slot nonce) s ((s.m.heard p).say p .spdmError) := by
  refine (ok_mgmt_heard h _).trans ?_
  simp only [bne_iff_ne.2 hs, if_true]

end Answers

/-- Settles O52: every request is one `mgmt`, so its answer is its action's on the machine that has heard it. -/
theorem spdmResponderAnswersWithoutChangingTheModule : Obligations.SpdmResponderAnswersWithoutChangingTheModule := by
  refine ⟨fun s p h => ⟨ok_mgmt_heard h _, ok_mgmt_heard h _, ok_mgmt_heard h _, completes_heartbeat_of_session h, fun o => ok_mgmt_heard h _,
    fun slot off len => completes_getCertificate h, fun index nonce => completes_getMeasurements_by_index h,
    fun index nonce bs => completes_getMeasurements_signed h, fun index nonce => completes_getMeasurements_of_none h,
    completes_heartbeat_of_no_session h, fun nonce => completes_challenge_of_chain h, fun slot nonce => completes_challenge_of_other h⟩,
    fun s p o a b n f c h hc => ?unheard,
    fun m p => ⟨Mach.unheard_of_silent, Mach.unheard_of_answered, Mach.mgmtHeard_of_no_session, fun k hr hv => Mach.mgmtHeard_iff hr hv⟩,
    fun s p => rfl⟩
  case unheard =>
    simp only [List.mem_cons, List.not_mem_nil, or_false] at hc
    obtain rfl | rfl | rfl | rfl | rfl | rfl | rfl | rfl | rfl := hc <;> exact ok_mgmt_unheard h _

end Sys2Proof.Machine
end

section
/-! Sessions: their opening, their end, grants and busy transports (R417 to R423). -/

namespace Sys2Proof.Machine

/-! ### KEY_EXCHANGE -/

section Exchange
variable {m : Mach} {p : Path} {x : KeyExchange}

theorem Mach.keyExchange_of_busy (h : m.authBusy p.via = true ∨ m.freeSession = none) : m.keyExchange p x = m.say p .busy := by
  obtain h | h := h
  · exact if_pos h
  · simp only [Mach.keyExchange, h, ite_self]

variable {k : Nat} (hb : m.authBusy p.via = false) (hk : m.freeSession = some k)
include hb hk

theorem Mach.keyExchange_of_failed (ha : x.mutualAuth = true) (hg : x.mutualOk = false) :
    m.keyExchange p x = (m.authFail p.via).say p .spdmError := by
  simp only [Mach.keyExchange, hb, hk, ha, hg, Bool.not_false, Bool.and_self, Bool.false_eq_true, if_false, if_true]

/-- The session of one without mutual authentication is open at once, with no role. -/
theorem Mach.keyExchange_of_plain (ha : x.mutualAuth = false) {y : Session}
    (hy : y = { via := p.via, role := .none, keySlot := none, mutualAuth := false, done := true,
                keyHash := slice x.keyHash 0 48, last := m.clk }) :
    m.keyExchange p x = (((List.range 16).foldl (fun (a : Mach) (v : Nat) => a.clearIndexes (32 + 16 * k + v))
      { m with rol := { m.rol with sessions := Tbl.set m.rol.sessions k y } }).sessionOpened k y).say p (.keyExchange k) := by
  subst hy
  simp only [Mach.keyExchange, hb, hk, ha, Bool.not_false, Bool.false_and, Bool.false_eq_true, if_false]

/-- That of one whose mutual authentication holds takes the role of its key, and waits for FINISH. -/
theorem Mach.keyExchange_of_mutual (ha : x.mutualAuth = true) (hg : x.mutualOk = true) {y : Session}
    (hy : y = { via := p.via, role := (m.keyRole (slice x.keyHash 0 48)).1, keySlot := (m.keyRole (slice x.keyHash 0 48)).2,
                mutualAuth := true, done := false, keyHash := slice x.keyHash 0 48, last := m.clk }) :
    m.keyExchange p x = ((List.range 16).foldl (fun (a : Mach) (v : Nat) => a.clearIndexes (32 + 16 * k + v))
      { m with rol := { m.rol with sessions := Tbl.set m.rol.sessions k y } }).say p (.keyExchange k) := by
  subst hy
  simp only [Mach.keyExchange, hb, hk, ha, hg, Bool.not_true, Bool.and_false, Bool.false_eq_true, if_false, if_true]

end Exchange

/-! ### FINISH -/

section Finish
variable {m : Mach} {p : Path} {k : Nat} {good : Bool}

theorem Mach.finish_of_none (hf : Tbl.find m.rol.sessions k = none) : m.finish p k good = m.say p .spdmError := by
  simp only [Mach.finish, hf]

variable {x : Session} (hf : Tbl.find m.rol.sessions k = some x)
include hf

theorem Mach.finish_of_foreign (h : x.via ≠ p.via ∨ (x.mutualAuth = true ∧ x.done = true)) : m.finish p k good = m.say p .spdmError := by
  simp only [Mach.finish, hf]
  exact if_pos (by simpa using h)

variable (hv : x.via = p.via)
include hv

theorem Mach.finish_of_plain (ha : x.mutualAuth = false) : m.finish p k good = m.say p (.finished .none) := by
  simp only [Mach.finish, hf]
  exact (if_neg (by simp [hv, ha])).trans (if_pos (by simp [ha]))

theorem Mach.finish_of_mutual (ha : x.mutualAuth = true) (hd : x.done = false) : m.finish p k good =
    if good then
      ({ m with rol := { m.rol with sessions := Tbl.set m.rol.sessions k { x with done := true, last := m.clk } } }.sessionOpened k
        { x with done := true, last := m.clk }).say p (.finished x.role)
    else ({ m with rol := { m.rol with sessions := Tbl.del m.rol.sessions k } }.authFail p.via).say p .spdmError := by
  simp only [Mach.finish, hf]
  exact (if_neg (by simp [hv, hd])).trans (if_neg (by simp [ha]))

end Finish

/-! ### Sessions, grants and busy periods that end -/

section Ends
variable {s : State}

theorem completes_endSession_of_session {p : Path} {k : Fin 16} (h : s.m.mgmtHeard p = true) (hs : p.sess = some k) :
    Completes (.endSession p) s (((s.m.heard p).say p .sessionEnded).closeSession k 0) := by
  refine (ok_mgmt_heard h _).trans ?_
  simp only [hs]

theorem completes_endSession_of_none {p : Path} (h : s.m.mgmtHeard p = true) (hs : p.sess = none) :
    Completes (.endSession p) s ((s.m.heard p).say p .spdmError) := by
  refine (ok_mgmt_heard h _).trans ?_
  simp only [hs]

theorem completes_sessionIdleTimeout (k : Fin 16) : Completes (.sessionIdleTimeout k) s ((Tbl.find s.m.rol.sessions k).elim s.m
    (fun x => (s.m.elapseTo (x.last + s.m.sessIdle)).closeSession k 1)) := by
  change execSessionIdleTimeout k s = _
  unfold execSessionIdleTimeout
  cases Tbl.find s.m.rol.sessions k <;> rfl

theorem completes_grantExpiry (slot : Slot) : Completes (.grantExpiry slot) s ((Tbl.find s.m.rol.grants slot).elim s.m
    (fun g => (s.m.elapseTo g.ends).endGrant slot 1)) := by
  change execGrantExpiry slot s = _
  unfold execGrantExpiry
  cases Tbl.find s.m.rol.grants slot <;> rfl

theorem completes_authBusyEnd (t : Transport) : Completes (.authBusyEnd t) s ((Tbl.find s.m.rol.busy (transportKey t)).elim s.m
    (fun e => { (s.m.elapseTo e) with rol := { (s.m.elapseTo e).rol with
      busy := Tbl.del (s.m.elapseTo e).rol.busy (transportKey t) } })) := by
  change execAuthBusyEnd t s = _
  unfold execAuthBusyEnd
  cases Tbl.find s.m.rol.busy (transportKey t) <;> rfl

end Ends

/-- Settles O53: KEY_EXCHANGE and FINISH by their outcomes on the machine that has heard the message, the ends by their tables. -/
theorem sessionsOpenAndEnd : Obligations.SessionsOpenAndEnd := by
  refine ⟨fun s p x k h hb hk => ⟨fun ha => ?plain, fun ha hg => ?signed, fun ha hg => ?failed⟩, fun s p x h hb => ?busy,
    fun s p k x h hf hv ha hd => ⟨?good, ?bad⟩, fun s p k h hs => completes_endSession_of_session h hs,
    fun s p k good h => ⟨fun hf => ?gone, fun x hf => ⟨fun hx => ?foreign, fun hv ha => ?noAuth⟩, completes_endSession_of_none h⟩,
    fun s p x k good h => ⟨ok_mgmt_unheard h _, ok_mgmt_unheard h _, ok_mgmt_unheard h _⟩, fun s k slot t => ?none, fun s k x hx => ?idle,
    fun s slot g hg => ?grant, fun s t e he => ?ready⟩
  case plain => exact (ok_mgmt_heard h _).trans (by rw [Mach.keyExchange_of_plain hb hk ha rfl])
  case signed => exact (ok_mgmt_heard h _).trans (by rw [Mach.keyExchange_of_mutual hb hk ha hg rfl])
  case failed => exact (ok_mgmt_heard h _).trans (by rw [Mach.keyExchange_of_failed hb hk ha hg])
  case busy => exact (ok_mgmt_heard h _).trans (by rw [Mach.keyExchange_of_busy hb])
  case good => exact (ok_mgmt_heard h _).trans (by rw [Mach.finish_of_mutual hf hv ha hd, if_pos rfl])
  case bad => exact (ok_mgmt_heard h _).trans (by rw [Mach.finish_of_mutual hf hv ha hd, if_neg (by decide)])
  case gone => exact (ok_mgmt_heard h _).trans (by rw [Mach.finish_of_none hf])
  case foreign => exact (ok_mgmt_heard h _).trans (by rw [Mach.finish_of_foreign hf hx])
  case noAuth => exact (ok_mgmt_heard h _).trans (by rw [Mach.finish_of_plain hf hv ha])
  case none =>
    refine ⟨fun h => ?_, fun h => ?_, fun h => ?_⟩
    · simpa only [h, Option.elim_none] using completes_sessionIdleTimeout (s := s) k
    · simpa only [h, Option.elim_none] using completes_grantExpiry (s := s) slot
    · simpa only [h, Option.elim_none] using completes_authBusyEnd (s := s) t
  case idle => simpa only [hx, Option.elim_some] using completes_sessionIdleTimeout (s := s) k
  case grant => simpa only [hg, Option.elim_some] using completes_grantExpiry (s := s) slot
  case ready => simpa only [he, Option.elim_some] using completes_authBusyEnd (s := s) t

end Sys2Proof.Machine
end

section
/-! The commands that need a role (R419 to R425, R435), and JTAG. -/

namespace Sys2Proof.Machine

/-! ### A role command, by what becomes of it -/

section Command
variable {m : Mach} {p : Path} {cmd : Nat} {need : Role} {act : Mach → Mach}

theorem Mach.roleCmd_of_lower (h : m.mgmtHeard p = true) (hr : ((m.heard p).pathRole p).covers need = false) :
    m.roleCmd p cmd need act = (m.heard p).refuseCmd p cmd 1 := by
  simp only [Mach.roleCmd, Mach.mgmt_heard h, hr, Bool.not_false, if_true]

theorem Mach.roleCmd_of_lockout (h : m.mgmtHeard p = true) (hr : ((m.heard p).pathRole p).covers need = true)
    (hm : (m.heard p).mode = .lockout) : m.roleCmd p cmd need act = (m.heard p).refuseCmd p cmd 3 := by
  simp only [Mach.roleCmd, Mach.mgmt_heard h, hr, hm, Bool.not_true, Bool.false_eq_true, if_false, if_true]

theorem Mach.roleCmd_of_unheard (h : m.mgmtHeard p = false) : m.roleCmd p cmd need act = m.unheard p := Mach.mgmt_unheard h _

end Command

/-! ### WAKE -/

section Wake
variable {m : Mach} {p : Path} {meet : ModeMeet} (h : m.commands p .operator = true)
include h

theorem Mach.wake_of_busy (hb : (m.heard p).modeBusy 2 meet = true) :
    m.wake p meet = ((m.heard p).refuseMode ((m.heard p).pathRole p) 2 2).refuseCmd p 0x22 3 := by
  rw [Mach.wake, Mach.roleCmd_may h, if_pos hb]

variable (hb : (m.heard p).modeBusy 2 meet = false)
include hb

theorem Mach.wake_of_dormant (hm : (m.heard p).mode = .dormant) :
    m.wake p meet = ((m.heard p).wakeAll.measureSettings.enterConfig 0).say p (.code 0) := by
  rw [Mach.wake, Mach.roleCmd_may h, if_neg (by simp [hb]), if_pos hm]

theorem Mach.wake_of_other (hm : (m.heard p).mode ≠ .dormant) :
    m.wake p meet = ((m.heard p).refuseMode ((m.heard p).pathRole p) 2 1).refuseCmd p 0x22 3 := by
  rw [Mach.wake, Mach.roleCmd_may h, if_neg (by simp [hb]), if_neg hm]

end Wake

/-! ### ROLE_GRANT and ROLE_DROP -/

/-- A transport over which a command may name a slot: MCTP any, a DOE mailbox its own. -/
def mayName (t : Transport) (slot : Nat) : Bool :=
  match t with | .doe s => decide (s.val = slot) | .i3c => true | .smbus => true

theorem mayName_of_mctp {t : Transport} (h : t = .i3c ∨ t = .smbus) (slot : Nat) : mayName t slot = true := by
  obtain rfl | rfl := h <;> rfl

theorem not_mayName_of_doe {t : Slot} {slot : Nat} (h : t.val ≠ slot) : mayName (.doe t) slot = false :=
  decide_eq_false h

section Grant
variable {m : Mach} {p : Path} {slot minutes : Nat} (h : m.commands p .installer = true)
include h

theorem Mach.roleGrant_of_range (hx : 16 ≤ slot ∨ minutes = 0 ∨ (m.heard p).grantMax < minutes ∨ (m.heard p).slotPresent slot = false) :
    m.roleGrant p slot minutes = (m.heard p).refuseCmd p 0x30 2 := by
  rw [Mach.roleGrant, Mach.roleCmd_may h]
  exact if_pos (by simpa [or_assoc] using hx)

variable (hs : slot < 16) (h1 : 1 ≤ minutes) (hx : minutes ≤ (m.heard p).grantMax) (hp : (m.heard p).slotPresent slot = true)
include hs h1 hx hp

/-- Within its ranges, ROLE_GRANT is refused for a mailbox of another slot, and for a fifth grant. -/
theorem Mach.roleGrant_in_range {k : Nat} (hk : k = p.sess.elim 0 (·.val)) {u v : Mach} (hu : u = (m.heard p).recordCmd p 0x30)
    {g : Grant} (hg : g = { sess := k, role := (m.heard p).pathRole p, ends := (m.heard p).clk + minutes * 60 * Config.secCycles })
    (hv : v = { u with rol := { u.rol with grants := Tbl.set u.rol.grants slot g } }) :
    m.roleGrant p slot minutes = if !mayName p.via slot then (m.heard p).refuseCmd p 0x30 1
      else if (Tbl.find (m.heard p).rol.grants slot).isNone && 4 ≤ (m.heard p).rol.grants.length then (m.heard p).refuseCmd p 0x30 3
      else (((v.bump Reg.ROL.GRANTS).record 0x9012 5 [slot, k, minutes] ((m.heard p).pathRole p)).say p (.code 0)) := by
  have session : k = match p.sess with | some k => k.val | none => 0 := by
    rw [hk]
    cases p.sess <;> rfl
  have inRange : ¬ (16 ≤ slot || minutes < 1 || (m.heard p).grantMax < minutes || !(m.heard p).slotPresent slot) = true := by
    simp only [hp, Bool.or_eq_true, decide_eq_true_iff, Bool.not_true, Bool.false_eq_true, or_false]
    omega
  subst hv hg hu session
  rw [Mach.roleGrant, Mach.roleCmd_may h]
  exact if_neg inRange

end Grant

section Drop
variable {m : Mach} {p : Path} {slot : Nat} (hs : slot < 16)
include hs

theorem Mach.roleDropMsg_of_grant {g : Grant} (hg : Tbl.find m.rol.grants slot = some g) (h : m.commands p g.role = true) :
    m.roleDropMsg p slot =
      ((if g.role.covers .installer then (m.heard p).recordCmd p 0x31 else m.heard p).endGrant slot 0).say p (.code 0) := by
  simp only [Mach.roleDropMsg, hg, Mach.roleCmd_may h]
  exact if_neg (Nat.not_le.2 hs)

theorem Mach.roleDropMsg_of_none (hg : Tbl.find m.rol.grants slot = none) (h : m.commands p .none = true) :
    m.roleDropMsg p slot = ((m.heard p).endGrant slot 0).say p (.code 0) := by
  simp only [Mach.roleDropMsg, hg, Mach.roleCmd_may h]
  exact if_neg (Nat.not_le.2 hs)

end Drop

theorem Mach.roleDropMsg_of_unheard {m : Mach} {p : Path} {slot : Nat} (h : m.mgmtHeard p = false) :
    m.roleDropMsg p slot = m.unheard p := by
  unfold Mach.roleDropMsg
  exact Mach.roleCmd_of_unheard h

/-! ### Keys, CLAIM and RELEASE -/

section Keys
variable {m : Mach} {p : Path} {slot : Nat} {hash : List Byte} (h : m.commands p .installer = true)
include h

theorem Mach.keyEnrol_may : m.keyEnrol p slot hash = if 12 ≤ slot then (m.heard p).refuseCmd p 0x40 2 else
    (({ ((m.heard p).recordCmd p 0x40) with rol := { ((m.heard p).recordCmd p 0x40).rol with keys :=
        (Tbl.set ((m.heard p).recordCmd p 0x40).rol.keys slot (slice hash 0 48)) } }.record 0x9020 5
      [slot, leNat (slice hash 0 48)] (((m.heard p).recordCmd p 0x40).pathRole p)).say p (.code 0)) :=
  Mach.roleCmd_may h _ _

theorem Mach.keyRemove_may : m.keyRemove p slot = if 12 ≤ slot then (m.heard p).refuseCmd p 0x41 2 else
    ((((m.heard p).recordCmd p 0x41).rol.sessions.filter (fun (x : Nat × Session) => x.2.keySlot == some slot)).map (·.1)).foldl
      (fun (a : Mach) (k : Nat) => a.closeSession k 4)
      (({ ((m.heard p).recordCmd p 0x41) with rol := { ((m.heard p).recordCmd p 0x41).rol with keys :=
          (Tbl.del ((m.heard p).recordCmd p 0x41).rol.keys slot) } }.record 0x9021 5
        [slot, leNat (Tbl.get (m.heard p).rol.keys slot [])] ((m.heard p).pathRole p)).say p (.code 0)) :=
  Mach.roleCmd_may h _ _

end Keys

section Claim
variable {m : Mach} {p : Path} (h : m.commands p .none = true)
include h

theorem Mach.claim_of_no_session (hs : p.sess = none) : m.claim p = (m.heard p).refuseCmd p 0x42 1 := by
  simp only [Mach.claim, Mach.roleCmd_may h, hs]

variable {k : Fin 16} {x : Session} (hs : p.sess = some k) (hf : Tbl.find (m.heard p).rol.sessions k = some x)
include hs hf

theorem Mach.claim_of_unfit (hx : (∃ t, p.via = .doe t) ∨ x.mutualAuth = false ∨ x.done = false) :
    m.claim p = (m.heard p).refuseCmd p 0x42 1 := by
  simp only [Mach.claim, Mach.roleCmd_may h, hs, hf]
  refine if_pos ?_
  obtain ⟨t, ht⟩ | hx | hx := hx
  · simp [ht]
  · simp [hx]
  · simp [hx]

variable (hv : p.via = .i3c ∨ p.via = .smbus) (ha : x.mutualAuth = true) (hd : x.done = true)
include hv ha hd

theorem Mach.claim_of_fit {role : Role} (hr : role = if x.role = Role.maker then .maker else .installer) : m.claim p =
    if (m.heard p).rol.claimed then (m.heard p).refuseCmd p 0x42 3 else
      ({ (m.heard p) with rol := { (m.heard p).rol with
          keys := Tbl.set (m.heard p).rol.keys 0 x.keyHash, claimed := true
          sessions := Tbl.set (m.heard p).rol.sessions k { x with
            role := role, keySlot := if x.role = Role.maker then x.keySlot else some 0 } } }.record 0x9030 5 [k.val] role).say p (.code 0) := by
  have raised : (if x.role.covers .installer then x.role else .installer) = role := by
    rw [hr]
    cases x.role <;> rfl
  simp only [Mach.claim, Mach.roleCmd_may h, hs, hf, raised]
  refine if_neg ?_
  obtain hv | hv := hv <;> simp [hv, ha, hd]

end Claim

/-! ### The register's ROLE_DROP -/

theorem completes_roleDrop_register {s : State} {r : Requester} {i : Nat} (h : s.m.passes r Reg.ROL.ROLE_DROP i = true) :
    Completes (.roleDrop (.register r)) s ((s.m.reach r Reg.ROL.ROLE_DROP).endGrant r.slotOf 0) := by
  refine congrArg (ok s) ((Mach.action_passes h 1 (fun m _ => m.endGrant r.slotOf 0)).trans ?_)
  rw [Mach.acted_plain (by decide) (by decide)]

/-! ### Any of the role commands -/

/-- A command of a path, its code and the role it needs (Table 18-5); WAKE and ROLE_DROP stand apart. -/
def RoleCommand (p : Path) (c : Instr) (cmd : Nat) (need : Role) : Prop :=
  ∃ act : State → Mach → Mach, ∀ s, exec c s = ok s (s.m.roleCmd p cmd need (act s))

section Refused
variable {s : State} {p : Path} {c : Instr} {cmd : Nat} {need : Role} (hc : RoleCommand p c cmd need)
include hc

theorem RoleCommand.completes_of_lower (h : s.m.mgmtHeard p = true) (hr : ((s.m.heard p).pathRole p).covers need = false) :
    Completes c s ((s.m.heard p).refuseCmd p cmd 1) := by
  obtain ⟨act, hact⟩ := hc
  exact (hact s).trans (congrArg (ok s) (Mach.roleCmd_of_lower h hr))

theorem RoleCommand.completes_of_lockout (h : s.m.mgmtHeard p = true) (hr : ((s.m.heard p).pathRole p).covers need = true)
    (hm : (s.m.heard p).mode = .lockout) : Completes c s ((s.m.heard p).refuseCmd p cmd 3) := by
  obtain ⟨act, hact⟩ := hc
  exact (hact s).trans (congrArg (ok s) (Mach.roleCmd_of_lockout h hr hm))

theorem RoleCommand.completes_of_unheard (h : s.m.mgmtHeard p = false) : Completes c s (s.m.unheard p) := by
  obtain ⟨act, hact⟩ := hc
  exact (hact s).trans (ok_mgmt_unheard h _)

end Refused

theorem roleCommand_roleGrant (p : Path) (slot n : Nat) : RoleCommand p (.roleGrant p slot n) 0x30 .installer := ⟨_, fun _ => rfl⟩
theorem roleCommand_keyEnrol (p : Path) (slot : Nat) (hash : List Byte) : RoleCommand p (.keyEnrol p slot hash) 0x40 .installer :=
  ⟨_, fun _ => rfl⟩
theorem roleCommand_keyRemove (p : Path) (slot : Nat) : RoleCommand p (.keyRemove p slot) 0x41 .installer := ⟨_, fun _ => rfl⟩
theorem roleCommand_claim (p : Path) : RoleCommand p (.claim p) 0x42 .none := ⟨_, fun _ => rfl⟩
theorem roleCommand_release (p : Path) : RoleCommand p (.release p) 0x43 .maker := ⟨_, fun _ => rfl⟩
theorem roleCommand_jtagUnlock (p : Path) (unlock : Bool) : RoleCommand p (.jtagUnlock p unlock) 0x50 .maker := ⟨_, fun _ => rfl⟩

theorem wake_eq (s : State) (p : Path) (meet : ModeMeet) : exec (.wake p meet) s = okFlt s (s.m.wake p meet) := rfl

/-- Settles O54: each command by what `roleCmd` lets it do on the machine that has heard it, and its own ranges. -/
theorem roleCommandsDoAsTheyAreGrantedAndAreRefusedInLockout : Obligations.RoleCommandsDoAsTheyAreGrantedAndAreRefusedInLockout := by
  refine ⟨?wake, ?grant, fun s p slot g hg h hs => congrArg (ok s) (Mach.roleDropMsg_of_grant hs hg h),
    fun s r i h => completes_roleDrop_register h, ?keys, ?claim, ?release, ?refused, ?ranges, ?claimRefused, ?wakeRefused, ?unheard,
    ?wakeBarred, ?jtag⟩
  case wake =>
    intro s p h hm hl
    have free : (s.m.heard p).modeBusy 2 .alone = false := by simp [Mach.modeBusy, hl]
    rw [wake_eq, Mach.wake_of_dormant h free hm]
  case grant =>
    intro s p k slot minutes h hs hv hlt h1 hx hp hg
    have room : ((Tbl.find (s.m.heard p).rol.grants slot).isNone && 4 ≤ (s.m.heard p).rol.grants.length) = false := by
      obtain hg | hg := hg
      · simp [hg]
      · simp [hg]
    have grants := Mach.roleGrant_in_range h hlt h1 hx hp (k := k) (by simp [hs]) rfl rfl rfl
    rw [if_neg (by simp [mayName_of_mctp hv]), if_neg (by simp [room])] at grants
    exact congrArg (ok s) grants
  case keys =>
    intro s p slot hash h hlt
    exact ⟨congrArg (ok s) ((Mach.keyEnrol_may h).trans (if_neg (Nat.not_le.2 hlt))),
      congrArg (ok s) ((Mach.keyRemove_may h).trans (if_neg (Nat.not_le.2 hlt)))⟩
  case claim =>
    intro s p k x h hs hv hf ha hd hc
    exact congrArg (ok s) ((Mach.claim_of_fit h hs hf hv ha hd rfl).trans (if_neg (by simp [hc])))
  case release =>
    intro s p h
    refine ⟨congrArg (ok s) (Mach.roleCmd_may h _ _), fun k hs => congrArg (ok s) ((Mach.roleCmd_may h _ _).trans ?_),
      congrArg (ok s) (Mach.roleCmd_may h _ _)⟩
    simp only [hs, if_true]
  case refused =>
    rintro s p c cmd need h hc
    have command : RoleCommand p c cmd need := by
      obtain ⟨slot, n, rfl, rfl, rfl⟩ | ⟨slot, n, rfl, rfl, rfl⟩ | ⟨slot, rfl, rfl, rfl⟩ | ⟨rfl, rfl, rfl⟩ | ⟨rfl, rfl, rfl⟩ |
        ⟨b, rfl, rfl, rfl⟩ := hc
      · exact roleCommand_roleGrant p slot n
      · exact roleCommand_keyEnrol p slot n
      · exact roleCommand_keyRemove p slot
      · exact roleCommand_claim p
      · exact roleCommand_release p
      · exact roleCommand_jtagUnlock p b
    exact ⟨command.completes_of_lower h, command.completes_of_lockout h⟩
  case ranges =>
    intro s p slot n hash
    refine ⟨fun h => ⟨fun hx => congrArg (ok s) (Mach.roleGrant_of_range h hx), fun t hlt h1 hx hp hv ht => ?_,
      fun hlt h1 hx hp hv hg hl => ?_, fun hge => ⟨?_, ?_⟩⟩, fun h hg hlt => congrArg (ok s) (Mach.roleDropMsg_of_none hlt hg h)⟩
    · have grants := Mach.roleGrant_in_range h hlt h1 hx hp rfl rfl rfl rfl
      rw [if_pos (by simp [hv, not_mayName_of_doe ht])] at grants
      exact congrArg (ok s) grants
    · have grants := Mach.roleGrant_in_range h hlt h1 hx hp rfl rfl rfl rfl
      rw [if_neg (by simp [mayName_of_mctp hv]), if_pos (by simp [hg, hl])] at grants
      exact congrArg (ok s) grants
    · exact congrArg (ok s) ((Mach.keyEnrol_may h).trans (if_pos hge))
    · exact congrArg (ok s) ((Mach.keyRemove_may h).trans (if_pos hge))
  case claimRefused =>
    intro s p k x h
    exact ⟨fun hs => congrArg (ok s) (Mach.claim_of_no_session h hs), fun hs hf =>
      ⟨fun hx => congrArg (ok s) (Mach.claim_of_unfit h hs hf hx), fun hv ha hd hc =>
        congrArg (ok s) ((Mach.claim_of_fit h hs hf hv ha hd rfl).trans (if_pos hc))⟩⟩
  case wakeRefused =>
    intro s p meet h
    exact ⟨fun hb => congrArg (okFlt s) (Mach.wake_of_busy h hb), fun hb hm => congrArg (okFlt s) (Mach.wake_of_other h hb hm)⟩
  case unheard =>
    intro s p a n hash f meet c h
    refine ⟨congrArg (okFlt s) (by rw [Mach.wake, Mach.roleCmd_of_unheard h]), fun hc => ?_⟩
    simp only [List.mem_cons, List.not_mem_nil, or_false] at hc
    obtain rfl | rfl | rfl | rfl | rfl | rfl | rfl := hc
    · exact (roleCommand_roleGrant p a n).completes_of_unheard h
    · exact congrArg (ok s) (Mach.roleDropMsg_of_unheard h)
    · exact (roleCommand_keyEnrol p a hash).completes_of_unheard h
    · exact (roleCommand_keyRemove p a).completes_of_unheard h
    · exact (roleCommand_claim p).completes_of_unheard h
    · exact (roleCommand_release p).completes_of_unheard h
    · exact (roleCommand_jtagUnlock p f).completes_of_unheard h
  case wakeBarred =>
    intro s p meet h
    exact ⟨fun hr => congrArg (okFlt s) (Mach.roleCmd_of_lower h hr), fun hr hm => congrArg (okFlt s) (Mach.roleCmd_of_lockout h hr hm)⟩
  case jtag =>
    refine fun s => ⟨rfl, rfl, fun code => congrArg (ok s) ?_⟩
    cases h : s.m.rol.jtag <;> simp

end Sys2Proof.Machine
end

section
/-! Registers, the recorder and firmware by management messages (R368, R412, R435, R459). -/

namespace Sys2Proof.Machine

/-! ### REG_READ and REG_WRITE -/

section Registers
variable {s : State} {p : Path} {view count off : Nat} {v : Word} (h : s.m.mgmtHeard p = true)
include h

theorem completes_regRead_of_lower (hr : ((s.m.heard p).pathRole p).covers .operator = false) :
    Completes (.regRead p view count off) s ((s.m.heard p).refuseCmd p 0x20 1) := by
  refine (ok_mgmt_heard h _).trans ?_
  rw [if_pos (by simp [hr])]

/-- A REG_WRITE that is taken up writes on the machine that has heard it. -/
theorem regWrite_heard : exec (.regWrite p view off v) s =
    if !((s.m.heard p).pathRole p).covers .operator then ok s ((s.m.heard p).refuseCmd p 0x21 1)
    else if 16 ≤ view || off % 4 != 0 || 0x120000 ≤ off then ok s ((s.m.heard p).refuseCmd p 0x21 2)
    else if (s.m.heard p).mode = .lockout then ok s ((s.m.heard p).refuseCmd p 0x21 3)
    else
      let w := State.regWrite { s with m := s.m.heard p } (.session p.sess (Fin.ofNat 16 view)) off v.toNat
      ok w.1 (w.1.m.say p (.partial_ 0 (w.2 != 0))) := by
  change execRegWrite p view off v s = _
  simp only [execRegWrite, Mach.mgmt_heard h, h, viewer, Bool.not_true, Bool.false_eq_true, if_false]

theorem completes_regWrite_of_lower (hr : ((s.m.heard p).pathRole p).covers .operator = false) :
    Completes (.regWrite p view off v) s ((s.m.heard p).refuseCmd p 0x21 1) :=
  (regWrite_heard h).trans (if_pos (by simp [hr]))

variable (hr : ((s.m.heard p).pathRole p).covers .operator = true)
include hr

theorem completes_regRead_of_range (hx : 16 ≤ view ∨ count = 0 ∨ 16 < count ∨ off % 4 ≠ 0 ∨ 0x120000 < off + 4 * count) :
    Completes (.regRead p view count off) s ((s.m.heard p).refuseCmd p 0x20 2) := by
  refine (ok_mgmt_heard h _).trans ?_
  rw [if_neg (by simp [hr]), if_pos (by simpa [or_assoc] using hx)]

theorem completes_regRead_in_range (hv : view < 16) (h1 : 1 ≤ count) (h16 : count ≤ 16) (ha : off % 4 = 0)
    (hx : off + 4 * count ≤ 0x120000) : Completes (.regRead p view count off) s
      ((Mach.readMany (.session p.sess (Fin.ofNat 16 view)) count off (s.m.heard p)).2.say p
        (.values (Mach.readMany (.session p.sess (Fin.ofNat 16 view)) count off (s.m.heard p)).1)) := by
  refine (ok_mgmt_heard h _).trans ?_
  rw [if_neg (by simp [hr]), if_neg]
  · rfl
  · simp only [Bool.or_eq_true, decide_eq_true_iff, bne_iff_ne]
    omega

theorem completes_regWrite_of_range (hx : 16 ≤ view ∨ off % 4 ≠ 0 ∨ 0x120000 ≤ off) :
    Completes (.regWrite p view off v) s ((s.m.heard p).refuseCmd p 0x21 2) :=
  (regWrite_heard h).trans ((if_neg (by simp [hr])).trans (if_pos (by simpa [or_assoc] using hx)))

variable (hv : view < 16) (ha : off % 4 = 0) (hx : off < 0x120000)
include hv ha hx

theorem regWrite_in_range : exec (.regWrite p view off v) s =
    if (s.m.heard p).mode = .lockout then ok s ((s.m.heard p).refuseCmd p 0x21 3)
    else
      let w := State.regWrite { s with m := s.m.heard p } (.session p.sess (Fin.ofNat 16 view)) off v.toNat
      ok w.1 (w.1.m.say p (.partial_ 0 (w.2 != 0))) := by
  refine (regWrite_heard h).trans ((if_neg (by simp [hr])).trans (if_neg ?_))
  simp only [Bool.or_eq_true, decide_eq_true_iff, bne_iff_ne]
  omega

end Registers

/-! ### LEDGER_READ and EVR_READ -/

section Recorder
variable {s : State} {p : Path} {u : Mach}

theorem completes_ledgerRead_of_range {first count : Nat} (h : s.m.mgmtHeard p = true)
    (hx : count = 0 ∨ 16 < count ∨ (s.m.heard p).evr.ledger ≤ first) :
    Completes (.ledgerRead p first count) s ((s.m.heard p).refuseCmd p 0x10 2) :=
  (ok_mgmt_heard h _).trans (congrArg (ok s) (if_pos (by simpa [or_assoc] using hx)))

theorem completes_ledgerRead_in_range {first count : Nat} (h : s.m.mgmtHeard p = true) (h1 : 1 ≤ count) (h16 : count ≤ 16)
    (hx : first < (s.m.heard p).evr.ledger) : Completes (.ledgerRead p first count) s ((s.m.heard p).say p
      (.ledger first (min count ((s.m.heard p).evr.ledger - first)) (s.m.heard p).evr.ledger
        ((List.range (min count ((s.m.heard p).evr.ledger - first))).flatMap (fun k => s.ledgerEntry (first + k))))) := by
  refine (ok_mgmt_heard h _).trans (congrArg (ok s) (if_neg ?_))
  simp only [Bool.or_eq_true, decide_eq_true_iff]
  omega

theorem Mach.recovery_of_heard {m : Mach} (h : m.mgmtHeard p = true) : m.boot.recovery = false := by
  simp only [Mach.mgmtHeard, Bool.and_eq_true, Bool.not_eq_true', Bool.or_eq_false_iff] at h
  obtain ⟨⟨hr, -⟩, -⟩ := h
  exact hr

variable {maxBytes fromSeq : Nat}

/-- EVR_READ acts in recovery too, there on the machine as it is. -/
theorem completes_evrRead (hu : (s.m.boot.recovery = true ∧ u = s.m) ∨ (s.m.mgmtHeard p = true ∧ u = s.m.heard p)) :
    Completes (.evrRead p maxBytes fromSeq) s (s.doEvrRead p maxBytes fromSeq u) := by
  obtain ⟨hr, rfl⟩ | ⟨h, rfl⟩ := hu
  · exact congrArg (ok s) (if_pos hr)
  · exact congrArg (ok s) ((if_neg (by simp [Mach.recovery_of_heard h])).trans (Mach.mgmt_heard h _))

theorem State.doEvrRead_of_lower (hr : (u.pathRole p).covers .operator = false) :
    s.doEvrRead p maxBytes fromSeq u = u.refuseCmd p 0x11 1 := if_pos (by simp [hr])

variable (hr : (u.pathRole p).covers .operator = true)
include hr

theorem State.doEvrRead_of_range (hx : maxBytes < 64 ∨ 4096 < maxBytes) : s.doEvrRead p maxBytes fromSeq u = u.refuseCmd p 0x11 2 :=
  (if_neg (by simp [hr])).trans (if_pos (by simpa using hx))

theorem State.doEvrRead_in_range (hlo : 64 ≤ maxBytes) (hhi : maxBytes ≤ 4096) : s.doEvrRead p maxBytes fromSeq u = u.say p
    (.records (s.recordsFrom s.m.evr.where_ fromSeq maxBytes [] false).2.2
      (s.recordsFrom s.m.evr.where_ fromSeq maxBytes [] false).2.1 u.evr.ringFirst
      (s.recordsFrom s.m.evr.where_ fromSeq maxBytes [] false).1) := by
  refine (if_neg (by simp [hr])).trans (if_neg ?_)
  simp only [Bool.or_eq_true, decide_eq_true_iff]
  omega

end Recorder

/-! ### Firmware -/

section Firmware
variable {s : State} {p : Path} {u : PldmUpdate} {b : BootIn}

theorem completes_pldmFirmwareUpdate_of_doe {t : Slot} (hv : p.via = .doe t) : Completes (.pldmFirmwareUpdate p u b) s s.m := by
  change execPldmFirmwareUpdate p u b s = _
  simp only [execPldmFirmwareUpdate, hv, ok]

theorem pldmFirmwareUpdate_of_mctp (hv : p.via = .i3c ∨ p.via = .smbus) : exec (.pldmFirmwareUpdate p u b) s =
    if u.complete = true ∧ u.activate = true ∧ s.m.mode ≠ .lockout then
      .next ({ s with m := { s.m with boot := { s.m.boot with prefSlot := u.slot } } }.moduleResets b 2)
    else ok s s.m := by
  change execPldmFirmwareUpdate p u b s = _
  obtain hv | hv := hv <;> simp only [execPldmFirmwareUpdate, hv, Bool.and_eq_true, bne_iff_ne, and_assoc]

end Firmware

/-- Settles O55: a message acts on the machine that has heard it, within its command's ranges. -/
theorem managementReachesRegistersRecorderAndFirmware : Obligations.ManagementReachesRegistersRecorderAndFirmware := by
  refine ⟨fun s p view count off h hr hv h1 h16 ha hx => completes_regRead_in_range h hr hv h1 h16 ha hx,
    fun s p view off v h hr hv ha hx => ?write, fun s p view count off v h => ?refused, fun s p a b c v h => ?unheard,
    fun s p first count maxBytes fromSeq u => ⟨completes_ledgerRead_of_range, fun hu => ?records⟩,
    fun s p first count h h1 h16 hx => completes_ledgerRead_in_range h h1 h16 hx, fun s p maxBytes fromSeq h hr hlo hhi => ?read,
    fun s p a b c hash f v => ⟨rfl, rfl, rfl, rfl, rfl, rfl, rfl, rfl, rfl, rfl, rfl, rfl, rfl, fun h => ok_mgmt_heard h _⟩,
    fun s p u b t hv => completes_pldmFirmwareUpdate_of_doe hv, fun s p u b hv => ?firmware, fun s a ha => ?address,
    fun s r i h => ?clear⟩
  case write =>
    have writes := regWrite_in_range (v := v) h hr hv ha hx
    exact ⟨fun hm => ⟨_, _, rfl, rfl, writes.trans (if_neg hm)⟩, fun hm => writes.trans (if_pos hm)⟩
  case refused =>
    exact ⟨fun hr => ⟨completes_regRead_of_lower h hr, completes_regWrite_of_lower h hr⟩,
      fun hr => ⟨completes_regRead_of_range h hr, completes_regWrite_of_range h hr⟩⟩
  case unheard =>
    refine ⟨ok_mgmt_unheard h _, ?_, ok_mgmt_unheard h _, ok_mgmt_unheard h _, fun hr => ?_⟩
    · exact (if_pos (by simp [h])).trans (ok_mgmt_unheard h _)
    · exact congrArg (ok s) ((if_neg (by simp [hr])).trans (Mach.mgmt_unheard h _))
  case records =>
    have reads : Completes (.evrRead p maxBytes fromSeq) s (s.doEvrRead p maxBytes fromSeq u) := completes_evrRead hu
    refine ⟨fun hr => ?_, fun hr hx => ?_, fun hr hlo hhi => ?_⟩
    · rwa [State.doEvrRead_of_lower hr] at reads
    · rwa [State.doEvrRead_of_range hr hx] at reads
    · rwa [State.doEvrRead_in_range hr hlo hhi] at reads
  case read =>
    have reads : Completes (.evrRead p maxBytes fromSeq) s _ := completes_evrRead (.inr ⟨h, rfl⟩)
    rwa [State.doEvrRead_in_range hr hlo hhi] at reads
  case firmware =>
    have updates := pldmFirmwareUpdate_of_mctp (s := s) (u := u) (b := b) hv
    refine ⟨fun hc ha hm => updates.trans (if_pos ⟨hc, ha, hm⟩), fun hx => updates.trans (if_neg ?_)⟩
    rintro ⟨hc, ha, hm⟩
    obtain hx | hx | hx := hx
    · simp [hc] at hx
    · simp [ha] at hx
    · exact hm hx
  case address =>
    change ok s _ = _
    rw [Nat.mod_eq_of_lt ha]
    rfl
  case clear =>
    refine congrArg (ok s) ((Mach.action_passes h 1 _).trans ?_)
    rw [Mach.acted_plain (by decide) (by decide)]

end Sys2Proof.Machine
end

section
/-! The performance counters: snapshots, wraps, interrupts and streams (R438 to R446). -/

namespace Sys2Proof.Machine

/-! ### Snapshots -/

theorem completes_armedSnapshot_of_none {s : State} (h : s.m.pmc.snapAt = none) : Completes .armedSnapshot s s.m := by
  change execArmedSnapshot s = _
  simp only [execArmedSnapshot, h, ok]

theorem completes_armedSnapshot_of_armed {s : State} {t : Nat} {u : Mach} (h : s.m.pmc.snapAt = some t)
    (hu : u = if s.m.hgt s.m.refQuad < t then s.m.elapseHgt s.m.refQuad (t - s.m.hgt s.m.refQuad) else s.m) :
    Completes .armedSnapshot s ({ u.snapAll with pmc := { u.pmc with snapAt := none } }.put Reg.PMC.SNAP_PENDING 0) := by
  subst hu
  change execArmedSnapshot s = _
  simp only [execArmedSnapshot, h, ok]

/-! ### Wraps and their interrupts -/

theorem Mach.pcOverflow_eq {m v : Mach} {b k c : Nat} (hv : v = m.put Reg.PMC.OVF (m.get Reg.PMC.OVF b ||| 2 ^ k) b) :
    m.pcOverflow b k c = { v with pmc := { v.pmc with
      wrapped := Tbl.set v.pmc.wrapped (8 * b + k) c
      due := if bit (v.get Reg.PMC.OVF_IRQ_EN b) k && !v.pmc.due.any (fun d => d.1 == b && d.2.1 == k) then v.pmc.due ++ [(b, k, c)]
        else v.pmc.due } } := by
  subst hv
  split
  next hi => exact if_pos hi
  next hi => exact if_neg hi

section Wrap
variable {m u v : Mach} {b k n c : Nat}

theorem Mach.pcAdd_of_low (h : m.pc b k + n < 2 ^ 48) : m.pcAdd b k n c = m.setPc b k (m.pc b k + n) := by
  refine (if_pos h).trans ?_
  rw [Nat.mod_eq_of_lt h]

variable (h : 2 ^ 48 ≤ m.pc b k + n) (hu : u = m.setPc b k ((m.pc b k + n) % 2 ^ 48))
include h hu

theorem Mach.pcAdd_of_carry (hc : m.pcChained b (k + 1) = true) :
    m.pcAdd b k n c = u.setPc b (k + 1) ((u.pc b (k + 1) + (m.pc b k + n) / 2 ^ 48) % 2 ^ 48) := by
  subst hu
  exact (if_neg (Nat.not_lt.2 h)).trans (if_pos hc)

theorem Mach.pcAdd_of_wrap (hv : v = u.put Reg.PMC.OVF (u.get Reg.PMC.OVF b ||| 2 ^ k) b) (hc : m.pcChained b (k + 1) = false) :
    m.pcAdd b k n c = { v with pmc := { v.pmc with
      wrapped := Tbl.set v.pmc.wrapped (8 * b + k) c
      due := if bit (v.get Reg.PMC.OVF_IRQ_EN b) k && !v.pmc.due.any (fun d => d.1 == b && d.2.1 == k) then v.pmc.due ++ [(b, k, c)]
        else v.pmc.due } } := by
  subst hu hv
  exact ((if_neg (Nat.not_lt.2 h)).trans (if_neg (by simp [hc]))).trans (Mach.pcOverflow_eq rfl)

end Wrap

theorem Mach.clearOvf_eq (m : Mach) (b v : Nat) : m.clearOvf b v = (List.range 8).foldl (fun (a : Mach) k =>
    if bit v k = true ∧ Tbl.find m.pmc.wrapped (8 * b + k) ≠ some m.clk then a.put Reg.PMC.OVF (clearBit (a.get Reg.PMC.OVF b) k) b else a) m := by
  simp only [Mach.clearOvf, Bool.and_eq_true, bne_iff_ne]

theorem Mach.postPmi_of_due {m u : Mach} {b k : Nat} {d : Nat × Nat × Nat}
    (h : m.pmc.due.find? (fun d => d.1 == b && d.2.1 == k) = some d)
    (hu : u = { m with pmc := { m.pmc with due := m.pmc.due.filter (fun e => !(e.1 == b && e.2.2 == d.2.2)) } }) :
    m.postPmi b k = if u.get Reg.PMC.PMI_VEC < vectorsOf 0 && u.slotPresent (u.get Reg.PMC.PMI_SLOT) then
      u.interrupt (u.get Reg.PMC.PMI_SLOT) 0 (u.get Reg.PMC.PMI_VEC) else u := by
  subst hu
  simp only [Mach.postPmi, h]

section Overflow
variable {s : State} {b : Nat} {k : Fin 8}

/-- The wrap of counter `k` of bank `b` has an interrupt that is due. -/
theorem Mach.due_any_iff {m : Mach} : m.pmc.due.any (fun d => d.1 == b && d.2.1 == k.val) = true ↔ ∃ c, (b, k.val, c) ∈ m.pmc.due := by
  simp only [List.any_eq_true, Bool.and_eq_true, beq_iff_eq]
  constructor
  · rintro ⟨⟨b', k', c⟩, hd, rfl, rfl⟩
    exact ⟨c, hd⟩
  · rintro ⟨c, hd⟩
    exact ⟨_, hd, rfl, rfl⟩

theorem completes_counterOverflow_of_due {c : Nat} (h : (b, k.val, c) ∈ s.m.pmc.due) : Completes (.counterOverflow b k) s (s.m.postPmi b k) :=
  if_pos (Mach.due_any_iff.2 ⟨c, h⟩)

variable (h : ∀ c, (b, k.val, c) ∉ s.m.pmc.due)
include h

theorem completes_counterOverflow_of_last (hb : b ∈ s.m.pmc.on) (hc : s.m.pcChained b k = false) (hp : s.m.pc b k = 2 ^ 48 - 1) :
    Completes (.counterOverflow b k) s ((s.m.pcAdd b k 1 s.m.clk).postPmi b k) := by
  refine (if_neg fun hd => ?_).trans (if_pos ?_)
  · obtain ⟨c, hc⟩ := Mach.due_any_iff.1 hd
    exact h c hc
  · simp only [Bool.and_eq_true, List.contains_iff_mem, decide_eq_true_iff, Bool.not_eq_true']
    exact ⟨⟨hb, hc⟩, hp⟩

theorem completes_counterOverflow_of_none (hn : b ∉ s.m.pmc.on ∨ s.m.pcChained b k = true ∨ s.m.pc b k ≠ 2 ^ 48 - 1) :
    Completes (.counterOverflow b k) s s.m := by
  refine (if_neg fun hd => ?_).trans (if_neg ?_)
  · obtain ⟨c, hc⟩ := Mach.due_any_iff.1 hd
    exact h c hc
  · simp only [Bool.and_eq_true, List.contains_iff_mem, decide_eq_true_iff, Bool.not_eq_true']
    rintro ⟨⟨hb, hc⟩, hp⟩
    obtain hn | hn | hn := hn
    · exact hn hb
    · simp [hc] at hn
    · exact hn hp

end Overflow

/-! ### Streams -/

section Streams
variable {s : State} {n : Nat}

theorem completes_streamPeriod_of_none (h : Tbl.find s.m.pmc.streams n = none) : Completes (.streamPeriod n) s s.m := by
  change execStreamPeriod n s = _
  simp only [execStreamPeriod, h, ok]

variable {x : Stream} {u : Mach} (h : Tbl.find s.m.pmc.streams n = some x) (hu : u = s.m.elapseTo x.due)
include h hu

theorem completes_streamPeriod_of_no_pd (hp : u.streamPd n x.slot = none) : Completes (.streamPeriod n) s (u.streamEnd n 3) := by
  subst hu
  change execStreamPeriod n s = _
  simp only [execStreamPeriod, h, hp, ok]

variable {p : Pd} {v w z : Mach} (hp : u.streamPd n x.slot = some p)
  (hv : v = if u.get Reg.PMC.STR_BANK n < 36 then u.snapBank (u.get Reg.PMC.STR_BANK n) else u)
  (hw : w = { v with pmc := { v.pmc with streams := Tbl.set v.pmc.streams n { x with seq := x.seq + 1, due := x.due + v.streamCycles n } } })
include hp hv hw

theorem completes_streamPeriod_of_fault {e : XFault} (hf : w.hostAccess (v.streamOp n x p 8 128) = (z, .fault e)) :
    Completes (.streamPeriod n) s (z.streamEnd n 1) := by
  subst hu hv hw
  change execStreamPeriod n s = _
  simp only [execStreamPeriod, h, hp, ok]
  rw [hf]

theorem completes_streamPeriod_of_written {y : Mach} {d e : HostResult} (hb : w.hostAccess (v.streamOp n x p 8 128) = (y, d))
    (hd : ∀ c, d ≠ .fault c) (hh : y.hostAccess (v.streamOp n x p 0 8) = (z, e)) (he : ∀ c, e ≠ .fault c) :
    Completes (.streamPeriod n) s z := by
  subst hu hv hw
  change execStreamPeriod n s = _
  simp only [execStreamPeriod, h, hp, ok]
  rw [hb]
  cases d with
  | fault c => exact absurd rfl (hd c)
  | _ =>
    simp only
    rw [hh]
    cases e with
    | fault c => exact absurd rfl (he c)
    | _ => rfl

end Streams

/-- A write to a register of a stream that runs for another slot is ignored. -/
theorem completes_registerWrite_of_taken {s : State} {r : Requester} {n : Nat} {x : Stream} {v : Word}
    (hn : n = s.m.get Reg.PMC.STR_IDX r.fnKey) (ha : s.m.pathAwake r = true) (hd : s.m.mode.decodes 17 = true)
    (hm : s.m.mode ≠ .lockout) (hr : (s.m.roleOf r).covers .operator = true) (hx : Tbl.find s.m.pmc.streams n = some x)
    (hs : x.slot ≠ r.slotOf) :
    Completes (.registerWrite r 0x1100E4 true v) s ((s.m.ignoreWrite r Reg.PMC.STR_EN v.toNat).put Reg.PMC.STR_ERR 4 n) := by
  have taken : s.m.streamTaken r 0x1100E4 = some n := by
    subst hn
    refine (if_pos (by decide)).trans (if_pos ?_)
    rw [Mach.idx, hx]
    simpa using hs
  have fields : regFields 0x1100E4 = [Reg.PMC.STR_EN, Reg.PMC.STR_BANK, Reg.PMC.STR_PD] := by decide
  refine completes_registerWrite (k := 0) ?_
  have place : decoded 0x1100E4 = 0x1100E4 := by decide
  have window : (0x120000 ≤ 0x1100E4 || !s.m.mode.decodes (0x1100E4 / 65536)) = false := by simp [hd]
  have noActions : actsAt 0x1100E4 = false := by decide
  simp only [State.regWrite, Mach.wakeFor_awake ha, hm, place, window, fields, taken, noActions, hr, Bool.false_eq_true, if_false, if_true]
  rfl

/-- Settles O56: the actions by their writes, the rest by the lemma on the operation at the branch that the hypotheses choose. -/
theorem countersAreSnapshotClearedAndStreamed : Obligations.CountersAreSnapshotClearedAndStreamed := by
  refine ⟨fun s r b => ⟨fun h => congrArg (ok s) (Mach.action_passes h 1 _), fun h => congrArg (ok s) (Mach.action_passes h 1 _),
      fun u h hu => hu ▸ congrArg (ok s) (Mach.action_passes h 1 _), fun h => congrArg (ok s) (Mach.action_passes h 1 _)⟩,
    fun m b => rfl, fun s t u => ⟨completes_armedSnapshot_of_none, completes_armedSnapshot_of_armed⟩,
    fun s b k => ⟨fun c => completes_counterOverflow_of_due, completes_counterOverflow_of_last, completes_counterOverflow_of_none⟩,
    fun m b k n c => ⟨Mach.pcAdd_of_low, fun h u v hu hv => ⟨Mach.pcAdd_of_wrap h hu hv, Mach.pcAdd_of_carry h hu⟩⟩,
    fun m b v => m.clearOvf_eq b v, fun m u b k d => Mach.postPmi_of_due, fun s n => completes_streamPeriod_of_none,
    fun s n x u h hu => ⟨completes_streamPeriod_of_no_pd h hu, fun p v w op hp hv hw hop => ?stream⟩, fun m n seq b hb => ?record,
    fun s r n x v => completes_registerWrite_of_taken⟩
  case record =>
    subst hb
    rw [Mach.streamRecord]
  case stream =>
    have ops : op = v.streamOp n x p := hop
    rw [ops]
    exact ⟨fun z e => completes_streamPeriod_of_fault h hu hp hv hw, fun y z d e hb hd => completes_streamPeriod_of_written h hu hp hv hw hb hd⟩

end Sys2Proof.Machine
end
